-- ==== Sys2Proof/Word.lean ====
section
/-! DEFINITION. The word types of the C8 (00 R6, 03 R87): bytes, 32-bit registers, 64-bit scalar registers.
Nothing here computes: every operation on words stands under Machine/. -/
namespace Sys2Proof

/-- One byte of any memory (Table 2.2, Table 16.1). -/
abbrev Byte := BitVec 8

/-- The value of a register: every register is 32 bits wide (R6). -/
abbrev Reg32 := BitVec 32

/-- The value of a scalar register of a sequencer (R87), and a fabric address (R35). -/
abbrev Word := BitVec 64

end Sys2Proof
end

