-- ==== Sys2Proof/Syntax.lean ====
section
/-! DEFINITION. The commands of the block: one constructor of `Instr` per row of spec/opcode_table.json.
The table gives no row any bits; the operands here are what the row's rule in spec/ names. -/
namespace Sys2Proof

/-- The header of a remote memory operation (Table 2.4), without its opcode byte, which is the row itself.
The target address is the one on the wire, after the translation of R37. -/
structure Hdr where
  addr : Word
  prio : BitVec 4
  mc : Bool
  unord : Bool
  srcUnit : BitVec 8
  srcChain : BitVec 4
  len : BitVec 13
  tctr : BitVec 12
  seq : BitVec 16
  stream : BitVec 16
  tinc : BitVec 16
  rctr : BitVec 12
  raddr : Word
  deriving DecidableEq, Repr

/-- A scalar instruction's fields (Table 3.4); `rsv` is the reserved field [38:32]. -/
structure ScalarF where
  xd : BitVec 5
  xa : BitVec 5
  xb : BitVec 5
  rsv : BitVec 7
  imm : BitVec 32
  deriving DecidableEq, Repr

/-- An issue instruction's fields (Table 3.6); `rsv` is the reserved field [24:16]. -/
structure IssueF where
  queue : BitVec 12
  xdesc : BitVec 5
  tctr : BitVec 12
  rsv : BitVec 9
  doff : BitVec 16
  deriving DecidableEq, Repr

/-- A sync instruction's fields (Table 3.8). -/
structure SyncF where
  xa : BitVec 5
  tctr : BitVec 12
  xd : BitVec 5
  imm : BitVec 32
  deriving DecidableEq, Repr


/-- A direct vector instruction's fields below OP (Table 7.4). -/
structure DirectF where
  vd : BitVec 6
  va : BitVec 6
  vb : BitVec 6
  fmt : BitVec 4
  rnd : BitVec 2
  sat : Bool
  sumen : Bool
  slot : BitVec 3
  ten : Bool
  tctr : BitVec 12
  xa : BitVec 5
  imm : BitVec 7
  deriving DecidableEq, Repr


/-- What the self-tests of a start-up find (Table 20.2, R527): the tests that fail, the first unit to fail in a test that acts on units, the
ledger copies that fail their test or format, and the image-cache copies that fail R532. -/
structure Tests where
  fail : BitVec 8
  unit : BitVec 8
  led : BitVec 2
  cache : BitVec 2
  deriving DecidableEq, Repr


/-- The commands of the block: one constructor per row of spec/opcode_table.json, in the table's order. -/
inductive Instr where
  /-- PUT (R44). A PUT operation reaching its target writes LEN bytes at ADDR, after ingress credit, stream and pair checks. -/
  | put (h : Hdr) (payload : List Byte)
  /-- GET (R47). A GET reads LEN bytes at its target and sends them back as a PUT_SIGNAL to RADDR. -/
  | get (h : Hdr)
  /-- PUT_SIGNAL (R53). A PUT_SIGNAL writes its payload and then adds TINC to token counter TCTR once the bytes are visible. -/
  | putSignal (h : Hdr) (payload : List Byte)
  /-- SIGNAL (R44). A SIGNAL adds TINC to token counter TCTR at its target. -/
  | signal (h : Hdr)
  /-- ATOMIC_ADD (R45). An ATOMIC_ADD adds a two's-complement addend to the aligned integer at ADDR. -/
  | atomicAdd (h : Hdr) (payload : List Byte)
  /-- FETCH_ADD (R45). A FETCH_ADD adds the addend and returns the old value to RADDR. -/
  | fetchAdd (h : Hdr) (payload : List Byte)
  /-- CAS (R45). A CAS writes the new value if the word equals the compare value, and returns the old value. -/
  | cas (h : Hdr) (payload : List Byte)
  /-- ORDERED_FADD (R68). An ORDERED_FADD is applied, held in the reorder window, or refused with ORDER, according to its block sequence against NEXT_SEQ. -/
  | orderedFadd (h : Hdr) (payload : List Byte)
  /-- ORDERED_FADD_RELEASE (R68). A held ORDERED_FADD is applied once every earlier sequence of its stream has been applied. -/
  | orderedFaddRelease (unit : BitVec 8) (stream : BitVec 16)
  /-- RETURN_DELIVERY (R47). The return of a GET, FETCH_ADD or CAS arrives at the return unit, is written and increments RCTR, or fails and sends an error response to the requester. -/
  | returnDelivery (src : BitVec 12) (dst : BitVec 8) (stream : BitVec 16)
  /-- ERROR_RESPONSE (R79). An error response reaches the source unit, which records the failure and completes the issuing descriptor in error. -/
  | errorResponse (unit : BitVec 8) (far : Bool) (stream : BitVec 16) (cause : BitVec 4)
  /-- CREDIT_RETURN (R54). The target drains an operation from its ingress buffer and returns the credits to the source. -/
  | creditReturn (unit : BitVec 12) (stream : BitVec 16)
  /-- FABRIC_OP_ISSUE (R54). A source issues a waiting operation once the target has granted enough credits for its stream. -/
  | fabricOpIssue (unit : BitVec 8) (queue : BitVec 14)
  /-- STALL (R63). An operation at the head of an issuing queue has waited 65,536 NCLK cycles for credits, so STALL is raised and logged. -/
  | stall (unit : BitVec 8) (queue : BitVec 14)
  /-- MCAST_SLOW (R77). A multicast operation has waited longer than THRESH × 16 NCLK cycles, so the group's bit in FAB_MCG_STATUS is set. -/
  | mcastSlow (group : Fin 32)
  /-- PRIORITY_AGING (R73). A waiting operation gains one fabric priority level after each 4,096 NCLK cycles, up to 14. -/
  | priorityAging (unit : BitVec 8) (queue : BitVec 14)
  /-- FAB_CRD_W0_WRITE (R58). A write to FAB_CRD_k_W0 sets the stream and NEXT_SEQ, and has no effect while the entry is VALID. -/
  | fabCrdW0Write (src : BitVec 8) (unit : BitVec 8) (k : BitVec 10) (v : Reg32)
  /-- FAB_CRD_W1_WRITE (R58). A write to FAB_CRD_k_W1 registers a stream, or deregisters it and fails the ORDERED_FADD operations it holds. -/
  | fabCrdW1Write (src : BitVec 8) (unit : BitVec 8) (k : BitVec 10) (v : Reg32)
  /-- CLOCK_WAKE (R547). An access to a stopped clock domain raises a wake request and completes once the clock runs. -/
  | clockWake (unit : BitVec 8) (st : Fin 4)
  /-- ADD (R93). Scalar ADD sets XD to XA + XB + IMM. -/
  | scAdd (e : Fin 8) (f : ScalarF)
  /-- SUB (R93). Scalar SUB sets XD to XA − XB. -/
  | scSub (e : Fin 8) (f : ScalarF)
  /-- AND (R93). Scalar AND sets XD to XA AND (XB or IMM). -/
  | scAnd (e : Fin 8) (f : ScalarF)
  /-- OR (R93). Scalar OR sets XD to XA OR (XB or IMM). -/
  | scOr (e : Fin 8) (f : ScalarF)
  /-- XOR (R93). Scalar XOR sets XD to XA XOR (XB or IMM). -/
  | scXor (e : Fin 8) (f : ScalarF)
  /-- SHL (R93). Scalar SHL shifts XA left by (XB + IMM) mod 64. -/
  | scShl (e : Fin 8) (f : ScalarF)
  /-- SHR (R93). Scalar SHR shifts XA right logically by (XB + IMM) mod 64. -/
  | scShr (e : Fin 8) (f : ScalarF)
  /-- SRA (R93). Scalar SRA shifts XA right arithmetically by (XB + IMM) mod 64. -/
  | scSra (e : Fin 8) (f : ScalarF)
  /-- MUL (R93). Scalar MUL sets XD to the low 64 bits of XA × XB. -/
  | scMul (e : Fin 8) (f : ScalarF)
  /-- MOVHI (R93). MOVHI sets XD[63:32] to the zero-extended IMM and leaves XD[31:0] unchanged. -/
  | scMovhi (e : Fin 8) (f : ScalarF)
  /-- SLT (R93). SLT sets XD to 1 if XA < XB as signed values, else 0. -/
  | scSlt (e : Fin 8) (f : ScalarF)
  /-- SLTU (R93). SLTU sets XD to 1 if XA < XB as unsigned values, else 0. -/
  | scSltu (e : Fin 8) (f : ScalarF)
  /-- SEQ (R93). SEQ sets XD to 1 if XA equals XB, else 0. -/
  | scSeq (e : Fin 8) (f : ScalarF)
  /-- LD (R94). LD loads 8 bytes from the scratchpad into XD, or traps. -/
  | scLd (e : Fin 8) (f : ScalarF)
  /-- ST (R94). ST stores XB to the scratchpad or to the engine's own PRISM_FG_n registers, or traps. -/
  | scSt (e : Fin 8) (f : ScalarF)
  /-- B (R93). B branches unconditionally by 8 × IMM. -/
  | scB (e : Fin 8) (f : ScalarF)
  /-- BEQ (R93). BEQ branches if XA equals XB. -/
  | scBeq (e : Fin 8) (f : ScalarF)
  /-- BNE (R93). BNE branches if XA differs from XB. -/
  | scBne (e : Fin 8) (f : ScalarF)
  /-- BLT (R93). BLT branches if XA < XB as signed values. -/
  | scBlt (e : Fin 8) (f : ScalarF)
  /-- BGE (R93). BGE branches if XA ≥ XB as signed values. -/
  | scBge (e : Fin 8) (f : ScalarF)
  /-- MOVSUM (R93). MOVSUM copies one field of a summary slot into XD. -/
  | scMovsum (e : Fin 8) (f : ScalarF)
  /-- BSUM (R95). BSUM branches on a test of a summary slot's fields. -/
  | scBsum (e : Fin 8) (f : ScalarF)
  /-- STREAM_ISSUE (R97). ISSUE of the stream class copies a descriptor into a stream queue, or traps with QUEUE or DESC_RANGE. -/
  | streamIssue (e : Fin 8) (f : IssueF)
  /-- ARRAY_ISSUE (R96). ISSUE of the array class copies a descriptor into the array queue. -/
  | arrayIssue (e : Fin 8) (f : IssueF)
  /-- VECTOR_ISSUE (R206). ISSUE of the vector class copies a descriptor into a pipe queue or the Collimator queue. -/
  | vectorIssue (e : Fin 8) (f : IssueF)
  /-- SIGNAL_ISSUE (R239). ISSUE of the signal class copies a PROGRAM descriptor into the signal-lane queue. -/
  | signalIssue (e : Fin 8) (f : IssueF)
  /-- ISSUE_STALL_RELEASE (R98). An ISSUE stalled on a full queue proceeds once the queue has room. -/
  | issueStallRelease (e : Fin 8)
  /-- WAIT (R101). WAIT waits until a token counter reaches its threshold. -/
  | syWait (e : Fin 8) (f : SyncF)
  /-- WAITT (R101). WAITT waits for a threshold with a cycle limit. -/
  | syWaitt (e : Fin 8) (f : SyncF)
  /-- WAIT_SATISFIED (R103). The threshold of a waiting WAIT or WAITT is reached, and the next instruction issues 4 cycles later. -/
  | waitSatisfied (e : Fin 8)
  /-- WAITT_GIVE_UP (R103). A WAITT reaches its cycle limit without the threshold, sets XD to 1 and counts a DYN_CHOICE. -/
  | waittGiveUp (e : Fin 8)
  /-- FENCE (R101). FENCE waits until every descriptor that the command has issued has completed. -/
  | syFence (e : Fin 8) (f : SyncF)
  /-- FENCE_RELEASE (R101). The last outstanding descriptor completes and a waiting FENCE or END proceeds. -/
  | fenceRelease (e : Fin 8)
  /-- SIG (R104). SIG sends a fabric SIGNAL to a counter of the named unit. -/
  | sySig (e : Fin 8) (f : SyncF)
  /-- WAITDB (R101). WAITDB waits for a raised, unmasked doorbell bit. -/
  | syWaitdb (e : Fin 8) (f : SyncF)
  /-- WAITDB_WAKE (R101). A doorbell bit is raised and unmasked, so the waiting WAITDB writes the bits to XD and clears them. -/
  | waitdbWake (e : Fin 8)
  /-- SEQ_NOP (R101). The sync NOP has no effect. -/
  | syNop (e : Fin 8) (f : SyncF)
  /-- END (R108). END waits as FENCE does, then ends the command, returns the engine to IDLE and reports to the anchor. -/
  | syEnd (e : Fin 8) (f : SyncF)
  /-- TRAP (R112). The TRAP instruction traps with cause SOFT and its immediate as detail. -/
  | syTrap (e : Fin 8) (f : SyncF)
  /-- TRAP_ABORT_END (R112). The abort after a trap ends and the command completes with the status of Table 3.10. -/
  | trapAbortEnd (e : Fin 8)
  /-- OVERBLOCK (R105). ENG_BLOCK_CYC exceeds ENG_BLOCK_LIMIT during a wait, so OVERBLOCK is set and the anchor is signalled. -/
  | overblock (e : Fin 8)
  /-- ENG_RUN (R106). A write of ENG_CTL.RUN starts a command or resumes a halted sequencer. -/
  | engRun (src : BitVec 8) (e : Fin 8)
  /-- ENG_HALT (R109). A write of ENG_CTL.HALT stops the sequencer after the instruction in progress, abandoning a waiting instruction. -/
  | engHalt (src : BitVec 8) (e : Fin 8)
  /-- ENG_KILL (R110). A write of ENG_CTL.KILL stops the sequencer, discards or aborts descriptors and enters KILLING. -/
  | engKill (src : BitVec 8) (e : Fin 8)
  /-- KILL_COMPLETE (R110). Every unit has acknowledged a kill, so the engine moves from KILLING or TRAPPED to IDLE and the command completes with KILLED. -/
  | killComplete (e : Fin 8)
  /-- MATMUL (R164). A MATMUL descriptor starts, checks its fields, loads tiles and streams weight rows through the selected arrays. -/
  | matmul (e : Fin 8)
  /-- MATMUL_COMPLETE (R165). The last result row of a MATMUL is written and its completion increment is applied one cycle later. -/
  | matmulComplete (e : Fin 8) (k : BitVec 6)
  /-- DRAIN (R168). A DRAIN descriptor starts and converts accumulator rows to the scratchpad through R134. -/
  | drain (e : Fin 8)
  /-- DRAIN_COMPLETE (R168). A DRAIN writes its last output row and applies its completion increment. -/
  | drainComplete (e : Fin 8) (k : BitVec 6)
  /-- ARR_CLR_CLAMP (R177). A write of ARR_CLR with CLAMP sets the conversion-clamp count of the named arrays to 0. -/
  | arrClrClamp (src : BitVec 8) (e : Fin 8) (all : Bool) (a : Fin 64)
  /-- ARR_CLR_FLAGS (R176). A write of ARR_CLR with FLAGS clears NONFINITE, SAT and ARR_a_NF_POS of the named arrays. -/
  | arrClrFlags (src : BitVec 8) (e : Fin 8) (all : Bool) (a : Fin 64)
  /-- PAIR_CTL_WRITE (R185). A write of ENG_PAIR_n_CTL sets both stream ranks to 0, clears HALTED and sets the entry's check parameters. -/
  | pairCtlWrite (src : BitVec 8) (e : Fin 8) (n : Fin 16) (v : Reg32)
  /-- VEC_QNT_CLR (R204). A write of VEC_QNT_CLR.CLR sets the four quantiser counts to 0. -/
  | vecQntClr (src : BitVec 8) (e : Fin 8)
  /-- VEC_ADD (R211). Direct vector ADD adds two registers element by element. -/
  | vecAdd (e : Fin 8) (f : DirectF)
  /-- VEC_SUB (R211). Direct vector SUB subtracts element by element. -/
  | vecSub (e : Fin 8) (f : DirectF)
  /-- VEC_MUL (R211). Direct vector MUL multiplies element by element. -/
  | vecMul (e : Fin 8) (f : DirectF)
  /-- VEC_FMA (R211). Direct vector FMA computes A × B + C with one rounding. -/
  | vecFma (e : Fin 8) (f : DirectF)
  /-- VEC_MIN (R211). Direct vector MIN takes the IEEE minimum of each element pair. -/
  | vecMin (e : Fin 8) (f : DirectF)
  /-- VEC_MAX (R211). Direct vector MAX takes the IEEE maximum of each element pair. -/
  | vecMax (e : Fin 8) (f : DirectF)
  /-- VEC_ABS (R211). Direct vector ABS takes the absolute value of each element. -/
  | vecAbs (e : Fin 8) (f : DirectF)
  /-- VEC_NEG (R211). Direct vector NEG negates each element. -/
  | vecNeg (e : Fin 8) (f : DirectF)
  /-- VEC_CEQ (R211). Direct vector CEQ compares each element pair for equality. -/
  | vecCeq (e : Fin 8) (f : DirectF)
  /-- VEC_CLT (R211). Direct vector CLT compares each element pair for less than. -/
  | vecClt (e : Fin 8) (f : DirectF)
  /-- VEC_CLE (R211). Direct vector CLE compares each element pair for less than or equal. -/
  | vecCle (e : Fin 8) (f : DirectF)
  /-- VEC_SEL (R211). Direct vector SEL selects A where C is nonzero, else B. -/
  | vecSel (e : Fin 8) (f : DirectF)
  /-- VEC_AND (R211). Direct vector AND is a bitwise AND of integer elements. -/
  | vecAnd (e : Fin 8) (f : DirectF)
  /-- VEC_OR (R211). Direct vector OR is a bitwise OR of integer elements. -/
  | vecOr (e : Fin 8) (f : DirectF)
  /-- VEC_XOR (R211). Direct vector XOR is a bitwise XOR of integer elements. -/
  | vecXor (e : Fin 8) (f : DirectF)
  /-- VEC_SHL (R211). Direct vector SHL shifts integer elements left. -/
  | vecShl (e : Fin 8) (f : DirectF)
  /-- VEC_SHR (R211). Direct vector SHR shifts integer elements right arithmetically. -/
  | vecShr (e : Fin 8) (f : DirectF)
  /-- CVT (R142). Direct vector CVT converts elements from the source format to FMT. -/
  | cvt (e : Fin 8) (f : DirectF)
  /-- SCALB (R211). Direct vector SCALB computes A × 2^B with one rounding. -/
  | scalb (e : Fin 8) (f : DirectF)
  /-- RECIP (R219). Direct vector RECIP applies the reciprocal recipe. -/
  | recip (e : Fin 8) (f : DirectF)
  /-- RSQRT (R219). Direct vector RSQRT applies the reciprocal square-root recipe. -/
  | rsqrt (e : Fin 8) (f : DirectF)
  /-- SQRT (R219). Direct vector SQRT applies the square-root recipe. -/
  | sqrt (e : Fin 8) (f : DirectF)
  /-- EXP (R219). Direct vector EXP applies the exponential recipe. -/
  | exp (e : Fin 8) (f : DirectF)
  /-- LOG (R219). Direct vector LOG applies the logarithm recipe. -/
  | log (e : Fin 8) (f : DirectF)
  /-- SIN (R219). Direct vector SIN applies the sine recipe. -/
  | sin (e : Fin 8) (f : DirectF)
  /-- COS (R219). Direct vector COS applies the cosine recipe. -/
  | cos (e : Fin 8) (f : DirectF)
  /-- ATAN2 (R219). Direct vector ATAN2 applies the atan2 recipe. -/
  | atan2 (e : Fin 8) (f : DirectF)
  /-- VBCAST (R215). VBCAST broadcasts a scalar register to elements 0 to n − 1 of VD. -/
  | vbcast (e : Fin 8) (f : DirectF)
  /-- VLD (R215). VLD loads 512 bytes of scratchpad into a vector register. -/
  | vld (e : Fin 8) (f : DirectF)
  /-- VST (R215). VST stores a vector register to 512 bytes of scratchpad. -/
  | vst (e : Fin 8) (f : DirectF)
  /-- VLDT (R215). VLDT loads a 4 KiB tile register from the scratchpad. -/
  | vldt (e : Fin 8) (f : DirectF)
  /-- VSTT (R215). VSTT stores a tile register to 4 KiB of scratchpad. -/
  | vstt (e : Fin 8) (f : DirectF)
  /-- VTGET (R215). VTGET copies a tile row or column into a vector register. -/
  | vtget (e : Fin 8) (f : DirectF)
  /-- VTPUT (R215). VTPUT writes a vector into a tile row or column. -/
  | vtput (e : Fin 8) (f : DirectF)
  /-- VPERM (R220). VPERM permutes elements by clamped indices. -/
  | vperm (e : Fin 8) (f : DirectF)
  /-- VGATHER (R221). VGATHER reads scratchpad elements at clamped indices. -/
  | vgather (e : Fin 8) (f : DirectF)
  /-- VSCATTER (R222). VSCATTER writes elements to indexed scratchpad locations and drops out-of-bound lanes. -/
  | vscatter (e : Fin 8) (f : DirectF)
  /-- VREDT (R223). VREDT reduces a tile along one axis through the fixed tree. -/
  | vredt (e : Fin 8) (f : DirectF)
  /-- VSUMM (R226). VSUMM writes the summary of a register's elements to a summary slot. -/
  | vsumm (e : Fin 8) (f : DirectF)
  /-- VSETVL (R215). VSETVL sets VL. -/
  | vsetvl (e : Fin 8) (f : DirectF)
  /-- VSETBND (R215). VSETBND sets VBOUND. -/
  | vsetbnd (e : Fin 8) (f : DirectF)
  /-- VSETSR (R215). VSETSR sets SRBASE. -/
  | vsetsr (e : Fin 8) (f : DirectF)
  /-- DIRECT_INSTR_COMPLETE (R216). A direct vector instruction's latency ends and its completion increment is applied. -/
  | directInstrComplete (e : Fin 8) (k : BitVec 6)
  /-- ELEMENT_PROGRAM (R218). A KIND 0x1 descriptor runs an element program over COUNT element positions. -/
  | elementProgram (e : Fin 8) (p : Fin 4)
  /-- REDUCE (R225). A KIND 0x2 descriptor reduces NT tiles through the fixed tree. -/
  | reduce (e : Fin 8) (p : Fin 5)
  /-- BQUANT (R227). BQUANT writes block-scaled data blocks and their scale records. -/
  | bquant (e : Fin 8) (p : Fin 4)
  /-- CQUANT (R227). CQUANT writes INT8 codes and one channel record per channel. -/
  | cquant (e : Fin 8) (p : Fin 4)
  /-- DEQUANT (R227). DEQUANT checks scale records and writes dequantised wide values. -/
  | dequant (e : Fin 8) (p : Fin 4)
  /-- QACC (R227). QACC dequantises in place, forms ALPHA × d + BETA × a and requantises. -/
  | qacc (e : Fin 8) (p : Fin 4)
  /-- VECTOR_DESC_COMPLETE (R99). A pipe descriptor ends, normally or in error, and its completion increment is applied or withheld. -/
  | vectorDescComplete (e : Fin 8) (p : Fin 4) (k : BitVec 6)
  /-- CRC (R228). Collimator CRC computes the CRC-32C of a memory range. -/
  | crc (e : Fin 8)
  /-- SUM64 (R228). Collimator SUM64 sums the 64-bit words of a memory range. -/
  | sum64 (e : Fin 8)
  /-- FILL (R228). Collimator FILL writes a pattern over a memory range. -/
  | fill (e : Fin 8)
  /-- COMPARE (R228). Collimator COMPARE counts differing 64-bit words of two ranges and records the first. -/
  | compare (e : Fin 8)
  /-- COLLIMATOR_COMPLETE (R228). A Collimator item ends and writes its result and completion increment. -/
  | collimatorComplete (e : Fin 8) (k : BitVec 6)
  /-- VEC_CNT_CLR (R231). A write of VEC_CNT_CLR.CLR sets the clamp, drop and saturation counts to 0. -/
  | vecCntClr (src : BitVec 8) (e : Fin 8)
  /-- PROGRAM (R243). A signal-lane PROGRAM descriptor starts and runs its ops under four levels of hardware loop. -/
  | program (e : Fin 8)
  /-- PROGRAM_COMPLETE (R245). The last op of a PROGRAM executes and its completion increment is applied 5 cycles later. -/
  | programComplete (e : Fin 8)
  /-- LOAD (R257). A streamer LOAD reads a source view through Prism into a scratchpad layout. -/
  | load (e : Fin 8) (q : BitVec 10)
  /-- STORE (R276). A streamer STORE reads a local source and sends it as PUT or PUT_SIGNAL operations. -/
  | store (e : Fin 8) (q : BitVec 10)
  /-- PLOAD (R267). A PLOAD moves paired data blocks and scale records into the scratchpad and checks the records. -/
  | pload (e : Fin 8) (q : BitVec 10)
  /-- PSTORE (R268). A PSTORE checks and sends paired data blocks and scale records. -/
  | pstore (e : Fin 8) (q : BitVec 10)
  /-- RMO (R269). An RMO descriptor issues exactly one remote operation of Table 2.5. -/
  | rmo (e : Fin 8) (q : BitVec 10)
  /-- STREAM_DESC_COMPLETE (R252). A streamer descriptor's last write or credit return arrives and its completion increment is applied in queue order. -/
  | streamDescComplete (e : Fin 8) (q : BitVec 10)
  /-- QUEUE_AGING (R273). A stream queue with a ready operation has issued none for STRM_AGE.INTERVAL cycles and rises one effective level. -/
  | queueAging (e : Fin 8) (q : BitVec 10)
  /-- PRISM_CNT_CLR (R280). A write of PRISM_CNT_CLR.CLR sets the Prism counts and STRM_MERGE_CNT to 0. -/
  | prismCntClr (src : BitVec 8) (e : Fin 8)
  /-- CARRIER_CFG (R377). CARRIER_CFG checks and copies a carrier descriptor and its eAxC map, and registers the streams. -/
  | carrierCfg (pair : BitVec 16)
  /-- CARRIER_SWITCH (R283). At the first slot boundary after the in-flight slots are published, the new descriptor takes effect and CARRIER_CFG completes. -/
  | carrierSwitch (c : Fin 24)
  /-- BLOCK_DELIVERY (R286). A fronthaul port delivers one 64-PRB block of a symbol as a PUT_SIGNAL to the owning engine. -/
  | blockDelivery (port : Fin 16)
  /-- RX_WINDOW_CLOSE (R287). A symbol's receive window closes, so the port delivers its remaining blocks zero-filled and records them as missing. -/
  | rxWindowClose (c : Fin 24) (n : BitVec 64) (sym : Fin 14)
  /-- UL_SLOT (R293). An uplink slot request is checked and scheduled for its slot, or refused as late. -/
  | ulSlot (pair : BitVec 16)
  /-- DL_SLOT (R304). A downlink slot request is checked and scheduled for its TX trigger. -/
  | dlSlot (pair : BitVec 16)
  /-- EST (R295). At its trigger the anchor starts EST on the owning engine for DMRS, estimation and covariance. -/
  | est (e : Fin 8)
  /-- EQ (R295). At its trigger the anchor starts EQ_g on the owning engine for equalisation and demapping of a symbol group. -/
  | eq (e : Fin 8)
  /-- DEC (R295). At the EST trigger the anchor starts DEC on the partition's Facet decoders. -/
  | dec (e : Fin 8)
  /-- STAGE_RERUN (R297). A stage command killed for a fault is re-run from the committed outputs of the earlier stages. -/
  | stageRerun
  /-- SLOT_PUBLISH (R296). The last stage command of a slot ends, so the anchor commits the slot result, HARQ state and capture states and writes the completion entry. -/
  | slotPublish (e : Fin 8) (k : BitVec 64)
  /-- TX (R304). At its trigger the TX command builds the downlink samples of a slot. -/
  | tx (e : Fin 8)
  /-- CPLANE_SEND (R473). The port sends the C-plane messages of a slot by CP_ADVANCE before its air start. -/
  | cplaneSend (c : Fin 24) (n : BitVec 64)
  /-- UPLANE_SEND (R305). The port sends a downlink symbol's U-plane within its transmit window, or drops it if incomplete. -/
  | uplaneSend (c : Fin 24) (n : BitVec 64) (ant : Fin 16) (sym : Fin 14) (complete : Bool)
  /-- DL_SLOT_COMPLETE (R307). The last U-plane frame of a downlink slot leaves the port and the request completes. -/
  | dlSlotComplete (c : Fin 24) (n : BitVec 64)
  /-- FACET_FETCH (R309). A Facet queue becomes ready and the decoder fetches its next descriptor by GET, applying the LIMIT check. -/
  | facetFetch (f : Fin 8)
  /-- LDPC_DEC (R320). LDPC_DEC de-rate-matches, combines and decodes one code block with learned weights. -/
  | ldpcDec (f : Fin 8)
  /-- LDPC_ENC (R330). LDPC_ENC attaches a CRC and encodes and rate-matches one code block. -/
  | ldpcEnc (f : Fin 8)
  /-- POLAR_DEC (R329). POLAR_DEC decodes a UCI polar code with a list of 8. -/
  | polarDec (f : Fin 8)
  /-- POLAR_ENC (R330). POLAR_ENC encodes DCI or PBCH with CRC24C. -/
  | polarEnc (f : Fin 8)
  /-- TBCRC (R311). TBCRC checks or generates a transport-block CRC. -/
  | tbcrc (f : Fin 8)
  /-- FACET_STATUS_RECORD (R314). A Facet descriptor ends and its status record is written once every output credit has returned. -/
  | facetStatusRecord (f : Fin 8)
  /-- FACET_AGING (R310). A ready Facet queue rises one effective level after each FCT_AGE interval. -/
  | facetAging (f : Fin 8) (q : BitVec 5)
  /-- FCT_FLUSH (R334). A write of FCT_CTL with FLUSH discards a queue's descriptors and stops its code block. -/
  | fctFlush (src : BitVec 8) (f : Fin 8) (q : BitVec 5)
  /-- FCT_CNT_CLR (R335). A write of FCT_CNT_CLR.CLR sets the three Facet counts to 0. -/
  | fctCntClr (src : BitVec 8) (f : Fin 8)
  /-- LOAD_WEIGHTS (R328). LOAD_WEIGHTS checks a weight collection image, or reverts to the previous collection. -/
  | loadWeights (pair : BitVec 16)
  /-- WEIGHTS_COMMIT (R328). Once no slot names the old half, the anchor builds the directory, writes the ledger record and makes it current. -/
  | weightsCommit (p : Fin 8)
  /-- SHADOW_CONFIG (R344). SHADOW_CONFIG sets the cap, capture stride, trial parameters and capture ring of a carrier group. -/
  | shadowConfig (pair : BitVec 16)
  /-- SHADOW_CAP_WINDOW (R343). A 1 ms metering window of SHADOW array cycles ends and the next window's budget is set. -/
  | shadowCapWindow
  /-- NET_TRIAL (R345). NET_TRIAL checks and copies a candidate set and starts a trial, or aborts the running trial. -/
  | netTrial (pair : BitVec 16)
  /-- TRIAL_DECIDE (R347). GUARD slots have been evaluated, so the trial compares the metrics and promotes or rolls back. -/
  | trialDecide (e : Fin 8)
  /-- TRIAL_TIMEOUT (R348). TMAX slots have elapsed without a decision, so the trial ends with ROLLBACK and TIMEOUT. -/
  | trialTimeout (e : Fin 8)
  /-- NET_ROLLBACK (R350). NET_ROLLBACK ends any running trial and swaps the current and previous network sets. -/
  | netRollback (pair : BitVec 16)
  /-- Q_TAIL_WRITE (R366). The host writes Q_p_TAIL, which is taken unless it would overrun the ring. -/
  | qTailWrite (pair : BitVec 11) (v : Reg32)
  /-- COMMAND_ACCEPT (R364). The anchor reads the next command entry and accepts it with an ACCEPT record, or stops the pair on SEQERR. -/
  | commandAccept (pair : BitVec 11)
  /-- Q_CHEAD_WRITE (R366). The host writes Q_p_CHEAD to free completion entries. -/
  | qCheadWrite (pair : BitVec 11) (v : Reg32)
  /-- RESUME (R364). A write of Q_p_CTL.RESUME clears SEQERR and rereads the entry. -/
  | resume (pair : BitVec 11)
  /-- Q_ADM_ENABLE (R375). A write of Q_ADM_CTL.EN builds or removes pair 0 from Q_ADM_PARAM. -/
  | qAdmEnable (en : Bool)
  /-- COMPLETION_WRITE (R371). A held completion is written to the completion ring as room appears, with MSI-X if requested. -/
  | completionWrite (pair : BitVec 11)
  /-- NOP (R373). The NOP command completes with OK. -/
  | nop (pair : BitVec 16)
  /-- QUEUE_CONFIG (R376). QUEUE_CONFIG sets or deletes a host queue pair. -/
  | queueConfig (pair : BitVec 16)
  /-- WINDOW_OPEN (R359). WINDOW_OPEN opens or replaces a compute-die window in BAR2. -/
  | windowOpen (pair : BitVec 16)
  /-- WINDOW_CLOSE (R359). WINDOW_CLOSE closes a window once its accesses have completed. -/
  | windowClose (pair : BitVec 16)
  /-- WINDOW_READ (R357). A host read through an open window becomes GET operations from unit 0x62, or is a miss returning zeros. -/
  | windowRead (o : BitVec 64) (len : BitVec 13)
  /-- WINDOW_WRITE (R357). A host write through an open window becomes PUT operations, or is discarded as a miss or denial. -/
  | windowWrite (o : BitVec 64) (data : List Byte)
  /-- MBX_POST (R379). A write of MBX_n_CTL.GO posts a message, records SRCUNIT and raises the doorbell bit. -/
  | mbxPost (src : BitVec 8) (unit : BitVec 8) (n : Fin 32)
  /-- MBX_ACK (R380). A write of MBX_n_ACK stores the code, clears GO and sends the notify SIGNAL if enabled. -/
  | mbxAck (src : BitVec 8) (unit : BitVec 8) (n : Fin 32) (v : Reg32)
  /-- DB_SET (R381). A write of DB_SET raises doorbell bits and, for host mailboxes, MSI-X vector 0. -/
  | dbSet (src : BitVec 8) (unit : BitVec 8) (v : Reg32)
  /-- PART_CREATE (R382). PART_CREATE creates a partition with its engines, decoders, HBM and Pool shares. -/
  | partCreate (pair : BitVec 16)
  /-- PART_DESTROY (R384). PART_DESTROY releases a partition's resources. -/
  | partDestroy (pair : BitVec 16)
  /-- JOB_LOAD (R386). JOB_LOAD checks, signs, admits and makes a job image resident. -/
  | jobLoad (pair : BitVec 16)
  /-- JOB_CMD (R388). JOB_CMD runs one command entry of a resident job on its engines. -/
  | jobCmd (pair : BitVec 16)
  /-- JOB_UNLOAD (R387). JOB_UNLOAD ends a job's residency. -/
  | jobUnload (pair : BitVec 16)
  /-- JOB_ABORT (R398). JOB_ABORT kills the job's running and accepted commands. -/
  | jobAbort (pair : BitVec 16)
  /-- COMMAND_START (R392). The anchor starts the next command of the running job on free engines, writing the context block and ENG_CTL.RUN. -/
  | commandStart (p : Fin 8)
  /-- COMMAND_COMMIT (R391). END completes on every engine and every Facet status is written, so the anchor writes and applies the COMMIT record and the completion. -/
  | commandCommit (p : Fin 8)
  /-- LEDGER_COMMIT (R453). A ledger record is written and read back in both copies and becomes committed. -/
  | ledgerCommit (ok0 : Bool) (ok1 : Bool)
  /-- LEDGER_READ (R460). LEDGER_READ copies committed records of the selected types to host memory. -/
  | ledgerRead (pair : BitVec 16)
  /-- MIRROR_START (R415). MIRROR_CTL OP 0 starts recording and writes a START record. -/
  | mirrorStart (pair : BitVec 16)
  /-- MIRROR_STOP (R415). MIRROR_CTL OP 1 stops recording and writes an END record. -/
  | mirrorStop (pair : BitVec 16)
  /-- MIRROR_FULL (R418). The next record does not fit the journal, so Mirror stops, sets FULL and writes END with reason 1. -/
  | mirrorFull (len : BitVec 32)
  /-- GAP (R418). Mirror's ingress has room again and it writes a GAP record with the number of records lost. -/
  | gap
  /-- REPLAY_START (R419). REPLAY OP 0 checks the journal and replays its inputs into the replay partitions. -/
  | replayStart (pair : BitVec 16)
  /-- REPLAY_HOLD (R422). The command at STOP_STEP reaches END and is held uncommitted, completing the replay. -/
  | replayHold
  /-- REPLAY_RELEASE (R422). REPLAY OP 1 ends the held command with KILLED and releases its engines. -/
  | replayRelease (pair : BitVec 16)
  /-- ECC_WRITEBACK (R432). A bank writes back a corrected bit in its next idle cycle. -/
  | eccWriteback
  /-- SCRUB_READ (R435). The scrubber reads the next block in an idle bank cycle, correcting or poisoning it. -/
  | scrubRead (unit : BitVec 8)
  /-- HBM_REFRESH (R444). An HBM controller refreshes a bank at its 1.95 µs interval. -/
  | hbmRefresh (st : Fin 4)
  /-- ECC_INJ_ARM (R461). A write of FAB_ECC_INJ.ARM makes the next full-block write store the selected corruption. -/
  | eccInjArm (src : BitVec 8) (unit : BitVec 8) (v : Reg32)
  /-- ECC_CNT_CLR (R461). A write of FAB_ECC_STATUS.CNT_CLR sets both ECC counts to 0. -/
  | eccCntClr (src : BitVec 8) (unit : BitVec 8)
  /-- UCIE_RETRY (R447). The UCIe adapter replays flits after a CRC error. -/
  | ucieRetry (ns : BitVec 16)
  /-- UCIE_RETRAIN (R448). More than 8 retries in 10 µs cause the UCIe link to retrain while operations are held. -/
  | ucieRetrain
  /-- UCIE_RETRAIN_END (R448). A UCIe retrain completes and held operations are delivered, or it exceeds 15 µs and causes a COMPUTE reset. -/
  | ucieRetrainEnd (ok : Bool) (tests : Tests)
  /-- FH_CONFIG (R489). FH_CONFIG sets a fronthaul port's mode, addresses, compression and roles. -/
  | fhConfig (pair : BitVec 16)
  /-- PTP_CONFIG (R489). PTP_CONFIG sets the time unit's mode, domain, offsets and slew, or accepts a held offset. -/
  | ptpConfig (pair : BitVec 16)
  /-- PORT_LINK_CHANGE (R463). A fronthaul port's link comes up after auto-negotiation and training, or goes down. -/
  | portLinkChange (port : Fin 16) (up : Bool)
  /-- FRAME_RECEIVE (R464). A received frame is classified and sent to the time unit, eCPRI processing, forwarding or dropped. -/
  | frameReceive (port : Fin 16) (frame : List Byte) (good : Bool) (t : BitVec 96) (tx : BitVec 96)
  /-- STORED_FRAME_SEND (R475). A stored forwarded frame is sent when its egress port becomes free. -/
  | storedFrameSend (port : Fin 16) (tx : BitVec 96)
  /-- FH_CNT_CLR (R490). A write of FH_n_CNT_CLR.CLR sets all port counts to 0. -/
  | fhCntClr (src : BitVec 8) (port : Fin 16)
  /-- PTP_SEC_LATCH (R477). A read of PTP_SEC_LO latches the whole PTP clock. -/
  | ptpSecLatch
  /-- PTP_ADJ (R482). A write of PTP_ADJ_HI applies an offset as a step or slew, or refuses it in GUARD mode. -/
  | ptpAdj (src : BitVec 8) (v : Reg32)
  /-- SLEW_END (R482). A slew has applied its whole offset and the clock returns to its set rate. -/
  | slewEnd
  /-- PTP_HOLD (R483). A write of PTP_CTL.HOLD freezes the rate, ignores adjustments and sets HOLDOVER. -/
  | ptpHold (src : BitVec 8) (hold : Bool)
  /-- TRIGGER_FIRE (R487). The PTP clock reaches a queued trigger time and the time unit sends its SIGNAL. -/
  | triggerFire (time : Word) (addr : Word) (stream : BitVec 16) (tinc : BitVec 16)
  /-- PPS_OUT (R486). The clock reaches PTP_PPS_OFS, so 1PPS_OUT rises for 10 µs. -/
  | ppsOut
  /-- TOD_SEND (R486). TOD_TX sends the ZDA sentence for the second that began at the pulse. -/
  | todSend
  /-- PPS_IN (R486). A rising edge on 1PPS_IN latches the clock and sets PPSIN. -/
  | ppsIn (t : BitVec 96)
  /-- BRV_CONFIG (R505). BRV_CONFIG sets the chain identity, routes and dateline, and enables or disables a port. -/
  | brvConfig (pair : BitVec 16)
  /-- BRV_LINK_UP (R506). The IDENT flits match and the Brivel link comes up. -/
  | brvLinkUp (port : Fin 2) (nbr : BitVec 4) (size : BitVec 5) (id : Word) (major : BitVec 16)
  /-- BRV_LINK_TIMEOUT (R506). No link forms within 500 ms, so BRV_CONFIG completes with NO_RESOURCE. -/
  | brvLinkTimeout (port : Fin 2)
  /-- ROUTE_CHANGE (R497). A changed route takes effect once every earlier operation to that device has its credits returned. -/
  | routeChange
  /-- TRANSIT (R495). An operation for another device arrives at a Brivel port and is forwarded cut-through or discarded. -/
  | transit (port : Fin 2) (vc : BitVec 2) (op : BitVec 8) (h : Hdr) (payload : List Byte)
  /-- BRV_REPLAY (R500). A receiver finds a bad or missing flit and the sender replays from it. -/
  | brvReplay (port : Fin 2) (crc : Bool) (ns : BitVec 16)
  /-- BRV_RETRAIN (R502). More than 4 replays in 10 µs make the port retrain while operations are held. -/
  | brvRetrain (port : Fin 2)
  /-- BRV_RETRAIN_END (R502). A Brivel retrain completes, or exceeds 40 µs and takes the link down. -/
  | brvRetrainEnd (port : Fin 2) (ok : Bool)
  /-- BRV_LINK_DOWN (R503). A Brivel link goes down and the port fails every held or unanswered operation with RESET. -/
  | brvLinkDown (port : Fin 2)
  /-- BRV_CNT_CLR (R507). A write of BRV_n_CNT_CLR.CLR sets the three Brivel counts to 0. -/
  | brvCntClr (src : BitVec 8) (port : Fin 2)
  /-- MOD_CONFIG (R510). MOD_CONFIG loads the modem's global or per-channel registers and receive ring. -/
  | modConfig (pair : BitVec 16)
  /-- JESD_LINK_LOSS (R509). The receive link loses lock, so LINKLOSS is set and frames in reception are abandoned. -/
  | jesdLinkLoss
  /-- PERISCOPE_DETECT (R513). A combination's preamble metric reaches THRESH and the channel starts searching for the sync word. -/
  | periscopeDetect (c : Fin 8) (dets : List (Fin 8 × List Int)) (t : Word) (blocks : List (List Byte))
  /-- SYNC_FOUND (R515). The sync word is found and the channel demodulates the frame. -/
  | syncFound (c : Fin 8) (word : BitVec 32) (t : Word)
  /-- SYNC_TIMEOUT (R515). The sync word is not found within 2 × PLEN symbols, so the detection is counted as lost. -/
  | syncTimeout (c : Fin 8)
  /-- RX_RECORD (R517). A received frame ends and its record is written to the channel's receive ring. -/
  | rxRecord (c : Fin 8) (frame : List Byte) (rssi : BitVec 16) (fofs : BitVec 32) (blocks : List (List Byte))
  /-- MOD_TX_FETCH (R518). The modem fetches a transmit descriptor and checks it. -/
  | modTxFetch (c : Fin 8)
  /-- TX_BURST_START (R518). A transmit burst starts at TIME or at once. -/
  | txBurstStart (c : Fin 8) (mask : Bool)
  /-- TX_BURST_COMPLETE (R518). A burst ends and its status record is written. -/
  | txBurstComplete (c : Fin 8) (t : Word) (sat : BitVec 16)
  /-- MOD_CNT_CLR (R521). A write of MOD_CNT_CLR.CLR sets every modem count to 0. -/
  | modCntClr (src : BitVec 8)
  /-- ROM_LOAD (R531). A LOAD message in anchor mailbox 0 in SAFE makes the ROM fetch and verify a firmware image. -/
  | romLoad
  /-- FW_LOAD (R533). FW_LOAD stages and verifies a new image and performs HOST_WARM on success. -/
  | fwLoad (pair : BitVec 16) (tests : Tests)
  /-- ATTEST (R536). ATTEST writes a signed attestation body to host memory. -/
  | attest (pair : BitVec 16)
  /-- ALARM_CFG (R540). ALARM_CFG sets alarm policies, clears alarm bits and locks the policy. -/
  | alarmCfg (pair : BitVec 16) (holding : BitVec 5)
  /-- ALARM (R538). A monitored source trips, setting SEC_ALARM, asserting ALARM_N and applying LOG, HALT or ERASE. -/
  | alarm (sources : BitVec 5)
  /-- SMBUS_BLOCK_READ (R534). An SMBus Block Read returns the BAR0 register for its command code. -/
  | smbusBlockRead (code : BitVec 8)
  /-- POR (R558). PWR_GOOD rises or VDD_AON is lost, so everything is reset, the ledger is formatted and all self-tests run. -/
  | por (cap : BitVec 2) (smb : BitVec 3) (test : Bool) (tests : Tests)
  /-- PIN_RESET (R559). RST_N held asserted for at least 10 µs resets the anchor and compute die. -/
  | pinReset (tests : Tests)
  /-- HOST_WARM_RESET (R558). A HOST_WARM reset resets the anchor and compute die and recovers from the ledger. -/
  | hostWarmReset (src : BitVec 4) (pair : BitVec 16) (tests : Tests)
  /-- COMPUTE_RESET (R558). A COMPUTE reset resets the compute die while the anchor, ledger and PCIe run on. -/
  | computeReset (pair : BitVec 16) (tests : Tests)
  /-- PARTITION_RESET (R558). A PARTITION reset resets one partition's engines, Facet queues and Pool share. -/
  | partitionReset (pair : BitVec 16)
  /-- ENGINE_RESET (R558). An ENGINE reset resets one logical engine. -/
  | engineReset (pair : BitVec 16)
  /-- PERST_ASSERT (R563). PERST_N is asserted, resetting the PCIe endpoint and holding completions. -/
  | perstAssert
  /-- PERST_RELEASE (R563). PERST_N is released and the endpoint answers again. -/
  | perstRelease
  /-- PWR_GOOD_FALL (R589). PWR_GOOD is deasserted for 1 µs or longer, holding the device in reset. -/
  | pwrGoodFall
  /-- THERMTRIP (R564). A junction sensor exceeds the trip threshold, so THERMTRIP_N is asserted and the compute die is held in reset. -/
  | thermtrip (mdeg : Int)
  /-- POWER_CAP (R553). POWER_CAP changes the cap, wake step, idle count or device power state. -/
  | powerCap (pair : BitVec 16)
  /-- CAP_SWITCH (R553). A quiet instant arrives, so the anchor commits and switches the ACLK point and VID, or gives up after 100 ms. -/
  | capSwitch (quiet : Bool)
  /-- POWER_WINDOW (R552). A 1 ms power-metering window ends and THROTTLE is set or cleared for the next window. -/
  | powerWindow (watts : BitVec 16)
  /-- E_IDLE_ENTRY (R554). An engine has been idle for PWR_IDLE.CYC cycles and stops its clock branch. -/
  | eIdleEntry (e : Fin 8)
  /-- POWER_UP_GRANT (R556). The wake budget grants an engine power-up in stages, followed by zeroing of its memories. -/
  | powerUpGrant
  /-- D_IDLE_EXIT (R554). The next accepted command ends D-IDLE and the engines it needs power up. -/
  | dIdleExit
  /-- PERF_PROGRAM (R573). PERF_CFG PROGRAM writes counter selections of a block. -/
  | perfProgram (pair : BitVec 16)
  /-- PERF_CLEAR (R573). PERF_CFG CLEAR sets a block's counters and OVF to 0. -/
  | perfClear (pair : BitVec 16)
  /-- PERF_FREEZE (R573). PERF_CFG FREEZE stops a block's counters. -/
  | perfFreeze (pair : BitVec 16)
  /-- PERF_RUN (R573). PERF_CFG RUN lets a block's counters advance. -/
  | perfRun (pair : BitVec 16)
  /-- PERF_SNAPSHOT (R573). PERF_CFG SNAPSHOT captures all counters of a block in one cycle and writes them to host memory. -/
  | perfSnapshot (pair : BitVec 16)
  /-- PMC_CLR (R572). A write of PMC_CTL.CLR sets every counter and OVF of the block to 0. -/
  | pmcClr (src : BitVec 8) (unit : BitVec 8) (n : Fin 16) (v : Reg32)
  /-- PMC_LO_LATCH (R572). A read of a counter's LO word latches its HI word. -/
  | pmcLoLatch (unit : BitVec 8) (n : Fin 16) (k : Fin 16)
  /-- LOUPE_CFG (R577). LOUPE_CFG enables or disables Loupe on an engine and sets its ring. -/
  | loupeCfg (pair : BitVec 16)
  /-- LOUPE_RECORD (R576). A tagged instruction commits or is killed and Loupe writes its record to the ring. -/
  | loupeRecord (e : Fin 8) (k : Fin 16) (issue : Word) (ready : Option Word) (start : Option Word) (commit : Option Word)
  /-- TAP_RESET (R579). Five TCK cycles with TMS high reset the TAP and load IDCODE. -/
  | tapReset
  /-- IDCODE (R580). The JTAG IDCODE instruction selects the identification register. -/
  | idcode
  /-- SAMPLE_PRELOAD (R579). The JTAG SAMPLE/PRELOAD instruction samples or preloads the boundary register. -/
  | samplePreload (balls : BitVec 412) (cells : BitVec 412)
  /-- EXTEST (R579). The JTAG EXTEST instruction drives the balls from the boundary register in states 0, 2 or 5. -/
  | extest (balls : BitVec 412) (cells : BitVec 412)
  /-- CLAMP (R579). The JTAG CLAMP instruction holds the outputs and selects bypass in states 0, 2 or 5. -/
  | clamp
  /-- HIGHZ (R579). The JTAG HIGHZ instruction puts the outputs in high impedance in states 0, 2 or 5. -/
  | highz
  /-- DEBUG (R579). The JTAG DEBUG instruction is available only while no identity keys are present. -/
  | debug
  /-- BYPASS (R579). The JTAG BYPASS instruction, or any other code, selects the bypass register. -/
  | bypass (code : BitVec 8)
  /-- REGISTER_WRITE (R10). A write to a register with no row of its own takes effect by its access code, subject to LOCK and source checks. -/
  | registerWrite (src : BitVec 8) (unit : BitVec 9) (off : BitVec 52) (v : Reg32)
  /-- JESD_LINK_ALIGN (R509). The sensor-port JESD204C link regains sync-header lock and multiblock alignment, LINKUP is set and Periscope search resumes. -/
  | jesdLinkAlign
  /-- TRANSMIT_LINK_LOSS (R509). The JESD204C transmit link goes down, and every burst in progress or waiting completes with cause LINK. -/
  | transmitLinkLoss
  /-- SELF_REFRESH_RETURN (R555). In D-IDLE an HBM stack that was woken by an access returns to self-refresh after 1 µs without an access. -/
  | selfRefreshReturn (st : Fin 4)
  /-- BUS_MASTER_ENABLE (R563). The host enables bus mastering again after PERST_N, and the anchor writes the completions and MSI-X messages it has held. -/
  | busMasterEnable
  /-- TOD_RECEIVE (R486). A ZDA sentence arrives on TOD_RX and is taken for firmware to read the second in the T-GM role. -/
  | todReceive (sentence : List Byte)
  /-- PTP_EGRESS (R480). A PTP or ESMC message that the anchor placed in queue 13,057 leaves its port with its egress stamp, and a one-step Sync has its originTimestamp written. -/
  | ptpEgress (port : Fin 16) (frame : List Byte) (t : BitVec 96)
  /-- COUNTER_OVERFLOW (R571). A 48-bit performance counter passes 2^48 − 1, wraps to 0 and carries into the next chained counter or sets its OVF bit. -/
  | counterOverflow (unit : BitVec 8) (n : Fin 16) (k : Fin 16)
  /-- FACET_SHARE_WINDOW (R401). A 1 ms window of PTP time ends, and a partition's Facet occupancy metering against its FSHARE starts again for the next window. -/
  | facetShareWindow
  /-- REPLAY_RECORD (R420). The replay clock reaches the TIME of the next journal record, and the record is delivered, executed or applied, or the replay ends at END or GAP. -/
  | replayRecord
  deriving DecidableEq, Repr

end Sys2Proof
end

