-- ==== Sys2Proof/Decode.lean ====
section
/-! DEFINITION. Decoding of table words. -/
namespace Sys2Proof

/-- The command that a word spells by the bits of spec/opcode_table.json: no row of the table gives any bits, so no
word spells a command. -/
def decodeTableWord (_nbits _w : Nat) : Option Instr := none

end Sys2Proof
end

