-- ==== Sys2Proof/Config.lean ====
section
/-! DEFINITION. What the spec leaves open or takes from the standards it names (Table 0.2) without carrying their
tables: constants WITHOUT a body, so that no proof can see a value of them, and every claim holds for each. -/
namespace Sys2Proof.Config

/-- The n-th byte drawn where the spec leaves a byte undefined (R79, R81, R160, R175, R230, R262, R279, R333). -/
opaque freeByte : Nat → Byte

/-- The n-th word drawn where the spec leaves a value open. -/
opaque freeWord : Nat → BitVec 64

/-- The value of a vector operation (by its EP code of Table 7.3) whose result the spec does not state: ABS and NEG of the
most negative integer, and a recipe of R219 whose rounded index is not finite. Two operand codes. -/
opaque vecOpen : Nat → Nat → Nat → Nat

/-- LOG2SIZE of the stream queues that firmware sets up (R361): the spec gives its range 4 to 20 only. -/
opaque streamLog2 : Nat

/-- What a job image's entry (its 64 bytes) makes the anchor write to ENG_CODE_BASE, ENG_CODE_SIZE and ENG_ENTRY (R106): the
layout of Table 14.2 and R385 does not show where an image holds them. In units of 64, 8 and 8 bytes. -/
opaque codeBase : List Byte → Nat
opaque codeSize : List Byte → Nat
opaque codeEntry : List Byte → Nat

/-- Token counters of its engines that the anchor clears before a command of the entry runs, and the mask it writes to their
DB_MASK (R106): the job's, which the spec does not list. -/
opaque jobTokens : List Byte → List Nat
opaque doorbellMask : List Byte → Nat

/-- Facet queues (decoder, queue) that a command of the entry owns (R334, R391). -/
opaque facetQueues : List Byte → List (Nat × Nat)

/-- Credit-table entries that firmware registers for a job image when it loads (R60): unit, stream, ESC, MAX, ORDER_WIN. -/
opaque jobStreams : List Byte → List (Nat × Nat × Nat × Nat × Nat)

/-- What firmware writes into the descriptor of work queue `q` of Facet decoder `f` (R308, R361): the partition it gives the
queue to, the fabric address of its ring in units of 64 bytes, its size beyond 16 entries, its level and its stream. -/
opaque facetPart : (f q : Nat) → Nat
opaque facetRing : (f q : Nat) → Nat
opaque facetLog2 : (f q : Nat) → Nat
opaque facetLevel : (f q : Nat) → Nat
opaque facetStream : (f q : Nat) → Nat

/-- Bit 0: the entry declares ARGLEN 0 as valid (R388); the spec does not show where. -/
opaque argZeroOk : List Byte → Bool

/-- How often per period the image of job slot `slot` runs entry `entry` for a carrier group of `size` carriers and `groups`
equaliser groups (R399): the radio image states it, in a layout the spec does not give. -/
opaque entryRuns : (slot entry size groups : Nat) → Nat

/-- An image's worst-case tail of `tail` ns (R385), converted to the ACLK point of cap code `cap`: Table 14.4 converts the image's figures
at f, and the spec does not say how a tail is converted. -/
opaque tailAt : (tail cap : Nat) → Nat

/-- The radio image's entry of a stage command: kind as in Stage.kind, group size (R295, R304, R399). -/
opaque stageEntry : (kind size : Nat) → Nat

/-- The argument block (HBM offset, bytes) that the anchor gives a stage command of a slot (R389): kind, slot. -/
opaque stageArg : (kind slot : Nat) → Nat × Nat

/-- ESC and MAX with which firmware registers the streams of an eAxC map (R60, R377), and the ORDER_WIN and unit are the stream's. -/
opaque carrierEsc : Nat
opaque carrierMax : Nat

/-- Byte offset `i` that a slot result's header gives (Table 10.5): 0 to 3 the record arrays, 4 the missing-block map. A function of
the request block. -/
opaque resultOff : (i : Nat) → List Byte → Nat

/-- The uplink slot, plus 1, whose SRS estimate a downlink request names (R306), 0 for none: Table 13.12 shows no field for it. -/
opaque srsSlot : List Byte → Nat

/-- How many C-plane frames a port sends for a request on one eAxC (R473). -/
opaque cplaneFrames : List Byte → Nat

/-- Per cent of the device's array cycles that the admitted worst case of a REALTIME job image takes (R344): the image states it. -/
opaque arrayShare : List Byte → Nat

/-- Fields of the frames that a port builds which the spec leaves open: 0 IPv4 type of service, 1 identification, 2 time to live,
3 flags, 4 O-RAN section identifier. -/
opaque wireField : Nat → Nat

/-- Talker identifier and local-zone fields of the ZDA sentence (R486). -/
opaque zdaTalker : List Byte
opaque zdaZone : List Byte

/-- Bytes of the network area of an engine's group, and the HBM offset in it to which the anchor copies a candidate set while CUR and
PREV name the given records (R345). -/
opaque netRoom : (eng : Nat) → Nat
opaque netSlot : (eng cur prev : Nat) → Nat

/-- Payload bytes, in units of 64, of a capture record (R339): kind, request block, allocation. -/
opaque capLen : (kind : Nat) → List Byte → (alloc : Nat) → Nat

/-- Whether a request uses only options of Table 10.1 (R281) beyond those that the request block's fields bound. -/
opaque optionsOk : List Byte → Bool

/-- Whether a job image verifies under one pair of job-signing keys (R386, R537): the running firmware image, the customer
pairs of the key store, the job image. -/
opaque jobSigOk : (firmware : List Byte) → (customer : List Nat) → List Byte → Bool

/-- Whether an image's keys are the key set's, and its revocation fuse intact (Table 20.5 KEY); whether its RSASSA-PSS and its
SLH-DSA signature verify (RSA, SLHDSA): key, message, signature. The algorithms are those of the standards of Table 0.2. -/
opaque imageKeyOk : (keyset : Nat) → (rsa slh : List Byte) → Bool
opaque rsaOk : (key msg sig : List Byte) → Bool
opaque slhOk : (key msg sig : List Byte) → Bool

/-- Customer job-signing key pairs that a provisioning image leaves in the key store (R535). -/
opaque provisioned : List Byte → List Nat

/-- Signatures of an attestation body under the identity keys, and the certificate chains (R536): RSASSA-PSS (384 bytes), SLH-DSA
(35,664 bytes). The keys never leave the island. -/
opaque attestRsa : (serial : Nat) → List Byte → (i : Nat) → Byte
opaque attestSlh : (serial : Nat) → List Byte → (i : Nat) → Byte
opaque attestCerts : (serial : Nat) → List Byte

/-- The nonzero entries of the base graphs of TS 38.212 (Table 5.3.2-2 for 0, Table 5.3.2-3 for 1), row by row and then in ascending
column order: row, column and the shift value of each of the eight set indices. The spec cites these tables and does not
print them (R317, R321). -/
opaque baseGraph : (bg : Nat) → List (Nat × Nat × List Nat)

/-- The polar reliability order of TS 38.212 Table 5.3.1.2-1 (1,024 indices, least reliable first) and the interleaver pattern of
Table 5.3.1.1-1 (164 entries), which the spec cites and does not print (R329, R330). -/
opaque polarOrder : List Nat
opaque polarInterleave : List Nat

/-- What firmware writes into the descriptor of transmit queue 13,088 + c of the sensor modem (R518): ring (in units of 64 bytes), size
beyond 16 entries, stream. -/
opaque modRing : (c : Nat) → Nat
opaque modLog2 : (c : Nat) → Nat
opaque modStream : (c : Nat) → Nat

/-- Pool offset, in units of 64 bytes, of half `half` of the Facet weight area of partition `part` (R328). -/
opaque weightHalf : (part half : Nat) → Nat

/-- Whether an operation from this device crosses a dateline link twice (R496): own chain number, CHAIN_SIZE, BRV_ROUTE, DATELINE of the
two ports. It depends on the routes of the other devices, which the spec does not give. -/
opaque datelineTwice : (own size route dateline : Nat) → Bool

/-- Status code of an EVENT record for which the spec names none: 0 OVERBLOCK (R397), 1 UCIe retrain (R448), 2 Brivel retrain
(R502), 3 ledger copy out of service (R457), 4 alarm (R538), 5 other link events. -/
opaque eventStatus : Nat → Nat

/-- Stream on which engine `e` sends its Loupe records (R576): the spec names none. -/
opaque loupeStream : (e : Nat) → Nat

/-- SHA-384 of a byte string, 48 bytes as a number. -/
opaque sha384 : List Byte → Nat

end Sys2Proof.Config
end

