-- ==== Sys2Proof/Machine/Bits.lean ====
section
/-! DEFINITION. Bit fields, byte order and sign helpers over natural numbers: every chapter's field tables are read
through `bits` and `setBits`, and every multi-byte object is little-endian (R6, R42). -/
namespace Sys2Proof.Machine

/-- Bits [hi:lo] of `n`. -/
def bits (n hi lo : Nat) : Nat := n / 2 ^ lo % 2 ^ (hi + 1 - lo)

/-- `n` with bits [hi:lo] replaced by the low bits of `v`. -/
def setBits (n hi lo v : Nat) : Nat :=
  n % 2 ^ lo + (v % 2 ^ (hi + 1 - lo)) * 2 ^ lo + n / 2 ^ (hi + 1) * 2 ^ (hi + 1)

/-- Bit `k` of `n`. -/
def bit (n k : Nat) : Bool := n.testBit k

/-- 1 for true, 0 for false. -/
def b2n (b : Bool) : Nat := if b then 1 else 0

/-- The number that `bs` spells, first byte least significant. -/
def leNat : List Byte → Nat
  | [] => 0
  | b :: bs => b.toNat + 256 * leNat bs

/-- The `n` low bytes of `v`, least significant first. -/
def toLE : (n : Nat) → (v : Nat) → List Byte
  | 0, _ => []
  | n + 1, v => BitVec.ofNat 8 v :: toLE n (v / 256)

/-- The two's-complement value of the low `w` bits of `n`. -/
def sext (w n : Nat) : Int :=
  if n % 2 ^ w < 2 ^ (w - 1) then (n % 2 ^ w : Nat) else (n % 2 ^ w : Nat) - (2 ^ w : Nat)

/-- The low `w` bits of an integer as a natural number (two's complement). -/
def wrapN (w : Nat) (x : Int) : Nat := (x % (2 ^ w : Nat)).toNat

/-- ⌈a / b⌉. -/
def ceilDiv (a b : Nat) : Nat := (a + b - 1) / b

/-- `n` bytes of `bs` from index `i`, absent bytes read 0. -/
def slice (bs : List Byte) (i n : Nat) : List Byte :=
  (List.range n).map fun j => bs.getD (i + j) 0

/-- The little-endian number in the `n` bytes of `bs` from index `i`. -/
def fieldLE (bs : List Byte) (i n : Nat) : Nat := leNat (slice bs i n)

/-- Saturating increment at a limit. -/
def satAdd (limit a b : Nat) : Nat := if limit < a + b then limit else a + b

/-- Replace element `i` of a list (unchanged when there is none). -/
def setAt {α : Type} (l : List α) (i : Nat) (v : α) : List α := l.set i v

/-- Remove the first element that `p` selects; its value, and the rest in order. -/
def takeFirst {α : Type} (p : α → Bool) : List α → Option (α × List α)
  | [] => none
  | a :: r =>
    if p a then some (a, r)
    else match takeFirst p r with
      | some (x, r') => some (x, a :: r')
      | none => none

/-- Split off a list's pieces of `n` elements (fuel is the list's length). -/
def chunksAux {α : Type} (n : Nat) : Nat → List α → List (List α)
  | 0, _ => []
  | _ + 1, [] => []
  | f + 1, l => l.take n :: chunksAux n f (l.drop n)

/-- The consecutive pieces of `n` elements of `l` (the last may be shorter; none when `n = 0`). -/
def chunks {α : Type} (n : Nat) (l : List α) : List (List α) :=
  if n = 0 then [] else chunksAux n l.length l

end Sys2Proof.Machine
end

