-- ==== Sys2Proof/Machine/Sparse.lean ====
section
/-! DEFINITION. Sparse maps: the ONE form in which memories and register files are held. A map is a list of
(key, value) pairs with keys strictly rising, and no pair equal to what an unlisted key reads as (`d`).
The functions here keep that form (Sys2Proof/Laws/Sparse.lean proves it). -/
namespace Sys2Proof.Machine

variable {α : Type}

/-- What key `k` reads as: its listed value, else the default `d k`. -/
def Sparse.get (d : Nat → α) : List (Nat × α) → Nat → α
  | [], k => d k
  | e :: r, k => if e.1 = k then e.2 else Sparse.get d r k

/-- Insert a pair before the first larger key (no entry of that key is present). -/
def Sparse.ins (k : Nat) (v : α) : List (Nat × α) → List (Nat × α)
  | [] => [(k, v)]
  | e :: r => if k < e.1 then (k, v) :: e :: r else e :: Sparse.ins k v r

/-- Drop every entry of key `k`. -/
def Sparse.drop (k : Nat) : List (Nat × α) → List (Nat × α)
  | [] => []
  | e :: r => if e.1 = k then Sparse.drop k r else e :: Sparse.drop k r

/-- Write `v` at `k`; a value equal to the default is represented by no entry. -/
def Sparse.set [DecidableEq α] (d : Nat → α) (m : List (Nat × α)) (k : Nat) (v : α) : List (Nat × α) :=
  if v = d k then Sparse.drop k m else Sparse.ins k v (Sparse.drop k m)

/-- Return every key that `p` selects to its default. -/
def Sparse.clear (p : Nat → Bool) : List (Nat × α) → List (Nat × α)
  | [] => []
  | e :: r => if p e.1 then Sparse.clear p r else e :: Sparse.clear p r

/-- The canonical form: keys strictly rising, no entry at its default. -/
def Sparse.wf [DecidableEq α] (d : Nat → α) : List (Nat × α) → Bool
  | [] => true
  | e :: r => decide (e.2 ≠ d e.1) && (r.all fun x => decide (e.1 < x.1)) && Sparse.wf d r

end Sys2Proof.Machine
end

