-- ==== Sys2Proof/Machine/State.lean ====
section
/-! DEFINITION. The state of the C8 as a block: plain data, everything the spec gives the machine, and the queue of
commands that are waiting. Registers of Table 2.3's control regions, of BAR0 and token counters are held in `regs`
(their defaults are the reset values of the spec's field tables, Machine/RegTable.lean); what the spec describes but
gives no register stands in the structures below. -/
namespace Sys2Proof.Machine

/-- Why the block stops. No command of this model stops with a fault: every failure the spec describes is a
state of the machine (an error record, a killed command, a completion status). -/
inductive Fault where
  /-- Raised by no meaning of this model; kept so that the type has a value. Safe: a stop proves nothing. -/
  | none
  deriving DecidableEq, Repr

/-- Why a command is turned away. -/
inductive Refusal where
  /-- An arm of exec that has no meaning yet, by its mnemonic. Safe: a refused command proves nothing. -/
  | notModelled (mnemonic : String)
  deriving DecidableEq, Repr

/-! ### Fabric (02) -/

/-- The opcodes of Table 2.5. -/
inductive FabOp where
  | put | get | putSignal | signal | atomicAdd | fetchAdd | cas | orderedFadd
  deriving DecidableEq, Repr

/-- Who waits for an operation's outcome (R80). -/
inductive Owner where
  /-- nobody (hardware units whose operations own no descriptor) -/
  | none
  /-- descriptor `id` of engine `e` -/
  | desc (e : Fin 8) (id : Nat)
  /-- the SIGNAL of a SIG instruction of engine `e` (R80) -/
  | sig (e : Fin 8)
  /-- the descriptor in progress of Facet decoder `f` -/
  | facet (f : Fin 8)
  deriving DecidableEq, Repr

/-- An operation that a source holds, waits to issue, or has issued. `since` is the NCLK count at which it reached
the head of its issuing queue, `level` the priority levels that it has gained there (R73). -/
structure FabItem where
  op : FabOp
  hdr : Hdr
  payload : List Byte
  owner : Owner
  queue : Nat
  since : Nat
  level : Nat
  /-- the units it goes to, fixed when it issues (R84): device · 256 + unit -/
  tgts : List Nat
  /-- STALL has been raised for it (R63) -/
  stalled : Bool := false
  deriving DecidableEq, Repr

/-- Ingress credits in use (R54, R59): `n` credits of `stream` at `unit` (device · 256 + unit), from the stream's
reservation or the pool; whether the operation that holds them has taken effect, and who waits for their return. -/
structure Ingress where
  unit : Nat
  stream : Nat
  n : Nat
  fromEsc : Bool
  arrived : Bool
  owner : Owner
  deriving DecidableEq, Repr

/-- A return of R47 on its way: the operation that delivers it, and who asked. -/
structure RetItem where
  item : FabItem
  reqUnit : Nat
  reqOp : FabOp
  reqAddr : Nat
  /-- it comes from another device, whose memory the model does not hold: its bytes are free values -/
  far : Bool
  deriving DecidableEq, Repr

/-- An error response on its way to the source of a failed operation (R79). -/
structure ErrItem where
  unit : Nat
  cause : Nat
  opcode : Nat
  stream : Nat
  addr : Nat
  owner : Owner
  deriving DecidableEq, Repr

/-- The fabric's state that no register holds. -/
structure Fab where
  /-- operations waiting at their sources, each issuing queue in order -/
  waiting : List FabItem
  /-- operations issued and not yet arrived, in issue order -/
  flight : List FabItem
  /-- ingress credits in use -/
  ingress : List Ingress
  /-- ORDERED_FADD operations held in reorder windows (R68), with their unit -/
  held : List (Nat × FabItem)
  /-- returns on their way, oldest first -/
  rets : List RetItem
  /-- error responses on their way, oldest first -/
  errs : List ErrItem
  deriving DecidableEq, Repr

def Fab.reset : Fab := ⟨[], [], [], [], [], []⟩

/-! ### Engines (03, 05, 07, 08, 09) -/

/-- ENG_STATUS.STATE (Table 3.12). -/
inductive EngState where
  | idle | running | waiting | halted | trapped | killing
  deriving DecidableEq, Repr

/-- What a waiting sequencer waits for (R98, R101). -/
inductive Wait where
  | none
  | token (tctr : BitVec 12) (thr : BitVec 32)
  | tokenLimit (tctr : BitVec 12) (thr : BitVec 32) (xd : BitVec 5) (cycles : BitVec 64)
  | fence
  | endCmd
  | doorbell (xd : BitVec 5)
  | issue (unit : BitVec 3) (f : IssueF)
  /-- a direct instruction that waits for room in the pipe-0 queue: its OP -/
  | direct (op : Nat) (f : DirectF)
  deriving DecidableEq, Repr

/-- The internal queues of an engine (Table 3.7); `direct` is a direct instruction that has started (R207). -/
inductive EngQ where
  | stream (q : Nat)
  | array
  | pipe (p : Nat)
  | col
  | signal
  | direct
  deriving DecidableEq, Repr

/-- A direct instruction of pipe 0 (R207): OP, fields, and the X[XA] that the sequencer read at issue (R214). -/
structure Direct where
  op : Nat
  f : DirectF
  xa : Word
  deriving DecidableEq, Repr

/-- A descriptor copied by ISSUE and not yet started: its 64 bytes, its completion counter, an identity. -/
structure Queued where
  q : EngQ
  id : Nat
  tctr : BitVec 12
  /-- scratchpad offset it was issued from -/
  origin : Nat
  desc : List Byte
  /-- a direct instruction in the pipe-0 queue, else none -/
  dir : Option Direct
  deriving DecidableEq, Repr

/-- What a started descriptor does when it completes (R99, R100): nothing recorded, or an error cause (the
chapter's cause table) that withholds its increment; a Collimator result waits for the completion. -/
structure Started where
  q : EngQ
  id : Nat
  tctr : Option (BitVec 12)
  /-- scratchpad offset it was issued from, or the PC of a direct instruction -/
  origin : Nat
  desc : List Byte
  /-- error: cause code, fabric cause, status of the killed command -/
  err : Option (Nat × Nat × Nat)
  /-- byte ranges (fabric key, length) that an abort leaves undefined -/
  wrote : List (Nat × Nat)
  /-- operations queued or in flight for it -/
  ops : Nat
  /-- result values its completion writes (register key, value) -/
  result : List (Nat × Reg32)
  /-- bytes its completion stores -/
  stores : List (Nat × List Byte)
  deriving DecidableEq, Repr

/-- Why the running command of an engine was stopped. -/
inductive KillWhy where
  /-- it completes with the status below and does not re-run: ENG_CTL.KILL (R110), a trap (R112), JOB_ABORT (R398) -/
  | final
  /-- a fault under R80: it re-runs while RERUN_MAX allows (R396) -/
  | fault
  /-- pre-emption or block limit (R394, R395): swapped out, counted under R396 -/
  | preempt
  /-- a REALTIME trigger or a change of clock point (R383, R553): re-run, not counted -/
  | uncounted
  deriving DecidableEq, Repr

/-- Why the running command of an engine was killed: status and detail it completes with (R80, R110, R112). -/
structure KillInfo where
  why : KillWhy
  status : Nat
  detail : Nat
  deriving DecidableEq, Repr

/-- The active tile of an array's tile register (R144, R174): what the loading MATMUL said, and the bytes it loaded. -/
structure Tile where
  pair : Nat
  mode : Nat
  addr : Nat
  rmask : Nat
  we5 : Bool
  xe5 : Bool
  /-- SCALE_KIND under which its scales were loaded -/
  kind : Nat
  bytes : List Byte
  /-- its scale records, one after another -/
  recs : List Byte
  deriving DecidableEq, Repr

/-- Power state of an engine (Table 21.4): E-OFF, on, E-IDLE. -/
inductive EngPower where
  | off | on | idle
  deriving DecidableEq, Repr

/-- An instruction that Loupe has tagged and not yet recorded (R574, R576): step counter of its command, index, PC, class · 64 +
operation, and whether its command has been killed. -/
structure Tag where
  step : Nat
  idx : Nat
  pc : Nat
  code : Nat
  killed : Bool
  deriving DecidableEq, Repr

/-- One engine. -/
structure Engine where
  /-- X0–X31; X0 is never written (R87) -/
  x : Vector Word 32
  /-- byte offset of the next instruction; ENG_PC shows its low 26 bits -/
  pc : Word
  state : EngState
  wait : Wait
  /-- ACLK count at which the current wait began (R105) -/
  waitSince : Nat
  /-- ACLK count from which the idle count of R554 runs -/
  idleSince : Nat
  power : EngPower
  queue : List Queued
  started : List Started
  nextId : Nat
  /-- the abort after a trap or kill has not ended yet -/
  aborting : Bool
  /-- a KILL was written while TRAPPED (R112) -/
  killReq : Bool
  /-- the outcome with which the running command will complete if it was killed or trapped -/
  kill : Option KillInfo
  /-- END has completed for the current command -/
  ended : Bool
  /-- accepted command (index: pair, SEQ) that runs here -/
  cmd : Option (Nat × Nat)
  /-- pipe 0: 64 vector registers of 4,096 bits (R208), sparse in register·512 + byte -/
  vreg : List (Nat × Byte)
  /-- 8 tile registers of 4 KiB, sparse in register·4096 + byte -/
  treg : List (Nat × Byte)
  vl : BitVec 32
  vbound : BitVec 32
  srbase : BitVec 32
  /-- the 64 arrays' tile registers, sparse by array -/
  tiles : List (Nat × Option Tile)
  /-- pair-table ranks (R185), sparse in 2·entry + (0 data, 1 scale) -/
  ranks : List (Nat × Nat)
  /-- stream queues that issue nothing after an uncorrectable error (R278) -/
  eccHalt : List Nat
  /-- effective levels gained by aging (R273), sparse by queue -/
  aged : List (Nat × Nat)
  /-- instructions of the command that have issued, and those that Loupe has tagged (R574) -/
  icount : Nat
  tags : List Tag
  deriving DecidableEq, Repr

def Engine.reset : Engine where
  x := Vector.replicate 32 0
  pc := 0
  state := .idle
  wait := .none
  waitSince := 0
  idleSince := 0
  power := .off
  queue := []
  started := []
  nextId := 0
  aborting := false
  killReq := false
  kill := none
  ended := false
  cmd := none
  vreg := []
  treg := []
  vl := 0
  vbound := 0
  srbase := 0
  tiles := []
  ranks := []
  eccHalt := []
  aged := []
  icount := 0
  tags := []

/-! ### Radio (10) -/

/-- A carrier (R282 to R284): its partition, descriptor (Table 10.2) and eAxC map (Table 10.3) as copied. -/
structure Carrier where
  id : Nat
  part : Nat
  desc : List Byte
  map : List Byte
  /-- number, counted from the GPS epoch, of the slot whose counter is 0; none while the carrier is not active -/
  base : Option Nat
  /-- a configuration that waits for its boundary: its command, partition, descriptor and map -/
  next : Option ((Nat × Nat) × Nat × List Byte × List Byte)
  /-- GEN of the network set of the carrier's latest published slot (R292) -/
  gen : Option Nat
  deriving DecidableEq, Repr

/-- Reception of slot n of a carrier (R285 to R288); a block is numbered (stream · 14 + symbol) · 8 + k. -/
structure RxSlot where
  carrier : Nat
  n : Nat
  done : List Nat
  /-- blocks delivered with zero samples -/
  missing : List Nat
  /-- symbols whose receive window has closed -/
  closed : List Nat
  /-- PTP time in ns at which the slot's deadline clock started (R20) -/
  start : Option Nat
  deriving DecidableEq, Repr

/-- An accepted uplink slot request: its command, and the request block as read at acceptance (Table 13.12). -/
structure UlSlot where
  carrier : Nat
  n : Nat
  cmd : Nat × Nat
  req : List Byte
  /-- GEN of the network set that serves the slot, once a stage has started (R292) -/
  gen : Option Nat
  /-- a stage command of the slot was re-run (R297), or set a non-finite flag -/
  rerun : Bool
  nonfinite : Bool
  /-- the slot is to be published with RESET_ABORT (R299) -/
  aborted : Bool
  /-- its C-plane messages have left -/
  cplane : Bool
  deriving DecidableEq, Repr

/-- An accepted downlink slot request. -/
structure DlSlot where
  carrier : Nat
  n : Nat
  cmd : Nat × Nat
  req : List Byte
  /-- the C-plane messages have left -/
  cplane : Bool
  /-- symbols sent or dropped -/
  done : List Nat
  /-- a symbol was not complete at its window's close (R305) -/
  missed : Bool
  /-- a frame of the slot has left (R307) -/
  left : Bool
  deriving DecidableEq, Repr

/-- A REALTIME stage command of an engine's group for one slot (R295, R304): kind 0 EST, 1 + g EQ_g, 30 TX, 31 DEC. -/
structure Stage where
  eng : Nat
  kind : Nat
  /-- slot counted from the GPS epoch -/
  slot : Nat
  carriers : List Nat
  running : Bool
  ended : Bool
  /-- committed MATMUL flags of its engine when it ended -/
  nonfinite : Bool
  deriving DecidableEq, Repr

/-- A capture record that waits for its slot's publication (R339, R340): its place in the ring and what its header says. -/
structure Capture where
  eng : Nat
  carrier : Nat
  n : Nat
  /-- HBM offset of its header -/
  off : Nat
  kind : Nat
  tbrec : Nat
  /-- bytes of the record area up to its end -/
  wend : Nat
  deriving DecidableEq, Repr

/-! ### Shadow training (12) -/

/-- A running trial (R345 to R348). -/
structure Trial where
  cmd : Nat × Nat
  /-- HBM offset of the copied candidate record -/
  cand : Nat
  /-- first slot, counted from the GPS epoch -/
  first : Nat
  /-- slots elapsed and evaluated -/
  seen : Nat
  evald : Nat
  /-- counters of the evaluated slots: the first and the last -/
  firstEval : Nat
  lastEval : Nat
  ntb : Nat
  pc : Nat
  pd : Nat
  sc : Int
  sd : Int
  nbits : Nat
  deriving DecidableEq, Repr

/-- A carrier group's shadow configuration (Table 12.4) and its trial, by owning engine. -/
structure Group where
  eng : Nat
  cstride : Nat
  guard : Nat
  tmax : Nat
  mcrc : Nat
  mllr : Nat
  ring : Nat
  rsize : Nat
  capdrop : Nat
  /-- PTP time in ns of the latest promotion or rollback, and the GEN current before it -/
  since : Nat
  oldGen : Nat
  trial : Option Trial
  deriving DecidableEq, Repr

/-- CAP, and the array cycles metered in the current window (R343). -/
structure Shadow where
  cap : Nat
  used : Nat
  groups : List Group
  deriving DecidableEq, Repr

/-! ### Facet decoders (11) -/

/-- The descriptor that a decoder has in progress (R309 to R314). -/
structure FctWork where
  queue : Nat
  /-- descriptor index i of R309 -/
  seq : Nat
  desc : List Byte
  /-- the work row has run: its results stand below -/
  ran : Bool
  flags : Nat
  iter : Nat
  cause : Nat
  fcause : Nat
  metric : Nat
  wgen : Nat
  /-- operations not yet answered -/
  ops : Nat
  deriving DecidableEq, Repr

/-- A decoder beside its registers: the counts of descriptors taken (R309), effective levels gained (R310), the queue served
last (round robin), and the occupancy charged to each partition in the current window (R401). -/
structure Facet where
  cur : Option FctWork
  taken : List (Nat × Nat)
  aged : List (Nat × Nat)
  last : Nat
  metered : List (Nat × Nat)
  deriving DecidableEq, Repr

def Facet.reset : Facet := ⟨none, [], [], 31, []⟩

/-- A partition's Facet weight collections (R326, R328): the half that holds the current one, its GEN and DIGEST, the DIGEST of the
previous one in the other half, and the PTP time in ns of the latest change. -/
structure Weights where
  part : Nat
  half : Nat
  gen : Nat
  digest : Nat
  old : Option Nat
  since : Nat
  deriving DecidableEq, Repr

/-! ### Host queues and commands (13, 14) -/

/-- A queue descriptor (Table 13.4). -/
structure QueueDesc where
  ring : Nat
  log2size : Nat
  part : Nat
  level : Nat
  valid : Bool
  type : Nat
  stream : Nat
  msix : Nat
  seqbase : Nat
  deriving DecidableEq, Repr

/-- A descriptor with VALID 0: no usable queue (R361). -/
def QueueDesc.none : QueueDesc := ⟨0, 0, 0, 0, false, 0, 0, 0xFFFF, 0⟩

/-- Where an accepted command stands (R364, R370, R392). -/
inductive CmdPhase where
  /-- accepted, not started -/
  | accepted
  /-- started and waiting for device work -/
  | waiting
  /-- a job command running on its engines -/
  | running
  /-- a job command killed and awaiting its re-run (R392) -/
  | swapped
  /-- outcome committed, completion not written yet -/
  | done
  deriving DecidableEq, Repr

/-- An accepted command (R364): its ring, sequence number and the 64 bytes of its packet. -/
structure Cmd where
  pair : Nat
  seq : Nat
  pkt : List Byte
  phase : CmdPhase
  /-- re-runs counted under R396 -/
  reruns : Nat
  /-- re-runs not counted are left out of the limit but are re-runs of R391's VALUE -/
  reruns2 : Nat
  /-- rotation order of R392 and R395: the number of the moment at which it became ready or was swapped out -/
  order : Nat
  /-- DYN_CHOICES of its partition when it last started (R426) -/
  dyn0 : Nat
  /-- step counter of its job when it first started (R393, R412) -/
  step0 : Nat
  /-- a replayed command (R420): no completion to the host, no ledger record -/
  replay : Bool
  /-- NEXT_SEQ of the ordered streams when it started, by FAB_CRD_k_W0 (R68) -/
  nseq : List (Nat × Nat)
  /-- unit and stream of the ordered additions that it has issued -/
  fadds : List (Nat × Nat)
  deriving DecidableEq, Repr

/-- A finished completion not yet in host memory (R371). -/
structure Completion where
  pair : Nat
  seq : Nat
  status : Nat
  detail : Nat
  value : Nat
  cirq : Bool
  deriving DecidableEq, Repr

/-- A partition (Table 14.1). -/
structure Part where
  cls : Nat
  flags : Nat
  prio : Nat
  engmask : Nat
  borrow : Nat
  fmask : Nat
  hbmBase : Nat
  hbmSize : Nat
  poolBase : Nat
  poolSize : Nat
  fshare : Nat
  lendq : Nat
  lendBase : Nat
  retryNs : Nat
  deriving DecidableEq, Repr

/-- A resident job (R386): what its image said when it was loaded, and its committed state. -/
structure Job where
  part : Nat
  slot : Nat
  prio : Nat
  image : Nat
  length : Nat
  cls : Nat
  nentry : Nat
  nstate : Nat
  ctx : Nat
  blockLimit : Nat
  entoff : Nat
  stoff : Nat
  /-- step counter (64 bits) and seeds s0..s3 -/
  step : Nat
  seeds : List Nat
  /-- bit b: STATE buffer b's committed half is half 1 -/
  sel : Nat
  /-- slots of the jobs behind which a job swapped out at its block limit stands (R395) -/
  behind : List Nat
  deriving DecidableEq, Repr

/-! ### Ledger (16) -/

/-- A ledger record (Table 16.5): header fields, payload, place in the record region, and the copies it is valid in. -/
structure LedRec where
  type : Nat
  lseq : Nat
  time : Nat
  payload : List Byte
  off : Nat
  in0 : Bool
  in1 : Bool
  /-- further commands (pair, SEQ) whose outcome the record holds: the publications of one group for one slot (R296) -/
  more : List (Nat × Nat)
  deriving DecidableEq, Repr

/-- The ledger and what the anchor's always-on domain holds about it. -/
structure Ledger where
  /-- committed records, oldest first -/
  recs : List LedRec
  /-- records issued and not yet committed (type, payload), oldest first -/
  queue : List (Nat × List Byte)
  next : Nat
  /-- device offset of the next record -/
  pos : Nat
  /-- bytes of records since the latest CHECKPOINT (R454) -/
  sinceCkpt : Nat
  ckpt : Nat
  copy0 : Bool
  copy1 : Bool
  noLedger : Bool
  pathFault : Bool
  accStop : Bool
  drop : Nat
  deriving DecidableEq, Repr

/-- The ledger after the format of R459: one FORMAT record at LSEQ 0 in both copies. -/
def Ledger.formatted (time : Nat) : Ledger where
  recs := [⟨0x08, 0, time, [], 0, true, true, []⟩]
  queue := []
  next := 1
  pos := 32
  sinceCkpt := 0
  ckpt := 0
  copy0 := true
  copy1 := true
  noLedger := false
  pathFault := false
  accStop := false
  drop := 0

/-! ### Power and reset (21) -/

/-- A recovery (R404) that waits for an image: kind of the reset, commands that it re-runs, and the RESET command whose completion
carries that number (R561). -/
structure Recovery where
  kind : Nat
  reruns : Nat
  cmd : Option (Nat × Nat)
  deriving DecidableEq, Repr

/-- What the power-management controller holds (21), beside its registers. -/
structure Power where
  cap : Nat
  /-- a POWER_CAP command whose change of point waits for a quiet instant: pair, SEQ, the code, when it began (TCLK) -/
  pendingCap : Option (Nat × Nat × Nat × Nat)
  throttle : Bool
  dIdle : Bool
  dStandby : Bool
  /-- engines waiting for the wake budget, in request order (R556) -/
  wakeq : List Nat
  /-- TCLK counts of the latest grant and of the end of its last stage (R556); none when there was none -/
  grant : Option (Nat × Nat)
  /-- compute die held in reset by THERMTRIP (R564) -/
  tripped : Bool
  /-- the device is out of the in-reset state of Table 21.8 -/
  good : Bool
  /-- HBM stacks awake in D-IDLE: TCLK count of the latest access, by stack -/
  hbmAwake : List (Nat × Nat)
  /-- PERST_N asserted; bus mastering enabled by the host -/
  perst : Bool
  busMaster : Bool
  /-- code on VID[5:0] (R586) -/
  vid : Nat
  /-- a recovery that has not run yet -/
  recovery : Option Recovery
  deriving DecidableEq, Repr

/-- The grade and fuses of the part (Table 0.1, R3): which the model leaves free to be any part's. -/
structure Fuse where
  /-- A grade (true) or S grade -/
  gradeA : Bool
  /-- X suffix (extended temperature) -/
  xSuffix : Bool
  /-- the 32-bit disabled-unit map -/
  dismap : BitVec 32
  serial : BitVec 64
  /-- STRAP_CAP, STRAP_SMB, STRAP_TEST as sampled (R591) -/
  strapCap : Nat
  strapSmb : Nat
  strapTest : Nat
  /-- anti-rollback counter (20) -/
  svn : Nat
  deriving DecidableEq, Repr

/-! ### Mirror (15) -/

/-- A replay in progress (R419 to R423). -/
structure Replay where
  /-- the REPLAY command -/
  id : Nat × Nat
  parts : Nat
  base : Nat
  size : Nat
  /-- journal offset of the next record -/
  pos : Nat
  pace : Bool
  stopDiv : Bool
  stopStep : Nat
  /-- slot and partition of STOP_STEP -/
  stopJob : Nat × Nat
  /-- the replay clock, in ns -/
  time : Nat
  /-- by partition: journal offset from which its next DIGEST record is looked for -/
  cursor : List (Nat × Nat)
  matched : Nat
  diverged : Bool
  relaxed : Bool
  deriving DecidableEq, Repr

/-- What Mirror holds beside its registers. -/
structure Mirror where
  base : Nat
  size : Nat
  carriers : Nat
  parts : Nat
  src : Nat
  jseq : Nat
  /-- records lost since the previous record (R418) -/
  gap : Nat
  replay : Option Replay
  /-- a replayed command held uncommitted (R422) -/
  held : Option (Nat × Nat)
  deriving DecidableEq, Repr

/-! ### Integrity (16) -/

/-- The UCIe link between the anchor and the compute die (R446 to R448). -/
structure UcieLink where
  /-- NCLK counts of the retries of the last 10 µs -/
  retries : List Nat
  retraining : Bool
  deriving DecidableEq, Repr

/-! ### Fronthaul and time (17) -/

/-- An assembly buffer (R469): the PRBs that have come, by their index in the block, each of 48 bytes. -/
structure Asm where
  port : Nat
  carrier : Nat
  n : Nat
  /-- block number of RxSlot -/
  blk : Nat
  prbs : List (Nat × List Byte)
  deriving DecidableEq, Repr

/-- A block that its port is to deliver (R286). -/
structure ReadyBlk where
  port : Nat
  carrier : Nat
  n : Nat
  blk : Nat
  bytes : List Byte
  deriving DecidableEq, Repr

/-- What FH_CONFIG sets for a port and no register holds: uplink and downlink compression, PRACH filter index, width of the
beamforming weights (Table 17.4, bytes 3 to 5). -/
structure FhComp where
  ul : Nat
  dl : Nat
  prach : Nat
  bfw : Nat
  deriving DecidableEq, Repr

/-- A stored frame that waits for its egress port (R475): frame without FCS, ingress stamp in 2^-16 ns for a PTP event message of a
transparent clock. -/
structure StoredFrame where
  egress : Nat
  bytes : List Byte
  stamp : Option Int
  deriving DecidableEq, Repr

/-- The ports' and the time unit's state that no register holds. -/
structure Front where
  asm : List Asm
  ready : List ReadyBlk
  /-- latest eCPRI sequence number by port · 65536 + eAxC, received and sent -/
  seqRx : List (Nat × Nat)
  seqTx : List (Nat × Nat)
  comp : List (Nat × FhComp)
  stored : List StoredFrame
  /-- the latest frame that each port sent, without FCS -/
  out : List (Nat × List Byte)
  /-- an inverted FCS was sent with it (R476) -/
  badFcs : List Nat
  /-- time-unit queue 13,056: port, stamp in 2^-16 ns, frame (R480) -/
  ptpIn : List (Nat × Int × List Byte)
  /-- slew not yet applied, in 2^-16 ns (R482) -/
  slew : Int
  /-- the offset held after a refusal (R484), in 2^-16 ns -/
  held : Option Int
  domain : Nat
  utc : Nat
  /-- 1PPS_OUT is high; the second that TOD_TX is to name; the latest sentences sent and received -/
  pps : Bool
  todDue : Option Nat
  todOut : List Byte
  todIn : List Byte
  deriving DecidableEq, Repr

/-! ### Brivel links (18) -/

/-- What the Brivel ports hold beside their registers. -/
structure Brivel where
  /-- a value of BRV_ROUTE that waits to take effect (R497) -/
  route : Option Nat
  /-- NCLK counts of the replays of the last 10 µs, by port (R501) -/
  replays : List (Nat × Nat)
  /-- the latest transit operation that each port forwarded, with its virtual channel (R495, Table 18.1) -/
  sent : List (Nat × Nat × FabItem)
  /-- the latest error response that each port sent for a transit operation: source device · 256 + unit, cause -/
  errs : List (Nat × Nat × Nat)
  deriving DecidableEq, Repr

/-! ### Sensor modem (19) -/

/-- A frame in reception (R514, R515): winning combination, its metric, and the PTP time in ns of the sync word once it is found. -/
structure ModRx where
  comb : Nat
  metric : Nat
  sync : Option Nat
  deriving DecidableEq, Repr

/-- A transmit descriptor that a channel has fetched (R518): its bytes, the STATUS and CAUSE with which it will complete, whether its
burst has started, and whether nothing of it is left to send. -/
structure Burst where
  desc : List Byte
  status : Nat
  cause : Nat
  started : Bool
  ended : Bool
  deriving DecidableEq, Repr

/-- A channel beside its registers: receive ring (fabric address, size, bytes written, stream, token counter), frame in reception, PTP
time in ns at which its latest burst ended, descriptors taken, burst. -/
structure ModCh where
  base : Nat
  size : Nat
  wptr : Nat
  stream : Nat
  tctr : Nat
  rx : Option ModRx
  lastTx : Option Nat
  taken : Nat
  burst : Option Burst
  deriving DecidableEq, Repr

def ModCh.reset : ModCh := ⟨0, 0, 0, 0, 0, none, none, 0, none⟩

/-- The JESD204C links (R508, R509) and the channels. -/
structure Modem where
  rxUp : Bool
  txUp : Bool
  ch : List ModCh
  deriving DecidableEq, Repr

/-! ### Boot and security (20) -/

/-- The verified image of the cache (R532): header fields and bytes. -/
structure Image where
  version : Nat
  svn : Nat
  type : Nat
  keyset : Nat
  bytes : List Byte
  deriving DecidableEq, Repr

/-- The security island and what the anchor keeps of the firmware (R527 to R540). -/
structure Secure where
  /-- identity keys are present (SEC_STATE.KEYS) -/
  keys : Bool
  /-- customer job-signing key pairs of the key store, by their number 0 to 3 -/
  custKeys : List Nat
  /-- the verified image of the cache -/
  image : Option Image
  /-- copies of the cache that hold it -/
  cached0 : Bool
  cached1 : Bool
  /-- ALARM_N is asserted -/
  alarmN : Bool
  /-- THERMTRIP_N is asserted -/
  thermN : Bool
  deriving DecidableEq, Repr


/-! ### The test access port (22) -/

/-- The TAP (R579, R580): instruction register, boundary register (its latched cells), and what the selected data register holds. -/
structure Jtag where
  ir : BitVec 8
  boundary : BitVec 412
  dr : BitVec 412
  deriving DecidableEq, Repr

/-- Cycle counts of the model's own clock (they stand for the passing of time; events that a count of cycles brings about move them forward). -/
structure Clock where
  aclk : Nat
  nclk : Nat
  tclk : Nat
  deriving DecidableEq, Repr

/-- Bad bits of a code block, as its syndromes (R431), or of an HBM code word (R598): (byte index, inverted bits). -/
inductive Ecc where
  | clean
  | sram (r : BitVec 8) (c : BitVec 64) (t : Bool)
  | hbm (bad : List (Nat × Byte))
  deriving DecidableEq, Repr

/-- The whole block. -/
structure State where
  /-- commands waiting, first in, first out -/
  pending : List Instr
  /-- the model's own counter of free values drawn (not the spec's) -/
  fresh : Nat
  clock : Clock
  /-- scratchpads, accumulator memories, Pool and HBM, by unit·2^52 + offset -/
  mem : List (Nat × Byte)
  /-- host memory, by PCIe bus address -/
  host : List (Nat × Byte)
  /-- registers and token counters, by unit·2^52 + offset (BAR0: unit 256) -/
  regs : List (Nat × Reg32)
  /-- bad bits of code blocks, by block address -/
  ecc : List (Nat × Ecc)
  /-- corrections waiting to be written back (R432), by block address -/
  writeback : List Nat
  fab : Fab
  eng : Vector Engine 8
  /-- published slots: carrier, slot counter (R306) -/
  published : List (Nat × Nat)
  carriers : List Carrier
  rx : List RxSlot
  ul : List UlSlot
  dl : List DlSlot
  /-- slot counter of the latest uplink request, by host pair (R293) -/
  lastUl : List (Nat × Nat)
  stages : List Stage
  /-- HARQ state: slot counter of the latest publication, by carrier, UE handle and process (R291) -/
  harq : List ((Nat × Nat × Nat) × Nat)
  captures : List Capture
  shadow : Shadow
  weights : List Weights
  facet : List Facet
  /-- bits [47:32] of the performance counters, sparse by the key of the LO word -/
  pmcHi : List (Nat × Nat)
  fuse : Fuse
  /-- queue descriptors by queue number (Table 13.3) -/
  queues : List (Nat × QueueDesc)
  cmds : List Cmd
  completions : List Completion
  /-- counter behind `Cmd.order` -/
  orderNo : Nat
  parts : Vector (Option Part) 8
  jobs : List Job
  /-- radio stage commands whose kill has ended, with why (R297, R307) -/
  stageKills : List ((Nat × Nat) × KillInfo)
  ledger : Ledger
  power : Power
  /-- the PTP clock in units of 2^-44 ns since the PTP epoch (R477) -/
  ptp : Nat
  /-- ports and other units that a configuration command has configured (R39) -/
  configured : List Nat
  /-- the bytes that the latest read by the host returned: the block's answer to the outside -/
  readOut : List Byte
  mirror : Mirror
  /-- window offset at which the scrubber of a unit reads next (R435), by unit -/
  scrub : List (Nat × Nat)
  /-- p of the line that the patrol of a stack reads next (R445), by stack -/
  patrol : List (Nat × Nat)
  ucie : UcieLink
  front : Front
  brivel : Brivel
  modem : Modem
  secure : Secure
  jtag : Jtag
  deriving DecidableEq, Repr

/-- The block right after reset. -/
def State.reset : State where
  pending := []
  fresh := 0
  clock := ⟨0, 0, 0⟩
  mem := []
  host := []
  regs := []
  ecc := []
  writeback := []
  fab := Fab.reset
  eng := Vector.replicate 8 Engine.reset
  published := []
  carriers := []
  rx := []
  ul := []
  dl := []
  lastUl := []
  stages := []
  harq := []
  captures := []
  shadow := ⟨15, 0, []⟩

  weights := []
  facet := List.replicate 8 Facet.reset
  pmcHi := []

  configured := []
  readOut := []
  fuse := ⟨true, false, 0, 0, 0, 0, 0, 0⟩
  queues := []
  cmds := []
  completions := []
  orderNo := 0
  parts := Vector.replicate 8 none
  jobs := []
  stageKills := []
  ledger := Ledger.formatted 0
  power := ⟨0, none, false, false, false, [], none, false, true, [], false, false, 0x19, none⟩
  ptp := 0

  mirror := ⟨0, 0, 0, 0, 0, 0, 0, none, none⟩

  scrub := []
  patrol := []
  ucie := ⟨[], false⟩

  front := ⟨[], [], [], [], [], [], [], [], [], 0, none, 0, 0, false, none, [], []⟩

  brivel := ⟨none, [], [], []⟩

  modem := ⟨false, false, List.replicate 8 ModCh.reset⟩

  secure := ⟨false, [], none, false, false, false, false⟩

  jtag := ⟨1, 0, 0x500C85AF⟩

end Sys2Proof.Machine
end

