-- ==== Sys2Proof/Machine/RegTable.lean ====
section
/-! DEFINITION. The register table: every register of the spec's field tables, with its place (Table 2.3, Table 13.1),
the access code and reset value of each field (R10), and who may write it. A register is named by
unit·2^52 + offset; BAR0 of the PCIe function stands as unit 256. -/
namespace Sys2Proof.Machine

/-- The access codes of Table 0.4. -/
inductive Acc where
  | rw | ro | w1c | w1s | wo | rwl
  deriving DecidableEq, Repr

/-- One row of a field table: bits [hi:lo], access code, reset value. -/
structure RegFld where
  hi : Nat
  lo : Nat
  acc : Acc
  reset : Nat
  deriving DecidableEq, Repr

/-- Who may write a register: any unit, or only the anchor, alone or with the host-window source or the consumer of a
receive ring; others fail with cause ACCESS. -/
inductive Who where
  | any | anchor | window | consumer
  deriving DecidableEq, Repr

/-- Registers of one shape: at off + stride·i + stride2·j for i < count, j < count2. `lock` is the bit of the same
register that governs its RWL fields (R12). -/
structure RegRow where
  off : Nat
  flds : List RegFld
  who : Who := .any
  lock : Option Nat := none
  stride : Nat := 4
  count : Nat := 1
  stride2 : Nat := 4
  count2 : Nat := 1
  deriving DecidableEq, Repr

/-- Whether the row has a register at `off`. -/
def RegRow.hits (r : RegRow) (off : Nat) : Bool :=
  decide (r.off ≤ off) && decide ((off - r.off) / r.stride < r.count)
    && decide ((off - r.off) % r.stride / r.stride2 < r.count2) && decide ((off - r.off) % r.stride % r.stride2 = 0)

/-- The reset value that a row's fields spell. -/
def RegRow.reset (r : RegRow) : Nat := r.flds.foldl (fun a f => a + f.reset * 2 ^ f.lo) 0

def rw (hi lo : Nat) (reset : Nat := 0) : RegFld := ⟨hi, lo, .rw, reset⟩
def ro (hi lo : Nat) (reset : Nat := 0) : RegFld := ⟨hi, lo, .ro, reset⟩
def w1c (hi lo : Nat) (reset : Nat := 0) : RegFld := ⟨hi, lo, .w1c, reset⟩
def w1s (hi lo : Nat) (reset : Nat := 0) : RegFld := ⟨hi, lo, .w1s, reset⟩
def wo (hi lo : Nat) (reset : Nat := 0) : RegFld := ⟨hi, lo, .wo, reset⟩
def rwl (hi lo : Nat) (reset : Nat := 0) : RegFld := ⟨hi, lo, .rwl, reset⟩

/-- Start of the control region of a unit window (Table 2.3). -/
def CTL : Nat := 0xFFFFFFF000000
/-- Start of the unit-specific registers (Table 2.3). -/
def CTU : Nat := 0xFFFFFFF400000
/-- Start of the token counters (Table 2.3). -/
def CTK : Nat := 0xFFFFFFF100000
/-- Start of the credit table (Table 2.3). -/
def CTC : Nat := 0xFFFFFFF200000
/-- Start of the mailbox and doorbell block (Table 2.3). -/
def CTM : Nat := 0xFFFFFFF300000

/-- The name of the register at offset `off` of unit `u`. -/
def key (u off : Nat) : Nat := u * 2 ^ 52 + off

/-- BAR0 stands as a unit of its own. -/
def BAR0 : Nat := 256

/-- Unit classes of Table 2.1. -/
inductive UnitClass where
  | engine | facet | port | time | modem | brivel | hbm | pool | mirror | anchor | ledger | hostWin | bar0 | unassigned
  deriving DecidableEq, Repr

/-- Table 2.1. -/
def unitClass (u : Nat) : UnitClass :=
  if u < 8 then .engine
  else if 0x10 ≤ u ∧ u < 0x18 then .facet
  else if 0x20 ≤ u ∧ u < 0x30 then .port
  else if u = 0x30 then .time
  else if u = 0x31 then .modem
  else if u = 0x34 ∨ u = 0x35 then .brivel
  else if u = 0x40 then .hbm
  else if u = 0x41 then .pool
  else if u = 0x48 then .mirror
  else if u = 0x60 then .anchor
  else if u = 0x61 then .ledger
  else if u = 0x62 then .hostWin
  else if u = BAR0 then .bar0
  else .unassigned

/-- Credit-table entries of a unit (Table 2.9). -/
def creditEntries : UnitClass → Nat
  | .engine | .hbm | .pool | .brivel => 1024
  | .facet | .port | .anchor | .time | .modem | .mirror => 256
  | _ => 0

/-- Ingress credits of a unit (Table 2.9). -/
def ingressCredits : UnitClass → Nat
  | .engine => 4096
  | .hbm | .pool => 8192
  | .brivel => 2048
  | .facet => 1024
  | .port | .anchor => 512
  | .time | .modem | .mirror => 256
  | _ => 0

/-- Fabric registers of every unit: Tables 2.12 to 2.14, 16.7, token counters (R51), credit table (Tables 2.6, 2.7). -/
def fabricRows (c : UnitClass) : List RegRow := [
  { off := CTL, flds := [w1c 0 0, w1c 1 1, w1c 2 2, ro 31 3] },
  { off := CTL + 4, flds := [ro 3 0, ro 7 4, ro 15 8, ro 31 16] },
  { off := CTL + 8, flds := [ro 31 0] },
  { off := CTL + 0xC, flds := [ro 31 0] },
  { off := CTL + 0x10, flds := [ro 15 0, ro 31 16] },
  { off := CTK, flds := [rw 31 0], count := 4096 },
  { off := CTC, flds := [rw 15 0, rw 31 16], who := .anchor, stride := 8, count := creditEntries c },
  { off := CTC + 4, flds := [rw 11 0, rw 23 12, rw 29 24, rw 30 30, rw 31 31], who := .anchor, stride := 8, count := creditEntries c }]

/-- Table 16.7, in every unit that holds an SRAM. -/
def eccRows : List RegRow := [
  { off := CTL + 0x100, flds := [w1c 0 0, w1c 1 1, wo 2 2, ro 7 3, ro 15 8, ro 31 16], who := .anchor },
  { off := CTL + 0x104, flds := [ro 31 0], count := 2, who := .anchor },
  { off := CTL + 0x10C, flds := [ro 31 0], who := .anchor },
  { off := CTL + 0x110, flds := [ro 31 0], who := .anchor },
  { off := CTL + 0x114, flds := [rw 15 0 0x40, rw 31 16], who := .anchor },
  { off := CTL + 0x118, flds := [ro 31 0], who := .anchor },
  { off := CTL + 0x11C, flds := [rw 2 0, w1s 3 3, rw 7 4, rw 15 8, rw 31 16], who := .anchor }]

/-- Table 13.9 and Table 13.13: mailbox and doorbell block from offset `b`. -/
def mailboxRows (b : Nat) : List RegRow := [
  { off := b, flds := [rw 31 0], stride := 0x80, count := 32, count2 := 16 },
  { off := b + 0x40, flds := [w1s 0 0, w1c 1 1, ro 15 2, ro 23 16, ro 31 24], stride := 0x80, count := 32 },
  { off := b + 0x44, flds := [rw 15 0, rw 31 16], stride := 0x80, count := 32 },
  { off := b + 0x48, flds := [rw 11 0, rw 19 12, rw 30 20, rw 31 31], stride := 0x80, count := 32 },
  { off := b + 0x1000, flds := [w1c 31 0] },
  { off := b + 0x1004, flds := [w1s 31 0] },
  { off := b + 0x1008, flds := [rw 31 0 0xFFFFFFFF] },
  { off := b + 0x100C, flds := [ro 31 0] }]

/-- Engine registers: Tables 3.11 to 3.14. -/
def engineRows : List RegRow := [
  { off := CTU, flds := [ro 2 0, ro 7 3, ro 10 8, ro 31 11] },
  { off := CTU + 4, flds := [wo 0 0, wo 1 1, wo 2 2, wo 31 3], who := .anchor },
  { off := CTU + 8, flds := [ro 2 0, w1c 3 3, ro 15 4, ro 31 16] },
  { off := CTU + 0xC, flds := [rw 25 0, rw 31 26], who := .anchor },
  { off := CTU + 0x10, flds := [rw 25 0, rw 31 26], who := .anchor },
  { off := CTU + 0x14, flds := [rw 25 0, rw 31 26], who := .anchor },
  { off := CTU + 0x18, flds := [ro 25 0, ro 31 26] },
  { off := CTU + 0x1C, flds := [ro 7 0, w1c 8 8, ro 15 9, ro 31 16], who := .anchor },
  { off := CTU + 0x20, flds := [ro 25 0, ro 31 26] },
  { off := CTU + 0x24, flds := [rw 31 0 0xFFFFFFFF], who := .anchor },
  { off := CTU + 0x28, flds := [ro 31 0] },
  { off := CTU + 0x100, flds := [ro 31 0], stride := 16, count := 8, count2 := 3 },
  { off := CTU + 0x10C, flds := [ro 0 0, ro 1 1, ro 2 2, ro 3 3, ro 31 4], stride := 16, count := 8 }]
/-- Array registers (Tables 5.6 to 5.9) and those of scaling and quantisation (Tables 6.5 to 6.7). -/
def arrayRows : List RegRow := [
  { off := CTU + 0x10000, flds := [w1c 0 0, w1c 1 1, ro 2 2, ro 3 3, ro 31 4], who := .anchor, stride := 16, count := 64 },
  { off := CTU + 0x10004, flds := [ro 11 0, ro 16 12, ro 22 17, ro 24 23, ro 25 25, ro 31 26], stride := 16, count := 64 },
  { off := CTU + 0x10008, flds := [ro 31 0], stride := 16, count := 64 },
  { off := CTU + 0x1000C, flds := [ro 4 0, ro 7 5, ro 8 8, ro 15 9, ro 20 16, ro 23 21, ro 24 24, ro 31 25], stride := 16, count := 64 },
  { off := CTU + 0x10400, flds := [wo 5 0, wo 6 6, wo 7 7, wo 8 8, wo 31 9], who := .anchor },
  { off := CTU + 0x10410, flds := [ro 31 0], count := 4 },
  { off := CTU + 0x10420, flds := [ro 3 0, ro 7 4, w1c 8 8, ro 15 9, ro 21 16, ro 31 22], who := .anchor },
  { off := CTU + 0x10424, flds := [ro 25 0, ro 31 26] }]

/-- Tables 6.5 to 6.7. -/
def quantRows : List RegRow := [
  { off := CTU + 0x200, flds := [rw 31 0], who := .anchor, count := 6 },
  { off := CTU + 0x220, flds := [w1c 0 0, ro 3 1, ro 7 4, ro 17 8, ro 31 18], who := .anchor },
  { off := CTU + 0x224, flds := [ro 15 0, ro 31 16] },
  { off := CTU + 0x240, flds := [ro 31 0], count := 4 },
  { off := CTU + 0x250, flds := [wo 0 0, wo 31 1], who := .anchor },
  { off := CTU + 0x300, flds := [rw 15 0, rw 31 16], who := .anchor, stride := 8, count := 16 },
  { off := CTU + 0x304, flds := [rw 15 0, rw 16 16, rw 17 17, rw 18 18, ro 19 19, rw 31 20], who := .anchor, stride := 8, count := 16 }]

/-- Tables 7.14 and 7.15. -/
def vectorRows : List RegRow := [
  { off := CTU + 0x20000, flds := [ro 3 0, ro 7 4, w1c 8 8, ro 11 9, ro 31 12], who := .anchor },
  { off := CTU + 0x20004, flds := [ro 25 0, ro 26 26, ro 31 27] },
  { off := CTU + 0x20010, flds := [ro 31 0], count := 3 },
  { off := CTU + 0x2001C, flds := [wo 0 0, wo 31 1], who := .anchor },
  { off := CTU + 0x20020, flds := [ro 31 0], count := 2 },
  { off := CTU + 0x20028, flds := [w1c 0 0, ro 1 1, ro 31 2], who := .anchor },
  { off := CTU + 0x2002C, flds := [ro 28 0, ro 31 29] }]

/-- Tables 8.6 and 8.7. -/
def signalRows : List RegRow := [
  { off := CTU + 0x30000, flds := [w1c 0 0, w1c 1 1, w1c 2 2, ro 3 3, ro 31 4], who := .anchor },
  { off := CTU + 0x30004, flds := [ro 3 0, ro 7 4, w1c 8 8, ro 15 9, ro 21 16, ro 31 22], who := .anchor },
  { off := CTU + 0x30008, flds := [ro 25 0, ro 31 26] }]


/-- Tables 9.6 to 9.8. -/
def streamRows : List RegRow := [
  { off := CTU + 0x40000, flds := [ro 3 0, ro 7 4, w1c 8 8, ro 15 9, ro 25 16, ro 31 26], who := .anchor },
  { off := CTU + 0x40004, flds := [ro 25 0, ro 31 26], who := .anchor },
  { off := CTU + 0x40008, flds := [ro 11 0, ro 15 12, w1c 16 16, ro 17 17, ro 31 18], who := .anchor },
  { off := CTU + 0x4000C, flds := [rw 15 0 0x1000, rw 31 16], who := .anchor },
  { off := CTU + 0x40010, flds := [ro 31 0], who := .anchor, count := 4 },
  { off := CTU + 0x40020, flds := [wo 0 0, wo 31 1], who := .anchor },
  { off := CTU + 0x40100, flds := [rw 25 0, rw 31 26], who := .anchor, stride := 16, count := 8, count2 := 3 },
  { off := CTU + 0x4010C, flds := [rw 0 0, rw 2 1 1, rw 31 3], who := .anchor, stride := 16, count := 8 }]


/-- Facet registers (Tables 11.11, 11.12). -/
def facetRows : List RegRow := [
  { off := CTU, flds := [ro 0 0, ro 5 1, ro 31 6], who := .anchor },
  { off := CTU + 4, flds := [wo 4 0, wo 5 5, wo 31 6], who := .anchor },
  { off := CTU + 8, flds := [rw 15 0 0x1000, rw 31 16], who := .anchor },
  { off := CTU + 0xC, flds := [rw 31 0 0x2000], who := .anchor },
  { off := CTU + 0x10, flds := [ro 3 0, ro 7 4, w1c 8 8, ro 15 9, ro 20 16, ro 31 21], who := .anchor },
  { off := CTU + 0x14, flds := [ro 31 0], who := .anchor },
  { off := CTU + 0x20, flds := [ro 31 0], who := .anchor, count := 3 },
  { off := CTU + 0x2C, flds := [wo 0 0, wo 31 1], who := .anchor }]


/-- Mirror registers (Tables 15.5, 15.6). -/
def mirrorRows : List RegRow := [
  { off := CTU, flds := [ro 0 0, ro 1 1, w1c 2 2, w1c 3 3, w1c 4 4, ro 31 5], who := .anchor },
  { off := CTU + 4, flds := [ro 31 0], who := .anchor, count := 3 },
  { off := CTU + 0x20, flds := [ro 31 0], who := .anchor, count := 6 },
  { off := CTU + 0x40, flds := [ro 31 0], who := .anchor, count := 16 }]


/-- Fronthaul port registers (Tables 17.5, 17.6). -/
def portRows : List RegRow := [
  { off := CTU, flds := [rw 2 0, rw 3 3, rw 4 4, rw 6 5, rw 7 7 1, rw 31 8], who := .anchor },
  { off := CTU + 4, flds := [ro 0 0, ro 1 1, ro 31 2], who := .anchor },
  { off := CTU + 8, flds := [rw 31 0], who := .anchor },
  { off := CTU + 0xC, flds := [rw 15 0, rw 31 16], who := .anchor },
  { off := CTU + 0x10, flds := [rw 31 0], who := .anchor },
  { off := CTU + 0x14, flds := [rw 15 0, rw 31 16], who := .anchor },
  { off := CTU + 0x18, flds := [rw 31 0], who := .anchor, count := 2 },
  { off := CTU + 0x20, flds := [rw 11 0, rw 14 12 7, rw 31 15], who := .anchor },
  { off := CTU + 0x24, flds := [rw 15 0, rw 31 16], who := .anchor },
  { off := CTU + 0x28, flds := [rw 31 0], who := .anchor, count := 2 },
  { off := CTU + 0x3C, flds := [wo 0 0, wo 31 1], who := .anchor },
  { off := CTU + 0x40, flds := [ro 31 0], who := .anchor, count := 16 },
  { off := CTU + 0x100, flds := [rw 31 0], who := .anchor, stride := 16, count := 64 },
  { off := CTU + 0x104, flds := [rw 15 0, rw 27 16, rw 28 28, rw 30 29, rw 31 31], who := .anchor, stride := 16, count := 64 },
  { off := CTU + 0x108, flds := [rw 3 0, rw 31 4], who := .anchor, stride := 16, count := 64 }]

/-- Time-unit registers (Table 17.7). -/
def timeRows : List RegRow := [
  { off := CTU, flds := [rw 0 0, rw 1 1, rw 2 2, rw 3 3, rw 4 4, rw 31 5], who := .anchor },
  { off := CTU + 4, flds := [ro 0 0, w1c 1 1, ro 2 2, w1c 3 3, ro 31 4], who := .anchor },
  { off := CTU + 8, flds := [ro 31 0], who := .anchor, count := 4 },
  { off := CTU + 0x18, flds := [rw 31 0], who := .anchor, count := 3 },
  { off := CTU + 0x24, flds := [rw 31 0 0x64], who := .anchor },
  { off := CTU + 0x28, flds := [rw 31 0 0x3E8], who := .anchor },
  { off := CTU + 0x2C, flds := [ro 31 0], who := .anchor, count := 2 },
  { off := CTU + 0x34, flds := [rw 31 0], who := .anchor, count := 2 },
  { off := CTU + 0x3C, flds := [rw 3 0, rw 31 4], who := .anchor },
  { off := CTU + 0x40, flds := [ro 29 0, ro 31 30], who := .anchor },
  { off := CTU + 0x44, flds := [ro 15 0, ro 31 16], who := .anchor }]


/-- Brivel port registers (Tables 18.3, 18.4); BRV_ROUTE and BRV_CHAINID exist only in unit 0x34. -/
def brivelRows (u : Nat) : List RegRow := [
  { off := CTU, flds := [rw 0 0, rw 1 1, rw 31 2], who := .anchor },
  { off := CTU + 4, flds := [ro 1 0, w1c 2 2, w1c 3 3, ro 31 4], who := .anchor },
  { off := CTU + 8, flds := [ro 3 0, ro 8 4, ro 15 9, ro 31 16], who := .anchor },
  { off := CTU + 0xC, flds := [ro 31 0], who := .anchor, count := 3 },
  { off := CTU + 0x18, flds := [wo 0 0, wo 31 1], who := .anchor }]
  ++ (if u = 0x34 then [
  { off := CTU + 0x20, flds := [rw 31 0], who := .anchor },
  { off := CTU + 0x28, flds := [rw 31 0], who := .anchor, count := 2 }] else [])


/-- Sensor modem registers (Tables 19.4, 19.5); MOD_c_RDPTR also takes writes from its ring's consumer (R521). -/
def modemRows : List RegRow := [
  { off := CTU, flds := [rw 0 0, rw 3 1, rw 31 4], who := .anchor },
  { off := CTU + 4, flds := [ro 0 0, w1c 1 1, w1c 2 2, w1c 3 3, ro 31 4], who := .anchor },
  { off := CTU + 8, flds := [ro 31 0], who := .anchor },
  { off := CTU + 0xC, flds := [wo 0 0, wo 31 1], who := .anchor },
  { off := CTU + 0x10, flds := [rw 7 0, rw 31 8], who := .anchor, count := 32 },
  { off := CTU + 0x600, flds := [rw 15 0, rw 31 16], who := .anchor, count := 64 },
  { off := CTU + 0x100, flds := [rw 0 0, rw 1 1, rw 2 2, rw 3 3 1, rw 11 4, rw 19 12 0x20, rw 27 20 0x20, rw 31 28],
    who := .anchor, stride := 0x80, count := 8 },
  { off := CTU + 0x104, flds := [rw 31 0], who := .anchor, stride := 0x80, count := 8, count2 := 2 },
  { off := CTU + 0x10C, flds := [rw 15 0 0x4000, rw 31 16], who := .anchor, stride := 0x80, count := 8 },
  { off := CTU + 0x110, flds := [rw 18 0, rw 21 19, rw 22 22, rw 23 23, rw 31 24], who := .anchor, stride := 0x80, count := 8,
    count2 := 8 },
  { off := CTU + 0x130, flds := [ro 31 0], who := .anchor, stride := 0x80, count := 8, count2 := 2 },
  { off := CTU + 0x138, flds := [rw 31 0], who := .consumer, stride := 0x80, count := 8 }]


/-- Security registers (Tables 20.8, 20.9); the fused fields are read from the fuses. -/
def secRows : List RegRow := [
  { off := 0, flds := [ro 31 0], who := .anchor, count := 4 },
  { off := 0x10, flds := [ro 2 0, ro 3 3, ro 31 4], who := .anchor },
  { off := 0x14, flds := [ro 7 0, ro 15 8, ro 23 16 0xFF, ro 31 24], who := .anchor },
  { off := 0x18, flds := [ro 7 0, ro 15 8, ro 31 16], who := .anchor },
  { off := 0x1C, flds := [ro 31 0], who := .anchor },
  { off := 0x20, flds := [ro 6 0, ro 7 7, ro 14 8, ro 31 15], who := .anchor },
  { off := 0x24, flds := [ro 4 0, ro 31 5], who := .anchor },
  { off := 0x28, flds := [ro 9 0, ro 10 10, ro 31 11], who := .anchor }]


/-- Performance counters of one block with `n` counters at offset `b` (Table 22.6). -/
def pmcRows (b n : Nat) : List RegRow := [
  { off := b, flds := [rw 0 0, rw 1 1, wo 2 2, rw 31 3], who := .anchor },
  { off := b + 4, flds := [w1c 15 0, ro 31 16], who := .anchor },
  { off := b + 0x10, flds := [rw 7 0, rw 9 8, rw 15 10, rw 31 16], who := .anchor, stride := 16, count := n },
  { off := b + 0x14, flds := [ro 31 0], who := .anchor, stride := 16, count := n },
  { off := b + 0x18, flds := [ro 15 0, ro 31 16], who := .anchor, stride := 16, count := n }]

/-- ENG_PMC_QSEL and the Loupe registers (Tables 22.6, 22.7). -/
def loupeRows : List RegRow := [
  { off := CTU + 0x50008, flds := [rw 9 0, rw 31 10], who := .anchor },
  { off := CTU + 0x50200, flds := [rw 0 0, rw 5 1, rw 31 6], who := .anchor },
  { off := CTU + 0x50204, flds := [rw 31 0], who := .anchor, count := 4 },
  { off := CTU + 0x50214, flds := [ro 31 0], who := .anchor },
  { off := CTU + 0x50218, flds := [rw 31 0], who := .window },
  { off := CTU + 0x5021C, flds := [ro 31 0], who := .anchor, count := 2 }]

/-- Device fabric registers (Tables 2.15, 2.16) and power registers (Table 21.10), in the anchor window. -/
def anchorRows : List RegRow := [
  { off := CTL + 0x1000, flds := [rwl 3 0, rwl 8 4 1, ro 30 9, w1s 31 31], who := .anchor, lock := some 31 },
  { off := CTL + 0x1004, flds := [w1c 31 0], who := .anchor },
  { off := CTL + 0x1100, flds := [rw 7 0, rw 15 8, rw 31 16], who := .anchor, stride := 16, count := 32 },
  { off := CTL + 0x1104, flds := [rw 0 0, rw 15 1, rw 31 16 0x400], who := .anchor, stride := 16, count := 32 },
  { off := CTL + 0x1108, flds := [ro 31 0], who := .anchor, stride := 16, count := 32 },
  { off := CTU + 0x100, flds := [ro 1 0, ro 2 2, ro 3 3, ro 7 4, ro 15 8 0xFF, ro 23 16, ro 31 24], who := .anchor },
  { off := CTU + 0x104, flds := [ro 15 0, ro 31 16], who := .anchor },
  { off := CTU + 0x108, flds := [rw 3 0 4, rw 31 4], who := .anchor },
  { off := CTU + 0x10C, flds := [rw 15 0 0x100, rw 31 16], who := .anchor },
  { off := CTU + 0x110, flds := [ro 2 0, ro 7 3, ro 11 8 6, ro 15 12, ro 23 16, ro 31 24], who := .anchor },
  { off := CTU + 0x114, flds := [ro 31 0], who := .anchor }]

/-- Ledger registers (Table 16.8): views of the ledger. -/
def ledgerRows : List RegRow := [
  { off := CTU, flds := [ro 0 0 1, ro 1 1 1, ro 2 2, ro 3 3, ro 4 4, ro 31 5], who := .anchor },
  { off := CTU + 4, flds := [ro 31 0 1], who := .anchor },
  { off := CTU + 8, flds := [ro 31 0], who := .anchor },
  { off := CTU + 0xC, flds := [ro 31 0], count := 2, who := .anchor },
  { off := CTU + 0x14, flds := [ro 31 0 0x02FFFFE0], who := .anchor },
  { off := CTU + 0x18, flds := [ro 31 0], who := .anchor }]

/-- BAR0 (Tables 13.1, 13.2, 13.11, R375). The MSI-X table's layout is that of the PCI Express standard. -/
def bar0Rows : List RegRow := [
  { off := 0x1000, flds := [rw 31 0], count := 12 },
  { off := 0x1040, flds := [rw 0 0, rw 31 1] },
  { off := 0x10000, flds := [rw 31 0], stride := 16, count := 2048 },
  { off := 0x10004, flds := [ro 31 0], stride := 16, count := 2048, count2 := 2 },
  { off := 0x1000C, flds := [rw 31 0], stride := 16, count := 2048 },
  { off := 0x18000, flds := [ro 0 0, w1c 1 1, ro 2 2, ro 3 3, ro 31 4], stride := 16, count := 2048 },
  { off := 0x18004, flds := [ro 31 0], stride := 16, count := 2048, count2 := 2 },
  { off := 0x1800C, flds := [wo 0 0, wo 31 1], stride := 16, count := 2048 },
  { off := 0x30000, flds := [ro 31 0], stride := 16, count := 16, count2 := 2 },
  { off := 0x30008, flds := [ro 0 0, ro 1 1, ro 6 2, ro 31 7], stride := 16, count := 16 },
  { off := 0x30100, flds := [w1c 0 0, w1c 1 1, ro 31 2] },
  { off := 0x30104, flds := [ro 31 0], count := 2 },
  { off := 0x40000, flds := [rw 31 0], stride := 16, count := 2048, count2 := 3 },
  { off := 0x4000C, flds := [rw 0 0 1, ro 31 1], stride := 16, count := 2048 },
  { off := 0x48000, flds := [ro 31 0], count := 64 }]

/-- The registers of a unit. -/
def unitRows (u : Nat) : List RegRow :=
  match unitClass u with
  | .engine => fabricRows .engine ++ eccRows ++ mailboxRows CTM ++ engineRows ++ arrayRows ++ quantRows ++ vectorRows ++ signalRows ++ streamRows
    ++ pmcRows (CTU + 0x50000) 16 ++ loupeRows
  | .anchor => fabricRows .anchor ++ eccRows ++ mailboxRows CTM ++ anchorRows
    ++ (List.range 16).flatMap fun n => pmcRows (CTU + 0x10000 + 0x100 * n) 8
  | .ledger => fabricRows .ledger ++ ledgerRows
  | .hbm => fabricRows .hbm ++ eccRows ++ [{ off := CTL + 0x120, flds := [ro 31 0 2], who := .anchor }]
  | .bar0 => bar0Rows ++ secRows
  | .facet => fabricRows .facet ++ eccRows ++ facetRows
  | .port => fabricRows .port ++ eccRows ++ portRows ++ pmcRows (CTU + 0x10000) 8
  | .time => fabricRows .time ++ eccRows ++ timeRows
  | .brivel => fabricRows .brivel ++ eccRows ++ brivelRows u ++ pmcRows (CTU + 0x10000) 8
  | .modem => fabricRows .modem ++ eccRows ++ modemRows
  | .mirror => fabricRows .mirror ++ eccRows ++ mirrorRows
  | .pool => fabricRows .pool ++ eccRows
  | .hostWin => fabricRows .hostWin
  | .unassigned => []

/-- The row of the register named `a`, when there is one (R8). -/
def regRow (a : Nat) : Option RegRow := (unitRows (a / 2 ^ 52)).find? fun r => r.hits (a % 2 ^ 52)

/-- What register `a` reads as when nothing has written it: its reset value, 0 where no register is. -/
def regReset (a : Nat) : Reg32 :=
  match regRow a with
  | some r => BitVec.ofNat 32 r.reset
  | none => 0

end Sys2Proof.Machine
end

