-- ==== Sys2Proof/Machine/Ops.lean ====
section
/-! DEFINITION. The named operations over registers, token counters, memory with its codes (16), the ledger's queue,
engines and commands. Every meaning goes through these. -/
namespace Sys2Proof.Machine

/-- A meaning's answer. -/
abbrev Out := Host.Outcome State Fault Refusal

/-! ### Registers -/

/-- The value that register `a` holds. -/
def State.reg (s : State) (a : Nat) : Reg32 := Sparse.get regReset s.regs a

/-- Put a value into register `a`. -/
def State.setReg (s : State) (a : Nat) (v : Reg32) : State :=
  { s with regs := Sparse.set regReset s.regs a v }

/-- The value of register `a` as a number. -/
def State.regN (s : State) (a : Nat) : Nat := (s.reg a).toNat

/-- Put a number into register `a`. -/
def State.setRegN (s : State) (a : Nat) (v : Nat) : State := s.setReg a (BitVec.ofNat 32 v)

/-- Field [hi:lo] of register `a`. -/
def State.fld (s : State) (a hi lo : Nat) : Nat := bits (s.regN a) hi lo

/-- Put `v` into field [hi:lo] of register `a`. -/
def State.setFld (s : State) (a hi lo v : Nat) : State := s.setRegN a (setBits (s.regN a) hi lo v)

/-- Add to a count register that saturates at 2^32 − 1. -/
def State.countUp (s : State) (a n : Nat) : State := s.setRegN a (satAdd 0xFFFFFFFF (s.regN a) n)

/-- Write a 64-bit value into the register pair at `a` (low word) and `a + 4`. -/
def State.setReg64 (s : State) (a v : Nat) : State := (s.setRegN a (v % 2 ^ 32)).setRegN (a + 4) (v / 2 ^ 32)

/-- The 64-bit value of the register pair at `a`. -/
def State.reg64 (s : State) (a : Nat) : Nat := s.regN a + 2 ^ 32 * s.regN (a + 4)

/-- The device's own chain number (R36). -/
def State.ownChain (s : State) : Nat := s.fld (key 0x60 (CTL + 0x1000)) 3 0

/-! ### Token counters (R51) -/

/-- Name of token counter `k` of unit `u`. -/
def tokKey (u k : Nat) : Nat := key u (CTK + 4 * k)

/-- Token counter `k` of unit `u`. -/
def State.tok (s : State) (u k : Nat) : Reg32 := s.reg (tokKey u k)

/-- Add an increment to a token counter, modulo 2^32 (R51). -/
def State.addTok (s : State) (u k inc : Nat) : State :=
  if inc = 0 then s else s.setReg (tokKey u k) (s.tok u k + BitVec.ofNat 32 inc)

/-! ### Engines -/

/-- Replace engine `e`. -/
def State.setEng (s : State) (e : Fin 8) (en : Engine) : State := { s with eng := s.eng.set e en }

/-- Change engine `e`. -/
def State.modEng (s : State) (e : Fin 8) (f : Engine → Engine) : State := s.setEng e (f s.eng[e])

/-- Scalar register read: X0 reads as zero (R87). -/
def Engine.rx (en : Engine) (r : BitVec 5) : Word := if r = 0 then 0 else en.x[r.toFin]

/-- Scalar register write: writes to X0 are discarded (R87). -/
def Engine.wx (en : Engine) (r : BitVec 5) (v : Word) : Engine :=
  if r = 0 then en else { en with x := en.x.set r.toFin v }

/-- The engine a unit number names, when it names one. -/
def engOf (u : Nat) : Option (Fin 8) := if h : u < 8 then some ⟨u, h⟩ else none

/-! ### Grade (R1, R4) -/

/-- Logical engines, and Facet decoders, of the grade. -/
def State.nEngines (s : State) : Nat := if s.fuse.gradeA then 8 else 6

/-- Bytes of HBM of the grade. -/
def State.hbmBytes (s : State) : Nat := if s.fuse.gradeA then 0x1800000000 else 0xC00000000

/-- Carriers at 100 MHz of the grade (Table 0.1). -/
def State.nCarriers (s : State) : Nat := if s.fuse.gradeA then 24 else 16

/-! ### Memory regions (Table 2.2) -/

/-- Memory codes of FAB_ECC_STATUS.MEM (Table 16.7) for the memories with a fabric window. -/
def SCRATCH : Nat := 0
def SIGMEM : Nat := 1
def ACCUM : Nat := 2
def POOLMEM : Nat := 6
def HBMMEM : Nat := 7

/-- Bytes of an engine's scratchpad. -/
def SPAD : Nat := 0x2800000
/-- Offset of the signal memory in the scratchpad. -/
def SIGBASE : Nat := 0x2780000
/-- Offset of array `a`'s accumulator memory. -/
def accBase (a : Nat) : Nat := 0x10000000 + a * 0x20000

/-- The memory region that holds [off, off + n) of unit `u` whole: its memory code (Table 2.2). -/
def State.region (s : State) (u off n : Nat) : Option Nat :=
  match unitClass u with
  | .engine =>
    if off + n ≤ SPAD then some (if SIGBASE ≤ off then SIGMEM else SCRATCH)
    else if 0x10000000 ≤ off ∧ off + n ≤ 0x10800000 ∧ (off - 0x10000000) % 0x20000 + n ≤ 0x20000 then some ACCUM
    else none
  | .hbm => if off + n ≤ s.hbmBytes then some HBMMEM else none
  | .pool => if off + n ≤ 0x4000000 then some POOLMEM else none
  | _ => none

/-- The memory code of one byte of a unit's window. -/
def State.memCode (s : State) (a : Nat) : Nat := (s.region (a / 2 ^ 52) (a % 2 ^ 52) 1).getD SCRATCH

/-- Size of the code block that protects byte `a` (R430, R442). -/
def State.blockSize (s : State) (a : Nat) : Nat := if s.memCode a = HBMMEM then 32 else 64

/-- What an unlisted byte of memory reads as: the memories are zeroed (R557, Table 21.7). -/
def memZero (_ : Nat) : Byte := 0

/-- The canonical form of a memory. -/
def Memory.wf (m : List (Nat × Byte)) : Bool := Sparse.wf memZero m

/-- What an unlisted code block holds: no bad bit. -/
def eccClean (_ : Nat) : Ecc := .clean

/-- The device's memories, the host's memory, the register file and the code blocks are each in canonical form. -/
def State.canonical (s : State) : Bool :=
  Memory.wf s.mem && Memory.wf s.host && Sparse.wf regReset s.regs && Sparse.wf eccClean s.ecc

/-! ### The codes (R430 to R434, R442, R598) -/

/-- The verdict of a read (Table 16.2, R442). -/
inductive Verdict where
  | clean
  /-- data byte `k` of the block is corrected by inverting the bits of `mask` -/
  | fix (k : Nat) (mask : Byte)
  /-- only a check bit is bad -/
  | check
  | uncorr
  deriving DecidableEq, Repr

/-- Whether exactly one bit of `v` is set. -/
def oneBit (v : Nat) : Bool := decide (v ≠ 0) && decide (v &&& (v - 1) = 0)

/-- Table 16.2 for the product code; R442 for an HBM code word. -/
def Ecc.verdict : Ecc → Verdict
  | .clean => .clean
  | .sram r c t =>
    let R := r.toNat
    let C := c.toNat
    if R = 0 ∧ C = 0 ∧ t = false then .clean
    else if oneBit R ∧ oneBit C ∧ t = true then
      .fix (Nat.log2 R * 8 + Nat.log2 C / 8) (BitVec.ofNat 8 (2 ^ (Nat.log2 C % 8)))
    else if oneBit R ∧ C = 0 ∧ t = false then .check
    else if R = 0 ∧ oneBit C ∧ t = false then .check
    else if R = 0 ∧ C = 0 ∧ t = true then .check
    else .uncorr
  | .hbm bad =>
    match bad with
    | [] => .clean
    | [(k, m)] => if k < 32 then .fix k m else .check
    | _ => .uncorr

/-- The code block that byte `a` belongs to. -/
def State.blockOf (s : State) (a : Nat) : Nat := a / s.blockSize a * s.blockSize a

/-- What the code block at `b` holds. -/
def State.eccAt (s : State) (b : Nat) : Ecc := Sparse.get eccClean s.ecc b

/-- The stored byte at `a`. -/
def State.rawByte (s : State) (a : Nat) : Byte := Sparse.get memZero s.mem a

/-- The byte that a read of `a` returns, corrected by its block's code (R432). -/
def State.byte (s : State) (a : Nat) : Byte :=
  match (s.eccAt (s.blockOf a)).verdict with
  | .fix k m => if a = s.blockOf a + k then s.rawByte a ^^^ m else s.rawByte a
  | _ => s.rawByte a

/-- `n` bytes from `a`, as a read that passes returns them. -/
def State.bytes (s : State) (a n : Nat) : List Byte := (List.range n).map fun i => s.byte (a + i)

/-- Put one stored byte. -/
def State.putByte (s : State) (a : Nat) (b : Byte) : State := { s with mem := Sparse.set memZero s.mem a b }

/-- Put stored bytes from `a` on. -/
def putBytes (m : List (Nat × Byte)) (a : Nat) : List Byte → List (Nat × Byte)
  | [] => m
  | b :: bs => putBytes (Sparse.set memZero m a b) (a + 1) bs

/-- Set what code block `b` holds. -/
def State.setEcc (s : State) (b : Nat) (e : Ecc) : State := { s with ecc := Sparse.set eccClean s.ecc b e }

/-! ### The ledger's queue -/

/-- Issue a ledger record; LEDGER_COMMIT commits it (R453). -/
def State.ledgerIssue (s : State) (type : Nat) (payload : List Byte) : State :=
  { s with ledger := { s.ledger with queue := s.ledger.queue ++ [(type, payload)] } }

/-- An EVENT record (Table 14.5): status code, unit, detail (8 bytes). -/
def State.event (s : State) (status unit detail : Nat) : State :=
  s.ledgerIssue 0x05 (toLE 1 status ++ toLE 1 unit ++ toLE 8 detail)

/-! ### Reads and writes through the checkers -/

/-- Record an uncorrectable error at block `b` (R434, R438, R439, Table 16.7). -/
def State.recordUncorr (s : State) (b : Nat) : State :=
  let u := b / 2 ^ 52
  let st := key u (CTL + 0x100)
  let s1 := s.countUp (key u (CTL + 0x110)) 1
  let s2 :=
    if s1.fld st 0 0 = 1 then s1.setFld st 1 1 1
    else ((s1.setFld st 0 0 1).setFld st 15 8 (s1.memCode b)).setReg64 (key u (CTL + 0x104)) (b % 2 ^ 52)
  s2.event 0x06 u (s.memCode b * 2 ^ 52 + b % 2 ^ 52)

/-- One read of code block `b`: counts and queues a correction, or records an uncorrectable error (R432, R434). -/
def State.touch (s : State) (b : Nat) : State × Bool :=
  match (s.eccAt b).verdict with
  | .clean => (s, true)
  | .uncorr => (s.recordUncorr b, false)
  | _ =>
    let s1 := s.countUp (key (b / 2 ^ 52) (CTL + 0x10C)) 1
    ({ s1 with writeback := if b ∈ s1.writeback then s1.writeback else s1.writeback ++ [b] }, true)

/-- Read code blocks in order, stopping at the first uncorrectable one. -/
def State.touchAll (s : State) : List Nat → State × Bool
  | [] => (s, true)
  | b :: bs =>
    match s.touch b with
    | (s1, true) => s1.touchAll bs
    | (s1, false) => (s1, false)

/-- The code blocks that [a, a + n) meets, ascending. -/
def State.blocksOf (s : State) (a n : Nat) : List Nat :=
  if n = 0 then []
  else
    let z := s.blockSize a
    (List.range ((a + n - 1) / z - a / z + 1)).map fun i => (a / z + i) * z

/-- Only the blocks that some code entry makes other than clean need a read of their own. -/
def State.dirtyBlocks (s : State) (a n : Nat) : List Nat :=
  (s.ecc.map (·.1)).filter fun b => decide (a < b + s.blockSize b) && decide (b < a + n)

/-- The read of [a, a + n) through its checkers. -/
def State.check (s : State) (a n : Nat) : State × Bool := s.touchAll (if n = 0 then [] else s.dirtyBlocks a n)

/-- Read `n` bytes from `a`: none when a block is uncorrectable. -/
def State.read (s : State) (a n : Nat) : State × Option (List Byte) :=
  match s.check a n with
  | (s1, true) => (s1, some (s.bytes a n))
  | (s1, false) => (s1, none)

/-- Return block `b` to corrected contents with fresh check bits, and drop its write-back (R432). -/
def State.mend (s : State) (b : Nat) : State :=
  let s1 := match (s.eccAt b).verdict with
    | .fix k m => s.putByte (b + k) (s.rawByte (b + k) ^^^ m)
    | _ => s
  { s1.setEcc b .clean with writeback := s1.writeback.filter (· ≠ b) }

def State.mendAll (s : State) : List Nat → State
  | [] => s
  | b :: bs => (s.mend b).mendAll bs

/-- The corruption of an armed FAB_ECC_INJ pattern (Tables 16.7 and 16.9), applied to the block just written whole. -/
def injData (hbm : Bool) (p : Nat) : List (Nat × Byte) :=
  if hbm then
    match p with
    | 1 => [(0, 1)] | 3 => [(0, 3)] | 4 => [(0, 1), (1, 1)] | 5 => [(0, 1)] | 6 => [(0, 1), (1, 1), (2, 1)]
    | 7 => [(0, 1), (1, 1)] | _ => []
  else
    match p with
    | 1 => [(0, 1)] | 4 => [(0, 3)] | 5 => [(0, 1), (8, 1)] | 6 => [(0, 1), (8, 2)] | 7 => [(0, 1)] | _ => []

/-- The bad bits that the pattern leaves, as a read of the block meets them. -/
def injEcc (hbm : Bool) (p : Nat) : Ecc :=
  if hbm then
    match p with
    | 1 => .hbm [(0, 1)] | 2 => .hbm [(32, 1)] | 3 => .hbm [(0, 3)] | 4 => .hbm [(0, 1), (1, 1)]
    | 5 => .hbm [(0, 1), (32, 1)] | 6 => .hbm [(0, 1), (1, 1), (2, 1)] | 7 => .hbm [(0, 1), (1, 1), (32, 1)]
    | _ => .clean
  else
    match p with
    | 1 => .sram 1 1 true | 2 => .sram 1 0 false | 3 => .sram 0 1 false | 4 => .sram 0 3 false
    | 5 => .sram 3 0 false | 6 => .sram 3 3 false | 7 => .sram 0 1 true | _ => .clean

/-- Store an armed pattern into the whole block `b` (R461, R598); ARM then clears. -/
def State.inject (s : State) (b : Nat) : State :=
  let inj := key (b / 2 ^ 52) (CTL + 0x11C)
  let p := s.fld inj 2 0
  let hbm := decide (s.memCode b = HBMMEM)
  let s1 := (injData hbm p).foldl (fun t f => t.putByte (b + f.1) (t.rawByte (b + f.1) ^^^ f.2)) s
  (s1.setEcc b (injEcc hbm p)).setFld inj 3 3 0

/-- Write bytes at `a` (R433, R434, R443): false, and nothing written, when a partly covered block is uncorrectable. -/
def State.write (s : State) (a : Nat) (bs : List Byte) : State × Bool :=
  let n := bs.length
  if n = 0 then (s, true)
  else
    let z := s.blockSize a
    let dirty := s.dirtyBlocks a n
    let part := dirty.filter fun b => decide (b < a) || decide (a + n < b + z)
    match s.touchAll part with
    | (s1, false) => (s1, false)
    | (s1, true) =>
      let s2 := s1.mendAll dirty
      let s3 := { s2 with mem := putBytes s2.mem a bs }
      let inj := key (a / 2 ^ 52) (CTL + 0x11C)
      let b0 := ceilDiv a z * z
      if s3.fld inj 3 3 = 1 ∧ s3.fld inj 15 8 = s3.memCode a ∧ b0 + z ≤ a + n then (s3.inject b0, true)
      else (s3, true)

/-- Write bytes at `a` where no code stands in the way (hardware initialisation, whole-block writes). -/
def State.poke (s : State) (a : Nat) (bs : List Byte) : State := (s.write a bs).1

/-- Leave [a, a + n) undefined: each byte a free value (R79, R160, R175, R230, R279). -/
def State.undef (s : State) (a n : Nat) : State :=
  { s with
    mem := putBytes s.mem a ((List.range n).map fun i => Config.freeByte (s.fresh + i))
    fresh := s.fresh + n }

def State.undefAll (s : State) : List (Nat × Nat) → State
  | [] => s
  | r :: rs => (s.undef r.1 r.2).undefAll rs

/-- A free 64-bit value; the counter advances. -/
def State.draw (s : State) : Word × State := (Config.freeWord s.fresh, { s with fresh := s.fresh + 1 })

/-! ### Host memory -/

/-- `n` bytes of host memory. -/
def State.hostBytes (s : State) (a n : Nat) : List Byte := (List.range n).map fun i => Sparse.get memZero s.host (a + i)

/-- The device writes host memory. -/
def State.hostWrite (s : State) (a : Nat) (bs : List Byte) : State := { s with host := putBytes s.host a bs }

/-! ### Partitions and ownership (R382, R383) -/

/-- The partition that is home to engine `e`. -/
def State.homePart (s : State) (e : Nat) : Option (Fin 8) :=
  (List.finRange 8).find? fun p => match s.parts[p] with
    | some q => bit q.engmask e
    | none => false

/-- The partition that borrows engine `e`. -/
def State.borrowPart (s : State) (e : Nat) : Option (Fin 8) :=
  (List.finRange 8).find? fun p => match s.parts[p] with
    | some q => bit q.borrow e
    | none => false

/-- The accepted command (pair, SEQ). -/
def State.cmdOf (s : State) (id : Nat × Nat) : Option Cmd :=
  s.cmds.find? fun c => decide (c.pair = id.1) && decide (c.seq = id.2)

/-- Change the accepted command (pair, SEQ). -/
def State.modCmd (s : State) (id : Nat × Nat) (f : Cmd → Cmd) : State :=
  { s with cmds := s.cmds.map fun c => if c.pair = id.1 ∧ c.seq = id.2 then f c else c }

/-- Packet field: parameter bytes i..i+n−1 (R362). -/
def Cmd.param (c : Cmd) (i n : Nat) : Nat := fieldLE c.pkt (16 + i) n

/-- The partition whose command runs on engine `e`, else its home partition. -/
def State.ownerPart (s : State) (e : Fin 8) : Option (Fin 8) :=
  match s.eng[e].cmd with
  | some id => match s.cmdOf id with
    | some c => if h : fieldLE c.pkt 2 1 < 8 then some ⟨fieldLE c.pkt 2 1, h⟩ else s.homePart e
    | none => s.homePart e
  | none => s.homePart e

/-- Whether a partition is flagged relaxed (Table 14.1). -/
def State.relaxed (s : State) (p : Option (Fin 8)) : Bool :=
  match p with
  | some q => match s.parts[q] with
    | some r => bit r.flags 0
    | none => false
  | none => false

/-- Whether a partition is REALTIME. -/
def State.isRealtime (s : State) (p : Option (Fin 8)) : Bool :=
  match p with
  | some q => match s.parts[q] with
    | some r => decide (r.cls = 0)
    | none => false
  | none => false

/-! ### Stopping an engine (R110, R112) -/

/-- Whether an operation belongs to a streamer descriptor of engine `e`. -/
def Owner.ofEng (e : Fin 8) : Owner → Bool
  | .desc j _ => decide (j = e)
  | _ => false

/-- A tagged instruction of a killed command. -/
def Tag.kill (g : Tag) : Tag := { g with killed := true }

/-- Discard the descriptors that have not started and abort those that have: bytes that an aborted descriptor had
in hand become undefined (R175, R230, R248, R279), operations not yet issued are not issued (R279), no completion
increment is applied (R110). -/
def State.abortUnits (s : State) (e : Fin 8) : State :=
  let en := s.eng[e]
  let s0 := s.undefAll (en.started.flatMap (·.wrote))
  let s1 := { s0 with fab := { s0.fab with waiting := s0.fab.waiting.filter fun x => !(x.owner.ofEng e) } }
  s1.modEng e fun en => { en with queue := [], started := [], aborting := true, wait := .none, tags := en.tags.map Tag.kill }

/-- Kill the command on engine `e` (R80, R110): units abort, STATE is KILLING until they have acknowledged. An engine
that is idle, or already being killed, keeps its state. -/
def State.killEng (s : State) (e : Fin 8) (k : KillInfo) : State :=
  match s.eng[e].state with
  | .idle | .killing | .trapped => s
  | _ =>
    let s1 := s.abortUnits e
    s1.setEng e { s1.eng[e] with state := .killing, kill := some k }

/-- Kill the whole command that runs on engine `e`: every engine on which it runs (R80). -/
def State.killCmdOn (s : State) (e : Fin 8) (k : KillInfo) : State :=
  match s.eng[e].cmd with
  | none => s.killEng e k
  | some id => (List.finRange 8).foldl (fun t j => if t.eng[j].cmd = some id then t.killEng j k else t) s

/-- Record a trap (R112, R114) and start the abort. -/
def State.trap (s : State) (e : Fin 8) (cause detail status : Nat) : State :=
  let t := key e (CTU + 0x1C)
  let s1 :=
    if s.fld t 8 8 = 1 then s
    else (s.setRegN t (cause + 0x100 + detail % 2 ^ 16 * 2 ^ 16)).setRegN (key e (CTU + 0x20)) (s.eng[e].pc.toNat % 2 ^ 26)
  let s2 := s1.abortUnits e
  s2.setEng e { s2.eng[e] with state := .trapped, kill := some ⟨.final, status, cause + 256 * (detail % 256)⟩ }

/-! ### Recording a failed operation (Table 2.8) -/

/-- Record a failure in the unit's fabric registers: the first until ERR is cleared (R83). -/
def State.recordErr (s : State) (r : ErrItem) : State :=
  let b := key r.unit CTL
  if s.fld b 0 0 = 1 then s.setFld b 1 1 1
  else
    ((s.setFld b 0 0 1).setRegN (b + 4) (r.cause + 256 * r.opcode + 2 ^ 16 * r.stream)).setReg64 (b + 8) r.addr

/-- Status of the killed command for a fabric failure cause (Table 2.10). -/
def causeStatus (c : Nat) : Nat :=
  if c = 2 then 0x0D else if c = 9 then 0x06 else if c = 0xA then 0x07 else 0x0C

end Sys2Proof.Machine
end

