-- ==== Sys2Proof/Machine/LedgerOps.lean ====
section
/-! DEFINITION. The ledger (16, 14): placing and committing records, checkpoints, free space, and the outcome of a
command (R402, R403). -/
namespace Sys2Proof.Machine

/-- Bytes of a ledger's record region (R450). -/
def LEDREGION : Nat := 0x3000000

/-- Bytes a record occupies: header and padded payload (R451). -/
def recSize (payload : List Byte) : Nat := 32 + ceilDiv payload.length 32 * 32

/-- Pair and SEQ that a record of types ACCEPT, COMMIT, COMPLETE and KILL begins with. -/
def LedRec.id (r : LedRec) : Nat × Nat := (fieldLE r.payload 0 2, fieldLE r.payload 2 8)

/-- The commands whose outcome a record holds. -/
def LedRec.ids (r : LedRec) : List (Nat × Nat) := r.id :: r.more

/-- Whether a record is open (R454): the latest copy of an ACCEPT without its COMMIT, or of a COMMIT without the COMPLETE of each of
its commands. -/
def Ledger.isOpen (l : Ledger) (r : LedRec) : Bool :=
  let later := l.recs.filter fun x => decide (r.lseq < x.lseq)
  (decide (r.type = 1) && !(later.any fun x => (decide (x.type = 2) || decide (x.type = 1)) && decide (r.id ∈ x.ids)))
    || (decide (r.type = 2) && !(later.any fun x => decide (x.type = 2) && decide (x.id = r.id))
      && r.ids.any fun i => !(later.any fun x => decide (x.type = 3) && decide (x.id = i)))

/-- Whether a record may be overwritten (R456): older than the latest CHECKPOINT and not open. -/
def Ledger.mayDrop (l : Ledger) (r : LedRec) : Bool := decide (r.lseq < l.ckpt) && !(l.isOpen r)

/-- Free space (R456): the part of the record region that may be overwritten. -/
def Ledger.free (l : Ledger) : Nat :=
  LEDREGION - (l.recs.filter fun r => !(l.mayDrop r)).foldl (fun a r => a + recSize r.payload) 0

/-- The oldest LSEQ still held (Table 16.8). -/
def Ledger.oldest (l : Ledger) : Nat :=
  match l.recs with
  | r :: _ => r.lseq
  | [] => l.next

/-- Place a record after the last (R452): at offset 0 when it would cross the end; what it overwrites is gone. -/
def Ledger.append (l : Ledger) (type time : Nat) (payload : List Byte) (more : List (Nat × Nat) := []) : Ledger :=
  let n := recSize payload
  let off := if l.pos + n ≤ LEDREGION then l.pos else 0
  let lost : LedRec → Bool := fun r =>
    (decide (r.off < off + n) && decide (off < r.off + recSize r.payload)) || (decide (off < l.pos) && decide (l.pos ≤ r.off))
  { l with
    recs := (l.recs.filter fun r => !(lost r)) ++ [⟨type, l.next, time, payload, off, l.copy0, l.copy1, more⟩]
    next := l.next + 1
    pos := off + n
    sinceCkpt := l.sinceCkpt + n }

/-- PTP time in ns since the PTP epoch (R477). -/
def State.ptpNs (s : State) : Nat := s.ptp / 2 ^ 44

/-- TIME of a ledger record (Table 16.5). -/
def State.ledTime (s : State) : Nat := s.ptpNs % 2 ^ 64

/-- The pairs that are configured. -/
def State.validPairs (s : State) : List Nat :=
  (s.queues.filter fun q => q.2.valid && decide (q.1 < 4096) && decide (q.1 % 2 = 0)).map fun q => q.1 / 2

/-- Registers of host pair `p` (Table 13.1). -/
def qTail (p : Nat) : Nat := key BAR0 (0x10000 + 16 * p)
def qAcc (p : Nat) : Nat := qTail p + 4
def qCtail (p : Nat) : Nat := qTail p + 8
def qChead (p : Nat) : Nat := qTail p + 0xC
def qStatus (p : Nat) : Nat := key BAR0 (0x18000 + 16 * p)
def qNextseq (p : Nat) : Nat := qStatus p + 4

/-- The payload of a CHECKPOINT record (R454): ACC, NEXTSEQ and CTAIL of every valid pair, the LSEQ of every open record. -/
def State.checkpointPayload (s : State) : List Byte :=
  let ps := s.validPairs
  let open_ := (s.ledger.recs.filter s.ledger.isOpen).map (·.lseq)
  (toLE 2 ps.length ++ (ps.flatMap fun p =>
      toLE 2 p ++ toLE 4 (s.regN (qAcc p)) ++ toLE 8 (s.reg64 (qNextseq p)) ++ toLE 4 (s.regN (qCtail p)))
    ++ toLE 2 open_.length ++ open_.flatMap (toLE 8)).take 4064

/-- Write again each open record that the write position is about to reach (R454). -/
def Ledger.rewriteOpen (l : Ledger) (time : Nat) : Ledger :=
  (l.recs.filter fun r => l.isOpen r && decide ((r.off + LEDREGION - l.pos) % LEDREGION < 0x800000)
      && decide (r.lseq + 1 < l.next)).foldl
    (fun m r => m.append r.type time r.payload r.more) l

/-- Commit one record (R453): append it, write a CHECKPOINT after each 4 MiB of records (R454). -/
def State.ledgerCommit (s : State) (type : Nat) (payload : List Byte) (more : List (Nat × Nat) := []) : State :=
  let t := s.ledTime
  let l1 := (s.ledger.append type t payload more).rewriteOpen t
  let s1 := { s with ledger := l1 }
  if l1.sinceCkpt < 0x400000 then s1
  else
    let l2 := l1.append 0x07 t s1.checkpointPayload
    { s1 with ledger := { l2 with ckpt := l1.next, sinceCkpt := 0 } }

/-- The bytes that begin a record about a command: pair, SEQ. -/
def idBytes (id : Nat × Nat) : List Byte := toLE 2 id.1 ++ toLE 8 id.2

/-- The ledger path commits records (R458). -/
def Ledger.up (l : Ledger) : Bool := !l.pathFault && !l.noLedger

/-- The outcome of an accepted command (R403): its one COMMIT record with the values the commit sets, and a completion
to be written (R370). A command that already has its outcome keeps it; a replayed command ends without either (R420); with
the ledger path out of service nothing commits (R458). -/
def State.finish (s : State) (id : Nat × Nat) (status detail value : Nat) (values : List Byte := []) : State :=
  match s.cmdOf id with
  | none => s
  | some c =>
    if c.replay then { s with cmds := s.cmds.filter fun x => !(decide (x.pair = id.1) && decide (x.seq = id.2)) }
    else if c.phase = .done ∨ s.ledger.up = false then s
    else
      let s1 := s.ledgerCommit 0x02 (idBytes id ++ toLE 1 status ++ toLE 2 detail ++ toLE 4 value ++ values)
      let s2 := s1.modCmd id fun c => { c with phase := .done }
      { s2 with completions := s2.completions ++
          [⟨id.1, id.2, status, detail % 2 ^ 16, value % 2 ^ 32, bit (fieldLE c.pkt 1 1) 1⟩] }

/-- Status codes of Table 13.8. -/
def OK : Nat := 0x00
def OK_EMPTY : Nat := 0x01
def KILLED : Nat := 0x02
def SCALE_SKEW : Nat := 0x03
def NONFINITE_FLAG : Nat := 0x05
def ECC_UNCORR : Nat := 0x06
def RESET_ABORT : Nat := 0x07
def DEADLINE_MISS : Nat := 0x08
def ADMIT_REFUSED : Nat := 0x09
def SIG_FAIL : Nat := 0x0A
def ROLLBACK : Nat := 0x0B
def BAD_PARAM : Nat := 0x0C
def NO_RESOURCE : Nat := 0x0D

/-- Reserve of R456: 1 MiB, and 1 KiB for each accepted command without a COMPLETE record. -/
def State.ledgerReserve (s : State) : Nat := 2 ^ 20 + 1024 * (s.cmds.filter fun c => !c.replay).length

/-- The accepted commands of one ring that have no outcome yet, in acceptance order. -/
def State.openCmds (s : State) (p : Nat) : List Cmd :=
  s.cmds.filter fun c => decide (c.pair = p) && decide (c.phase ≠ .done)

end Sys2Proof.Machine
end

