-- ==== Sys2Proof/Machine/FacetOps.lean ====
section
/-! DEFINITION. What the other chapters need of the Facet decoders (11): their work queues (R308), whether a queue has work
left (R309), and FLUSH (R334). -/
namespace Sys2Proof.Machine

/-- Decoder `f`. -/
def State.fct (s : State) (f : Nat) : Facet := s.facet.getD f Facet.reset

/-- Change decoder `f`. -/
def State.modFct (s : State) (f : Nat) (g : Facet → Facet) : State := { s with facet := s.facet.set f (g (s.fct f)) }

/-- The descriptor that firmware sets up for work queue `q` of decoder `f` (R308): usable while its partition has the decoder. -/
def State.facetDesc (s : State) (f q : Nat) : QueueDesc :=
  let p := Config.facetPart f q % 8
  match if h : p < 8 then s.parts[p] else none with
  | none => QueueDesc.none
  | some r =>
    if bit r.fmask f = false then QueueDesc.none
    else
      { ring := Config.facetRing f q % 2 ^ 58 * 64
        log2size := 4 + Config.facetLog2 f q % 17
        part := p
        level := if r.cls = 0 then Config.facetLevel f q % 8 else min (Config.facetLevel f q % 8) 6
        valid := true
        type := 2
        stream := Config.facetStream f q % 2 ^ 16
        msix := 0xFFFF
        seqbase := 0 }

/-- Descriptors taken from queue `q` of decoder `f`. -/
def State.fctTaken (s : State) (f q : Nat) : Nat := Sparse.get (fun _ => 0) (s.fct f).taken q

/-- Queue `q` of decoder `f` is ready (R309): its token counter has reached the count plus 1, under R102. -/
def State.fctReady (s : State) (f q : Nat) : Bool :=
  decide ((s.tok (0x10 + f) q - BitVec.ofNat 32 (s.fctTaken f q + 1)).toNat < 2 ^ 31)

/-- Queue `q` of decoder `f` has a descriptor that has not ended. -/
def State.fctBusy (s : State) (f q : Nat) : Bool :=
  s.fctReady f q || (match (s.fct f).cur with
    | some w => decide (w.queue = q)
    | none => false)

/-- Operations of decoder `f` no longer concern a descriptor. -/
def Fab.forget (b : Fab) (f : Nat) : Fab :=
  let own : Owner → Bool := fun o => match o with
    | .facet g => decide (g.val = f)
    | _ => false
  let off : FabItem → FabItem := fun x => if own x.owner then { x with owner := .none } else x
  { b with
    waiting := b.waiting.filter fun x => !(own x.owner)
    flight := b.flight.map off
    ingress := b.ingress.map fun i => if own i.owner then { i with owner := .none } else i
    rets := b.rets.map fun r => { r with item := off r.item } }

/-- Kinds of Table 11.1. -/
def fctKind (d : List Byte) : Nat := fieldLE d 0 1 % 16

/-- Bytes that a descriptor writes, as (fabric address, length): its output, and for LDPC_DEC the combined soft bits. -/
def fctOutputs (d : List Byte) : List (Nat × Nat) :=
  let out := fieldLE d 40 8
  let e := fieldLE d 8 4 % 2 ^ 18
  match fctKind d with
  | 1 => [(out, ceilDiv (fieldLE d 4 2 % 2 ^ 14) 8)] ++ (if bit (fieldLE d 0 1) 7 then [(fieldLE d 32 8, fieldLE d 12 2 % 2 ^ 15)] else [])
  | 2 => [(out, ceilDiv e 8)]
  | 3 => [(out, ceilDiv (fieldLE d 2 2 - (if bit (fieldLE d 4 1) 0 then 11 else 6)) 8)]
  | 4 => [(out, ceilDiv (fieldLE d 8 4) 8)]
  | 5 => if bit (fieldLE d 6 1) 0 then [(out, if bits (fieldLE d 1 1) 7 6 = 2 then 3 else 2)] else []
  | _ => []

/-- The outputs of a descriptor that lie in memories of the own device become undefined (R333, R334). -/
def State.fctUndef (s : State) (d : List Byte) : State :=
  s.undefAll ((fctOutputs d).filterMap fun r =>
    let a := r.1 % 2 ^ 60
    if r.1 / 2 ^ 60 = 0xF ∧ (s.region (a / 2 ^ 52) (a % 2 ^ 52) r.2).isSome then some (a, r.2) else none)

/-- FLUSH of queue `q` of decoder `f` (R334): the taken count becomes the token counter, the descriptor in progress stops, what it
would have written is undefined, and no status record is written. -/
def State.fctFlush (s : State) (f q : Nat) : State :=
  let hit := match (s.fct f).cur with
    | some w => decide (w.queue = q)
    | none => false
  let s1 := s.modFct f fun d => { d with
    taken := Sparse.set (fun _ => 0) d.taken q (s.tok (0x10 + f) q).toNat
    cur := if hit then none else d.cur
    aged := Sparse.set (fun _ => 0) d.aged q 0 }
  match hit, (s.fct f).cur with
  | true, some w => ({ s1 with fab := s1.fab.forget f } : State).fctUndef w.desc
  | _, _ => s1

/-- The kill of a command flushes each Facet queue that it owns (R334). -/
def State.fctFlushAll (s : State) (qs : List (Nat × Nat)) : State := qs.foldl (fun t x => t.fctFlush (x.1 % 8) (x.2 % 32)) s

end Sys2Proof.Machine
end

