-- ==== Sys2Proof/Machine/JobOps.lean ====
section
/-! DEFINITION. How the command that owns an engine ends when it is killed or trapped (R80, R110, R112, R334, R396, R578),
and the count of timing-dependent choices (R425). -/
namespace Sys2Proof.Machine

/-- Ids of commands from 0x10000 on are the radio stage commands that the anchor runs (R295, R304). -/
def isStage (id : Nat × Nat) : Bool := decide (0x10000 ≤ id.1)

/-- The resident job in slot `j` of partition `p`. -/
def State.jobAt (s : State) (p j : Nat) : Option Job :=
  s.jobs.find? fun x => decide (x.part = p) && decide (x.slot = j)

/-- The job of a JOB_CMD. -/
def State.jobOf (s : State) (c : Cmd) : Option Job := s.jobAt (fieldLE c.pkt 2 1) (c.param 0 1)

/-- The 64 bytes of command entry `n` of a resident job's image (R385). -/
def State.jobEntry (s : State) (j : Job) (n : Nat) : List Byte := s.bytes (key 0x40 (j.image + j.entoff + 64 * n)) 64

/-- The entry that a JOB_CMD runs, as bytes. -/
def State.entryOf (s : State) (c : Cmd) : List Byte :=
  match s.jobOf c with
  | some j => s.jobEntry j (c.param 2 2)
  | none => []

/-- RERUN_MAX of a JOB_CMD's entry (R385). -/
def State.rerunMax (s : State) (c : Cmd) : Nat :=
  match s.jobOf c with
  | some j => fieldLE (s.jobEntry j (c.param 2 2)) 2 1
  | none => 0

/-- First-failure records of an engine (R578): valid register and bit, and the words of the record. -/
def engErrRecs : List (Nat × Nat × List Nat) := [
  (CTL, 0, [CTL + 4, CTL + 8, CTL + 0xC]),
  (CTU + 0x1C, 8, [CTU + 0x1C, CTU + 0x20]),
  (CTU + 0x10420, 8, [CTU + 0x10420, CTU + 0x10424]),
  (CTU + 0x20000, 8, [CTU + 0x20000, CTU + 0x20004]),
  (CTU + 0x30004, 8, [CTU + 0x30004, CTU + 0x30008]),
  (CTU + 0x40000, 8, [CTU + 0x40000, CTU + 0x40004]),
  (CTU + 0x220, 0, [CTU + 0x220, CTU + 0x224])]

/-- First-failure records of a Facet decoder (R578). -/
def fctErrRecs : List (Nat × Nat × List Nat) := [
  (CTL, 0, [CTL + 4, CTL + 8, CTL + 0xC]),
  (CTU + 0x10, 8, [CTU + 0x10, CTU + 0x14])]

/-- The records of unit `u` that are valid, as bytes, and the state with their VALID bits cleared. -/
def State.takeErr (s : State) (u : Nat) : List (Nat × Nat × List Nat) → List Byte × State
  | [] => ([], s)
  | r :: rs =>
    if s.fld (key u r.1) r.2.1 r.2.1 = 1 then
      let w := toLE 1 u ++ r.2.2.flatMap fun o => toLE 4 (s.regN (key u o))
      let t := (s.setFld (key u r.1) r.2.1 r.2.1 0).takeErr u rs
      (w ++ t.1, t.2)
    else s.takeErr u rs

/-- One EVENT record of the first-failure records of every unit that failed (R578). -/
def State.errorLog (s : State) : State :=
  let a := (List.range 8).foldl (fun (a : List Byte × State) u =>
    let t := a.2.takeErr u engErrRecs
    (a.1 ++ t.1, t.2)) ([], s)
  let b := (List.range 8).foldl (fun (a : List Byte × State) f =>
    let t := a.2.takeErr (0x10 + f) fctErrRecs
    (a.1 ++ t.1, t.2)) a
  if b.1.isEmpty then s else b.2.ledgerIssue 0x05 b.1

/-- A KILL record (Table 14.5): cause and re-run count; none for a replayed command (R420). -/
def State.killRecord (s : State) (id : Nat × Nat) (cause reruns : Nat) : State :=
  if (s.cmdOf id).any (·.replay) then s else s.ledgerCommit 0x04 (idBytes id ++ toLE 1 cause ++ toLE 2 reruns)

/-- Swap the command out: it awaits its re-run (R392, R395). -/
def State.swapOut (s : State) (id : Nat × Nat) (counted : Nat) : State :=
  { s.modCmd id (fun c => { c with phase := .swapped, reruns := c.reruns + counted, reruns2 := c.reruns2 + 1, order := s.orderNo })
    with orderNo := s.orderNo + 1 }

/-- Settle a killed command once every engine on which it ran has stopped: it completes, or awaits a re-run (R396). -/
def State.settle (s : State) (id : Nat × Nat) (k : KillInfo) : State :=
  let s1 := (List.finRange 8).foldl (fun (t : State) j =>
    if t.eng[j].cmd = some id then t.modEng j (fun en => { en with cmd := none, ended := false }) else t) s
  if isStage id then { s1 with stageKills := s1.stageKills ++ [(id, k)] }
  else
    match s1.cmdOf id with
    | none => s1
    | some c =>
      let s2 := s1.fctFlushAll (Config.facetQueues (s1.entryOf c))
      match k.why with
      | .final => s2.errorLog.finish id k.status k.detail c.reruns2
      | .uncounted => s2.swapOut id 0
      | .fault =>
        if c.reruns < s2.rerunMax c then s2.swapOut id 1
        else (s2.errorLog.killRecord id k.status c.reruns).finish id k.status k.detail c.reruns2
      | .preempt =>
        if c.reruns < s2.rerunMax c then s2.swapOut id 1
        else (s2.errorLog.killRecord id KILLED c.reruns).finish id KILLED 0 c.reruns2

/-- Whether an engine of the command has an abort that has not ended. -/
def State.stillStopping (s : State) (id : Nat × Nat) : Bool :=
  (List.finRange 8).any fun j => decide (s.eng[j].cmd = some id) && s.eng[j].aborting

/-- After the abort on engine `e` has ended: settle its command if every engine of it has stopped. -/
def State.settleIf (s : State) (e : Fin 8) : State :=
  match s.eng[e].cmd, s.eng[e].kill with
  | some id, some k => if s.stillStopping id then s else s.settle id k
  | _, _ => s

/-- A trap on engine `e` (R112): the engine stops, and the other engines of its command are stopped with it. -/
def State.trapCmd (s : State) (e : Fin 8) (cause detail status : Nat) : State :=
  let s1 := s.trap e cause detail status
  match s.eng[e].cmd with
  | none => s1
  | some id => (List.finRange 8).foldl (fun t j =>
      if j ≠ e ∧ t.eng[j].cmd = some id then t.killEng j ⟨.final, status, cause + 256 * (detail % 256)⟩ else t) s1

/-- A fault under R80 on engine `e`: the command that owns it is killed. -/
def State.faultKill (s : State) (e : Fin 8) (status detail : Nat) : State := s.killCmdOn e ⟨.fault, status, detail⟩

/-- MIR_DYN_CHOICES_p (Table 15.6). -/
def dynKey (p : Nat) : Nat := key 0x48 (CTU + 0x40 + 8 * p)

/-- One timing-dependent choice of partition `p` (R425). -/
def State.dynChoice (s : State) (p : Option (Fin 8)) : State :=
  match p with
  | some q => s.setReg64 (dynKey q.val) ((s.reg64 (dynKey q.val) + 1) % 2 ^ 64)
  | none => s

end Sys2Proof.Machine
end

