-- ==== Sys2Proof/Machine/Num.lean ====
section
/-! DEFINITION. Number formats and arithmetic rules (04): exact values, the one rounding, encodings, and the
dot-product rule of the arrays. Every value is an exact dyadic number until it is rounded once. -/
namespace Sys2Proof.Machine

/-- A value of any format: NaN, an infinity, or (−1)^neg × m × 2^e exactly (zeros keep their sign). -/
inductive Val where
  | nan
  | inf (neg : Bool)
  | fin (neg : Bool) (m : Nat) (e : Int)
  deriving DecidableEq, Repr

/-- The rounding modes of R137 and R138; `sr r` carries the 24-bit integer of the generator. -/
inductive Rnd where
  | rne | rtz
  | sr (r : Nat)
  deriving DecidableEq, Repr

/-- A floating-point format of Table 4.1 by its field widths and bias; `ieee` false marks E4M3 (no infinity, one NaN
mantissa), `e2m1` marks the format without special codes. -/
structure FFmt where
  width : Nat
  man : Nat
  bias : Nat
  ieee : Bool
  e2m1 : Bool
  deriving DecidableEq, Repr

def fE4M3 : FFmt := ⟨8, 3, 7, false, false⟩
def fE5M2 : FFmt := ⟨8, 2, 15, true, false⟩
def fE2M1 : FFmt := ⟨4, 1, 1, false, true⟩
def fFP16 : FFmt := ⟨16, 10, 15, true, false⟩
def fBF16 : FFmt := ⟨16, 7, 127, true, false⟩
def fFP32 : FFmt := ⟨32, 23, 127, true, false⟩

/-- Width of the exponent field. -/
def FFmt.ebits (f : FFmt) : Nat := f.width - 1 - f.man

/-- The largest exponent code. -/
def FFmt.emax (f : FFmt) : Nat := 2 ^ f.ebits - 1

/-- The exponent of the subnormal spacing. -/
def FFmt.quantum (f : FFmt) : Int := 1 - (f.bias : Int) - f.man

/-- The canonical NaN (Table 4.1). -/
def FFmt.nanCode (f : FFmt) : Nat :=
  if f.ieee then f.emax * 2 ^ f.man + 2 ^ (f.man - 1) else 2 ^ (f.width - 1) - 1

/-- The code of +infinity in a format that has one. -/
def FFmt.infCode (f : FFmt) : Nat := f.emax * 2 ^ f.man

/-- The code of the largest finite value (Table 4.1). -/
def FFmt.maxCode (f : FFmt) : Nat :=
  if f.ieee then f.infCode - 1 else if f.e2m1 then 2 ^ (f.width - 1) - 1 else 2 ^ (f.width - 1) - 2

/-- Decode a code (R115). -/
def FFmt.decode (f : FFmt) (c : Nat) : Val :=
  let neg := bit c (f.width - 1)
  let E := bits c (f.width - 2) f.man
  let M := c % 2 ^ f.man
  if f.ieee ∧ E = f.emax then (if M = 0 then .inf neg else .nan)
  else if f.ieee = false ∧ f.e2m1 = false ∧ E = f.emax ∧ M = 2 ^ f.man - 1 then .nan
  else if E = 0 then .fin neg M f.quantum
  else .fin neg (2 ^ f.man + M) ((E : Int) - f.bias - f.man)

/-- A two's-complement integer as a value. -/
def Val.ofInt (x : Int) : Val := .fin (decide (x < 0)) x.natAbs 0

def Val.isNan : Val → Bool
  | .nan => true
  | _ => false

def Val.isInf : Val → Bool
  | .inf _ => true
  | _ => false

def Val.isZero : Val → Bool
  | .fin _ 0 _ => true
  | _ => false

def Val.neg? : Val → Bool
  | .nan => false
  | .inf n => n
  | .fin n _ _ => n

/-- The signed mantissa of a finite value at exponent `q ≤ e`. -/
def alignTo (neg : Bool) (m : Nat) (e q : Int) : Int :=
  let k := m * 2 ^ (e - q).toNat
  if neg then -(k : Int) else k

/-- −v. -/
def Val.negate : Val → Val
  | .nan => .nan
  | .inf n => .inf (!n)
  | .fin n m e => .fin (!n) m e

/-- |v|. -/
def Val.abs : Val → Val
  | .nan => .nan
  | .inf _ => .inf false
  | .fin _ m e => .fin false m e

/-- The exact product; zero times infinity is NaN (R135, IEEE 754-2019). -/
def Val.mul : Val → Val → Val
  | .nan, _ => .nan
  | _, .nan => .nan
  | .inf a, .inf b => .inf (a ^^ b)
  | .inf a, .fin b m _ => if m = 0 then .nan else .inf (a ^^ b)
  | .fin a m _, .inf b => if m = 0 then .nan else .inf (a ^^ b)
  | .fin a m e, .fin b n f => .fin (a ^^ b) (m * n) (e + f)

/-- The exact sum; an exact zero sum is +0 unless both addends are −0 (R132). -/
def Val.add : Val → Val → Val
  | .nan, _ => .nan
  | _, .nan => .nan
  | .inf a, .inf b => if a = b then .inf a else .nan
  | .inf a, _ => .inf a
  | _, .inf b => .inf b
  | .fin a m e, .fin b n f =>
    let q := if e < f then e else f
    let t := alignTo a m e q + alignTo b n f q
    if t = 0 then .fin (a && b && decide (m = 0) && decide (n = 0)) 0 q
    else .fin (decide (t < 0)) t.natAbs q

/-- a < b as values (false when either is NaN). -/
def Val.lt : Val → Val → Bool
  | .nan, _ => false
  | _, .nan => false
  | .inf a, .inf b => a && !b
  | .inf a, .fin _ _ _ => a
  | .fin _ _ _, .inf b => !b
  | .fin a m e, .fin b n f =>
    let q := if e < f then e else f
    decide (alignTo a m e q < alignTo b n f q)

/-- a = b as values (false when either is NaN; zeros of either sign are equal). -/
def Val.eq : Val → Val → Bool
  | .nan, _ => false
  | _, .nan => false
  | a, b => !(a.lt b) && !(b.lt a)

def Val.le (a b : Val) : Bool := a.lt b || a.eq b

/-- Round a magnitude m·2^e (R137, R138): `p` significant bits, none for an integer target, spacing never below 2^q.
The answer is (m', e') with the exact value m'·2^e'. -/
def roundMag (p : Option Nat) (q : Int) (mode : Rnd) (m : Nat) (e : Int) : Nat × Int :=
  let ulp : Int := match p with
    | some p => if q < e + (Nat.log2 m : Int) + 1 - p then e + (Nat.log2 m : Int) + 1 - p else q
    | none => q
  if ulp ≤ e then (m, e)
  else
    let d := 2 ^ (ulp - e).toNat
    let lo := m / d
    let r := m % d
    if r = 0 then (lo, ulp)
    else match mode with
      | .rtz => (lo, ulp)
      | .rne => if 2 * r < d ∨ (2 * r = d ∧ lo % 2 = 0) then (lo, ulp) else (lo + 1, ulp)
      | .sr k => if k < r * 2 ^ 24 / d then (lo + 1, ulp) else (lo, ulp)

/-- The code of a rounded finite magnitude that the format holds. -/
def FFmt.encMag (f : FFmt) (m : Nat) (e : Int) : Nat :=
  if m = 0 then 0
  else
    let t := e + (Nat.log2 m : Int)
    if t < 1 - (f.bias : Int) then m * 2 ^ (e - f.quantum).toNat
    else
      let sig := if (f.man : Int) < Nat.log2 m then m / 2 ^ (Nat.log2 m - f.man) else m * 2 ^ (f.man - Nat.log2 m)
      (t + f.bias).toNat * 2 ^ f.man + (sig - 2 ^ f.man)

/-- Whether a rounded magnitude exceeds the format's largest finite value. -/
def FFmt.tooBig (f : FFmt) (m : Nat) (e : Int) : Bool :=
  match f.decode f.maxCode with
  | .fin _ mm me => (Val.fin false mm me).lt (.fin false m e)
  | _ => false

/-- The sign bit of the format. -/
def FFmt.sign (f : FFmt) (neg : Bool) : Nat := if neg then 2 ^ (f.width - 1) else 0

/-- Round to a floating-point format as IEEE 754-2019 arithmetic does: signed zeros are kept, a result too large is
infinite under RNE and the largest finite value under RTZ. -/
def FFmt.roundArith (f : FFmt) (mode : Rnd) (v : Val) : Nat :=
  match v with
  | .nan => f.nanCode
  | .inf n => f.sign n + f.infCode
  | .fin n m e =>
    let r := roundMag (some (f.man + 1)) f.quantum mode m e
    if f.tooBig r.1 r.2 then f.sign n + (if mode = .rtz then f.maxCode else f.infCode)
    else f.sign n + f.encMag r.1 r.2

/-- Output conversion to a floating-point format (R139, R140, Table 4.6), and whether R141 counts the element. -/
def FFmt.convert (f : FFmt) (mode : Rnd) (sat : Bool) (v : Val) : Nat × Bool :=
  let e4m3 := !f.ieee && !f.e2m1
  let fp8 := decide (f.width = 8)
  match v with
  | .nan => (f.nanCode, false)
  | .inf n =>
    if e4m3 then (if sat then (f.sign n + f.maxCode, true) else (f.nanCode, true))
    else if fp8 ∧ sat then (f.sign n + f.maxCode, true)
    else (f.sign n + f.infCode, false)
  | .fin n m e =>
    let r := roundMag (some (f.man + 1)) f.quantum mode m e
    if r.1 = 0 then (0, false)
    else if f.tooBig r.1 r.2 then
      if e4m3 then (if sat then f.sign n + f.maxCode else f.nanCode, true)
      else if (fp8 ∧ sat) ∨ mode = .rtz then (f.sign n + f.maxCode, true)
      else (f.sign n + f.infCode, true)
    else (f.sign n + f.encMag r.1 r.2, false)

/-- Output conversion to a `w`-bit two's-complement integer (Table 4.6), and whether R141 counts the element. -/
def convertInt (w : Nat) (mode : Rnd) (v : Val) : Int × Bool :=
  let top : Int := (2 ^ (w - 1) : Nat) - 1
  let bot : Int := -((2 ^ (w - 1) : Nat) : Int)
  match v with
  | .nan => (0, true)
  | .inf n => (if n then bot else top, true)
  | .fin n m e =>
    let r := roundMag none 0 mode m e
    let k : Nat := r.1 * 2 ^ r.2.toNat
    let x : Int := if n then -(k : Int) else k
    if x < bot then (bot, true) else if top < x then (top, true) else (x, false)

/-- The formats an element can have (Tables 4.1, 4.2, R118). -/
inductive Fmt where
  | e4m3 | e5m2 | e2m1 | fp16 | bf16 | fp32 | e8m0
  | int (w : Nat)
  deriving DecidableEq, Repr

/-- Bits of an element. -/
def Fmt.width : Fmt → Nat
  | .e4m3 | .e5m2 | .e8m0 => 8
  | .e2m1 => 4
  | .fp16 | .bf16 => 16
  | .fp32 => 32
  | .int w => w

/-- The field widths of a floating-point format. -/
def Fmt.ffmt : Fmt → Option FFmt
  | .e4m3 => some fE4M3
  | .e5m2 => some fE5M2
  | .e2m1 => some fE2M1
  | .fp16 => some fFP16
  | .bf16 => some fBF16
  | .fp32 => some fFP32
  | _ => none

/-- Whether the format is floating-point (E8M0 is not an element format of R115). -/
def Fmt.isFloat (f : Fmt) : Bool := f.ffmt.isSome

/-- The value of an E8M0 code (R118). -/
def e8m0Val (c : Nat) : Val := if c % 256 = 255 then .nan else .fin false 1 ((c % 256 : Nat) - 127)

/-- The value of a UE4M3 scale (R118): a set sign bit is a NaN scale. -/
def ue4m3Val (c : Nat) : Val := if 128 ≤ c % 256 then .nan else fE4M3.decode (c % 256)

/-- Decode an element code. -/
def Fmt.decode (f : Fmt) (c : Nat) : Val :=
  match f with
  | .int w => Val.ofInt (sext w c)
  | .e8m0 => e8m0Val c
  | .e4m3 => fE4M3.decode c
  | .e5m2 => fE5M2.decode c
  | .e2m1 => fE2M1.decode c
  | .fp16 => fFP16.decode c
  | .bf16 => fBF16.decode c
  | .fp32 => fFP32.decode c

/-- The E8M0 code of a value (R143): 2^⌊log2|v|⌋ clamped; NaN, zero and infinity give 0xFF. -/
def toE8M0 (v : Val) : Nat :=
  match v with
  | .fin _ m e =>
    if m = 0 then 255
    else
      let x := e + (Nat.log2 m : Int) + 127
      if x < 0 then 0 else if 254 < x then 254 else x.toNat
  | _ => 255

/-- Convert a value to a format (R142, R143): the code, and whether R141 counts it. -/
def Fmt.convert (f : Fmt) (mode : Rnd) (sat : Bool) (v : Val) : Nat × Bool :=
  match f with
  | .int w => ((wrapN w (convertInt w mode v).1), (convertInt w mode v).2)
  | .e8m0 => (toE8M0 v, false)
  | .e4m3 => fE4M3.convert mode sat v
  | .e5m2 => fE5M2.convert mode sat v
  | .e2m1 => fE2M1.convert mode sat v
  | .fp16 => fFP16.convert mode sat v
  | .bf16 => fBF16.convert mode sat v
  | .fp32 => fFP32.convert mode sat v

/-- FP32 value of a 32-bit code. -/
def f32 (c : Nat) : Val := fFP32.decode c

/-- IEEE 754-2019 binary32 addition, RNE (R69). -/
def f32Add (a b : Nat) : Nat := fFP32.roundArith .rne ((f32 a).add (f32 b))

/-- One product of the dot-product rule: is it NaN, an infinity (with sign), or a finite value? -/
def dotProd (w x : Val) : Val := w.mul x

/-- The exact sum of the finite values of a list, at the smallest exponent met. -/
def exactSum (l : List Val) : Int × Int :=
  let q := l.foldl (fun q v => match v with | .fin _ _ e => (if e < q then e else q) | _ => q) 0
  (l.foldl (fun a v => match v with | .fin n m e => a + alignTo n m e q | _ => a) 0, q)

/-- The result of a column for one weight row (R126), as an FP32 code: `prods` are the fed products. With no fed
product the accumulator is returned unchanged (R125). -/
def dotRule (prods : List Val) (acc : Nat) : Nat :=
  if prods.isEmpty then acc
  else
    let a := f32 acc
    let all := a :: prods
    if all.any Val.isNan then 0x7FC00000
    else
      let pinf := all.any fun v => v.isInf && !v.neg?
      let ninf := all.any fun v => v.isInf && v.neg?
      if pinf && ninf then 0x7FC00000
      else if pinf then 0x7F800000
      else if ninf then 0xFF800000
      else
        let s := exactSum all
        if s.1 = 0 then
          (if all.all fun v => v.isZero && v.neg? then 0x80000000 else 0)
        else fFP32.roundArith .rne (.fin (decide (s.1 < 0)) s.1.natAbs s.2)

/-- The index of the lowest fed product that is NaN, infinite, or zero times infinity (R130); 32 when none is. -/
def badProduct (prods : List (Nat × Val)) : Nat :=
  match prods.find? fun p => p.2.isNan || p.2.isInf with
  | some p => p.1
  | none => 32

/-- The integer that an exact integer value stands for. -/
def Val.toInt : Val → Int
  | .fin n m e => alignTo n m e 0
  | _ => 0

/-- Saturate an exact integer total to INT32 (R133): the value, and whether saturation changed it. -/
def sat32 (x : Int) : Int × Bool :=
  if x < -2147483648 then (-2147483648, true) else if 2147483647 < x then (2147483647, true) else (x, false)

/-- Drain of one accumulator element (R134, R135): scale, bias, clip, exactly. -/
def drainVal (a s b : Val) (clip : Option (Val × Val)) : Val :=
  let u := (a.mul s).add b
  match clip with
  | none => u
  | some (lo, hi) =>
    if u.isNan then .nan
    else
      let u1 := if hi.lt u then hi else u
      if u1.lt lo then lo else u1

end Sys2Proof.Machine
end

