-- ==== Sys2Proof/Machine/Quant.lean ====
section
/-! DEFINITION. Scale records and their checks, the stochastic-rounding generator, block and channel quantisation (06). -/
namespace Sys2Proof.Machine

/-! ### The generator (R201, R202) -/

/-- Left rotation of a 32-bit word. -/
def rotl32 (x k : Nat) : Nat := (x * 2 ^ k % 2 ^ 32) + x / 2 ^ (32 - k)

/-- One of the eight rounds of R201. -/
def srRound (i : Nat) (v : Nat × Nat × Nat × Nat) : Nat × Nat × Nat × Nat :=
  let M := 2 ^ 32
  let (a, b, c, d) := v
  let a := (a + 0x9E3779B9 * i) % M
  let a := (a + b) % M
  let d := rotl32 (d ^^^ a) 16
  let c := (c + d) % M
  let b := rotl32 (b ^^^ c) 12
  let a := (a + b) % M
  let d := rotl32 (d ^^^ a) 8
  let c := (c + d) % M
  let b := rotl32 (b ^^^ c) 7
  (a, b, c, d)

/-- The 24-bit integer of the key (seed words, step, element index) (R201). -/
def srGen (s0 s1 s2 s3 step idx : Nat) : Nat :=
  let v := [1, 2, 3, 4, 5, 6, 7, 8].foldl (fun v i => srRound i v)
    ((idx % 2 ^ 32) ^^^ s0, (step % 2 ^ 32) ^^^ s1, (step / 2 ^ 32) ^^^ s2, s3)
  (v.1 ^^^ v.2.2.1) / 2 ^ 8

/-- The generator under an engine's key registers (R202). -/
def State.srDraw (s : State) (e : Fin 8) (idx : Nat) : Nat :=
  let r := fun k => s.regN (key e (CTU + 0x200 + 4 * k))
  srGen (r 0) (r 1) (r 2) (r 3) (s.reg64 (key e (CTU + 0x210))) idx

/-- A rounding mode code (0 RNE, 1 RTZ, 2 SR) at an element index. -/
def State.rnd (s : State) (e : Fin 8) (code idx : Nat) : Rnd :=
  if code = 1 then .rtz else if code = 2 then .sr (s.srDraw e idx) else .rne

/-! ### Scale records (Table 6.1, R187, R188) -/

/-- Bytes of a scale record, and elements of a scale group, under KIND. -/
def recBytes (kind : Nat) : Nat := if kind = 1 then 128 else 64
def groupSize (kind : Nat) : Nat := if kind = 1 then 16 else 32
def maxScales (kind : Nat) : Nat := if kind = 1 then 64 else 32

def recSeq (r : List Byte) : Nat := fieldLE r 0 2
def recKind (r : List Byte) : Nat := fieldLE r 2 1
def recElem (r : List Byte) : Nat := fieldLE r 3 1
def recCount (r : List Byte) : Nat := fieldLE r 4 2

/-- COUNT lies in its range (R180). -/
def recCountOk (kind : Nat) (r : List Byte) : Bool := decide (1 ≤ recCount r) && decide (recCount r ≤ maxScales kind)

/-- A record passes the consumer check of R187: sequence, KIND, ELEM, COUNT. -/
def recOk (r : List Byte) (seq kind elem : Nat) : Bool :=
  decide (recSeq r = seq % 2 ^ 16) && decide (recKind r = kind) && decide (recElem r = elem) && recCountOk kind r

/-- The scale of group `g` of a record; none at or beyond COUNT (R180: such elements are +0). -/
def recScale (kind : Nat) (r : List Byte) (g : Nat) : Option Val :=
  if g < recCount r then some (if kind = 1 then ue4m3Val ((r.getD (16 + g) 0).toNat) else e8m0Val ((r.getD (16 + g) 0).toNat))
  else none

/-- An element of a block-scaled tensor: scale times element, +0 beyond COUNT (R123, R180). -/
def scaled (sc : Option Val) (v : Val) : Val :=
  match sc with
  | none => .fin false 0 0
  | some .nan => .nan
  | some c => c.mul v

/-- Record the first skew seen by the engine (R188). -/
def State.recordSkew (s : State) (e : Fin 8) (source pair index expected found : Nat) : State :=
  let i := key e (CTU + 0x220)
  if s.fld i 0 0 = 1 then s
  else (s.setRegN i (1 + 2 * source + 16 * pair + 256 * index)).setRegN (key e (CTU + 0x224))
    (expected % 2 ^ 16 + 2 ^ 16 * (found % 2 ^ 16))

/-! ### Choosing scales and encoding elements (R189, R190) -/

/-- Quantiser counts of an engine: 0 UNDERFLOW, 1 CLAMP, 2 CONST, 3 NFGRP. -/
def qntKey (e : Fin 8) (k : Nat) : Nat := key e (CTU + 0x240 + 4 * k)

def State.qntCount (s : State) (e : Fin 8) (k n : Nat) : State := if n = 0 then s else s.countUp (qntKey e k) n

/-- Element formats of block-scaled data: 0 E2M1, 1 E4M3, 2 E5M2 (Table 6.1). -/
def elemFmt (c : Nat) : FFmt := if c = 0 then fE2M1 else if c = 1 then fE4M3 else fE5M2

/-- emax of R189. -/
def elemEmax (c : Nat) : Int := if c = 0 then 2 else if c = 1 then 8 else 15

/-- Largest magnitude of a group. -/
def amax (vs : List Val) : Val := vs.foldl (fun a v => if a.lt v.abs then v.abs else a) (.fin false 0 0)

/-- The scale code of a group (R189). -/
def scaleCode (kind elem : Nat) (vs : List Val) : Nat :=
  if vs.any fun v => v.isNan || v.isInf then (if kind = 1 then 0x7F else 0xFF)
  else match amax vs with
    | .fin _ m ex =>
      if kind = 1 then
        if m = 0 then 1
        else
          -- amax / 6 rounded to UE4M3: the quotient is kept exact to 64 bits below its last place and made sticky
          let q := m * 2 ^ 64 / 6
          let q := if m * 2 ^ 64 % 6 = 0 then q else q * 2 + 1
          let qe := if m * 2 ^ 64 % 6 = 0 then ex - 64 else ex - 65
          let r := roundMag (some 4) fE4M3.quantum .rne q qe
          let c := if fE4M3.tooBig r.1 r.2 then 0x7E else fE4M3.encMag r.1 r.2
          if c = 0 then 1 else if 0x7E < c then 0x7E else c
      else if m = 0 then 0
      else
        let x := ex + (Nat.log2 m : Int) - elemEmax elem
        let y := if x < -127 then -127 else if 127 < x then 127 else x
        (y + 127).toNat
    | _ => 0

/-- v divided by a scale that is finite and nonzero, as a magnitude exact enough for one rounding to an element format
(64 places and a sticky bit). -/
def divScale (v sc : Val) : Val :=
  match v, sc with
  | .fin n m e, .fin _ d f =>
    if d = 0 then .fin n 0 0
    else
      let q := m * 2 ^ 128 / d
      if m * 2 ^ 128 % d = 0 then .fin n q (e - f - 128) else .fin n (q * 2 + 1) (e - f - 129)
  | v, _ => v

/-- Encode one element under its group's scale (R190): code, clamped, underflowed. -/
def encElem (elem : Nat) (mode : Rnd) (v sc : Val) : Nat × Bool × Bool :=
  let f := elemFmt elem
  match divScale v sc with
  | .fin n m e =>
    let r := roundMag (some (f.man + 1)) f.quantum mode m e
    if r.1 = 0 then (0, false, !v.isZero)
    else if f.tooBig r.1 r.2 then (f.sign n + f.maxCode, true, false)
    else (f.sign n + f.encMag r.1 r.2, false, false)
  | _ => (0, false, false)

end Sys2Proof.Machine
end

