-- ==== Sys2Proof/Machine/Operands.lean ====
section
/-! DEFINITION. The operand forms of sequencer instructions (Tables 3.4, 3.6, 3.8): register values, sign-extended and
zero-extended immediates, shift amounts, descriptor and load/store offsets, branch targets, thresholds. -/
namespace Sys2Proof.Machine

/-- IMM sign-extended to 64 bits (Table 3.4). -/
def immS (i : BitVec 32) : Word := i.signExtend 64

/-- IMM zero-extended to 64 bits (Table 3.8, MOVHI). -/
def immZ (i : BitVec 32) : Word := i.setWidth 64

/-- The second operand of AND, OR and XOR: XB when IMM is 0, else IMM (Table 3.5). -/
def logicB (en : Engine) (f : ScalarF) : Word := if f.imm = 0 then en.rx f.xb else immS f.imm

/-- The shift amount (XB + IMM) mod 64 (Table 3.5). -/
def shamt (en : Engine) (f : ScalarF) : Nat := (en.rx f.xb + immS f.imm).toNat % 64

/-- The load/store offset XA + IMM (R94). -/
def lsOff (en : Engine) (f : ScalarF) : Word := en.rx f.xa + immS f.imm

/-- The branch target PC + 8 × IMM (Table 3.5). -/
def brTo (en : Engine) (i : Word) : Word := en.pc + 8 * i

/-- IMM[23:0] of BSUM as a signed value (Table 3.5). -/
def bsumOff (i : BitVec 32) : Word := (i.extractLsb' 0 24).signExtend 64

/-- The threshold (XA + IMM) mod 2^32 of WAIT and WAITT (Table 3.9). -/
def waitThr (en : Engine) (f : SyncF) : BitVec 32 := ((en.rx f.xa) + immZ f.imm).setWidth 32

/-- The descriptor offset XDESC + 64 × DOFF (Table 3.6). -/
def descOff (en : Engine) (f : IssueF) : Word := en.rx f.xdesc + 64 * (f.doff.setWidth 64)

/-- A counter has reached a threshold (R102). -/
def reached (c t : BitVec 32) : Bool := decide ((c - t).toNat < 2 ^ 31)

/-- Address translation at issue (R37): device field 0xF and the own chain number change places. -/
def State.translate (s : State) (a : Word) : Word :=
  let d := a.toNat / 2 ^ 60
  let low := a.toNat % 2 ^ 60
  if d = 0xF then BitVec.ofNat 64 (s.ownChain * 2 ^ 60 + low)
  else if d = s.ownChain then BitVec.ofNat 64 (0xF * 2 ^ 60 + low)
  else a

end Sys2Proof.Machine
end

