-- ==== Sys2Proof/Machine/Flags.lean ====
section
/-! DEFINITION. Summary slots and their flags (Table 3.2, R95): the only condition flags the spec gives the sequencer. -/
namespace Sys2Proof.Machine

/-- The registers of summary slot `k` of engine `e` (Table 3.11): MAX, MIN, COUNT, FLAGS at +0, +4, +8, +C. -/
def sumKey (e : Fin 8) (k : Nat) : Nat := key e (CTU + 0x100 + 16 * k)

/-- A summary slot's five fields (Table 3.2). -/
structure Summary where
  max : Nat
  min : Nat
  count : Nat
  any : Bool
  all : Bool
  empty : Bool
  fp : Bool
  deriving DecidableEq, Repr

/-- ENG_SUMk_FLAGS (Table 3.14). -/
def Summary.flags (m : Summary) : Nat := b2n m.any + 2 * b2n m.all + 4 * b2n m.empty + 8 * b2n m.fp

/-- Write all five fields of a slot (R89). -/
def State.setSummary (s : State) (e : Fin 8) (k : Nat) (m : Summary) : State :=
  (((s.setRegN (sumKey e k) m.max).setRegN (sumKey e k + 4) m.min).setRegN (sumKey e k + 8) m.count).setRegN
    (sumKey e k + 12) m.flags

/-- Read a slot. -/
def State.summary (s : State) (e : Fin 8) (k : Nat) : Summary :=
  let f := s.regN (sumKey e k + 12)
  ⟨s.regN (sumKey e k), s.regN (sumKey e k + 4), s.regN (sumKey e k + 8), bit f 0, bit f 1, bit f 2, bit f 3⟩

/-- a > b on 32-bit words: FP32 ordered comparison, or signed INT32 (R95). -/
def gt32 (fp : Bool) (a b : Nat) : Bool := if fp then (f32 b).lt (f32 a) else decide (sext 32 b < sext 32 a)

/-- a = b on 32-bit words, likewise. -/
def eq32 (fp : Bool) (a b : Nat) : Bool := if fp then (f32 a).eq (f32 b) else decide (sext 32 a = sext 32 b)

/-- The condition of BSUM (R95): bits [2:0] the test, bit [3] inverts; `xb` is XB[31:0]. -/
def bsumCond (m : Summary) (cond xb : Nat) : Bool :=
  let t := match cond % 8 with
    | 0 => m.any
    | 1 => m.all
    | 2 => m.empty
    | 3 => gt32 m.fp m.max xb
    | 4 => gt32 m.fp m.max xb || eq32 m.fp m.max xb
    | 5 => gt32 m.fp xb m.min
    | 6 => gt32 m.fp xb m.min || eq32 m.fp xb m.min
    | _ => decide (xb ≤ m.count)
  if bit cond 3 then !t else t

end Sys2Proof.Machine
end

