-- ==== Sys2Proof/Machine/Scalar.lean ====
section
/-! DEFINITION. The sequencer's instruction step and the scalar class (03). -/
namespace Sys2Proof.Machine

/-- Whether the PC is inside the program region and the scratchpad, and a multiple of 8 (R88). -/
def State.pcOk (s : State) (e : Fin 8) : Bool :=
  let pc := s.eng[e].pc.toNat
  let base := s.fld (key e (CTU + 0xC)) 25 0
  let size := s.fld (key e (CTU + 0x10)) 25 0
  decide (pc % 8 = 0) && decide (base ≤ pc) && decide (pc < base + size) && decide (pc + 8 ≤ SPAD)

/-- Registers of Loupe (Table 22.7). -/
def loupeKey (e : Fin 8) (o : Nat) : Nat := key e (CTU + 0x50200 + o)

/-- Loupe tags instruction `i` of a command at step `step` (R574). -/
def State.loupeTags (s : State) (e : Fin 8) (step i : Nat) : Bool :=
  decide (s.fld (loupeKey e 0) 0 0 = 1) && decide (srGen (s.regN (loupeKey e 4)) 0 0 0 step i % 2 ^ s.fld (loupeKey e 0) 5 1 = 0)

/-- The instruction with code `code` (class · 64 + operation) issues: it is counted, and tagged when Loupe selects it; with 16 tags
outstanding the tag is missed (R576). -/
def State.tagInstr (s : State) (e : Fin 8) (code : Nat) : State :=
  let en := s.eng[e]
  let step := ((en.cmd.bind s.cmdOf).map (·.step0)).getD 0
  let s1 := s.modEng e fun en => { en with icount := en.icount + 1 }
  if s.loupeTags e step en.icount = false then s1
  else if 16 ≤ en.tags.length then s1.countUp (loupeKey e 0x20) 1
  else s1.modEng e fun en => { en with tags := en.tags ++ [⟨step % 2 ^ 32, en.icount - 1, en.pc.toNat % 2 ^ 26, code, false⟩] }

/-- One instruction of engine `e` with code `code`: the fetch traps of R88 and Table 3.10, the ILLEGAL trap of R92, else the effect.
A sequencer that is not RUNNING issues no instruction. -/
def onSeq (code : Nat) (s : State) (e : Fin 8) (legal : Bool) (k : State → State) : Out :=
  if s.eng[e].state ≠ .running then .next s
  else if s.pcOk e = false then .next (s.trapCmd e 0x03 0 BAD_PARAM)
  else
    match s.check (key e s.eng[e].pc.toNat) 8 with
    | (s1, false) => .next (s1.trapCmd e 0x02 0 ECC_UNCORR)
    | (s1, true) =>
      let s2 := s1.tagInstr e code
      if legal then .next (k s2) else .next (s2.trapCmd e 0x01 0 BAD_PARAM)

/-- Move past the instruction. -/
def State.seqNext (s : State) (e : Fin 8) : State := s.modEng e fun en => { en with pc := en.pc + 8 }

/-- Write XD and move past the instruction. -/
def State.seqWrite (s : State) (e : Fin 8) (xd : BitVec 5) (v : Word) : State :=
  s.modEng e fun en => { en.wx xd v with pc := en.pc + 8 }

/-- Branch by `d` instructions when `taken`. -/
def State.seqBranch (s : State) (e : Fin 8) (taken : Bool) (d : Word) : State :=
  s.modEng e fun en => { en with pc := if taken then brTo en d else en.pc + 8 }

/-- A scalar instruction that computes one register (Table 3.5). -/
def scalarOp (op : Nat) (e : Fin 8) (f : ScalarF) (g : Engine → Word) (s : State) : Out :=
  onSeq op s e (f.rsv == 0) fun s1 => s1.seqWrite e f.xd (g s1.eng[e])

/-- A scalar branch (Table 3.5). -/
def scalarBr (op : Nat) (e : Fin 8) (f : ScalarF) (c : Engine → Bool) (s : State) : Out :=
  onSeq op s e (f.rsv == 0) fun s1 => s1.seqBranch e (c s1.eng[e]) (immS f.imm)

/-- ADD: XD = XA + XB + IMM (R93). -/
def execScAdd (e : Fin 8) (f : ScalarF) (s : State) : Out :=
  scalarOp 0x00 e f (fun en => en.rx f.xa + en.rx f.xb + immS f.imm) s

/-- SUB: XD = XA − XB (R93). -/
def execScSub (e : Fin 8) (f : ScalarF) (s : State) : Out := scalarOp 0x01 e f (fun en => en.rx f.xa - en.rx f.xb) s

/-- AND (R93). -/
def execScAnd (e : Fin 8) (f : ScalarF) (s : State) : Out := scalarOp 0x02 e f (fun en => en.rx f.xa &&& logicB en f) s

/-- OR (R93). -/
def execScOr (e : Fin 8) (f : ScalarF) (s : State) : Out := scalarOp 0x03 e f (fun en => en.rx f.xa ||| logicB en f) s

/-- XOR (R93). -/
def execScXor (e : Fin 8) (f : ScalarF) (s : State) : Out := scalarOp 0x04 e f (fun en => en.rx f.xa ^^^ logicB en f) s

/-- SHL: shift left by (XB + IMM) mod 64 (R93). -/
def execScShl (e : Fin 8) (f : ScalarF) (s : State) : Out := scalarOp 0x05 e f (fun en => en.rx f.xa <<< shamt en f) s

/-- SHR: logical shift right (R93). -/
def execScShr (e : Fin 8) (f : ScalarF) (s : State) : Out := scalarOp 0x06 e f (fun en => en.rx f.xa >>> shamt en f) s

/-- SRA: arithmetic shift right (R93). -/
def execScSra (e : Fin 8) (f : ScalarF) (s : State) : Out := scalarOp 0x07 e f (fun en => (en.rx f.xa).sshiftRight (shamt en f)) s

/-- MUL: the low 64 bits of XA × XB (R93). -/
def execScMul (e : Fin 8) (f : ScalarF) (s : State) : Out := scalarOp 0x08 e f (fun en => en.rx f.xa * en.rx f.xb) s

/-- MOVHI: XD[63:32] = IMM, XD[31:0] unchanged (R93). -/
def execScMovhi (e : Fin 8) (f : ScalarF) (s : State) : Out :=
  scalarOp 0x09 e f (fun en => (immZ f.imm <<< 32) ||| ((en.rx f.xd) &&& 0xFFFFFFFF)) s

/-- SLT: XD = 1 if XA < XB as signed values, else 0 (R93). -/
def execScSlt (e : Fin 8) (f : ScalarF) (s : State) : Out :=
  scalarOp 0x0A e f (fun en => if (en.rx f.xa).slt (en.rx f.xb) then 1 else 0) s

/-- SLTU (R93). -/
def execScSltu (e : Fin 8) (f : ScalarF) (s : State) : Out :=
  scalarOp 0x0B e f (fun en => if (en.rx f.xa).ult (en.rx f.xb) then 1 else 0) s

/-- SEQ (R93). -/
def execScSeq (e : Fin 8) (f : ScalarF) (s : State) : Out :=
  scalarOp 0x0C e f (fun en => if en.rx f.xa = en.rx f.xb then 1 else 0) s

/-- LD: XD = 8 bytes at scratchpad offset XA + IMM; LDST_RANGE and LDST_ECC traps (R94). -/
def execScLd (e : Fin 8) (f : ScalarF) (s : State) : Out :=
  onSeq 0x10 s e (f.rsv == 0) fun s1 =>
    let o := (lsOff s1.eng[e] f).toNat
    if o % 8 = 0 ∧ o + 8 ≤ SPAD then
      match s1.read (key e o) 8 with
      | (s2, some bs) => s2.seqWrite e f.xd (BitVec.ofNat 64 (leNat bs))
      | (s2, none) => s2.trapCmd e 0x05 0 ECC_UNCORR
    else s1.trapCmd e 0x04 0 BAD_PARAM

/-- ST: 8 bytes of XB to scratchpad offset XA + IMM, or XB[31:0] to a PRISM_FG_n register of the engine (R94, R280). -/
def execScSt (e : Fin 8) (f : ScalarF) (s : State) : Out :=
  onSeq 0x11 s e (f.rsv == 0) fun s1 =>
    let o := (lsOff s1.eng[e] f).toNat
    let v := s1.eng[e].rx f.xb
    if o % 8 = 0 ∧ o + 8 ≤ SPAD then
      match s1.write (key e o) (toLE 8 v.toNat) with
      | (s2, true) => s2.seqNext e
      | (s2, false) => s2.trapCmd e 0x05 0 ECC_UNCORR
    else if CTU + 0x40100 ≤ o ∧ o ≤ CTU + 0x4017F ∧ o % 4 = 0 then
      (s1.setReg (key e o) (v.setWidth 32)).seqNext e
    else s1.trapCmd e 0x04 0 BAD_PARAM

/-- B: PC = PC + 8 × IMM (R93). -/
def execScB (e : Fin 8) (f : ScalarF) (s : State) : Out := scalarBr 0x18 e f (fun _ => true) s

/-- BEQ (R93). -/
def execScBeq (e : Fin 8) (f : ScalarF) (s : State) : Out := scalarBr 0x19 e f (fun en => en.rx f.xa == en.rx f.xb) s

/-- BNE (R93). -/
def execScBne (e : Fin 8) (f : ScalarF) (s : State) : Out := scalarBr 0x1A e f (fun en => en.rx f.xa != en.rx f.xb) s

/-- BLT, signed (R93). -/
def execScBlt (e : Fin 8) (f : ScalarF) (s : State) : Out := scalarBr 0x1B e f (fun en => (en.rx f.xa).slt (en.rx f.xb)) s

/-- BGE, signed (R93). -/
def execScBge (e : Fin 8) (f : ScalarF) (s : State) : Out := scalarBr 0x1C e f (fun en => !(en.rx f.xa).slt (en.rx f.xb)) s

/-- MOVSUM: field XB[2:0] of summary slot XA[2:0], zero-extended; fields 4 to 7 give 0 (R93). DEDUCED (log 12): XA and XB
are the registers' values, as everywhere in Table 3.5. -/
def execScMovsum (e : Fin 8) (f : ScalarF) (s : State) : Out :=
  scalarOp 0x20 e f (fun en =>
    let k := (en.rx f.xa).toNat % 8
    let j := (en.rx f.xb).toNat % 8
    if j < 4 then (s.reg (sumKey e k + 4 * j)).setWidth 64 else 0) s

/-- BSUM: branch on a test of summary slot XA[2:0] (R95); IMM[31:28] is reserved. -/
def execScBsum (e : Fin 8) (f : ScalarF) (s : State) : Out :=
  onSeq 0x21 s e (f.rsv == 0 && f.imm.extractLsb' 28 4 == 0) fun s1 =>
    let en := s1.eng[e]
    let c := bsumCond (s1.summary e ((en.rx f.xa).toNat % 8)) (f.imm.toNat / 2 ^ 24 % 16) ((en.rx f.xb).toNat % 2 ^ 32)
    s1.seqBranch e c (bsumOff f.imm)

end Sys2Proof.Machine
end

