-- ==== Sys2Proof/Machine/Sequencer.lean ====
section
/-! DEFINITION. The issue and sync classes of the sequencer and the anchor's control of an engine (03). -/
namespace Sys2Proof.Machine

/-! ### Issue (R96 to R98) -/

/-- Hardware queue number of stream queue `q` of engine `e` (R97). -/
def streamQueue (e : Fin 8) (q : Nat) : Nat := 4096 + 1024 * e.val + q

/-- The descriptor that firmware sets up for stream queue `q` of engine `e` (R361, R383, R401): the queue belongs to the home
partition, or from LENDQ on to the borrower; its level is 7 for a REALTIME partition, else PRIO, the one strictly rising
mapping onto levels up to 6. -/
def State.streamDesc (s : State) (e q : Nat) : QueueDesc :=
  match s.homePart e with
  | none => QueueDesc.none
  | some h =>
    let p := match s.borrowPart e with
      | some b => if (s.parts[h].map Part.lendq).getD 0 ≤ q then b else h
      | none => h
    match s.parts[p] with
    | none => QueueDesc.none
    | some r => ⟨0, 4 + Config.streamLog2 % 17, p.val, if r.cls = 0 then 7 else min r.prio 6, true, 2, 0, 0xFFFF, 0⟩

/-- A queue's descriptor (Table 13.4): the one that is listed, else for a stream queue the one of its partition. -/
def State.queueDesc (s : State) (q : Nat) : QueueDesc :=
  let d := Sparse.get (fun _ => QueueDesc.none) s.queues q
  if d = QueueDesc.none ∧ 4096 ≤ q ∧ q < 12288 then s.streamDesc ((q - 4096) / 1024) ((q - 4096) % 1024) else d

/-- The queue is usable by the partition that owns engine `e` (R97). -/
def State.queueOk (s : State) (e : Fin 8) (q : Nat) : Bool :=
  let d := s.queueDesc (streamQueue e q)
  d.valid && decide (some d.part = (s.ownerPart e).map (·.val))

/-- Depth of an internal queue (Table 3.7). -/
def State.depth (s : State) (e : Fin 8) (q : EngQ) : Nat :=
  match q with
  | .stream n => 2 ^ (s.queueDesc (streamQueue e n)).log2size
  | .array => 32
  | .pipe _ => 16
  | .col => 8
  | .signal => 16
  | .direct => 0

/-- Whether the queue has room (R98). -/
def State.room (s : State) (e : Fin 8) (q : EngQ) : Bool :=
  decide ((s.eng[e].queue.filter fun d => decide (d.q = q)).length < s.depth e q)

/-- The queue that an ISSUE of a class names (Table 3.6): 1 stream, 2 array, 3 vector, 4 signal. -/
def issueQueue (cls : BitVec 3) (q : Nat) : EngQ :=
  if cls = 1 then .stream q else if cls = 2 then .array else if cls = 4 then .signal
  else if q = 4 then .col else .pipe q

/-- Whether an ISSUE's fields are legal (R92). -/
def issueLegal (cls : BitVec 3) (f : IssueF) : Bool :=
  decide (f.rsv = 0) &&
    (if cls = 1 then decide (f.queue.toNat ≤ 1023) else if cls = 3 then decide (f.queue.toNat ≤ 4) else decide (f.queue = 0))

/-- Put the sequencer into a wait. -/
def State.seqWait (s : State) (e : Fin 8) (w : Wait) : State :=
  s.modEng e fun en => { en with state := .waiting, wait := w, waitSince := s.clock.aclk }

/-- Time passes up to ACLK count `t` at least: an event that a count of cycles brings about happens when that count is
reached, and the command that stands for the event is that moment. -/
def State.passAclk (s : State) (t : Nat) : State := { s with clock := { s.clock with aclk := max s.clock.aclk t } }

/-- Time passes up to NCLK count `t` at least. -/
def State.passNclk (s : State) (t : Nat) : State := { s with clock := { s.clock with nclk := max s.clock.nclk t } }

/-- ENG_BLOCK_CYC (R105): cycles in the current WAIT, WAITT or WAITDB; between waits, those of the last one. -/
def State.blockCyc (s : State) (e : Fin 8) : Nat :=
  match s.eng[e].wait with
  | .token .. | .tokenLimit .. | .doorbell .. => satAdd 0xFFFFFFFF 0 (s.clock.aclk - s.eng[e].waitSince)
  | _ => s.regN (key e (CTU + 0x28))

/-- End a wait: the sequencer runs on. -/
def State.seqResume (s : State) (e : Fin 8) : State :=
  (s.setRegN (key e (CTU + 0x28)) (s.blockCyc e)).modEng e fun en => { en with state := .running, wait := .none }

/-- Copy the descriptor into its queue (R96): DESC_RANGE and DESC_ECC traps, a stall when the queue is full (R98). -/
def State.issue (s : State) (e : Fin 8) (cls : BitVec 3) (f : IssueF) : State :=
  let q := issueQueue cls f.queue.toNat
  let o := (descOff s.eng[e] f).toNat
  if cls = 1 ∧ s.queueOk e f.queue.toNat = false then s.trapCmd e 0x08 f.queue.toNat BAD_PARAM
  else if o % 64 ≠ 0 ∨ SPAD < o + 64 then s.trapCmd e 0x06 0 BAD_PARAM
  else if s.room e q = false then s.seqWait e (.issue cls f)
  else
    match s.read (key e o) 64 with
    | (s1, none) => s1.trapCmd e 0x07 0 ECC_UNCORR
    | (s1, some bs) =>
      s1.modEng e fun en => { en with
        queue := en.queue ++ [⟨q, en.nextId, f.tctr, o, bs, none⟩]
        nextId := en.nextId + 1
        state := .running
        wait := .none
        pc := en.pc + 8 }

/-- ISSUE of the stream class (R96, R97). -/
def execStreamIssue (e : Fin 8) (f : IssueF) (s : State) : Out := onSeq 0x40 s e (issueLegal 1 f) fun s1 => s1.issue e 1 f

/-- ISSUE of the array class (R96). -/
def execArrayIssue (e : Fin 8) (f : IssueF) (s : State) : Out := onSeq 0x80 s e (issueLegal 2 f) fun s1 => s1.issue e 2 f

/-- ISSUE of the vector class (R96, R206). -/
def execVectorIssue (e : Fin 8) (f : IssueF) (s : State) : Out := onSeq 0xC0 s e (issueLegal 3 f) fun s1 => s1.issue e 3 f

/-- ISSUE of the signal class (R96, R239). -/
def execSignalIssue (e : Fin 8) (f : IssueF) (s : State) : Out := onSeq 0x100 s e (issueLegal 4 f) fun s1 => s1.issue e 4 f

/-! ### Sync (R101 to R105) -/

/-- The value of counter `k` of engine `e`. -/
def State.ctr (s : State) (e : Fin 8) (k : BitVec 12) : BitVec 32 := s.tok e.val k.toNat

/-- WAIT: waits until the counter has reached the threshold (R101, R102). -/
def execSyWait (e : Fin 8) (f : SyncF) (s : State) : Out :=
  onSeq 0x140 s e (f.xd == 0) fun s1 =>
    let t := waitThr s1.eng[e] f
    if reached (s1.ctr e f.tctr) t then s1.seqNext e else s1.seqWait e (.token f.tctr t)

/-- A WAITT ends (R103): XD is 0 if the threshold was reached and 1 if it gave up, which counts one choice (R425). -/
def State.waittEnd (s : State) (e : Fin 8) (xd : BitVec 5) (gaveUp : Bool) : State :=
  let s1 := (s.seqResume e).seqWrite e xd (if gaveUp then 1 else 0)
  if gaveUp then s1.dynChoice (s.ownerPart e) else s1

/-- WAITT: as WAIT, but gives up after X[XD] cycles; with X[XD] = 0 it gives up in its issue cycle (R103). -/
def execSyWaitt (e : Fin 8) (f : SyncF) (s : State) : Out :=
  onSeq 0x141 s e true fun s1 =>
    let t := waitThr s1.eng[e] f
    let n := s1.eng[e].rx f.xd
    let s2 := s1.seqWait e (.tokenLimit f.tctr t f.xd n)
    if reached (s1.ctr e f.tctr) t then s2.waittEnd e f.xd false
    else if n = 0 then s2.waittEnd e f.xd true
    else s2

/-- The threshold of a waiting WAIT or WAITT is reached (R103). -/
def execWaitSatisfied (e : Fin 8) (s : State) : Out :=
  match s.eng[e].state, s.eng[e].wait with
  | .waiting, .token k t => .next (if reached (s.ctr e k) t then (s.seqResume e).seqNext e else s)
  | .waiting, .tokenLimit k t xd _ => .next (if reached (s.ctr e k) t then s.waittEnd e xd false else s)
  | _, _ => .next s

/-- A WAITT reaches its limit without the threshold; a threshold reached in that cycle counts as reached (R103). -/
def execWaittGiveUp (e : Fin 8) (s : State) : Out :=
  match s.eng[e].state, s.eng[e].wait with
  | .waiting, .tokenLimit k t xd n =>
    .next (if reached (s.ctr e k) t then s.waittEnd e xd false
      else (s.passAclk (s.eng[e].waitSince + n.toNat)).waittEnd e xd true)
  | _, _ => .next s

/-- Every descriptor that the command has issued has completed (R101). -/
def Engine.quiet (en : Engine) : Bool := en.queue.isEmpty && en.started.isEmpty

/-- The command ends (R108): the engine is IDLE and reports to the anchor. -/
def State.seqEnd (s : State) (e : Fin 8) : State :=
  s.modEng e fun en => { en with state := .idle, wait := .none, ended := true, pc := en.pc + 8, idleSince := s.clock.aclk }

/-- FENCE (R101). -/
def execSyFence (e : Fin 8) (f : SyncF) (s : State) : Out :=
  onSeq 0x142 s e (f.xd == 0) fun s1 => if s1.eng[e].quiet then s1.seqNext e else s1.seqWait e .fence

/-- END: waits as FENCE does, then ends the command (R101, R108). -/
def execSyEnd (e : Fin 8) (f : SyncF) (s : State) : Out :=
  onSeq 0x17E s e (f.xd == 0) fun s1 => if s1.eng[e].quiet then s1.seqEnd e else s1.seqWait e .endCmd

/-- The last outstanding descriptor has completed: a waiting FENCE or END proceeds (R101). -/
def execFenceRelease (e : Fin 8) (s : State) : Out :=
  match s.eng[e].state, s.eng[e].wait with
  | .waiting, .fence => .next (if s.eng[e].quiet then (s.seqResume e).seqNext e else s)
  | .waiting, .endCmd => .next (if s.eng[e].quiet then s.seqEnd e else s)
  | _, _ => .next s

/-- Fabric priority of a queue level (R72). -/
def levelPrio (q : Nat) : Nat := if q = 7 then 15 else 2 * q + 1

/-- Priority of a SIG (R104). -/
def State.sigPrio (s : State) (e : Fin 8) : Nat :=
  if s.isRealtime (s.ownerPart e) then 15
  else if s.queueOk e 0 then levelPrio (s.queueDesc (streamQueue e 0)).level
  else 1

/-- The issuing queue of an engine's SIG operations in the model (no hardware queue has this number). -/
def SIGQ : Nat := 16383

/-- The SIGNAL of a SIG instruction (R104): unit and device ADDR[63:52] of XA, counter TCTR, stream IMM[31:16],
TINC IMM[15:0]; it waits for credits like any SIGNAL. -/
def State.sigItem (s : State) (e : Fin 8) (f : SyncF) : FabItem where
  op := .signal
  hdr := {
    addr := s.translate (BitVec.ofNat 64 ((s.eng[e].rx f.xa).toNat / 2 ^ 52 * 2 ^ 52))
    prio := BitVec.ofNat 4 (s.sigPrio e), mc := false, unord := false, srcUnit := BitVec.ofNat 8 e.val
    srcChain := BitVec.ofNat 4 s.ownChain, len := 0, tctr := f.tctr, seq := 0
    stream := f.imm.extractLsb' 16 16, tinc := f.imm.extractLsb' 0 16, rctr := 0, raddr := 0 }
  payload := []
  owner := .sig e
  queue := SIGQ
  since := s.clock.nclk
  level := 0
  tgts := []

/-- SIG (R104). -/
def execSySig (e : Fin 8) (f : SyncF) (s : State) : Out :=
  onSeq 0x143 s e (f.xd == 0) fun s1 =>
    ({ s1 with fab := { s1.fab with waiting := s1.fab.waiting ++ [s1.sigItem e f] } } : State).seqNext e

/-- DB_RAW and DB_MASK of unit `u`'s block (Table 13.9). -/
def dbRaw (u : Nat) : Nat := key u (CTM + 0x1000)
def dbMask (u : Nat) : Nat := key u (CTM + 0x1008)

/-- The raised unmasked doorbell bits (DB_PEND, Table 13.13). -/
def State.dbPend (s : State) (u : Nat) : Reg32 := s.reg (dbRaw u) &&& ~~~(s.reg (dbMask u))

/-- WAITDB returns the raised unmasked bits in XD and clears them (R101, R381). -/
def State.takeDb (s : State) (e : Fin 8) (xd : BitVec 5) : State :=
  let p := s.dbPend e.val
  (s.setReg (dbRaw e.val) (s.reg (dbRaw e.val) &&& ~~~p)).seqWrite e xd (p.setWidth 64)

/-- WAITDB (R101). -/
def execSyWaitdb (e : Fin 8) (f : SyncF) (s : State) : Out :=
  onSeq 0x144 s e true fun s1 => if s1.dbPend e.val = 0 then s1.seqWait e (.doorbell f.xd) else s1.takeDb e f.xd

/-- A doorbell bit is raised and unmasked: the waiting WAITDB ends (R101). -/
def execWaitdbWake (e : Fin 8) (s : State) : Out :=
  match s.eng[e].state, s.eng[e].wait with
  | .waiting, .doorbell xd => .next (if s.dbPend e.val = 0 then s else (s.seqResume e).takeDb e xd)
  | _, _ => .next s

/-- The sync NOP has no effect (R101). -/
def execSyNop (e : Fin 8) (f : SyncF) (s : State) : Out := onSeq 0x145 s e (f.xd == 0) fun s1 => s1.seqNext e

/-- TRAP: cause SOFT, detail IMM[15:0] (R101, R112). -/
def execSyTrap (e : Fin 8) (f : SyncF) (s : State) : Out :=
  onSeq 0x17F s e (f.xd == 0) fun s1 => s1.trapCmd e 0x09 (f.imm.toNat % 2 ^ 16) BAD_PARAM

/-! ### Running, halting, killing (R106 to R112) -/

/-- The engine returns to IDLE after a kill (R110, R112). -/
def State.toIdle (s : State) (e : Fin 8) : State :=
  s.modEng e fun en => { en with state := .idle, wait := .none, kill := none, killReq := false, idleSince := s.clock.aclk }

/-- The abort after a trap ends (R112): the command completes with the status of Table 3.10, after its first-failure
records are logged (R578); a KILL written meanwhile takes the engine to IDLE. -/
def execTrapAbortEnd (e : Fin 8) (s : State) : Out :=
  if s.eng[e].state = .trapped ∧ s.eng[e].aborting then
    let s1 := (s.modEng e fun en => { en with aborting := false }).settleIf e
    .next (if s1.eng[e].killReq then s1.toIdle e else s1)
  else .next s

/-- Every unit has acknowledged a kill (R110), or a KILL of a trapped engine takes effect (R112). -/
def execKillComplete (e : Fin 8) (s : State) : Out :=
  match s.eng[e].state with
  | .killing =>
    let s1 := (s.modEng e fun en => { en with aborting := false }).settleIf e
    .next (s1.toIdle e)
  | .trapped =>
    if s.eng[e].killReq then
      let s1 := (s.modEng e fun en => { en with aborting := false }).settleIf e
      .next (s1.toIdle e)
    else .next s
  | _ => .next s

/-- Start a command (R87, R106, R208): X1 to X31, vector and tile registers are cleared, the arrays' tile registers
are empty (R174), the PC is ENG_CODE_BASE + ENG_ENTRY. -/
def State.startEng (s : State) (e : Fin 8) : State :=
  s.modEng e fun en => { en with
    x := Vector.replicate 32 0
    pc := BitVec.ofNat 64 (s.fld (key e (CTU + 0xC)) 25 0 + s.fld (key e (CTU + 0x14)) 25 0)
    state := .running
    wait := .none
    ended := false
    kill := none
    killReq := false
    vreg := []
    treg := []
    vl := 0
    vbound := 0
    srbase := 0
    tiles := []
    eccHalt := []
    icount := 0 }

/-- The effect of writing ENG_CTL.RUN (R106, R109, R111). -/
def State.ctlRun (s : State) (e : Fin 8) : State :=
  match s.eng[e].state with
  | .idle => s.startEng e
  | .halted => s.modEng e fun en => { en with state := .running, eccHalt := [] }
  | _ => s

/-- An abandoned instruction has not issued: its index is the next one's again. -/
def Engine.untag (en : Engine) : Engine := { en with
  icount := en.icount - 1
  tags := en.tags.filter fun g => g.killed || decide (g.idx + 1 ≠ en.icount) }

/-- The effect of writing ENG_CTL.HALT (R109, R111): a waiting instruction is abandoned with no effect, and ENG_PC holds
its own PC. -/
def State.ctlHalt (s : State) (e : Fin 8) : State :=
  match s.eng[e].state with
  | .running => s.modEng e fun en => { en with state := .halted, idleSince := s.clock.aclk }
  | .waiting =>
    (s.setRegN (key e (CTU + 0x28)) (s.blockCyc e)).modEng e fun en =>
      { en.untag with state := .halted, wait := .none, idleSince := s.clock.aclk }
  | _ => s

/-- The effect of writing ENG_CTL.KILL (R110 to R112): the command ends with KILLED; no effect while IDLE or KILLING. -/
def State.ctlKill (s : State) (e : Fin 8) : State :=
  match s.eng[e].state with
  | .idle | .killing => s
  | .trapped => if s.eng[e].aborting then s.modEng e (fun en => { en with killReq := true }) else s.toIdle e
  | _ => s.killCmdOn e ⟨.final, KILLED, 0⟩

/-- A write of ENG_CTL (R111): KILL wins over the others, HALT over RUN. -/
def State.ctlWrite (s : State) (e : Fin 8) (v : Nat) : State :=
  if bit v 2 then s.ctlKill e
  else if bit v 1 then s.ctlHalt e
  else if bit v 0 then s.ctlRun e
  else s

/-- Whether engine `e` answers accesses: present on the grade and not in E-OFF (R39, R113, R548). -/
def State.engPresent (s : State) (e : Fin 8) : Bool :=
  decide (e.val < s.nEngines) && decide (s.eng[e].power ≠ .off)

/-- An access to an engine in E-IDLE wakes it, and every access restarts its idle count (R547, R549). -/
def State.wakeEng (s : State) (e : Fin 8) : State :=
  s.modEng e fun en => { en with power := if en.power = .idle then .on else en.power, idleSince := s.clock.aclk }

/-- A failure on its way back to the unit that issued the operation (R79). -/
def State.failOp (s : State) (unit cause opcode stream addr : Nat) (owner : Owner) : State :=
  { s with fab := { s.fab with errs := s.fab.errs ++ [⟨unit, cause, opcode, stream, addr, owner⟩] } }

/-- A write of ENG_CTL by a unit: absent engines fail with ABSENT, sources other than the anchor with ACCESS (R107). -/
def engCtl (src : BitVec 8) (e : Fin 8) (v : Nat) (s : State) : State :=
  if s.engPresent e = false then s.failOp src.toNat 2 1 0 (key e (CTU + 4)) .none
  else if src ≠ 0x60 then (s.wakeEng e).failOp src.toNat 7 1 0 (key e (CTU + 4)) .none
  else (s.wakeEng e).ctlWrite e v

/-- A write of ENG_CTL.RUN (R106). -/
def execEngRun (src : BitVec 8) (e : Fin 8) (s : State) : Out := .next (engCtl src e 1 s)

/-- A write of ENG_CTL.HALT (R109). -/
def execEngHalt (src : BitVec 8) (e : Fin 8) (s : State) : Out := .next (engCtl src e 2 s)

/-- A write of ENG_CTL.KILL (R110). -/
def execEngKill (src : BitVec 8) (e : Fin 8) (s : State) : Out := .next (engCtl src e 4 s)

end Sys2Proof.Machine
end

