-- ==== Sys2Proof/Machine/Arrays.lean ====
section
/-! DEFINITION. The matrix arrays (05): MATMUL and DRAIN descriptors, their checks, their results and their completion. -/
namespace Sys2Proof.Machine

/-! ### Descriptors in an engine's queues -/

/-- The oldest descriptor of an internal queue that has not started. -/
def State.headOf (s : State) (e : Fin 8) (q : EngQ) : Option Queued := s.eng[e].queue.find? fun d => decide (d.q = q)

/-- Take a descriptor out of its queue: it starts (R99). -/
def State.dequeue (s : State) (e : Fin 8) (id : Nat) : State :=
  s.modEng e fun en => { en with queue := en.queue.filter fun d => decide (d.id ≠ id) }

/-- A descriptor runs: what its completion does, and the bytes that an abort leaves undefined. -/
def State.startDesc (s : State) (e : Fin 8) (d : Queued) (wrote : List (Nat × Nat)) (result : List (Nat × Reg32)) : State :=
  s.modEng e fun en => { en with started := en.started ++ [⟨d.q, d.id, some d.tctr, d.origin, d.desc, none, wrote, 0, result, []⟩] }

/-- Operand tokens of bytes 56 to 63 of a descriptor (R151): present unless TW_EN is set and the counter is short. -/
def State.tokensOk (s : State) (e : Fin 8) (desc : List Byte) : Bool :=
  let w := fieldLE desc 56 2
  if bit w 15 then reached (s.ctr e (BitVec.ofNat 12 (w % 4096))) (BitVec.ofNat 32 (fieldLE desc 60 4)) else true

/-- Apply the completion increment of a descriptor and forget it (R99). -/
def State.completeDesc (s : State) (e : Fin 8) (d : Started) : State :=
  let s1 := d.result.foldl (fun t r => t.setReg r.1 r.2) s
  let s2 := match d.tctr with
    | some k => s1.addTok e.val k.toNat 1
    | none => s1
  s2.modEng e fun en => { en with started := en.started.filter fun x => decide (x.id ≠ d.id) }

/-! ### Fields -/

/-- A 26-bit scratchpad field at byte `i`. -/
def d26 (desc : List Byte) (i : Nat) : Nat := fieldLE desc i 4 % 2 ^ 26

/-- The selected arrays, ascending. -/
def arraysOf (mask : Nat) : List Nat := (List.range 64).filter fun a => bit mask a

/-- ARR_a registers of engine `e`: STATUS, NF_POS, CLAMP at +0, +4, +8. -/
def arrKey (e : Fin 8) (a : Nat) : Nat := key e (CTU + 0x10000 + 16 * a)

/-- Count conversion clamps of an array (R141). -/
def State.arrClamp (s : State) (e : Fin 8) (a n : Nat) : State := if n = 0 then s else s.countUp (arrKey e a + 8) n

/-- Set NONFINITE and record its position unless it is already set (R130, R176). -/
def State.arrNonfinite (s : State) (e : Fin 8) (a row col krow quad imag : Nat) : State :=
  if s.fld (arrKey e a) 0 0 = 1 then s
  else (s.setFld (arrKey e a) 0 0 1).setRegN (arrKey e a + 4)
    (row % 4096 + 2 ^ 12 * col + 2 ^ 17 * krow + 2 ^ 23 * quad + 2 ^ 25 * imag)

/-- A unit's descriptor ends in error (R100, R173): its record (first only), and its command is killed under R80. -/
def State.unitError (s : State) (e : Fin 8) (infoKey info descKey desc status : Nat) : State :=
  let s1 := if s.fld infoKey 8 8 = 1 then s else (s.setRegN infoKey (info + 0x100)).setRegN descKey desc
  s1.faultKill e status 0

/-- An array descriptor ends in error (Table 5.5, Table 5.9). -/
def State.arrError (s : State) (e : Fin 8) (d : Queued) (cause : Nat) : State :=
  let a := (arraysOf (fieldLE d.desc 8 8)).headD 0
  s.unitError e (key e (CTU + 0x10420)) (cause + 2 ^ 16 * a) (key e (CTU + 0x10424)) (d.origin % 2 ^ 26)
    (if cause = 8 then ECC_UNCORR else if cause = 9 then SCALE_SKEW else BAD_PARAM)

/-- Operand kinds of the pairings (Table 5.2). -/
structure PairInfo where
  /-- modes allowed: full, split, complex -/
  full : Bool
  split : Bool
  cpx : Bool
  wfmt : Fmt
  xfmt : Fmt
  /-- K in full or complex mode, weight-row bytes, and the same per quadrant -/
  k : Nat
  rowBytes : Nat
  kq : Nat
  rowBytesQ : Nat
  deriving DecidableEq, Repr

/-- FP8 by its format bit. -/
def fp8 (e5 : Bool) : Fmt := if e5 then .e5m2 else .e4m3

/-- Table 5.2 and Table 4.3. -/
def pairInfo (pair : Nat) (we5 xe5 : Bool) : Option PairInfo :=
  match pair with
  | 0 => some ⟨true, true, false, fp8 we5, fp8 xe5, 32, 32, 16, 16⟩
  | 1 => some ⟨true, true, false, .e2m1, .e2m1, 64, 32, 32, 16⟩
  | 2 => some ⟨true, true, false, .e2m1, fp8 xe5, 32, 16, 16, 8⟩
  | 3 => some ⟨true, true, false, fp8 we5, .e2m1, 32, 32, 16, 16⟩
  | 4 => some ⟨true, true, false, .int 8, .int 8, 32, 32, 16, 16⟩
  | 5 => some ⟨false, false, true, fp8 we5, fp8 xe5, 16, 32, 0, 0⟩
  | 6 => some ⟨true, false, false, .bf16, .bf16, 32, 64, 0, 0⟩
  | 7 => some ⟨true, false, false, .fp16, .fp16, 32, 64, 0, 0⟩
  | 8 => some ⟨true, false, false, .fp32, .fp32, 32, 128, 0, 0⟩
  | 9 => some ⟨false, false, true, .fp16, .fp16, 16, 64, 0, 0⟩
  | _ => none

/-- A MATMUL descriptor's fields (Table 5.1). -/
structure MatD where
  kind : Nat
  pair : Nat
  mode : Nat
  fresh : Bool
  reuse : Bool
  dt : Bool
  conjW : Bool
  muliW : Bool
  conjX : Bool
  muliX : Bool
  we5 : Bool
  xe5 : Bool
  skind : Nat
  n : Nat
  drow : Nat
  amask : Nat
  waddr : Nat
  xaddr : Nat
  xstride : Nat
  rmask : Nat
  cmask : Nat
  wsaddr : Nat
  xsaddr : Nat
  qstride : Nat
  deriving DecidableEq, Repr

def MatD.parse (b : List Byte) : MatD :=
  let b0 := fieldLE b 0 1
  let b1 := fieldLE b 1 1
  let b2 := fieldLE b 2 1
  { kind := b0 % 16, pair := b0 / 16, mode := b1 % 4, fresh := bit b1 2, reuse := bit b1 3, dt := bit b1 4
    conjW := bit b2 0, muliW := bit b2 1, conjX := bit b2 2, muliX := bit b2 3, we5 := bit b2 4, xe5 := bit b2 5
    skind := b2 / 64 % 2, n := fieldLE b 4 2 % 2 ^ 13, drow := fieldLE b 6 2 % 1024, amask := fieldLE b 8 8
    waddr := d26 b 16, xaddr := d26 b 20, xstride := d26 b 24, rmask := fieldLE b 28 8, cmask := fieldLE b 36 8
    wsaddr := d26 b 44, xsaddr := d26 b 48, qstride := d26 b 52 }

/-- A DRAIN descriptor's fields (Table 5.4). -/
structure DrainD where
  kind : Nat
  tfmt : Nat
  rnd : Nat
  sat : Bool
  clip : Bool
  smode : Nat
  bmode : Nat
  cpx : Bool
  aint : Bool
  n : Nat
  srow : Nat
  amask : Nat
  daddr : Nat
  dstride : Nat
  dpitch : Nat
  scale : Nat
  bias : Nat
  lo : Nat
  hi : Nat
  srbase : Nat
  deriving DecidableEq, Repr

def DrainD.parse (b : List Byte) : DrainD :=
  let b0 := fieldLE b 0 1
  let b1 := fieldLE b 1 1
  let b2 := fieldLE b 2 1
  { kind := b0 % 16, tfmt := b0 / 16, rnd := b1 % 4, sat := bit b1 2, clip := bit b1 3, smode := b1 / 16 % 4
    bmode := b1 / 64, cpx := bit b2 0, aint := bit b2 1, n := fieldLE b 4 2 % 2 ^ 11, srow := fieldLE b 6 2 % 1024
    amask := fieldLE b 8 8, daddr := d26 b 16, dstride := d26 b 20, dpitch := d26 b 24, scale := fieldLE b 28 4
    bias := fieldLE b 32 4, lo := fieldLE b 36 4, hi := fieldLE b 40 4, srbase := fieldLE b 44 4 }

/-- The drain target formats (Table 5.4). -/
def tfmtOf (t : Nat) : Option Fmt :=
  match t with
  | 0 => some .fp32 | 1 => some .fp16 | 2 => some .bf16 | 3 => some .e4m3 | 4 => some .e5m2
  | 5 => some (.int 8) | 6 => some (.int 16) | 7 => some (.int 32) | _ => none

/-- Bytes of one drained output row: 32 parts. -/
def DrainD.rowBytes (d : DrainD) : Nat := ((tfmtOf d.tfmt).map fun f => 32 * (f.width / 8)).getD 0

/-- R169: combinations refused with MODE. -/
def DrainD.modeOk (d : DrainD) : Bool :=
  (tfmtOf d.tfmt).isSome && decide (d.rnd < 3) && decide (d.smode < 3) && decide (d.bmode < 3)
    && (!d.cpx || (!d.aint && (decide (d.tfmt ∈ [0, 1, 3, 4, 6]))))

/-- Bytes of a scale or bias vector that modes 1 (per row) and 2 (per column) read. -/
def vecLen (mode n : Nat) (cpx : Bool) : Nat := if mode = 1 then 4 * n else if mode = 2 then (if cpx then 64 else 128) else 0

/-- R167, R154: destinations and vectors of a drain of `n` rows of `count` arrays. -/
def DrainD.rangeOk (d : DrainD) (n count : Nat) : Bool :=
  decide (d.daddr % 32 = 0) && decide (d.dstride % 32 = 0) && decide (d.dpitch % 32 = 0) && decide (d.rowBytes ≤ d.dpitch)
    && decide (d.daddr + (count - 1) * d.dstride + (n - 1) * d.dpitch + d.rowBytes ≤ SPAD)
    && (decide (d.smode = 0) || (decide (d.scale % 64 = 0) && decide (d.scale + vecLen d.smode n d.cpx ≤ SPAD)))
    && (decide (d.bmode = 0) || (decide (d.bias % 64 = 0) && decide (d.bias + vecLen d.bmode n d.cpx ≤ SPAD)))

/-- R136: clipping needs bounds that are no NaN, lo not above hi. -/
def DrainD.clipOk (d : DrainD) : Bool :=
  !d.clip || (!(f32 d.lo).isNan && !(f32 d.hi).isNan && !((f32 d.hi).lt (f32 d.lo)))

/-! ### Checks of a MATMUL (Table 5.5) -/

/-- Quadrants of a mode, K and bytes of one weight row of one of them. -/
def MatD.quads (m : MatD) : Nat := if m.mode = 1 then 4 else 1
def MatD.kRow (m : MatD) (p : PairInfo) : Nat := if m.mode = 1 then p.kq else p.k
def MatD.rb (m : MatD) (p : PairInfo) : Nat := if m.mode = 1 then p.rowBytesQ else p.rowBytes

/-- Cells per side of a quadrant, complex tile, or whole array. -/
def MatD.side (m : MatD) : Nat := if m.mode = 0 then 32 else 16

/-- Stationary rows a cell row holds (R146). -/
def MatD.perCell (m : MatD) : Nat := if m.pair = 1 then 2 else 1

/-- Bytes of one quadrant's (or the whole array's) stationary tile (R260). -/
def MatD.tileQ (m : MatD) (p : PairInfo) : Nat :=
  if p.xfmt = .e2m1 then (if m.mode = 1 then m.kRow p * 16 else m.kRow p * 32 / 2)
  else m.kRow p * m.side * (p.xfmt.width / 8) * (if m.mode = 2 then 2 else 1)
def MatD.tileBytes (m : MatD) (p : PairInfo) : Nat := m.tileQ p * m.quads

/-- Scale records of the weight stream of one quadrant, and of one array's tile (R182). -/
def MatD.wrecs (m : MatD) (p : PairInfo) : Nat := if p.wfmt = .e2m1 then ceilDiv (m.n * m.kRow p) 1024 else 0
def MatD.xrecs (m : MatD) (p : PairInfo) : Nat :=
  if p.xfmt = .e2m1 then ceilDiv (m.kRow p * m.side * m.quads) 1024 else 0

/-- R153 and Table 5.2. -/
def MatD.modeOk (m : MatD) (p : PairInfo) : Bool :=
  (match m.mode with | 0 => p.full | 1 => p.split | 2 => p.cpx | _ => false)
    && !(decide (m.mode = 1) && (decide (m.pair = 2) || decide (m.pair = 3)) && decide (m.skind = 0))
    && !(decide (m.mode = 1) && m.dt)
    && !(decide (m.mode ≠ 2) && (m.conjW || m.muliW || m.conjX || m.muliX))
    && !(m.dt && decide (1024 < m.n) && !m.fresh)

/-- R154. -/
def MatD.rangeOk (m : MatD) (p : PairInfo) : Bool :=
  let c := (arraysOf m.amask).length
  let rz := recBytes m.skind
  decide (m.waddr % 64 = 0) && decide (m.xaddr % 64 = 0) && decide (m.xstride % 64 = 0) && decide (m.wsaddr % 64 = 0)
    && decide (m.xsaddr % 64 = 0) && decide (m.qstride % 64 = 0) && decide (m.n ≤ 4096)
    && decide (m.waddr + (if m.mode = 1 then 3 * m.qstride else 0) + m.n * m.rb p ≤ SPAD)
    && (m.reuse || decide (m.xaddr + (c - 1) * m.xstride + m.tileBytes p ≤ SPAD))
    && (decide (m.wrecs p = 0) || decide (m.wsaddr + m.quads * m.wrecs p * rz ≤ SPAD))
    && (m.reuse || decide (m.xrecs p = 0) || decide (m.xsaddr + (c - 1) * m.xstride + m.xrecs p * rz ≤ SPAD))
    && (if m.dt then decide (m.qstride + 64 ≤ SPAD)
        else decide (m.drow + (if m.mode = 1 then 2 * m.n else m.n) ≤ 1024))

/-- R158. -/
def MatD.maskOk (m : MatD) : Bool :=
  match m.mode with
  | 0 => decide (m.rmask < 2 ^ 32) && decide (m.cmask < 2 ^ 32)
  | 2 => decide (m.rmask < 2 ^ 16) && decide (m.cmask < 2 ^ 16)
  | _ => true

/-- The active tile of an array. -/
def State.tileOf (s : State) (e : Fin 8) (a : Nat) : Option Tile := Sparse.get (fun _ => none) s.eng[e].tiles a

/-- R174 for one array, the i-th selected. -/
def MatD.reuseOk (m : MatD) (t : Option Tile) (i : Nat) : Bool :=
  match t with
  | none => false
  | some t => decide (t.pair = m.pair) && decide (t.mode = m.mode) && decide (t.addr = m.xaddr + i * m.xstride)
      && decide (m.rmask &&& t.rmask = m.rmask) && decide (t.we5 = m.we5) && decide (t.xe5 = m.xe5)

/-- The first failing check of Table 5.5, in the order of its codes; `dr` is the drain descriptor of a DT. -/
def State.matCheck (s : State) (e : Fin 8) (m : MatD) (dr : Option DrainD) : Option Nat :=
  if m.kind ≠ 1 then some 1
  else match pairInfo m.pair m.we5 m.xe5 with
    | none => some 2
    | some p =>
      let c := (arraysOf m.amask).length
      if m.modeOk p = false ∨ (dr.map (·.modeOk)) = some false then some 3
      else if m.rangeOk p = false ∨ (dr.map fun d => d.rangeOk m.n c) = some false then some 4
      else if m.maskOk = false then some 5
      else if (dr.map (·.clipOk)) = some false then some 6
      else if m.reuse ∧ ((arraysOf m.amask).zipIdx.all fun x => m.reuseOk (s.tileOf e x.1) x.2) = false then some 7
      else none

/-! ### Operands -/

/-- Element `i` of packed bytes under a format (R117). -/
def elemAt (f : Fmt) (bs : List Byte) (i : Nat) : Nat :=
  if f.width = 4 then (bs.getD (i / 2) 0).toNat / (if i % 2 = 0 then 1 else 16) % 16
  else fieldLE bs (i * (f.width / 8)) (f.width / 8)

/-- Weight element k of a row (all of quadrant q's row bytes), as stored. -/
def wElem (p : PairInfo) (row : List Byte) (k : Nat) : Val := p.wfmt.decode (elemAt p.wfmt row k)

/-- Stationary element (k, c) of a tile of quadrant q, as stored (R260). -/
def xElem (m : MatD) (p : PairInfo) (tile : List Byte) (q k c : Nat) (part : Nat) : Val :=
  let b := q * m.tileQ p
  let code :=
    if p.xfmt = .e2m1 then
      if m.mode = 1 then (tile.getD (b + k * 16 + c) 0).toNat % 16
      else (tile.getD (b + k / 2 * 32 + c) 0).toNat / (if k % 2 = 0 then 1 else 16) % 16
    else
      let es := p.xfmt.width / 8
      if m.mode = 2 then fieldLE tile (b + ((k * m.side + c) * 2 + part) * es) es
      else fieldLE tile (b + (k * m.side + c) * es) es
  p.xfmt.decode code

/-- The scale of element index `i` of a tensor whose records are `recs` (R181, R179). -/
def scaleAt (kind : Nat) (recs : List Byte) (i : Nat) : Option Val :=
  let r := slice recs (i / 1024 * recBytes kind) (recBytes kind)
  recScale kind r (i % 1024 / groupSize kind)

/-- Conjugation, then multiplication by i (R148). -/
def cpxForm (conj muli : Bool) (v : Val × Val) : Val × Val :=
  let v := if conj then (v.1, v.2.negate) else v
  if muli then (v.2.negate, v.1) else v

/-- The fed stationary rows of quadrant q (R155, R146). -/
def MatD.fedRows (m : MatD) (p : PairInfo) (q : Nat) : List Nat :=
  (List.range (m.kRow p)).filter fun k => bit m.rmask ((if m.mode = 1 then 16 * q else 0) + k / m.perCell)

/-- Whether column c of quadrant q is written (R156). -/
def MatD.colOn (m : MatD) (q c : Nat) : Bool := bit m.cmask ((if m.mode = 1 then 16 * q else 0) + c)

/-- The fed products of one result, with the cell row of each: real results of full and split mode. -/
def MatD.prods (m : MatD) (p : PairInfo) (t : Tile) (wrecs row : List Byte) (q n c : Nat) : List (Nat × Val) :=
  (m.fedRows p q).map fun k =>
    let w := wElem p row k
    let w := if p.wfmt = .e2m1 then scaled (scaleAt m.skind wrecs (n * m.kRow p + k)) w else w
    let x := xElem m p t.bytes q k c 0
    let x := if p.xfmt = .e2m1 then
        scaled (scaleAt t.kind t.recs (q * (m.kRow p * m.side) + c * m.kRow p + k)) x else x
    (k / m.perCell, w.mul x)

/-- The fed products of one part (0 real, 1 imaginary) of a complex result (R127). -/
def MatD.cprods (m : MatD) (p : PairInfo) (t : Tile) (row : List Byte) (c part : Nat) : List (Nat × Val) :=
  (m.fedRows p 0).flatMap fun k =>
    let w := cpxForm m.conjW m.muliW (wElem p row (2 * k), wElem p row (2 * k + 1))
    let x := cpxForm m.conjX m.muliX (xElem m p t.bytes 0 k c 0, xElem m p t.bytes 0 k c 1)
    if part = 0 then [(k, w.1.mul x.1), (k, (w.2.mul x.2).negate)] else [(k, w.1.mul x.2), (k, w.2.mul x.1)]

/-! ### Results -/

/-- Accumulator byte of row r, byte j, array a of engine e (R159). -/
def accKey (e : Fin 8) (a r j : Nat) : Nat := key e (accBase a + r * 128 + j)

/-- Whether a result code is a NaN or an infinity. -/
def nonfinite32 (c : Nat) : Bool := decide (c / 2 ^ 23 % 256 = 255)

/-- Store runs of bytes in order, up to one that a poisoned block refuses (R434). -/
def State.storeAll (s : State) : List (Nat × List Byte) → State × Bool
  | [] => (s, true)
  | x :: r => match s.write x.1 x.2 with
    | (s1, true) => s1.storeAll r
    | (s1, false) => (s1, false)

/-- Merge stores whose addresses follow one another into runs of at most 128 bytes. -/
def mergeRuns : List (Nat × List Byte) → List (Nat × List Byte)
  | [] => []
  | (a, bs) :: r =>
    match mergeRuns r with
    | (b, cs) :: t => if a + bs.length = b ∧ cs.length + bs.length ≤ 128 then (a, bs ++ cs) :: t else (a, bs) :: (b, cs) :: t
    | [] => [(a, bs)]

/-- The new accumulator code of one result (R126, R128, R133), and whether INT32 saturation changed it. -/
def State.accum (s : State) (at_ : Nat) (fresh int : Bool) (prods : List (Nat × Val)) : Nat × Bool :=
  let old := if fresh then (if int then 0 else 0x80000000) else leNat (s.bytes at_ 4)
  if int then
    let t := sat32 ((prods.foldl (fun z v => z + v.2.toInt) 0) + sext 32 old)
    (wrapN 32 t.1, t.2)
  else (dotRule (prods.map (·.2)) old, false)

/-- Accumulator row and first byte of result row n of quadrant q (R159, R171). -/
def MatD.place (m : MatD) (q n : Nat) : Nat × Nat :=
  if m.mode = 1 then (m.drow + q / 2 * m.n + n, 64 * (q % 2)) else ((m.drow + n) % 1024, 0)

/-- One written part of a result row: its first byte in the accumulator row, its column, 1 for an imaginary part, its fed products. -/
structure ResPart where
  byte : Nat
  col : Nat
  imag : Nat
  prods : List (Nat × Val)
  deriving DecidableEq, Repr

/-- The written parts of result row n in quadrant q, in the order of R176 (R156, R159). -/
def MatD.parts (m : MatD) (p : PairInfo) (t : Tile) (wrecs row : List Byte) (q n : Nat) : List ResPart :=
  ((List.range m.side).filter (m.colOn q)).flatMap fun c =>
    if m.mode = 2 then [⟨8 * c, c, 0, m.cprods p t row c 0⟩, ⟨8 * c + 4, c, 1, m.cprods p t row c 1⟩]
    else [⟨(m.place q n).2 + 4 * c, c, 0, m.prods p t wrecs row q n c⟩]

/-- SAT and NONFINITE of one written result (R130, R133). -/
def State.arrFlags (s : State) (e : Fin 8) (a n q : Nat) (int : Bool) (x : ResPart) (r : Nat × Bool) : State :=
  if r.2 then s.setFld (arrKey e a) 1 1 1
  else if int = false ∧ nonfinite32 r.1 then s.arrNonfinite e a n x.col (badProduct x.prods) q x.imag
  else s

/-- Result row n of array a: every quadrant that feeds a row (R157) writes its columns at once, then sets its flags; false when a
poisoned block refuses a part of the row (R434). -/
def State.matRow (s : State) (e : Fin 8) (m : MatD) (p : PairInfo) (a : Nat) (t : Tile) (wrecs rows : List (List Byte)) (n : Nat) :
    State × Bool :=
  (List.range m.quads).foldl (fun (r : State × Bool) q =>
    if r.2 = false ∨ (m.fedRows p q).isEmpty then r
    else
      let row := (m.place q n).1
      let int := decide (m.pair = 4)
      let xs := (m.parts p t (wrecs.getD q []) (rows.getD q []) q n).map fun x => (x, r.1.accum (accKey e a row x.byte) m.fresh int x.prods)
      match r.1.storeAll (mergeRuns (xs.map fun y => (accKey e a row y.1.byte, toLE 4 y.2.1))) with
      | (s1, false) => (s1, false)
      | (s1, true) => (xs.foldl (fun t y => t.arrFlags e a n q int y.1 y.2) s1, true)) (s, true)

/-- Convert element `el` of accumulator row `row` of array a to output row r (R134, R169, R170): code and count. -/
def State.drainElem (s : State) (e : Fin 8) (d : DrainD) (f : Fmt) (a row r el : Nat) (scales biases : List Byte) : Nat × Bool :=
  let code := leNat (s.bytes (accKey e a row (4 * el)) 4)
  let v := if d.aint then Val.ofInt (sext 32 code) else f32 code
  let idx := fun (mode : Nat) => if mode = 1 then r else if d.cpx then el / 2 else el
  let sc := if d.smode = 0 then f32 d.scale else f32 (fieldLE scales (4 * idx d.smode) 4)
  let bi := if d.bmode = 0 then f32 d.bias else f32 (fieldLE biases (4 * idx d.bmode) 4)
  let u := drainVal v sc bi (if d.clip then some (f32 d.lo, f32 d.hi) else none)
  f.convert (s.rnd e d.rnd ((d.srbase + 2 ^ 20 * a + 32 * r + el) % 2 ^ 32)) d.sat u

/-- Drain accumulator row `row` of array a, the i-th selected, to output row r; false when a poisoned block refuses a part of it. -/
def State.drainRow (s : State) (e : Fin 8) (d : DrainD) (a i row r : Nat) (scales biases : List Byte) : State × Bool :=
  match tfmtOf d.tfmt with
  | none => (s, true)
  | some f =>
    let xs := (List.range 32).map fun el => s.drainElem e d f a row r el scales biases
    match s.write (key e (d.daddr + i * d.dstride + r * d.dpitch)) (xs.flatMap fun x => toLE (f.width / 8) x.1) with
    | (s1, false) => (s1, false)
    | (s1, true) => (s1.arrClamp e a (xs.filter (·.2)).length, true)

/-- The scale and bias vectors of a drain of n rows, read through their checkers. -/
def State.drainVecs (s : State) (e : Fin 8) (d : DrainD) (n : Nat) : State × Option (List Byte × List Byte) :=
  match s.read (key e d.scale) (vecLen d.smode n d.cpx) with
  | (s1, none) => (s1, none)
  | (s1, some sc) =>
    match s1.read (key e d.bias) (vecLen d.bmode n d.cpx) with
    | (s2, none) => (s2, none)
    | (s2, some bi) => (s2, some (sc, bi))

/-- The first failing consumer check among a tensor's records (R187): expected and found sequence. -/
def recsBad (kind elem count : Nat) (recs : List Byte) : Option (Nat × Nat × Nat) :=
  let r0 := recSeq recs
  (List.range count).findSome? fun i =>
    let r := slice recs (i * recBytes kind) (recBytes kind)
    if recOk r (r0 + i) kind elem then none else some (i, (r0 + i) % 2 ^ 16, recSeq r)

/-- Why a MATMUL stopped at a row. -/
inductive ArrStop where
  | none
  | ecc
  | skew (source index expected found : Nat)
  deriving DecidableEq, Repr

/-- Load the stationary tiles of the selected arrays (R150, R155, R182). -/
def State.loadTiles (s : State) (e : Fin 8) (m : MatD) (p : PairInfo) : List (Nat × Nat) → State × ArrStop
  | [] => (s, .none)
  | (a, i) :: rest =>
    let x := m.xaddr + i * m.xstride
    match s.read (key e x) (m.tileBytes p) with
    | (s1, none) => (s1, .ecc)
    | (s1, some tb) =>
      match s1.read (key e (m.xsaddr + i * m.xstride)) (m.xrecs p * recBytes m.skind) with
      | (s2, none) => (s2, .ecc)
      | (s2, some rb) =>
        match recsBad m.skind 0 (m.xrecs p) rb with
        | some (_, ex, fo) => (s2, .skew 3 a ex fo)
        | none =>
          let t : Tile := ⟨m.pair, m.mode, x, m.rmask, m.we5, m.xe5, m.skind, tb, rb⟩
          (s2.modEng e fun en => { en with tiles := Sparse.set (fun _ => none) en.tiles a (some t) }).loadTiles e m p rest

/-- Accumulator bytes that result row n of array a reads before it writes: all of them when it accumulates, none under FRESH. -/
def MatD.accReads (m : MatD) (e : Fin 8) (a n : Nat) : List (Nat × Nat) :=
  if m.fresh then []
  else (List.range m.quads).map fun q =>
    (accKey e a (m.place q n).1 (m.place q n).2, if m.mode = 1 then 64 else 128)

def State.checkAll (s : State) : List (Nat × Nat) → State × Bool
  | [] => (s, true)
  | r :: rs => match s.check r.1 r.2 with
    | (s1, true) => s1.checkAll rs
    | (s1, false) => (s1, false)

/-- Stream the weight rows from row n on, stopping at the first bad one (R173). -/
def State.streamRows (s : State) (e : Fin 8) (m : MatD) (p : PairInfo) (dr : Option (DrainD × List Byte × List Byte)) :
    (fuel : Nat) → (n : Nat) → State × ArrStop
  | 0, _ => (s, .none)
  | f + 1, n =>
    let qs := List.range m.quads
    let arrs := arraysOf m.amask
    let wq := fun q => key e (m.waddr + q * m.qstride + n * m.rb p)
    let rz := recBytes m.skind
    let blk := n * m.kRow p / 1024
    let recAt := fun q => key e (m.wsaddr + q * m.wrecs p * rz)
    match s.checkAll (qs.map (fun q => (wq q, m.rb p)) ++
        (if m.wrecs p = 0 then [] else qs.map fun q => (recAt q + blk * rz, rz)) ++ arrs.flatMap fun a => m.accReads e a n) with
    | (s1, false) => (s1, .ecc)
    | (s1, true) =>
      let recs := qs.map fun q => s1.bytes (recAt q) (m.wrecs p * rz)
      let bad := if m.wrecs p = 0 then none else recs.findSome? fun r =>
        let x := slice r (blk * rz) rz
        if recOk x (recSeq r + blk) m.skind 0 then none else some ((recSeq r + blk) % 2 ^ 16, recSeq x)
      match bad with
      | some (ex, fo) => (s1, .skew 2 (arrs.headD 0) ex fo)
      | none =>
        let rows := qs.map fun q => s1.bytes (wq q) (m.rb p)
        let r := arrs.zipIdx.foldl (fun (r : State × Bool) x =>
          if r.2 = false then r
          else match r.1.tileOf e x.1 with
            | none => r
            | some t => match r.1.matRow e m p x.1 t recs rows n, dr with
              | (s3, true), some (d, sc, bi) => s3.drainRow e d x.1 x.2 ((m.drow + n) % 1024) n sc bi
              | q, _ => q) (s1, true)
        if r.2 = false then (r.1, .ecc) else r.1.streamRows e m p dr f (n + 1)

/-- Byte ranges a MATMUL writes (R175). -/
def MatD.writes (m : MatD) (e : Fin 8) (dr : Option DrainD) : List (Nat × Nat) :=
  (arraysOf m.amask).zipIdx.flatMap fun x =>
    ((List.range m.n).flatMap fun n => (List.range m.quads).map fun q =>
      (accKey e x.1 (m.place q n).1 (m.place q n).2, if m.mode = 1 then 64 else 128))
    ++ match dr with
      | none => []
      | some d => (List.range m.n).map fun r => (key e (d.daddr + x.2 * d.dstride + r * d.dpitch), d.rowBytes)

/-- End a MATMUL or DRAIN: run on to its completion, or in error at the row where it stopped (R173). -/
def arrEnd (e : Fin 8) (d : Queued) (wrote : List (Nat × Nat)) (r : State × ArrStop) : State :=
  match r.2 with
  | .none => r.1.startDesc e d wrote []
  | .ecc => r.1.arrError e d 8
  | .skew so ix ex fo => (r.1.recordSkew e so 0 ix ex fo).arrError e d 9

/-- Run a MATMUL that passed its checks. -/
def State.runMat (s : State) (e : Fin 8) (d : Queued) (m : MatD) (p : PairInfo) (dr : Option DrainD) : State :=
  let vecs := match dr with
    | none => (s, some none)
    | some x => match s.drainVecs e x m.n with
      | (s1, none) => (s1, none)
      | (s1, some v) => (s1, some (some (x, v)))
  match vecs with
  | (s1, none) => s1.arrError e d 8
  | (s1, some v) =>
    let r := if m.reuse then (s1, ArrStop.none) else s1.loadTiles e m p (arraysOf m.amask).zipIdx
    match r.2 with
    | .none => arrEnd e d (m.writes e dr) (r.1.streamRows e m p v m.n 0)
    | _ => arrEnd e d [] r

/-- An empty descriptor completes as it starts (R172). -/
def State.emptyDesc (s : State) (e : Fin 8) (d : Queued) : State := s.addTok e.val d.tctr.toNat 1

/-- The MATMUL at the head of the array queue starts (R164): its operand tokens are present (R151), it passes the
checks of Table 5.5, and its result rows are written in order. -/
def execMatmul (e : Fin 8) (s : State) : Out :=
  match s.headOf e .array with
  | none => .next s
  | some d =>
    let m := MatD.parse d.desc
    if m.kind = 2 ∨ s.tokensOk e d.desc = false then .next s
    else
      let s0 := s.dequeue e d.id
      if m.kind ≠ 1 then .next (s0.arrError e d 1)
      else if m.n = 0 ∨ m.amask = 0 then .next (s0.emptyDesc e d)
      else
        let rd := if m.dt ∧ m.qstride % 64 = 0 ∧ m.qstride + 64 ≤ SPAD then s0.read (key e m.qstride) 64 else (s0, some [])
        match rd with
        | (s1, none) => .next (s1.arrError e d 8)
        | (s1, some b) =>
          let dr := if m.dt ∧ b ≠ [] then some (DrainD.parse b) else none
          match s1.matCheck e m dr, pairInfo m.pair m.we5 m.xe5 with
          | some c, _ => .next (s1.arrError e d c)
          | none, none => .next s1
          | none, some p => .next (s1.runMat e d m p dr)

/-- The anchor meters the array cycles of SHADOW commands (R343). The model counts no array cycles, so a descriptor's number of
them is a free value. -/
def State.meter (s : State) (e : Fin 8) : State :=
  let shadow := match s.ownerPart e with
    | some p => (s.parts[p].map Part.cls) == some 1
    | none => false
  if shadow then
    let d := s.draw
    { d.2 with shadow := { d.2.shadow with used := d.2.shadow.used + d.1.toNat } }
  else s

/-- The k-th started descriptor of the array queue of a kind completes. -/
def State.arrComplete (s : State) (e : Fin 8) (k kind : Nat) : State :=
  match (s.eng[e].started.filter fun d => decide (d.q = .array) && decide (fieldLE d.desc 0 1 % 16 = kind))[k]? with
  | some d => (s.completeDesc e d).meter e
  | none => s

/-- The last result row of a MATMUL has been written: its completion increment is applied (R165). `k` counts the
MATMULs in progress, oldest first. -/
def execMatmulComplete (e : Fin 8) (k : BitVec 6) (s : State) : Out := .next (s.arrComplete e k.toNat 1)

/-- The first failing check of a DRAIN (Table 5.5), in the order of its codes. -/
def drainCheck (d : DrainD) : Option Nat :=
  let c := (arraysOf d.amask).length
  if d.modeOk = false then some 3
  else if d.rangeOk d.n c = false ∨ 1024 < d.n ∨ 1024 < d.srow + d.n then some 4
  else if d.clipOk = false then some 6
  else none

/-- Drain rows from r on, stopping at the first bad accumulator row (R173). -/
def State.drainRows (s : State) (e : Fin 8) (d : DrainD) (sc bi : List Byte) : (fuel : Nat) → (r : Nat) → State × ArrStop
  | 0, _ => (s, .none)
  | f + 1, r =>
    let arrs := arraysOf d.amask
    match s.checkAll (arrs.map fun a => (accKey e a (d.srow + r) 0, 128)) with
    | (s1, false) => (s1, .ecc)
    | (s1, true) =>
      let x := arrs.zipIdx.foldl (fun (x : State × Bool) a =>
        if x.2 = false then x else x.1.drainRow e d a.1 a.2 (d.srow + r) r sc bi) (s1, true)
      if x.2 = false then (x.1, .ecc) else x.1.drainRows e d sc bi f (r + 1)

/-- The DRAIN at the head of the array queue starts (R168) and converts accumulator rows through R134. -/
def execDrain (e : Fin 8) (s : State) : Out :=
  match s.headOf e .array with
  | none => .next s
  | some d =>
    let x := DrainD.parse d.desc
    if x.kind ≠ 2 ∨ s.tokensOk e d.desc = false then .next s
    else
      let s0 := s.dequeue e d.id
      if x.n = 0 ∨ x.amask = 0 then .next (s0.emptyDesc e d)
      else match drainCheck x with
        | some c => .next (s0.arrError e d c)
        | none =>
          match s0.drainVecs e x x.n with
          | (s1, none) => .next (s1.arrError e d 8)
          | (s1, some v) =>
            let wrote := (arraysOf x.amask).zipIdx.flatMap fun a => (List.range x.n).map fun r =>
              (key e (x.daddr + a.2 * x.dstride + r * x.dpitch), x.rowBytes)
            .next (arrEnd e d wrote (s1.drainRows e x v.1 v.2 x.n 0))

/-- A DRAIN has written its last row: its completion increment is applied (R168). -/
def execDrainComplete (e : Fin 8) (k : BitVec 6) (s : State) : Out := .next (s.arrComplete e k.toNat 2)

/-- The output rows of a drain-through MATMUL that come from accumulator row `r` of array `a` (R171): of each selected array its `wrote`
lists N accumulator rows, then N output rows. -/
def Started.throughOf (d : Started) (a r : Nat) : List (Nat × Nat) :=
  let m := MatD.parse d.desc
  if m.kind = 1 ∧ m.dt ∧ bit m.amask a then
    let i := ((arraysOf m.amask).findIdx? fun b => decide (b = a)).getD 0
    ((List.range m.n).filter fun n => decide ((m.drow + n) % 1024 = r)).map fun n => d.wrote.getD (i * (2 * m.n) + m.n + n) (0, 0)
  else []

/-- A fabric write to accumulator row `r` of array `a` while an array descriptor in flight reads or writes the row
(R160): the row, and the outputs of a drain or drain-through that depend on it, hold undefined values. -/
def State.raceRow (s : State) (e : Fin 8) (a r : Nat) : State :=
  let k := accKey e a r 0
  s.eng[e].started.foldl (fun t d =>
    if d.q ≠ .array then t
    else
      let t1 := if d.wrote.any fun w => decide (w.1 < k + 128) && decide (k < w.1 + w.2) then t.undef k 128 else t
      let x := DrainD.parse d.desc
      if x.kind = 2 ∧ bit x.amask a ∧ x.srow ≤ r ∧ r < x.srow + x.n then
        let i := ((arraysOf x.amask).findIdx? fun b => decide (b = a)).getD 0
        (t1.undef k 128).undef (key e (x.daddr + i * x.dstride + (r - x.srow) * x.dpitch)) x.rowBytes
      else t1.undefAll (d.throughOf a r)) s

/-- The arrays that a write of ARR_CLR names (Table 5.8). -/
def clrArrays (all : Bool) (a : Nat) : List Nat := if all then List.range 64 else [a]

/-- ARR_CLR.CLAMP (R177). -/
def State.clrClamp (s : State) (e : Fin 8) (as : List Nat) : State := as.foldl (fun t a => t.setRegN (arrKey e a + 8) 0) s

/-- ARR_CLR.FLAGS: clears NONFINITE, SAT and ARR_a_NF_POS (R176). -/
def State.clrFlags (s : State) (e : Fin 8) (as : List Nat) : State :=
  as.foldl (fun t a => ((t.setFld (arrKey e a) 0 0 0).setFld (arrKey e a) 1 1 0).setRegN (arrKey e a + 4) 0) s

/-- A write of ARR_CLR. -/
def State.arrClr (s : State) (e : Fin 8) (v : Nat) : State :=
  let as := clrArrays (bit v 6) (v % 64)
  let s1 := if bit v 7 then s.clrClamp e as else s
  if bit v 8 then s1.clrFlags e as else s1

/-- A unit's write of an anchor-only register of engine `e`: refused with ABSENT or ACCESS (R113, R178). -/
def anchorWrite (src : BitVec 8) (e : Fin 8) (off : Nat) (f : State → State) (s : State) : State :=
  if s.engPresent e = false then s.failOp src.toNat 2 1 0 (key e off) .none
  else if src ≠ 0x60 then (s.wakeEng e).failOp src.toNat 7 1 0 (key e off) .none
  else f (s.wakeEng e)

/-- A write of ARR_CLR with CLAMP (R177, R178). -/
def execArrClrClamp (src : BitVec 8) (e : Fin 8) (all : Bool) (a : Fin 64) (s : State) : Out :=
  .next (anchorWrite src e (CTU + 0x10400) (fun t => t.arrClr e (a.val + 64 * b2n all + 128)) s)

/-- A write of ARR_CLR with FLAGS (R176, R178). -/
def execArrClrFlags (src : BitVec 8) (e : Fin 8) (all : Bool) (a : Fin 64) (s : State) : Out :=
  .next (anchorWrite src e (CTU + 0x10400) (fun t => t.arrClr e (a.val + 64 * b2n all + 256)) s)

/-- A write of ENG_PAIR_n_CTL (R185): both ranks are 0, HALTED is clear. -/
def State.pairCtl (s : State) (e : Fin 8) (n v : Nat) : State :=
  let k := key e (CTU + 0x304 + 8 * n)
  (s.setRegN k (setBits v 19 19 0)).modEng e fun en =>
    { en with ranks := Sparse.set (fun _ => 0) (Sparse.set (fun _ => 0) en.ranks (2 * n) 0) (2 * n + 1) 0 }

/-- PAIR_CTL_WRITE (R184, R185). -/
def execPairCtlWrite (src : BitVec 8) (e : Fin 8) (n : Fin 16) (v : Reg32) (s : State) : Out :=
  .next (anchorWrite src e (CTU + 0x304 + 8 * n.val) (fun t => t.pairCtl e n.val v.toNat) s)

/-- VEC_QNT_CLR.CLR: the four quantiser counts are 0 (R204). -/
def State.qntClr (s : State) (e : Fin 8) : State := [0, 1, 2, 3].foldl (fun t k => t.setRegN (qntKey e k) 0) s

/-- VEC_QNT_CLR (R204). -/
def execVecQntClr (src : BitVec 8) (e : Fin 8) (s : State) : Out :=
  .next (anchorWrite src e (CTU + 0x250) (fun t => t.qntClr e) s)

end Sys2Proof.Machine
end

