-- ==== Sys2Proof/Machine/Coding.lean ====
section
/-! DEFINITION. Channel coding (11): the functions of bits and soft values that the Facet decoders compute. The tables of TS 38.212
that the spec cites without printing them come from Config; its procedures stand here. -/
namespace Sys2Proof.Machine

/-! ### Bits and soft values (R290, R313) -/

/-- Bit i is byte i div 8, position 7 − (i mod 8). -/
def unpackBits (b : List Byte) (n : Nat) : List Bool :=
  (List.range n).map fun i => ((b.getD (i / 8) 0).toNat).testBit (7 - i % 8)

/-- Pack bits; the last byte's unused positions take the low bits of `pad`. -/
def packBits (pad : Nat) (x : List Bool) : List Byte :=
  (List.range (ceilDiv x.length 8)).map fun i =>
    BitVec.ofNat 8 ((List.range 8).foldl (fun v j => 2 * v + b2n (x.getD (8 * i + j) (pad.testBit (7 - j)))) 0)

/-- A soft value: −128 is read as −127. -/
def llr (b : Byte) : Int := if b.toNat = 128 then -127 else sext 8 b.toNat

/-- Clamp to ±`m`. -/
def softClamp (m v : Int) : Int := if v < -m then -m else if m < v then m else v

/-- sat10 (R320). -/
def sat10 (v : Int) : Int := softClamp 511 v

/-- sgn, with sgn(0) = +1. -/
def sgn (v : Int) : Int := if v < 0 then -1 else 1

/-! ### CRCs (TS 38.212 clause 5.1) -/

/-- Remainder of a bit string under a generator of degree `len` (low bits `poly`), from register contents `init`. -/
def crcBits (len poly init : Nat) (x : List Bool) : Nat :=
  x.foldl (fun c b =>
    let top := xor (c.testBit (len - 1)) b
    (c * 2 % 2 ^ len) ^^^ (if top then poly else 0)) init

/-- Generators: length and polynomial. -/
def CRC24A : Nat × Nat := (24, 0x864CFB)
def CRC24B : Nat × Nat := (24, 0x800063)
def CRC24C : Nat × Nat := (24, 0xB2B117)
def CRC16 : Nat × Nat := (16, 0x1021)
def CRC11 : Nat × Nat := (11, 0x621)
def CRC6 : Nat × Nat := (6, 0x21)

/-- `n` bits of a number, most significant first. -/
def msb (n v : Nat) : List Bool := (List.range n).map fun i => v.testBit (n - 1 - i)

/-- A bit string followed by its CRC. -/
def withCrc (g : Nat × Nat) (x : List Bool) : List Bool := x ++ msb g.1 (crcBits g.1 g.2 0 x)

/-- A bit string that ends in its own CRC. -/
def crcOk (g : Nat × Nat) (x : List Bool) : Bool := decide (crcBits g.1 g.2 0 x = 0)

/-- The code-block CRC that the field CRC selects (Table 11.2). -/
def cbCrc (k : Nat) : Nat × Nat := if k = 1 then CRC24B else if k = 2 then CRC24A else CRC16

/-! ### Lifting (R317, TS 38.212 Table 5.3.2-1) -/

/-- The 51 lifting sizes as (size, set index). -/
def liftSizes : List (Nat × Nat) :=
  ([(2, 0), (3, 1), (5, 2), (7, 3), (9, 4), (11, 5), (13, 6), (15, 7)] : List (Nat × Nat)).flatMap fun a =>
    ((List.range 8).map fun j => (a.1 * 2 ^ j, a.2)).filter fun x => decide (x.1 ≤ 384)

/-- The set index of a lifting size. -/
def liftSet (z : Nat) : Option Nat := (liftSizes.find? fun x => decide (x.1 = z)).map (·.2)

/-- Position of a lifting size among the 51 in ascending order (R324). -/
def liftPos (z : Nat) : Nat := (liftSizes.filter fun x => decide (x.1 < z)).length

/-- An edge of a lifted base graph: row, column, shift. -/
structure Edge where
  row : Nat
  col : Nat
  shift : Nat
  deriving DecidableEq, Repr

/-- The edges of base graph `bg` for lifting size `z`, by class (R321). -/
def edges (bg z : Nat) : List Edge :=
  (Config.baseGraph bg).map fun x => ⟨x.1, x.2.1, x.2.2.getD ((liftSet z).getD 0) 0 % z⟩

/-- Columns of a base graph; its information columns. -/
def bgCols (bg : Nat) : Nat := if bg = 0 then 68 else 52
def bgInfo (bg : Nat) : Nat := if bg = 0 then 22 else 10

/-! ### Rate matching (R318, TS 38.212 clause 5.4.2) -/

/-- k0 of clause 5.4.2.1. -/
def k0 (bg z ncb rv : Nat) : Nat :=
  let n := if bg = 0 then 66 else 50
  let m := if rv = 0 then 0 else if bg = 0 then (if rv = 1 then 17 else if rv = 2 then 33 else 56)
    else (if rv = 1 then 13 else if rv = 2 then 25 else 43)
  m * ncb / (n * z) * z

/-- Circular-buffer positions in the order in which bits take them, filler positions skipped. -/
def rmOrder (bg z kp ncb rv : Nat) : List Nat :=
  let k := bgInfo bg * z
  ((List.range ncb).map fun j => (k0 bg z ncb rv + j) % ncb).filter fun p => !(decide (kp ≤ p + 2 * z) && decide (p + 2 * z < k))

/-- The place of de-interleaved value `i` in the received sequence of `e` values (clause 5.4.2.2). -/
def deinter (e qm i : Nat) : Nat := i % (e / qm) * qm + i / (e / qm)

/-- The circular buffer that `ls` fills: de-interleaving, placement, saturating sums of repetitions. -/
def dematch (bg z kp ncb rv qm : Nat) (ls : List Int) : List Int :=
  let e := ls.length
  let ord := rmOrder bg z kp ncb rv
  (List.range e).foldl (fun b i =>
    let p := ord.getD (i % ord.length) 0
    b.set p (softClamp 127 (b.getD p 0 + ls.getD (deinter e qm i) 0))) (List.replicate ncb 0)

/-- Filler positions of the circular buffer. -/
def isFiller (bg z kp p : Nat) : Bool := decide (kp ≤ p + 2 * z) && decide (p + 2 * z < bgInfo bg * z)

/-- Combined soft bits (R318): each position plus its HIN position; filler positions are 0. -/
def combine (bg z kp : Nat) (buf hin : List Int) : List Int :=
  buf.zipIdx.map fun x => if isFiller bg z kp x.2 then 0 else softClamp 127 (x.1 + hin.getD x.2 0)

/-- The decoder's input (R319). -/
def ldpcInput (bg z kp : Nat) (buf : List Int) : List Int :=
  (List.range (bgCols bg * z)).map fun j =>
    if kp ≤ j ∧ j < bgInfo bg * z then 511 else if j < 2 * z then 0 else buf.getD (j - 2 * z) 0

/-! ### LDPC decoding (R320) -/

/-- round_half_even of a / 128 for a ≥ 0. -/
def rhe128 (a : Nat) : Nat :=
  let q := a / 128
  let r := a % 128
  if r < 64 then q else if 64 < r then q + 1 else q + q % 2

/-- Soft values of the columns, and the check-to-variable messages by class · zc + z. -/
structure Ldpc where
  app : List Int
  c2v : List Int
  deriving DecidableEq, Repr

/-- One lifted check `z` of a row whose edges, with their classes, are `es`; `w c` is the weight of class c. -/
def ldpcCheck (zc : Nat) (w : Nat → Nat) (es : List (Edge × Nat)) (z : Nat) (d : Ldpc) : Ldpc :=
  let t := es.map fun x =>
    let j := zc * x.1.col + (z + x.1.shift) % zc
    (x.2, j, sat10 (d.app.getD j 0 - d.c2v.getD (x.2 * zc + z) 0))
  let mags := t.map fun x => x.2.2.natAbs
  let m1 := (mags.min?).getD 0
  let e1 := (mags.findIdx? fun m => decide (m = m1)).getD 0
  let m2 := ((mags.eraseIdx e1).min?).getD m1
  let s := t.foldl (fun a x => a * sgn x.2.2) 1
  t.zipIdx.foldl (fun d x =>
    let mag := if x.2 = e1 then m2 else m1
    let v := rhe128 (w x.1.1 * mag)
    let c := s * sgn x.1.2.2 * (min v 511 : Nat)
    ⟨d.app.set x.1.2.1 (sat10 (x.1.2.2 + c)), d.c2v.set (x.1.1 * zc + z) c⟩) d

/-- One iteration: rows 0 to nl − 1 in ascending order. -/
def ldpcIter (zc nl : Nat) (w : Nat → Nat) (es : List (Edge × Nat)) (d : Ldpc) : Ldpc :=
  (List.range nl).foldl (fun d r =>
    let row := es.filter fun x => decide (x.1.row = r)
    (List.range zc).foldl (fun d z => ldpcCheck zc w row z d) d) d

/-- Unsatisfied checks of rows 0 to nl − 1 on the hard decision. -/
def unsat (zc nl : Nat) (es : List (Edge × Nat)) (app : List Int) : Nat :=
  (List.range nl).foldl (fun n r =>
    let row := es.filter fun x => decide (x.1.row = r)
    (List.range zc).foldl (fun n z =>
      n + row.foldl (fun p x => (p + b2n (decide (app.getD (zc * x.1.col + (z + x.1.shift) % zc) 0 < 0))) % 2) 0) n) 0

/-- Iterations `it` to nit − 1 (fuel: those left): soft values, iterations run, early exit. -/
def ldpcLoop (zc nl : Nat) (et : Bool) (w : Nat → Nat → Nat) (es : List (Edge × Nat)) : (fuel it : Nat) → Ldpc → Ldpc × Nat × Bool
  | 0, it, d => (d, it, false)
  | f + 1, it, d =>
    let d1 := ldpcIter zc nl (w it) es d
    if et ∧ unsat zc nl es d1.app = 0 then (d1, it + 1, true) else ldpcLoop zc nl et w es f (it + 1) d1

/-! ### LDPC encoding (TS 38.212 clause 5.3.2) -/

/-- Rotate: the contribution of column value `x` through an edge of shift `s`, check by check. -/
def rot (zc s : Nat) (x : List Bool) : List Bool := (List.range zc).map fun z => x.getD ((z + s) % zc) false

def xorL (a b : List Bool) : List Bool := a.zipWith xor b

/-- The sum over the known columns of a row. -/
def rowSum (zc : Nat) (row : List Edge) (c : List (Option (List Bool))) : List Bool :=
  row.foldl (fun a e => match c.getD e.col none with
    | some x => xorL a (rot zc e.shift x)
    | none => a) (List.replicate zc false)

/-- Solve each row that has exactly one unknown column. -/
def solveRows (zc : Nat) (rows : List (List Edge)) (c : List (Option (List Bool))) : List (Option (List Bool)) :=
  rows.foldl (fun c row => match row.filter fun e => (c.getD e.col none).isNone with
    | [e] =>
      let s := rowSum zc row c
      c.set e.col (some ((List.range zc).map fun z => s.getD ((z + zc - e.shift) % zc) false))
    | _ => c) c

/-- The columns of the code word: every parity check of the lifted base graph holds. The first parity column follows from the sum of
rows 0 to 3, in which the other parity columns cancel. -/
def ldpcEncode (bg zc : Nat) (info : List Bool) : List (List Bool) :=
  let es := edges bg zc
  let k := bgInfo bg
  let rows := (List.range (if bg = 0 then 46 else 42)).map fun r => es.filter fun e => decide (e.row = r)
  let c0 : List (Option (List Bool)) := (List.range (bgCols bg)).map fun i =>
    if i < k then some (slice' info (i * zc) zc) else none
  let core := rows.take 4
  let total := core.foldl (fun a row => xorL a (rowSum zc row c0)) (List.replicate zc false)
  let shifts := (core.flatMap id).filter (fun e => decide (e.col = k)) |>.map (·.shift)
  let odd := (shifts.filter fun s => decide ((shifts.filter fun t => decide (t = s)).length % 2 = 1)).getD 0 0
  let c1 := c0.set k (some ((List.range zc).map fun z => total.getD ((z + zc - odd) % zc) false))
  let c2 := (List.range 3).foldl (fun c _ => solveRows zc core c) c1
  (solveRows zc (rows.drop 4) c2).map fun x => x.getD (List.replicate zc false)
where
  slice' (l : List Bool) (i n : Nat) : List Bool := (List.range n).map fun j => l.getD (i + j) false

/-- Rate matching and interleaving of a code word to `e` bits (clauses 5.4.2.1 and 5.4.2.2). -/
def ldpcMatch (bg z kp ncb rv qm e : Nat) (cols : List (List Bool)) : List Bool :=
  let word := cols.flatten
  let ord := rmOrder bg z kp ncb rv
  let sel := (List.range e).map fun i => word.getD (ord.getD (i % ord.length) 0 + 2 * z) false
  (List.range e).map fun i => sel.getD (i % qm * (e / qm) + i / qm) false

/-! ### Polar codes (R329, R330, TS 38.212 clauses 5.3.1 and 5.4.1) -/

/-- Sub-block interleaver pattern (Table 5.4.1.1-1), and J(i). -/
def subBlock : List Nat := [0, 1, 2, 4, 3, 5, 6, 7, 8, 16, 9, 17, 10, 18, 11, 19, 12, 20, 13, 21, 14, 22, 15, 23, 24, 25, 26, 28, 27, 29, 30, 31]
def polarJ (n i : Nat) : Nat := subBlock.getD (32 * i / n) 0 * (n / 32) + i % (n / 32)

/-- Rate-matching mode: repetition, puncturing or shortening. -/
def punctured (k e : Nat) : Bool := decide (16 * k ≤ 7 * e)

/-- Indices that rate matching excludes. -/
def polarExcluded (n k e : Nat) : List Nat :=
  if n ≤ e then []
  else if punctured k e then
    ((List.range (n - e)).map (polarJ n)) ++ List.range (if 3 * n ≤ 4 * e then ceilDiv (3 * n - 2 * e) 4 else ceilDiv (9 * n - 4 * e) 16)
  else (List.range (n - e)).map fun i => polarJ n (e + i)

/-- Q_I: the `k` most reliable of the remaining indices, least reliable first; none when they are fewer. -/
def polarInfo (n k kall e : Nat) : Option (List Nat) :=
  let ex := polarExcluded n k e
  let q := (Config.polarOrder.filter fun i => decide (i < n)).filter fun i => decide (i ∉ ex)
  if q.length < kall then none else some (q.drop (q.length - kall))

/-- Bits set in an index. -/
def popCount (i : Nat) : Nat := (List.range 10).foldl (fun a j => a + b2n (i.testBit j)) 0

/-- Parity-check positions (clause 5.3.1.2): `npc` in all, `wm` of them of minimum row weight. -/
def polarPc (qi : List Nat) (npc wm : Nat) : List Nat :=
  let least := qi.take (npc - wm)
  let rest := qi.drop npc
  let mw := ((rest.map popCount).min?).getD 0
  let best := (rest.filter fun i => decide (popCount i = mw)).reverse.take wm
  if npc = 0 then [] else least ++ best

/-- x = u · F^⊗n in natural order (fuel: n). -/
def polarXform : (n : Nat) → List Bool → List Bool
  | 0, u => u
  | n + 1, u =>
    let h := 2 ^ n
    let a := polarXform n (u.take h)
    let b := polarXform n (u.drop h)
    xorL a b ++ b

/-- The parity-check register y0 to y4 after one index. -/
def pcShift : List Bool → List Bool
  | [] => []
  | y :: r => r ++ [y]

/-- u from the coded bits `c` (clause 5.3.1.2). -/
def polarU (n : Nat) (qi pc : List Nat) (c : List Bool) : List Bool :=
  ((List.range n).foldl (fun (a : List Bool × List Bool × List Bool) i =>
    let y := pcShift a.2.1
    let y0 := y.getD 0 false
    if i ∉ qi then (a.1 ++ [false], y, a.2.2)
    else if i ∈ pc then (a.1 ++ [y0], y, a.2.2)
    else
      let b := a.2.2.getD 0 false
      (a.1 ++ [b], y.set 0 (xor y0 b), a.2.2.drop 1)) ([], List.replicate 5 false, c)).1

/-- The input interleaver of clause 5.3.1.1. -/
def polarIl (c : List Bool) : List Bool :=
  let k := c.length
  ((Config.polarInterleave.filter fun m => decide (164 - k ≤ m)).map fun m => m - (164 - k)).map fun i => c.getD i false

/-- Bit selection (clause 5.4.1.2) of a sub-block-interleaved word: the source of output bit `i`. -/
def polarSel (n k e i : Nat) : Nat := if n ≤ e then i % n else if punctured k e then i + n - e else i

/-- Encode interleaved bits with CRC to `e` bits; none when the code does not exist. -/
def polarEncode (lg e : Nat) (c : List Bool) : Option (List Bool) :=
  let n := 2 ^ lg
  (polarInfo n c.length c.length e).map fun qi =>
    let d := polarXform lg (polarU n qi [] c)
    (List.range e).map fun i => d.getD (polarJ n (polarSel n c.length e i)) false

/-- POLAR_ENC (R330): CRC24C, in DCI mode with 24 ones before the payload and the RNTI over the last 16 CRC bits. -/
def dciBits (pbch : Bool) (rnti : Nat) (a : List Bool) : List Bool :=
  let r := msb 24 (if pbch then crcBits 24 CRC24C.2 0 a else crcBits 24 CRC24C.2 0 (List.replicate 24 true ++ a))
  a ++ (if pbch then r else r.take 8 ++ xorL (r.drop 8) (msb 16 rnti))

/-- Channel de-interleaving (clause 5.4.1.3): the received place of value `k` of the rate-matched sequence. `t` is the triangle's
side: row-wise written, column-wise read. -/
def triSide (e : Nat) : Nat := ((List.range (e + 1)).find? fun t => decide (2 * e ≤ t * (t + 1))).getD 0
def chanOrder (e : Nat) : List Nat :=
  let t := triSide e
  (List.range t).flatMap fun j => (List.range (t - j)).filterMap fun i =>
    let k := i * t - i * (i - 1) / 2 + j
    if k < e then some k else none

/-- The decoder's soft input of length n: `ls` in rate-matched order. -/
def polarInput (n k e : Nat) (ls : List Int) : List Int :=
  let y := (List.range n).map fun p =>
    if n ≤ e then (List.range (ceilDiv e n)).foldl (fun a r => if r * n + p < e then sat10 (a + ls.getD (r * n + p) 0) else a) 0
    else if punctured k e then (if p < n - e then 0 else ls.getD (p - (n - e)) 0)
    else if p < e then ls.getD p 0 else 511
  (List.range n).map fun d => y.getD (((List.range n).find? fun i => decide (polarJ n i = d)).getD 0) 0

/-- f and g of R329. -/
def polarF (a b : Int) : Int := sgn a * sgn b * (min a.natAbs b.natAbs : Nat)
def polarG (a b : Int) (u : Bool) : Int := sat10 (b + (if u then -a else a))

/-- The soft value of bit `i` (recursion over lg n), given the bits before it. -/
def scLlr : (n : Nat) → List Int → List Bool → (i : Nat) → Int
  | 0, l, _, _ => l.getD 0 0
  | n + 1, l, u, i =>
    let h := 2 ^ n
    let a := l.take h
    let b := l.drop h
    if i < h then scLlr n (a.zipWith polarF b) u i
    else
      let x := polarXform n (u.take h)
      scLlr n ((a.zip b).zipWith (fun p q => polarG p.1 p.2 q) x) (u.drop h) (i - h)

/-- A decoding path: its bits, parity-check register, metric. -/
structure Path where
  u : List Bool
  y : List Bool
  m : Nat
  deriving DecidableEq, Repr

/-- Extend a path by a bit whose soft value is `l`. -/
def Path.ext (p : Path) (l : Int) (y : List Bool) (b isInfo : Bool) : Path :=
  let wrong := if b then decide (0 ≤ l) else decide (l < 0)
  ⟨p.u ++ [b], if isInfo then y.set 0 (xor (y.getD 0 false) b) else y, min (2 ^ 24 - 1) (p.m + (if wrong then l.natAbs else 0))⟩

/-- The 8 candidates of smallest metric, ties to the earlier, in their order. -/
def prune8 (ps : List Path) : List Path :=
  let ix := ps.zipIdx
  (ix.filter fun x => decide ((ix.filter fun y => decide (y.1.m < x.1.m ∨ (y.1.m = x.1.m ∧ y.2 < x.2))).length < 8)).map (·.1)

/-- One step of the list decoder: index `i`. -/
def sclStep (lg : Nat) (l : List Int) (qi pc : List Nat) (ps : List Path) (i : Nat) : List Path :=
  prune8 (ps.flatMap fun p =>
    let y := pcShift p.y
    let v := scLlr lg l p.u i
    if i ∉ qi then [p.ext v y false false]
    else if i ∈ pc then [p.ext v y (y.getD 0 false) false]
    else [p.ext v y false true, p.ext v y true true])

/-- What POLAR_DEC decides: the K bits of the chosen path, its metric, and whether its CRC passes; none when the code does not
exist. -/
def polarDecode (lg k e npc : Nat) (g : Nat × Nat) (ls : List Int) : Option (List Bool × Nat × Bool) :=
  let n := 2 ^ lg
  (polarInfo n k (k + npc) e).map fun qi =>
    let pc := polarPc qi npc (if npc ≠ 0 ∧ 192 + k < e + 3 then 1 else 0)
    let data := (List.range n).filter fun i => decide (i ∈ qi) && decide (i ∉ pc)
    let ps := (List.range n).foldl (sclStep lg (polarInput n k e ls) qi pc) [⟨[], List.replicate 5 false, 0⟩]
    let rs := ps.map fun p => (data.map fun i => p.u.getD i false, p.m)
    let good := rs.filter fun r => crcOk g r.1
    let pick := fun (l : List (List Bool × Nat)) => (l.find? fun r => l.all fun x => decide (r.2 ≤ x.2)).getD ([], 0)
    if good.isEmpty then ((pick rs).1, (pick rs).2, false) else ((pick good).1, (pick good).2, true)

end Sys2Proof.Machine
end

