-- ==== Sys2Proof/Machine/MirrorOps.lean ====
section
/-! DEFINITION. Mirror's journal (15): records and their places, what is recorded, and the DIGEST records of commits. -/
namespace Sys2Proof.Machine

/-- Mirror's registers (Table 15.5). -/
def mirKey (o : Nat) : Nat := key 0x48 (CTU + o)

/-- MIR_STATUS.REC. -/
def State.recording (s : State) : Bool := decide (s.fld (mirKey 0) 0 0 = 1)

/-- Bytes written since START (MIR_WPTR). -/
def State.wptr (s : State) : Nat := s.reg64 (mirKey 4)

/-- Bytes that Mirror keeps for the END record (R418). -/
def ENDREC : Nat := 64

/-- Bytes of a journal record with `n` payload bytes (R416). -/
def journalSize (n : Nat) : Nat := 32 + ceilDiv n 32 * 32

/-- A journal record (Table 15.3). -/
def journalBytes (kind src step time jseq : Nat) (payload : List Byte) : List Byte :=
  toLE 1 kind ++ toLE 1 src ++ toLE 2 0 ++ toLE 4 payload.length ++ toLE 8 jseq ++ toLE 8 step ++ toLE 8 time
    ++ payload ++ List.replicate (journalSize payload.length - 32 - payload.length) 0

/-- Write a record at the journal's end. -/
def State.journalPut (s : State) (kind src step time : Nat) (payload : List Byte) : State :=
  let b := journalBytes kind src step time s.mirror.jseq payload
  let s1 := s.poke (key 0x40 (s.mirror.base + s.wptr)) b
  { s1.setReg64 (mirKey 4) (s.wptr + b.length) with mirror := { s1.mirror with jseq := s.mirror.jseq + 1 } }

/-- Stop recording: an END record with its reason (Table 15.4: records written, records lost, reason). -/
def State.journalEnd (s : State) (reason : Nat) : State :=
  (s.journalPut 0x02 0x48 0 s.ledTime (toLE 8 (s.mirror.jseq + 1) ++ toLE 4 (s.regN (mirKey 0xC)) ++ toLE 1 reason)).setFld
    (mirKey 0) 0 0 0

/-- The journal has no room for a record of `n` payload bytes before its END record (R418). -/
def State.journalFull (s : State) (n : Nat) : Bool := decide (s.mirror.size < s.wptr + journalSize n + ENDREC)

/-- Ingress credits in use at Mirror: its ingress buffer holds 256 (Table 2.9). -/
def State.mirrorBusy (s : State) : Nat :=
  (s.fab.ingress.filter fun i => decide (i.unit % 256 = 0x48) && !i.arrived).foldl (fun n i => n + i.n) 0

/-- Mirror cannot take a record of `n` bytes because its ingress buffer is full (R418). -/
def State.mirrorNoRoom (s : State) (n : Nat) : Bool := decide (256 < s.mirrorBusy + max 1 (ceilDiv n 256))

/-- Offer Mirror a record (R416 to R418): it is written, lost, or stops the recording. -/
def State.journal (s : State) (kind src step time : Nat) (payload : List Byte) : State :=
  if s.recording = false then s
  else if s.mirrorNoRoom payload.length then
    { (s.countUp (mirKey 0xC) 1).setFld (mirKey 0) 3 3 1 with mirror := { s.mirror with gap := s.mirror.gap + 1 } }
  else if s.journalFull payload.length then (s.setFld (mirKey 0) 2 2 1).journalEnd 1
  else s.journalPut kind src step time payload

/-- Step counter of the resident job in slot `j` of partition `p`; 0 when there is none. -/
def State.stepOf (s : State) (p j : Nat) : Nat := ((s.jobAt p j).map (·.step)).getD 0

/-- The radio image of a partition: its resident job in the lowest slot (R417). -/
def State.radioJob (s : State) (p : Nat) : Option Job :=
  ((List.range 8).filterMap fun j => s.jobAt p j).head?

/-- Step counter of the radio image of partition `p`. -/
def State.radioStep (s : State) (p : Nat) : Nat := ((s.radioJob p).map (·.step)).getD 0

/-- Record of a carrier (KIND 0x10, 0x11, 0x13), when the carrier and the source are selected (Table 15.2). -/
def State.journalCarrier (s : State) (kind src carrier part time : Nat) (payload : List Byte) : State :=
  let on := bit s.mirror.carriers carrier && (if kind = 0x10 then bit s.mirror.src 0 else if kind = 0x11 then bit s.mirror.src 1 else true)
  if on then s.journal kind src (s.radioStep part) time payload else s

/-- Opcode, partition and parameters of a packet (Table 13.5). -/
def pktOp (pkt : List Byte) : Nat := fieldLE pkt 0 1
def pktPart (pkt : List Byte) : Nat := fieldLE pkt 2 1
def pktSeq (pkt : List Byte) : Nat := fieldLE pkt 8 8
def pktParam (pkt : List Byte) (i n : Nat) : Nat := fieldLE pkt (16 + i) n

/-- `n` bytes of HBM at offset `a`. -/
def State.hbm (s : State) (a n : Nat) : List Byte := s.bytes (key 0x40 a) n

/-- A field of HBM. -/
def State.hbmN (s : State) (a n : Nat) : Nat := leNat (s.hbm a n)

/-- The HBM blocks that a command names (Table 15.4, HOSTCMD): offset and bytes. -/
def State.hostBlocks (s : State) (pkt : List Byte) : List (Nat × Nat) :=
  let a := pktParam pkt
  let op := pktOp pkt
  if op = 0x13 then [(a 8 8, a 16 4)]
  else if op = 0x21 ∨ op = 0x22 then [(a 16 8, a 24 4)]
  else if op = 0x20 then
    let d := a 8 8
    [(d, 64), (s.hbmN (d + 48) 8, 16 * (s.hbmN (d + 4) 1 % 32 + s.hbmN (d + 5) 1 % 32))]
  else if op = 0x28 then [(a 0 8, a 8 4)]
  else if op = 0x31 then
    let c := a 8 8
    [(c, 256), (s.hbmN (c + 8) 8, s.hbmN (c + 16) 4), (s.hbmN (c + 20) 8, s.hbmN (c + 28) 4), (s.hbmN (c + 32) 8, s.hbmN (c + 40) 4)]
  else []

/-- Step counter of the job that a command targets (R417): a JOB_CMD's job, the radio image for slot requests. -/
def State.cmdStep (s : State) (pkt : List Byte) : Nat :=
  let op := pktOp pkt
  if op = 0x13 ∨ op = 0x14 ∨ op = 0x15 then s.stepOf (pktPart pkt) (pktParam pkt 0 1)
  else if op = 0x21 ∨ op = 0x22 then s.radioStep (pktPart pkt)
  else 0

/-- A HOSTCMD record at the acceptance of a command (Table 15.4): pair, packet, and each named block with its offset and
length. -/
def State.journalHost (s : State) (pair : Nat) (pkt : List Byte) : State :=
  if bit s.mirror.src 3 && decide (pktPart pkt < 8) && bit s.mirror.parts (pktPart pkt) then
    s.journal 0x20 0x60 (s.cmdStep pkt) s.ledTime
      (toLE 2 pair ++ pkt ++ (s.hostBlocks pkt).flatMap fun b => toLE 8 b.1 ++ toLE 4 b.2 ++ s.hbm b.1 b.2)
  else s

/-! ### Replay comparison (R421) -/

/-- The replay's next DIGEST record of partition `p` from offset `o` of the journal: its offset and the place after it. -/
def State.findDigest (s : State) (r : Replay) (p : Nat) : (fuel o : Nat) → Option (Nat × Nat)
  | 0, _ => none
  | k + 1, o =>
    if r.size < o + 32 then none
    else
      let kind := s.hbmN (r.base + o) 1
      let len := s.hbmN (r.base + o + 4) 4
      if kind = 0x02 ∨ kind = 0x03 ∨ kind = 0 then none
      else if kind = 0x40 ∧ s.hbmN (r.base + o + 32) 1 = p then some (o, o + journalSize len)
      else s.findDigest r p k (o + journalSize len)

/-- Where the search for partition `p`'s next DIGEST record begins. -/
def Replay.from (r : Replay) (p : Nat) : Nat := ((r.cursor.find? fun c => decide (c.1 = p)).map (·.2)).getD 0

/-- Change the replay in progress. -/
def State.modReplay (s : State) (f : Replay → Replay) : State :=
  { s with mirror := { s.mirror with replay := s.mirror.replay.map f } }

/-- The replay ends and its command completes with OK (R423): DETAIL from what happened, VALUE the digests that matched. -/
def State.endReplay (s : State) (gap stopped : Bool) : State :=
  match s.mirror.replay with
  | none => s
  | some r =>
    let s1 := s.finish r.id 0 (b2n r.diverged + 2 * b2n stopped + 4 * b2n gap + 8 * b2n r.relaxed) (min 0xFFFFFFFF r.matched)
    ({ s1 with mirror := { s1.mirror with replay := none } } : State).setFld (mirKey 0) 1 1 0

/-- A replayed commit of partition `p` is compared with its next DIGEST record (R421): a mismatch sets DIV and, while DIV was
clear, the MIR_DIV registers; with STOPDIV it ends the replay. -/
def State.compareDigest (s : State) (p digest : Nat) : State :=
  match s.mirror.replay with
  | none => s
  | some r => match s.findDigest r p (r.size / 32 + 1) (r.from p) with
    | none => s
    | some (o, next) =>
      let a := r.base + o
      let recd := s.hbmN (a + 32 + 12) 4
      let dyn := s.hbmN (a + 32 + 16) 8
      let ok := decide (recd = digest)
      let s1 := if ok ∨ s.fld (mirKey 0) 4 4 = 1 then s
        else ((((s.setFld (mirKey 0) 4 4 1).setReg64 (mirKey 0x20) (s.hbmN (a + 8) 8)).setReg64 (mirKey 0x28) (s.hbmN (a + 16) 8)).setRegN
          (mirKey 0x30) recd).setRegN (mirKey 0x34) digest
      let s2 := s1.modReplay fun r => { r with
        cursor := r.cursor.filter (fun c => decide (c.1 ≠ p)) ++ [(p, next)]
        matched := if ok then r.matched + 1 else r.matched
        diverged := r.diverged || !ok
        relaxed := r.relaxed || decide (dyn ≠ 0) }
      if r.stopDiv && !ok then s2.endReplay false false else s2

/-- A commit of partition `p` (R413, R414, R426): compared when it is replayed, recorded in a DIGEST record otherwise. The
payload is partition, job or carrier, pair, SEQ, digest and the DYN_CHOICES increase. -/
def State.digest (s : State) (replayed : Bool) (p job pair seq step digest dyn : Nat) : State :=
  if replayed then s.compareDigest p digest
  else if bit s.mirror.src 5 && bit s.mirror.parts p then
    s.journal 0x40 0x60 step s.ledTime
      (toLE 1 p ++ toLE 1 job ++ toLE 2 pair ++ toLE 8 seq ++ toLE 4 digest ++ toLE 8 dyn)
  else s

end Sys2Proof.Machine
end

