-- ==== Sys2Proof/Machine/AirTime.lean ====
section
/-! DEFINITION. Carriers and their timing (10): the fields of a descriptor, the air times of slots and symbols (R284, R478),
the triggers of the stage commands (R295, R304), and REALTIME admission (R399). Lengths of symbols and cyclic prefixes are
those of TS 38.211 clause 5.3.1. -/
namespace Sys2Proof.Machine

/-! ### The descriptor (Table 10.2) -/

def cMu (d : List Byte) : Nat := fieldLE d 1 1 % 4
def cEcp (d : List Byte) : Bool := bit (fieldLE d 1 1) 2
def cNprb (d : List Byte) : Nat := fieldLE d 2 2 % 512
def cUl (d : List Byte) : Nat := fieldLE d 4 1 % 32
def cDl (d : List Byte) : Nat := fieldLE d 5 1 % 32
def cEng (d : List Byte) : Nat := fieldLE d 6 1 % 8
def cDmrsLast (d : List Byte) : Nat := fieldLE d 7 1 % 16
def cGroupEnd (d : List Byte) : Nat := fieldLE d 8 2 % 2 ^ 14
def cRxOpen (d : List Byte) : Nat := fieldLE d 12 4
def cRxClose (d : List Byte) : Nat := fieldLE d 16 4
def cTxOpen (d : List Byte) : Nat := fieldLE d 20 4
def cTxClose (d : List Byte) : Nat := fieldLE d 24 4
def cCpAdv (d : List Byte) : Nat := fieldLE d 28 4
def cResBase (d : List Byte) : Nat := fieldLE d 32 8
def cResCount (d : List Byte) : Nat := fieldLE d 40 2
def cQpair (d : List Byte) : Nat := fieldLE d 42 2 % 2048
def cResSize (d : List Byte) : Nat := fieldLE d 44 4
def cEaxc (d : List Byte) : Nat := fieldLE d 48 8
def cNetset (d : List Byte) : Nat := fieldLE d 56 8

/-- Symbols per slot. -/
def cNsym (d : List Byte) : Nat := if cEcp d then 12 else 14

/-- NBLK of R286. -/
def cNblk (d : List Byte) : Nat := ceilDiv (cNprb d) 64

/-- SYMSTRIDE of R285. -/
def cStride (d : List Byte) : Nat := ceilDiv (cNprb d * 48) 1024 * 1024

/-- Last symbols of the equaliser groups, ascending (R295). -/
def cGroups (d : List Byte) : List Nat := (List.range 14).filter fun s => bit (cGroupEnd d) s

/-- Entry `i` of an eAxC map (Table 10.3): uplink streams first. -/
def mapEntry (m : List Byte) (i : Nat) : List Byte := slice m (16 * i) 16
def mEaxc (x : List Byte) : Nat := fieldLE x 0 2
def mPort (x : List Byte) : Nat := fieldLE x 2 1 % 16
def mDir (x : List Byte) : Nat := fieldLE x 3 1 % 2
def mStream (x : List Byte) : Nat := fieldLE x 4 2
def mTctr (x : List Byte) : Nat := fieldLE x 6 2 % 4096
def mSbase (x : List Byte) : Nat := fieldLE x 8 4 % 2 ^ 26

/-! ### Air time -/

/-- Slot length in ns (Table 1.2). -/
def slotNs (mu : Nat) : Nat := 1000000 / 2 ^ mu

/-- Deadline of a slot result in ns (Table 1.2). -/
def deadlineNs (mu : Nat) : Nat := if mu = 0 then 500000 else if mu = 1 then 250000 else if mu = 2 then 125000 else 100000

/-- Start of symbol `l` of a subframe, in units of 1/245.76 µs (TS 38.211 clause 5.3.1). -/
def symStart (mu : Nat) (ecp : Bool) (l : Nat) : Nat :=
  if ecp then l * (2560 * 8 / 2 ^ mu)
  else l * (2192 * 8 / 2 ^ mu) + (if 0 < l then 128 else 0) + (if 7 * 2 ^ mu < l then 128 else 0)

/-- PTP time, in units of 2^-44 ns, of the start of symbol `sym` of slot `k` counted from the GPS epoch (R478). -/
def State.airTime (s : State) (d : List Byte) (k sym : Nat) : Nat :=
  let mu := cMu d
  (315964819 * 10 ^ 9 + s.regN (key 0x30 (CTU + 0x34)) + k / 2 ^ mu * 10 ^ 6) * 2 ^ 44
    + symStart mu (cEcp d) (k % 2 ^ mu * cNsym d + sym) * 15625 * 2 ^ 36 / 15

/-- `ns` nanoseconds as a PTP duration. -/
def nsT (ns : Nat) : Nat := ns * 2 ^ 44

/-- The first slot whose air start is later than PTP time `t`. -/
def State.slotAfter (s : State) (d : List Byte) (t : Nat) : Nat :=
  let mu := cMu d
  let e := nsT (315964819 * 10 ^ 9 + s.regN (key 0x30 (CTU + 0x34)))
  let sf := (t - e) / nsT 1000000
  ((List.range (2 * 2 ^ mu + 1)).map fun i => sf * 2 ^ mu + i).find? (fun k => decide (t < s.airTime d k 0)) |>.getD 0

/-- System frame number, and slot within the frame, of slot `k` (R478). -/
def slotSfn (d : List Byte) (k : Nat) : Nat := k / (10 * 2 ^ cMu d) % 1024
def slotIdx (d : List Byte) (k : Nat) : Nat := k % (10 * 2 ^ cMu d)

/-! ### Carriers and groups -/

/-- The carrier numbered `c`, when it is active. -/
def State.carrier (s : State) (c : Nat) : Option Carrier := s.carriers.find? fun x => decide (x.id = c) && x.base.isSome

/-- Number, from the GPS epoch, of slot `n` of a carrier. -/
def Carrier.abs (c : Carrier) (n : Nat) : Nat := c.base.getD 0 + n

/-- The active carriers of engine `e`'s group (R282). -/
def State.group (s : State) (e : Nat) : List Carrier := s.carriers.filter fun c => c.base.isSome && decide (cEng c.desc = e)

/-- The active carriers of partition `p`. -/
def State.partCarriers (s : State) (p : Nat) : List Carrier := s.carriers.filter fun c => c.base.isSome && decide (c.part = p)

/-- The uplink requests that engine `e`'s group holds for slot `k` and that no reset has ended. -/
def State.ulOf (s : State) (e k : Nat) : List (Carrier × UlSlot) :=
  (s.group e).flatMap fun c => (s.ul.filter fun u => decide (u.carrier = c.id) && decide (c.abs u.n = k) && !u.aborted).map fun u => (c, u)

/-- The downlink requests that engine `e`'s group holds for slot `k`. -/
def State.dlOf (s : State) (e k : Nat) : List (Carrier × DlSlot) :=
  (s.group e).flatMap fun c => (s.dl.filter fun u => decide (u.carrier = c.id) && decide (c.abs u.n = k)).map fun u => (c, u)

/-- Latest of a list of times. -/
def latest (l : List Nat) : Nat := l.foldl max 0

/-- EST trigger of slot `k` for a descriptor (R295): RXWIN_OPEN after the air end of symbol DMRS_LAST. -/
def State.estTrigger (s : State) (d : List Byte) (k : Nat) : Nat := s.airTime d k (cDmrsLast d + 1) + nsT (cRxOpen d)

/-- EQ_g trigger of slot `k` for a descriptor (R295); the last group's for a `g` beyond its groups. -/
def State.eqTrigger (s : State) (d : List Byte) (k g : Nat) : Nat :=
  s.airTime d k ((cGroups d).getD g (cNsym d - 1) + 1) + nsT (cRxOpen d)

/-- Number of equaliser groups of a list of carriers. -/
def nGroups (cs : List Carrier) : Nat := latest (cs.map fun c => (cGroups c.desc).length)

/-! ### The radio image's figures -/

/-- Ten times the ACLK rate in GHz under a cap code (Table 21.2). -/
def aclkTen (cap : Nat) : Nat := if cap = 0 then 14 else if cap = 1 then 12 else 9

/-- WCET of an entry at a cap, in ACLK cycles (R385). -/
def entryWcet (b : List Byte) (cap : Nat) : Nat := fieldLE b (12 + 4 * min cap 2) 4

/-- Worst-case tail of an entry at a cap, in ns (R385, R399): the image's own figure at 1.4 GHz, the converted one below it (log 91). -/
def entryTail (b : List Byte) (cap : Nat) : Nat := if cap = 0 then fieldLE b 28 4 else Config.tailAt (fieldLE b 28 4) cap

/-- Worst-case time of TX for engine `e`'s group, in ns (R304). -/
def State.txWorstNs (s : State) (e : Nat) : Nat :=
  let cs := s.group e
  match cs.head?.bind fun c => s.radioJob c.part with
  | none => 0
  | some j => ceilDiv (entryWcet (s.jobEntry j (Config.stageEntry 30 cs.length)) s.power.cap * 10) (aclkTen s.power.cap)

/-- TX trigger of slot `k` (R304): air start minus CP_ADVANCE minus the admitted worst-case time of TX. -/
def State.txTrigger (s : State) (e : Nat) (d : List Byte) (k : Nat) : Nat :=
  s.airTime d k 0 - nsT (cCpAdv d) - nsT (s.txWorstNs e)

/-- Time of a stage command of engine `e` for slot `k`: the latest of its carriers' triggers. -/
def State.stageTime (s : State) (e kind k : Nat) : Nat :=
  if kind = 30 then latest ((s.dlOf e k).map fun x => s.txTrigger e x.1.desc k)
  else if kind = 0 ∨ kind = 31 then latest ((s.ulOf e k).map fun x => s.estTrigger x.1.desc k)
  else latest ((s.ulOf e k).map fun x => s.eqTrigger x.1.desc k (kind - 1))

/-- The stage commands of engine `e` that accepted requests call for and that have not been started: slot and kind. -/
def State.dueStages (s : State) (e : Nat) : List (Nat × Nat) :=
  let ulk := ((s.group e).flatMap fun c => (s.ul.filter fun u => decide (u.carrier = c.id) && !u.aborted).map fun u => c.abs u.n).eraseDups
  let dlk := ((s.group e).flatMap fun c => (s.dl.filter fun u => decide (u.carrier = c.id)).map fun u => c.abs u.n).eraseDups
  let all := ulk.flatMap (fun k => (List.range (1 + nGroups (s.group e))).map fun i => (k, i)) ++ dlk.map fun k => (k, 30)
  all.filter fun x => !(s.stages.any fun t => decide (t.eng = e) && decide (t.slot = x.1) && decide (t.kind = x.2))

/-- Time of the next REALTIME trigger on engine `e` (R396); none when no accepted request calls for one. -/
def State.nextTrigger (s : State) (e : Nat) : Option Nat :=
  ((s.dueStages e).map fun x => s.stageTime e x.2 x.1).min?

/-! ### Admission (R399) -/

/-- The engines of a partition in ascending order, home and borrowed: bit i of an entry's ENGMASK names the i-th. -/
def Part.engines (q : Part) : List Nat := (List.range 8).filter fun e => bit q.engmask e || bit q.borrow e

/-- The engines that an entry of a partition's job names. -/
def Part.entryEngines (q : Part) (b : List Byte) : List Nat :=
  (q.engines.zipIdx.filter fun x => bit (fieldLE b 0 2) x.2).map (·.1)

/-- The descriptors of engine `e`'s group in partition `p` as they will stand after every pending configuration. -/
def State.planned (s : State) (p e : Nat) : List (List Byte) :=
  (s.carriers.map fun c => match c.next with
    | some x => (x.2.1, x.2.2.1)
    | none => (c.part, if c.base.isSome then c.desc else [])).filterMap fun x =>
      if x.1 = p ∧ cEng x.2 = e ∧ cNprb x.2 ≠ 0 then some x.2 else none

/-- The entries of partition `p`'s resident jobs that run on engine `e`, with their runs per period for its group. -/
def State.periodEntries (s : State) (p : Nat) (q : Part) (e size groups : Nat) : List (Nat × List Byte) :=
  (s.jobs.filter fun j => decide (j.part = p)).flatMap fun j =>
    ((List.range j.nentry).map fun i => (Config.entryRuns j.slot i size groups, s.jobEntry j i)).filter fun x =>
      decide (0 < x.1) && decide (e ∈ q.entryEngines x.2)

/-- R399 for engine `e` of partition `p` at a cap: occupancy, and every worst-case tail with its 25 µs of publication. -/
def State.engineFits (s : State) (p : Nat) (q : Part) (cap e : Nat) : Bool :=
  match s.planned p e with
  | [] => true
  | d :: r =>
    let es := s.periodEntries p q e (r.length + 1) (latest ((d :: r).map fun x => (cGroups x).length))
    let k := aclkTen cap
    decide (es.foldl (fun a x => a + x.1 * (entryWcet x.2 cap * 10 + 2000 * k)) 0 ≤ slotNs (cMu d) * k)
      && es.all fun x => decide (entryTail x.2 cap + 25000 ≤ deadlineNs (cMu d))

/-- R399 for a partition's decoders: occupancy per period within FSHARE. -/
def State.facetFits (s : State) (p : Nat) (q : Part) (cap : Nat) : Bool :=
  let gs := ((List.range 8).map fun e => (e, s.planned p e)).filter fun x => !x.2.isEmpty
  match gs.flatMap (·.2) with
  | [] => true
  | d :: _ =>
    let occ := gs.foldl (fun a x => a + (s.periodEntries p q x.1 x.2.length
      (latest (x.2.map fun y => (cGroups y).length))).foldl (fun a y => a + y.1 * fieldLE y.2 24 4) 0) 0
    decide (occ * 10 * 1000 ≤ slotNs (cMu d) * q.fshare * aclkTen cap) || decide (q.fmask = 0)

/-- Admission of every REALTIME partition at cap code `cap` (R399, R400). -/
def State.admits (s : State) (cap : Nat) : Bool :=
  (List.finRange 8).all fun p => match s.parts[p] with
    | none => true
    | some q => decide (q.cls ≠ 0)
        || ((List.range 8).all (fun e => !(bit q.engmask e) || s.engineFits p.val q cap e) && s.facetFits p.val q cap)

end Sys2Proof.Machine
end

