-- ==== Sys2Proof/Machine/Views.lean ====
section
/-! DEFINITION. What a read of a register returns: the value it holds, or the value that the hardware forms at the read
(status fields that mirror other state). -/
namespace Sys2Proof.Machine

/-- The physical slot of logical engine `e` (R4): the e-th slot that the disabled-unit map leaves enabled. -/
def State.slotOf (s : State) (e : Nat) : Nat :=
  ((List.range 8).filter fun k => !(bit s.fuse.dismap.toNat k)).getD e 0

/-- Codes of ENG_STATUS.STATE (Table 3.12). -/
def EngState.code : EngState → Nat
  | .idle => 0
  | .running => 1
  | .waiting => 2
  | .halted => 3
  | .trapped => 4
  | .killing => 5

/-- ENG_STATUS.WAIT_CTR: the counter named by the current WAIT or WAITT. -/
def Wait.ctr : Wait → Nat
  | .token k _ => k.toNat
  | .tokenLimit k _ _ _ => k.toNat
  | _ => 0

/-- Arrays that a descriptor in progress selects. -/
def State.busyArrays (s : State) (e : Fin 8) : Nat :=
  (s.eng[e].started.filter fun d => decide (d.q = .array)).foldl (fun m d => m ||| fieldLE d.desc 8 8) 0

/-- Bit a of the 64-bit value is field [k:k] of ARR_a_STATUS (Table 5.9). -/
def State.arrSum (s : State) (e : Fin 8) (k : Nat) : Nat :=
  (List.range 64).foldl (fun v a => v + s.fld (arrKey e a) k k * 2 ^ a) 0

/-- Transaction slots in use (R251): operations issued and not yet answered. -/
def State.slotsUsed (s : State) (e : Fin 8) : Nat :=
  (s.fab.ingress.filter fun i => i.owner.ofEng e).length + (s.fab.rets.filter fun r => r.item.owner.ofEng e).length
    + (s.fab.flight.filter fun x => x.owner.ofEng e && decide (x.op = .get ∨ x.op = .fetchAdd ∨ x.op = .cas)).length

/-- Streamers that hold a descriptor (STRM_STATUS.BUSY). -/
def State.strmBusy (s : State) (e : Fin 8) : Nat :=
  s.eng[e].started.foldl (fun m d => match d.q with
    | .stream q => m ||| 2 ^ (q % 4)
    | _ => m) 0

/-- Registers of an engine that mirror its state; `none` for a register that is read as it is held. -/
def State.engView (s : State) (e : Fin 8) (o : Nat) : Option Nat :=
  let en := s.eng[e]
  let held := s.regN (key e o)
  if o = CTU then some (e.val + 2 ^ 8 * s.slotOf e.val)
  else if o = CTU + 8 then
    some (en.state.code + held / 8 % 2 * 8 + 2 ^ 4 * en.wait.ctr
      + 2 ^ 16 * min 0xFFFF (en.queue.length + en.started.length))
  else if o = CTU + 0x18 then some (en.pc.toNat % 2 ^ 26)
  else if o = CTU + 0x28 then some (s.blockCyc e)
  else if CTU + 0x10000 ≤ o ∧ o < CTU + 0x10400 ∧ o % 16 = 0 then
    let a := (o - CTU - 0x10000) / 16
    some (held % 4 + 4 * b2n (bit (s.busyArrays e) a)
      + 8 * b2n ((Sparse.get (fun _ => (none : Option Tile)) en.tiles a).isSome))
  else if o = CTU + 0x10410 then some (s.arrSum e 0 % 2 ^ 32)
  else if o = CTU + 0x10414 then some (s.arrSum e 0 / 2 ^ 32)
  else if o = CTU + 0x10418 then some (s.arrSum e 1 % 2 ^ 32)
  else if o = CTU + 0x1041C then some (s.arrSum e 1 / 2 ^ 32)
  else if o = CTU + 0x20028 then
    some (held % 2 + 2 * b2n (en.started.any fun d => decide (d.q = .col)))
  else if o = CTU + 0x30000 then
    some (held % 8 + 8 * b2n (en.started.any fun d => decide (d.q = .signal)))
  else if o = CTU + 0x40008 then
    some (min 0xFFF (s.slotsUsed e) + 2 ^ 12 * s.strmBusy e + held / 2 ^ 16 % 2 * 2 ^ 16
      + 2 ^ 17 * b2n (!en.eccHalt.isEmpty))
  else none

/-- DB_SET reads as DB_RAW, DB_PEND as DB_RAW and not DB_MASK (Table 13.13). -/
def State.mboxView (s : State) (u o : Nat) : Option Nat :=
  if o = CTM + 0x1004 then some (s.regN (dbRaw u))
  else if o = CTM + 0x100C then some (s.dbPend u).toNat
  else none

/-- The ledger's registers (Table 16.8). -/
def State.ledgerView (s : State) (o : Nat) : Option Nat :=
  let l := s.ledger
  if o = CTU then
    some (b2n l.copy0 + 2 * b2n l.copy1 + 4 * b2n l.noLedger + 8 * b2n l.pathFault + 16 * b2n l.accStop)
  else if o = CTU + 4 then some (l.next % 2 ^ 32)
  else if o = CTU + 8 then some (l.next / 2 ^ 32)
  else if o = CTU + 0xC then some (l.oldest % 2 ^ 32)
  else if o = CTU + 0x10 then some (l.oldest / 2 ^ 32)
  else if o = CTU + 0x14 then some l.free
  else if o = CTU + 0x18 then some (min 0xFFFFFFFF l.drop)
  else none

/-- BAR0: the fused security fields (Table 20.9), and CFULL and VALID of the pairs (R371, Table 13.11). -/
def State.barView (s : State) (o : Nat) : Option Nat :=
  let held := s.regN (key BAR0 o)
  let z := s.fuse
  if o = 0 then some (1 + 16 * 0xB + 2 ^ 8 * b2n (!z.gradeA) + 2 ^ 10 * b2n z.xSuffix + 2 ^ 16 * 0xC8)
  else if o = 4 then some z.dismap.toNat
  else if o = 8 then some (z.serial.toNat % 2 ^ 32)
  else if o = 0xC then some (z.serial.toNat / 2 ^ 32)
  else if o = 0x10 then some (held % 8 + 8 * b2n s.secure.keys)
  else if o = 0x20 then some (z.svn + held / 2 ^ 8 % 128 * 2 ^ 8)
  else if 0x18000 ≤ o ∧ o < 0x20000 ∧ o % 16 = 0 then
    let p := (o - 0x18000) / 16
    let d := s.queueDesc (2 * p + 1)
    let full := decide ((s.regN (qCtail p) + 2 ^ 32 - s.regN (qChead p)) % 2 ^ 32 = 2 ^ d.log2size)
    some (held % 4 + 4 * b2n (d.valid && full) + 8 * b2n d.valid)
  else none

/-- Engines whose power is `x`, as a mask. -/
def State.powerMask (s : State) (x : EngPower) : Nat :=
  (List.finRange 8).foldl (fun m e => if s.eng[e].power = x then m + 2 ^ e.val else m) 0

/-- PWR_STATUS (Table 21.10). -/
def State.pwrView (s : State) (o : Nat) : Option Nat :=
  if o = CTU + 0x100 then
    some (s.power.cap % 4 + 4 * b2n s.power.throttle + 8 * b2n s.power.dIdle + 2 ^ 4 * min 15 s.power.wakeq.length
      + 2 ^ 8 * s.powerMask .off + 2 ^ 16 * s.powerMask .idle)
  else none

/-- FCT_STATUS (Table 11.12). -/
def State.facetView (s : State) (f o : Nat) : Option Nat :=
  if o = CTU then
    some (match (s.facet.getD f Facet.reset).cur with
      | some w => 1 + 2 * w.queue
      | none => 0)
  else none

/-- What a read of register `a` of a unit window returns (R8: 0 where no register is), with the write-only fields of
its row reading 0 (R10). -/
def State.view (s : State) (a : Nat) : Nat :=
  let u := a / 2 ^ 52
  let o := a % 2 ^ 52
  let special := match unitClass u with
    | .engine => (engOf u).bind fun e => (s.engView e o).or (s.mboxView u o)
    | .anchor => (s.pwrView o).or (s.mboxView u o)
    | .bar0 => s.barView o
    | .facet => s.facetView (u - 0x10) o
    | .ledger => s.ledgerView o
    | _ => none
  match special with
  | some v => v
  | none => match regRow a with
    | none => 0
    | some r => r.flds.foldl (fun v f => if f.acc = .wo then setBits v f.hi f.lo 0 else v) (s.regN a)

/-- A word of BAR0, or of the anchor's mailbox block that BAR0 shows at 0x2_0000 (Table 13.1). -/
def barKey (o : Nat) : Nat := if 0x20000 ≤ o ∧ o < 0x30000 then key 0x60 (CTM + (o - 0x20000)) else key BAR0 o

/-! ### Reads that latch -/

/-- Seconds, nanoseconds and fractions of the PTP clock (R477), whose state is in units of 2^-44 ns. -/
def State.ptpSec (s : State) : Nat := s.ptp / (2 ^ 44 * 10 ^ 9) % 2 ^ 64
def State.ptpNano (s : State) : Nat := s.ptp / 2 ^ 44 % 10 ^ 9
def State.ptpFrac (s : State) : Nat := s.ptp / 2 ^ 28 % 2 ^ 16

/-- A read of PTP_SEC_LO latches the whole clock (R477). -/
def State.ptpLatch (s : State) : State :=
  let k := key 0x30 CTU
  ((s.setReg64 (k + 8) s.ptpSec).setRegN (k + 0x10) s.ptpNano).setRegN (k + 0x14) s.ptpFrac

/-- Offset of counter block `b` in a window, counter index: the place of a PMC register (Table 22.6). -/
def pmcPlace (u o : Nat) : Option (Nat × Nat × Nat) :=
  let b := match unitClass u with
    | .engine => if CTU + 0x50000 ≤ o ∧ o < CTU + 0x50110 then some (CTU + 0x50000) else none
    | .anchor => if CTU + 0x10000 ≤ o ∧ o < CTU + 0x11000 then some ((o / 0x100) * 0x100) else none
    | .port | .brivel => if CTU + 0x10000 ≤ o ∧ o < CTU + 0x10090 then some (CTU + 0x10000) else none
    | _ => none
  match b with
  | some c => if c + 0x10 ≤ o then some (c, (o - c - 0x10) / 16, (o - c) % 16) else none
  | none => none

/-- Events that Table 22.1 lists for the block at unit `u`. -/
def pmcEvents (u : Nat) : List Nat :=
  match unitClass u with
  | .engine => [1, 2, 3, 4, 5, 6, 7, 8, 9, 0xA, 0xB, 0xC, 0xD]
  | .anchor => [1, 0xD, 0x10, 0x11, 0x12, 0x13, 0x14]
  | .port => [1, 0x10, 0x11, 0x20, 0x21, 0x22, 0x23]
  | .brivel => [1, 0x10, 0x11, 0x24, 0x25]
  | _ => []

/-- Whether counter `k` of the block at offset `b` of unit `u` may advance with its clock (R570, R572). -/
def State.pmcRuns (s : State) (u b k : Nat) : Bool :=
  let sel := s.regN (key u (b + 0x10 + 16 * k))
  let mode := bits sel 9 8
  decide (s.fld (key u b) 1 0 = 1)
    && (decide (mode = 2) || (decide (mode ≤ 1) && decide (bits sel 7 0 ∈ pmcEvents u)))

/-- The 48-bit value of a counter: LO as held, bits [47:32] beside it. -/
def State.pmcCount (s : State) (u b k : Nat) : Nat :=
  s.regN (key u (b + 0x14 + 16 * k)) + 2 ^ 32 * Sparse.get (fun _ => 0) s.pmcHi (key u (b + 0x14 + 16 * k))

/-- Put a counter's 48-bit value. -/
def State.pmcPut (s : State) (u b k v : Nat) : State :=
  { s.setRegN (key u (b + 0x14 + 16 * k)) (v % 2 ^ 32) with
    pmcHi := Sparse.set (fun _ => 0) s.pmcHi (key u (b + 0x14 + 16 * k)) (v / 2 ^ 32 % 2 ^ 16) }

/-- What a counter holds when it is looked at: a running counter has advanced by cycles that the model does not count, so
its value is a free one. -/
def State.pmcLook (s : State) (u b k : Nat) : State :=
  if s.pmcRuns u b k then
    let d := s.draw
    d.2.pmcPut u b k (d.1.toNat % 2 ^ 48)
  else s

/-- A read of a counter's LO word latches its HI word (R572). -/
def State.pmcLatch (s : State) (u b k : Nat) : State :=
  let s1 := s.pmcLook u b k
  s1.setRegN (key u (b + 0x18 + 16 * k)) (s1.pmcCount u b k / 2 ^ 32)

/-- What a read of a register does before its value is taken. -/
def State.latch (s : State) (a : Nat) : State :=
  let u := a / 2 ^ 52
  let o := a % 2 ^ 52
  if a = key 0x30 (CTU + 8) then s.ptpLatch
  else match pmcPlace u o with
    | some (b, k, 4) => s.pmcLatch u b k
    | _ => s

/-- Read the word of register `a`: the state after the read (a read may latch), and the value. -/
def State.readWord (s : State) (a : Nat) : State × Nat := (s.latch a, (s.latch a).view a)

/-- Read `n` words from register `a` on. -/
def State.readWords (s : State) (a : Nat) : (n : Nat) → State × List Byte
  | 0 => (s, [])
  | n + 1 =>
    let r := s.readWord a
    let t := r.1.readWords (a + 4) n
    (t.1, toLE 4 r.2 ++ t.2)

/-- Read `n` bytes at offset `off` of unit `u`: memory through its checker, the control region by words (R7); none when
the memory read is uncorrectable. -/
def State.targetRead (s : State) (u off n : Nat) : State × Option (List Byte) :=
  if off < CTL then s.read (key u off) n
  else if off % 4 = 0 ∧ n % 4 = 0 then
    let r := s.readWords (key u off) (n / 4)
    (r.1, some r.2)
  else (s, some (List.replicate n 0))

end Sys2Proof.Machine
end

