-- ==== Sys2Proof/Machine/FabCheck.lean ====
section
/-! DEFINITION. Whether an operation can reach its target (02): devices and routes, units, streams, windows. The codes
are those of Table 2.10; 0 stands for no failure. -/
namespace Sys2Proof.Machine

/-- Device, unit and offset of a fabric address (R35). -/
def devOf (a : Nat) : Nat := a / 2 ^ 60
def unitOf (a : Nat) : Nat := a / 2 ^ 52 % 256
def offOf (a : Nat) : Nat := a % 2 ^ 52

/-- Opcodes of Table 2.5. -/
def FabOp.code : FabOp → Nat
  | .put => 1
  | .get => 2
  | .putSignal => 3
  | .signal => 4
  | .atomicAdd => 5
  | .fetchAdd => 6
  | .cas => 7
  | .orderedFadd => 8

def FabOp.ofCode (c : Nat) : Option FabOp :=
  match c with
  | 1 => some .put
  | 2 => some .get
  | 3 => some .putSignal
  | 4 => some .signal
  | 5 => some .atomicAdd
  | 6 => some .fetchAdd
  | 7 => some .cas
  | 8 => some .orderedFadd
  | _ => none

/-- The lengths that Table 2.5 allows (R44). -/
def FabOp.lenOk (o : FabOp) (n : Nat) : Bool :=
  match o with
  | .put | .get | .putSignal => decide (n ≤ 4096)
  | .signal => decide (n = 0)
  | .atomicAdd | .fetchAdd => decide (n = 4) || decide (n = 8)
  | .cas => decide (n = 8) || decide (n = 16)
  | .orderedFadd => decide (4 ≤ n) && decide (n ≤ 4096) && decide (n % 4 = 0)

/-- An operation that returns data under R47. -/
def FabOp.returns (o : FabOp) : Bool := decide (o = .get ∨ o = .fetchAdd ∨ o = .cas)

/-- Bytes that the return carries. -/
def FabOp.retLen (o : FabOp) (n : Nat) : Nat := if o = .cas then n / 2 else if o.returns then n else 0

/-- Credits of an operation of `n` bytes (R54). -/
def credits (n : Nat) : Nat := max 1 (ceilDiv n 256)

/-- The Brivel port (0 or 1) that the route table names for chain number `d`, if that port is up; a port that retrains
holds operations and stays usable (R494, R502). -/
def State.routePort (s : State) (d : Nat) : Option Nat :=
  let r := s.fld (key 0x34 (CTU + 0x20)) (2 * d + 1) (2 * d)
  if r = 1 ∨ r = 2 then
    let st := s.fld (key (0x33 + r) (CTU + 4)) 1 0
    if st = 2 ∨ st = 3 then some (r - 1) else none
  else none

/-- Units that answer only once a configuration command has configured them: fronthaul ports and the sensor modem. -/
def needsConfig (u : Nat) : Bool :=
  match unitClass u with
  | .port | .modem => true
  | _ => false

/-- Whether an assigned unit is absent: not on the grade, not configured, or an engine in E-OFF (R39, R113). -/
def State.unitAbsent (s : State) (u : Nat) : Bool :=
  match unitClass u with
  | .engine => match engOf u with
    | some e => !(s.engPresent e)
    | none => true
  | .facet => decide (s.nEngines ≤ u - 0x10)
  | _ => needsConfig u && !(decide (u ∈ s.configured))

/-- The compute die runs: the device is LOADED or RUNNING (Table 20.1) and not in D-STANDBY (R554), and no trip holds it in reset (R564). -/
def State.computeUp (s : State) : Bool :=
  let d := s.fld (key BAR0 0x10) 2 0
  (decide (d = 3) || decide (d = 4)) && !s.power.tripped && !s.power.dStandby

/-- Whether a unit is held in reset (R81, R548). -/
def State.unitReset (s : State) (u : Nat) : Bool := !s.computeUp && !(decide (u = 0x60 ∨ u = 0x61 ∨ u = 0x62))

/-- Why unit `u` of the own device refuses every operation of source `src`. -/
def State.unitCause (s : State) (u src : Nat) : Nat :=
  let c := unitClass u
  if c = .unassigned ∨ c = .hostWin ∨ c = .bar0 then 1
  else if s.unitAbsent u then 2
  else if s.unitReset u then 0xA
  else if c = .ledger ∧ src ≠ 0x60 then 7
  else 0

/-- The entry of unit `u`'s credit table that registers a stream: the lowest valid one. -/
def State.streamEntry (s : State) (u stream : Nat) : Option Nat :=
  let lo := key u CTC
  (s.regs.find? fun r => decide (lo ≤ r.1) && decide (r.1 < lo + 0x2000) && decide ((r.1 - lo) % 8 = 4)
    && bit r.2.toNat 31 && decide (s.fld (r.1 - 4) 15 0 = stream)).map fun r => (r.1 - lo) / 8

/-- Registers of a credit-table entry. -/
def crdW0 (u k : Nat) : Nat := key u (CTC + 8 * k)
def crdW1 (u k : Nat) : Nat := key u (CTC + 8 * k + 4)

/-- Whether the Pool shares of the partitions cover [off, off + n) (R429). -/
def State.poolCovers (s : State) : (fuel : Nat) → (off n : Nat) → Bool
  | 0, _, n => decide (n = 0)
  | k + 1, off, n =>
    if n = 0 then true
    else
      let ends := (List.finRange 8).filterMap fun p => match s.parts[p] with
        | some q => if q.poolBase ≤ off ∧ off < q.poolBase + q.poolSize then some (q.poolBase + q.poolSize) else none
        | none => none
      match ends with
      | [] => false
      | b :: _ => if off + n ≤ b then true else s.poolCovers k b (off + n - b)

/-- Whether [off, off + n) lies in one region of unit `u`'s window (R40, R429). -/
def State.winOk (s : State) (u off n : Nat) : Bool :=
  if CTL ≤ off then decide (off + n ≤ 2 ^ 52)
  else match s.region u off (max n 1) with
    | none => false
    | some c => if c = POOLMEM then s.poolCovers 9 off (max n 1) else true

/-- Why an operation that names a range at `addr` (after translation) on a stream fails before its own effect: device,
unit, stream, window, in this order. An operation on another device is judged there. -/
def State.reachCause (s : State) (src stream addr n : Nat) : Nat :=
  if devOf addr ≠ s.ownChain then (if (s.routePort (devOf addr)).isSome then 0 else 2)
  else
    let u := unitOf addr
    let c := s.unitCause u src
    if c ≠ 0 then c
    else if (s.streamEntry u stream).isNone then 6
    else if s.winOk u (offOf addr) n = false then 3
    else 0

/-- An access reaches unit `u`: an engine in E-IDLE wakes (R82, R549); an HBM access in D-IDLE wakes its stack (R554). -/
def State.reach (s : State) (u : Nat) : State :=
  match engOf u with
  | some e => s.wakeEng e
  | none => s

/-- Stack of 256-byte line `l` of HBM (R441). -/
def State.hbmStack (s : State) (l : Nat) : Nat :=
  (l ^^^ (l / 2 ^ 8) ^^^ (l / 2 ^ 16) ^^^ (l / 2 ^ 24)) % (if s.fuse.gradeA then 4 else 2)

/-- An access wakes HBM stack `st` in D-IDLE; it returns to self-refresh 1 µs after its latest one (R555). -/
def State.wakeStack (s : State) (st : Nat) : State :=
  if s.power.dIdle then
    { s with power := { s.power with hbmAwake := s.power.hbmAwake.filter (fun x => decide (x.1 ≠ st)) ++ [(st, s.clock.tclk)] } }
  else s

/-- An access reaches [off, off + n) of unit `u`: an engine wakes, or in D-IDLE the HBM stacks of its lines. -/
def State.reachAt (s : State) (u off n : Nat) : State :=
  if u = 0x40 ∧ off < CTL ∧ s.power.dIdle then
    ((List.range ((off + max n 1 - 1) / 256 - off / 256 + 1)).map fun i => s.hbmStack (off / 256 + i)).foldl (fun t k => t.wakeStack k) s
  else s.reach u

/-! ### The pair check at an engine's ingress (R184 to R186) -/

/-- Registers of pair entry `n`. -/
def pairStreams (e : Fin 8) (n : Nat) : Nat := key e (CTU + 0x300 + 8 * n)
def pairCtlKey (e : Fin 8) (n : Nat) : Nat := key e (CTU + 0x304 + 8 * n)

/-- The lowest enabled entry that names a stream, and whether the stream is its scale stream; a stream named twice in one
entry is its data stream (R184). -/
def State.pairOf (s : State) (e : Fin 8) (stream : Nat) : Option (Nat × Bool) :=
  ((List.range 16).find? fun n => decide (s.fld (pairCtlKey e n) 16 16 = 1)
    && (decide (s.fld (pairStreams e n) 15 0 = stream) || decide (s.fld (pairStreams e n) 31 16 = stream))).map
    fun n => (n, decide (s.fld (pairStreams e n) 15 0 ≠ stream))

/-- The place of the first failing unit of an operation, with the sequence it carried (R185); none when all pass.
`sz` bytes a unit. -/
def pairFail (scale : Bool) (elem1 : Bool) (kind base rank seq sz : Nat) (payload : List Byte) : Option (Nat × Nat) :=
  if payload.length % sz ≠ 0 then some (0, seq)
  else
    let n := payload.length / sz
    let bad2 := if scale then (List.range n).find? fun j =>
        let r := slice payload (j * sz) sz
        decide (recSeq r ≠ (seq + j) % 2 ^ 16) || decide (recKind r ≠ kind) || !(recCountOk kind r)
          || (if elem1 then decide (recElem r ≠ 1 ∧ recElem r ≠ 2) else decide (recElem r ≠ 0))
      else none
    match bad2 with
    | some j => some (j, recSeq (slice payload (j * sz) sz))
    | none => if seq % 2 ^ 16 = (base + rank) % 2 ^ 16 then none else some (0, seq)

/-- An operation reaches engine `e` on a stream: the state after the pair check, and whether its token increment may be
applied. -/
def State.pairCheck (s : State) (e : Fin 8) (stream seq : Nat) (payload : List Byte) : State × Bool :=
  match s.pairOf e stream with
  | none => (s, true)
  | some (n, scale) =>
    let ck := pairCtlKey e n
    if s.fld ck 19 19 = 1 then (s, false)
    else if payload.length = 0 then (s, true)
    else
      let kind := s.fld ck 18 18
      let elem1 := decide (s.fld ck 17 17 = 1)
      let sz := if scale then recBytes kind else if elem1 then 1024 else 512
      let i := 2 * n + b2n scale
      let rank := Sparse.get (fun _ => 0) s.eng[e].ranks i
      let base := s.fld ck 15 0
      match pairFail scale elem1 kind base rank seq sz payload with
      | none =>
        (s.modEng e fun en => { en with ranks := Sparse.set (fun _ => 0) en.ranks i (rank + payload.length / sz) }, true)
      | some (j, found) =>
        let s1 := (s.setFld ck 19 19 1).recordSkew e (b2n scale) n 0 (base + rank + j) found
        (s1.faultKill e SCALE_SKEW 0, false)

end Sys2Proof.Machine
end

