-- ==== Sys2Proof/Machine/Rings.lean ====
section
/-! DEFINITION. The host's rings (13): pair registers, acceptance, completions and MSI-X, and the commands that the chapter
itself defines. -/
namespace Sys2Proof.Machine

/-! ### The interface -/

/-- SEC_STATE (Table 20.9). -/
def secState : Nat := key BAR0 0x10

/-- The device state (Table 20.1). -/
def State.devState (s : State) : Nat := s.fld secState 2 0

/-- The host interface is full: LOADED or RUNNING (Table 20.1), and not D-STANDBY (R554). -/
def State.fullIf (s : State) : Bool := (decide (s.devState = 3) || decide (s.devState = 4)) && !s.power.dStandby

/-- The PCIe endpoint answers: power is good, PERST_N is released, and the device is not in D-STANDBY (R523, R554, R563). -/
def State.hostUp (s : State) : Bool := s.power.good && !s.power.perst && !s.power.dStandby

/-- The device may read and write host memory. -/
def State.master (s : State) : Bool := s.hostUp && s.power.busMaster

/-- The pair is configured (Q_p_STATUS.VALID). -/
def State.pairValid (s : State) (p : Nat) : Bool := (s.queueDesc (2 * p)).valid

/-- A write of the host to BAR0 outside the parts that answer in SAFE (R356). -/
def hostReg (s : State) (f : State → State) : State := if s.hostUp && s.fullIf then f s else s

/-- The distance a − b of free-running 32-bit counters. -/
def ringDist (a b : Nat) : Nat := (a + 2 ^ 32 - b) % 2 ^ 32

/-- The host writes Q_p_TAIL (R366): a value that would overrun the ring is ignored and sets OVERRUN. -/
def State.tailWrite (s : State) (p v : Nat) : State :=
  if s.pairValid p = false then s
  else if 2 ^ (s.queueDesc (2 * p)).log2size < ringDist v (s.regN (qAcc p)) then s.setFld (qStatus p) 1 1 1
  else s.setRegN (qTail p) v

/-- The host writes Q_p_CHEAD (R366): a value outside CHEAD to CTAIL is ignored. -/
def State.cheadWrite (s : State) (p v : Nat) : State :=
  if s.pairValid p = false then s
  else if ringDist (s.regN (qCtail p)) (s.regN (qChead p)) < ringDist v (s.regN (qChead p)) then s
  else s.setRegN (qChead p) v

/-- A write of Q_p_TAIL. -/
def execQTailWrite (pair : BitVec 11) (v : Reg32) (s : State) : Out :=
  .next (hostReg s fun t => t.tailWrite pair.toNat v.toNat)

/-- A write of Q_p_CHEAD. -/
def execQCheadWrite (pair : BitVec 11) (v : Reg32) (s : State) : Out :=
  .next (hostReg s fun t => t.cheadWrite pair.toNat v.toNat)

/-! ### MSI-X (R354, R371, R381) -/

/-- The MSI-X table entry of vector `v`, and its pending bit. -/
def msixEntry (v : Nat) : Nat := key BAR0 (0x40000 + 16 * v)
def msixPba (v : Nat) : Nat := key BAR0 (0x48000 + 4 * (v / 32))

/-- Send vector `v`: its message is written unless it is masked or messages are held (R563); then its pending bit is set. -/
def State.msix (s : State) (v : Nat) : State :=
  let e := msixEntry v
  if s.fld (e + 0xC) 0 0 = 0 ∧ s.master then
    (s.hostWrite (s.reg64 e) (toLE 4 (s.regN (e + 8)))).setFld (msixPba v) (v % 32) (v % 32) 0
  else s.setFld (msixPba v) (v % 32) (v % 32) 1

/-! ### Acceptance (R364 to R368) -/

/-- Opcodes of Table 13.7. -/
def opcodes : List Nat := [0, 1, 2, 3, 8, 9, 0xA, 0x10, 0x11, 0x12, 0x13, 0x14, 0x15, 0x20, 0x21, 0x22, 0x28, 0x30, 0x31,
  0x32, 0x38, 0x39, 0x3A, 0x3B, 0x40, 0x41, 0x48, 0x49, 0x50, 0x51, 0x58]

/-- Device-level opcodes (Table 13.7). -/
def deviceOps : List Nat := [1, 8, 9, 0xA, 0x38, 0x39, 0x3A, 0x3B, 0x40, 0x41, 0x48, 0x49, 0x50, 0x51, 0x58]

/-- Opcodes of either level (Table 13.7). -/
def eitherOps : List Nat := [0, 2, 3]

/-- The check of an accepted packet (R367, R368): its DETAIL, 0 when it passes. `pp` is the pair's PART. -/
def vet (pp : Nat) (pkt : List Byte) : Nat :=
  let op := pktOp pkt
  let part := pktPart pkt
  if op ∉ opcodes then 0xF001
  else if fieldLE pkt 1 1 / 4 ≠ 0 ∨ fieldLE pkt 3 5 ≠ 0 then 0xF002
  else if 8 ≤ part ∧ part < 0xFF then 0xF003
  else if op ∈ deviceOps ∨ (op ∈ eitherOps ∧ part = 0xFF) then (if part = 0xFF ∧ pp = 0xFF then 0 else 0xF004)
  else if part ≠ 0xFF ∧ (pp = 0xFF ∨ pp = part) then 0 else 0xF004

/-- The anchor may read the next entry of pair `p`: the interface is full, the pair is configured and not stopped, an entry
waits, and the ledger path, free space (R456) and host memory are there. -/
def State.mayAccept (s : State) (p : Nat) : Bool :=
  s.fullIf && s.master && s.pairValid p && decide (s.fld (qStatus p) 0 0 = 0)
    && decide (s.regN (qAcc p) ≠ s.regN (qTail p)) && s.ledger.up && decide (s.ledgerReserve < s.ledger.free)

/-- The packet of the entry at ACC. -/
def State.entryAt (s : State) (p : Nat) : List Byte :=
  let d := s.queueDesc (2 * p)
  s.hostBytes (d.ring + s.regN (qAcc p) % 2 ^ d.log2size * 64) 64

/-- Take a command into the device (R364): its ACCEPT record commits, ACC and NEXTSEQ advance, Mirror records it, and a packet
that fails its check completes at once (R367). -/
def State.take (s : State) (p : Nat) (pkt : List Byte) : State :=
  let seq := pktSeq pkt
  let s1 := s.ledgerCommit 0x01 (idBytes (p, seq) ++ pkt)
  let s2 := (s1.setRegN (qAcc p) (s.regN (qAcc p) + 1)).setReg64 (qNextseq p) ((seq + 1) % 2 ^ 64)
  let s3 := { s2 with
    cmds := s2.cmds ++ ([⟨p, seq, pkt, .accepted, 0, 0, s2.orderNo, 0, 0, false, [], []⟩] : List Cmd)
    orderNo := s2.orderNo + 1 }
  let s4 := s3.journalHost p pkt
  let d := vet (s.queueDesc (2 * p)).part pkt
  if d = 0 then s4 else s4.finish (p, seq) BAD_PARAM d 0

/-- One step of acceptance on pair `p` (R364): the entry is accepted, or the pair stops at SEQERR. ACCSTOP shows whether free
space holds acceptance (R456). -/
def State.acceptStep (s : State) (p : Nat) : State :=
  let s1 := { s with ledger := { s.ledger with accStop := !(decide (s.ledgerReserve < s.ledger.free)) } }
  if s1.mayAccept p = false then s1
  else if pktSeq (s1.entryAt p) ≠ s1.reg64 (qNextseq p) then s1.setFld (qStatus p) 0 0 1
  else s1.take p (s1.entryAt p)

/-- A write of Q_p_CTL.RESUME clears SEQERR and rereads the entry (R364). -/
def execResume (pair : BitVec 11) (s : State) : Out :=
  .next (hostReg s fun t => (t.setFld (qStatus pair.toNat) 0 0 0).acceptStep pair.toNat)

/-! ### Completions (R363, R370, R371) -/

/-- PHASE of completion entry `c` of a ring of 2^n entries (R363). -/
def phaseOf (n c : Nat) : Nat := if c / 2 ^ n % 2 = 0 then 1 else 0

/-- The 16 bytes of a completion (Table 13.6). -/
def completionBytes (c : Completion) (phase : Nat) : List Byte :=
  toLE 8 c.seq ++ toLE 1 c.status ++ toLE 1 phase ++ toLE 2 c.detail ++ toLE 4 c.value

/-- The completion ring of pair `p` has no room (R371). -/
def State.ringFull (s : State) (p : Nat) : Bool :=
  decide (ringDist (s.regN (qCtail p)) (s.regN (qChead p)) = 2 ^ (s.queueDesc (2 * p + 1)).log2size)

/-- Write the oldest finished completion of pair `p` (R371): its entry, the COMPLETE record, CTAIL, and the MSI-X vector when
the command asked for it. -/
def State.writeCompletion (s : State) (p : Nat) : State :=
  match s.completions.find? fun c => decide (c.pair = p) with
  | none => s
  | some c =>
    if s.master = false ∨ s.fullIf = false ∨ s.pairValid p = false ∨ s.ringFull p ∨ s.ledger.up = false then s
    else
      let d := s.queueDesc (2 * p + 1)
      let t := s.regN (qCtail p)
      let s1 := s.hostWrite (d.ring + t % 2 ^ d.log2size * 16) (completionBytes c (phaseOf d.log2size t))
      let s2 := s1.ledgerCommit 0x03 (idBytes (p, c.seq) ++ toLE 4 (t + 1))
      let s3 := { s2.setRegN (qCtail p) (t + 1) with
        completions := ((takeFirst (fun x => decide (x.pair = p)) s2.completions).map (·.2)).getD []
        cmds := s2.cmds.filter fun x => !(decide (x.pair = p) && decide (x.seq = c.seq)) }
      if c.cirq ∧ d.msix ≤ 2047 then s3.msix d.msix else s3

/-- COMPLETION_WRITE on a pair (R371). -/
def execCompletionWrite (pair : BitVec 11) (s : State) : Out := .next (s.writeCompletion pair.toNat)

/-! ### Running a command -/

/-- Opcode of an accepted command. -/
def Cmd.op (c : Cmd) : Nat := pktOp c.pkt
def Cmd.part (c : Cmd) : Nat := pktPart c.pkt
def Cmd.id (c : Cmd) : Nat × Nat := (c.pair, c.seq)

/-- Opcodes of the commands that wait on device work (R370) and complete later than they start: job commands, carrier
configurations, slot requests, weight loads, trials, Brivel configurations, replays. -/
def deviceWork : List Nat := [0x13, 0x20, 0x21, 0x22, 0x28, 0x31, 0x3A, 0x41]

/-- The next command of a ring that the anchor starts (R370): the oldest accepted one that has not started, once every
command before it that the anchor executes alone has its outcome. -/
def State.nextCmd (s : State) (p : Nat) : Option Cmd :=
  if s.cmds.any fun c => decide (c.pair = p) && decide (c.phase = .waiting) && decide (c.op ∉ deviceWork) then none
  else s.cmds.find? fun c => decide (c.pair = p) && decide (c.phase = .accepted)

/-- A command with BARRIER waits until every earlier command of its ring has completed (R370). -/
def State.barrierOk (s : State) (c : Cmd) : Bool :=
  !(bit (fieldLE c.pkt 1 1) 0) || ((s.openCmds c.pair).head? == some c)

/-- The command that a row executes: the next of its ring, when its opcode is the row's, its barrier has passed, and the
anchor runs with its ledger path. A replayed command has a pair number above 0x8000. -/
def onCmd (op : Nat) (pair : BitVec 16) (k : Cmd → State → State) (s : State) : Out :=
  match s.nextCmd pair.toNat with
  | none => .next s
  | some c => .next (if c.op = op ∧ s.barrierOk c ∧ s.fullIf ∧ s.ledger.up then k c s else s)

/-- A command that completes with a status and nothing more. -/
def Cmd.ends (c : Cmd) (status detail value : Nat) (s : State) : State := s.finish c.id status detail value

/-- NOP (Table 13.7). -/
def execNop (pair : BitVec 16) (s : State) : Out := onCmd 0x00 pair (fun c t => c.ends OK 0 0 t) s

/-! ### QUEUE_CONFIG and Q_ADM (R375, R376) -/

/-- Replace a queue descriptor. -/
def State.setQueue (s : State) (q : Nat) (d : QueueDesc) : State :=
  { s with queues := Sparse.set (fun _ => QueueDesc.none) s.queues q d }

/-- The pair parameters (Table 13.10) are in range: LOG2SIZE 4 to 20, MSIX a vector or none, addresses multiples of 64. -/
def pairOk (b : List Byte) : Bool :=
  let z := fun i => decide (4 ≤ fieldLE b i 1) && decide (fieldLE b i 1 ≤ 20)
  z 4 && z 5 && (decide (fieldLE b 6 2 ≤ 2047) || decide (fieldLE b 6 2 = 0xFFFF))
    && decide (fieldLE b 8 8 % 64 = 0) && decide (fieldLE b 16 8 % 64 = 0)

/-- Build pair `p` from its parameters: both descriptors, pointers at 0, NEXTSEQ at SEQBASE (R376). -/
def State.buildPair (s : State) (p part : Nat) (b : List Byte) : State :=
  let cd : QueueDesc := ⟨fieldLE b 8 8, fieldLE b 4 1, part, 0, true, 0, 0, 0xFFFF, fieldLE b 24 8⟩
  let rd : QueueDesc := ⟨fieldLE b 16 8, fieldLE b 5 1, part, 0, true, 1, 0, fieldLE b 6 2, 0⟩
  let s1 := (s.setQueue (2 * p) cd).setQueue (2 * p + 1) rd
  ([qTail p, qAcc p, qCtail p, qChead p, qStatus p].foldl (fun t a => t.setRegN a 0) s1).setReg64 (qNextseq p) (fieldLE b 24 8)

/-- Remove pair `p`: VALID is 0. -/
def State.dropPair (s : State) (p : Nat) : State :=
  let off := fun (d : QueueDesc) => { d with valid := false }
  (s.setQueue (2 * p) (off (s.queueDesc (2 * p)))).setQueue (2 * p + 1) (off (s.queueDesc (2 * p + 1)))

/-- QUEUE_CONFIG. -/
def State.queueConfig (c : Cmd) (s : State) : State :=
  let b := c.pkt.drop 16
  let p := fieldLE b 0 2
  let part := fieldLE b 3 1
  let del := bit (fieldLE b 2 1) 0
  if p = 0 ∨ 2047 < p ∨ p = c.pair ∨ (7 < part ∧ part ≠ 0xFF) ∨ fieldLE b 8 8 % 64 ≠ 0 ∨ fieldLE b 16 8 % 64 ≠ 0
      ∨ (!del && !pairOk b) then c.ends BAD_PARAM 0 0 s
  else if (s.openCmds p).isEmpty = false then c.ends NO_RESOURCE 0 0 s
  else
    let s1 := s.finish c.id OK 0 p (b.take 32)
    if del then s1.dropPair p else s1.buildPair p part b

/-- QUEUE_CONFIG (R376). -/
def execQueueConfig (pair : BitVec 16) (s : State) : Out := onCmd 0x01 pair State.queueConfig s

/-- Parameter bytes 0 to 47 as the Q_ADM_PARAM registers hold them (R375). -/
def State.admBytes (s : State) : List Byte := (List.range 12).flatMap fun i => toLE 4 (s.regN (key BAR0 (0x1000 + 4 * i)))

/-- A write of Q_ADM_CTL.EN (R375): it takes effect only while pair 0 holds no accepted and incomplete command; EN stays 0
when a field is out of range. -/
def State.admWrite (s : State) (en : Bool) : State :=
  let ctl := key BAR0 0x1040
  if (s.openCmds 0).isEmpty = false then s
  else if en = false then (s.dropPair 0).setFld ctl 0 0 0
  else if pairOk s.admBytes ∧ fieldLE s.admBytes 0 2 = 0 then (s.buildPair 0 0xFF s.admBytes).setFld ctl 0 0 1
  else s

/-- Q_ADM_CTL.EN (R375). -/
def execQAdmEnable (en : Bool) (s : State) : Out := .next (hostReg s fun t => t.admWrite en)

/-! ### Windows (R357 to R359) -/

/-- Registers of window `w` and of the window status (Table 13.1). -/
def winKey (w : Nat) : Nat := key BAR0 (0x30000 + 16 * w)
def winStatus : Nat := key BAR0 0x30100

/-- The part of a lent engine's scratchpad that partition `p` holds (R383): everything on an engine that is not borrowed. -/
def State.padRange (s : State) (p : Fin 8) (e : Nat) : Option (Nat × Nat) :=
  match s.parts[p] with
  | none => none
  | some q =>
    if bit q.engmask e then
      some (0, if (s.borrowPart e).isSome then q.lendBase else SPAD)
    else if bit q.borrow e then
      match s.homePart e with
      | some h => some ((s.parts[h].map (·.lendBase)).getD 0, SPAD)
      | none => none
    else none

/-- Partition `p` owns [lo, lo + n) of unit `u` (R359): its engines' memories and control regions, its HBM and Pool regions,
its decoders' control regions. Control regions and accumulators of a lent engine stay with its home partition. -/
def State.ownsRange (s : State) (p : Fin 8) (u lo n : Nat) : Bool :=
  match s.parts[p] with
  | none => false
  | some q =>
    match unitClass u with
    | .engine =>
      if CTL ≤ lo then bit q.engmask u
      else if lo < SPAD then match s.padRange p u with
        | some r => decide (r.1 ≤ lo) && decide (lo + n ≤ r.2)
        | none => false
      else bit q.engmask u && decide (0x10000000 ≤ lo) && decide (lo + n ≤ 0x10800000)
    | .facet => decide (CTL ≤ lo) && bit q.fmask (u - 0x10)
    | .hbm => decide (q.hbmBase ≤ lo) && decide (lo + n ≤ q.hbmBase + q.hbmSize)
    | .pool => decide (q.poolBase ≤ lo) && decide (lo + n ≤ q.poolBase + q.poolSize)
    | _ => false

/-- The partition number of a command, when it names one. -/
def Cmd.partNo (c : Cmd) : Option (Fin 8) := if h : c.part < 8 then some ⟨c.part, h⟩ else none

/-- WINDOW_OPEN. -/
def State.windowOpen (c : Cmd) (s : State) : State :=
  let w := c.param 0 1
  let n := c.param 1 1
  let base := c.param 8 8
  let owned := match c.partNo with
    | some p => s.ownsRange p (unitOf base) (offOf base) (2 ^ n)
    | none => true
  if 15 < w ∨ n < 12 ∨ 32 < n ∨ devOf base ≠ 0xF ∨ base % 2 ^ n ≠ 0 ∨ owned = false then c.ends BAD_PARAM 0 0 s
  else
    let s1 := s.finish c.id OK 0 0 (slice c.pkt 16 16)
    (s1.setReg64 (winKey w) base).setRegN (winKey w + 8) (1 + 2 * (c.param 2 1 % 2) + 4 * (n % 32))

/-- WINDOW_OPEN (R359). -/
def execWindowOpen (pair : BitVec 16) (s : State) : Out := onCmd 0x02 pair State.windowOpen s

/-- WINDOW_CLOSE. -/
def State.windowClose (c : Cmd) (s : State) : State :=
  let w := c.param 0 1
  if 15 < w then c.ends BAD_PARAM 0 0 s
  else if s.fld (winKey w + 8) 0 0 = 0 then c.ends OK_EMPTY 0 0 s
  else (s.finish c.id OK 0 0 (slice c.pkt 16 1)).setFld (winKey w + 8) 0 0 0

/-- WINDOW_CLOSE (R359). -/
def execWindowClose (pair : BitVec 16) (s : State) : Out := onCmd 0x03 pair State.windowClose s

end Sys2Proof.Machine
end

