-- ==== Sys2Proof/Machine/Prism.lean ====
section
/-! DEFINITION. Prism (09): streamer descriptors and shape records, the source view, the destination layouts and the
image of bytes that a LOAD writes or a STORE sends. Places are counted in bits, so that 4-bit elements (R117) need no
path of their own. -/
namespace Sys2Proof.Machine

/-! ### Fields -/

/-- A LOAD, STORE, PLOAD or PSTORE descriptor (Table 9.1). -/
structure StrmD where
  kind : Nat
  esize : Nat
  dlay : Nat
  scpx : Bool
  dcpx : Bool
  gather : Bool
  sums : Nat
  sumacc : Bool
  rot : Nat
  rev : Nat
  cpx : Bool
  tk : Nat
  tc : Nat
  fg : Nat
  fgen : Bool
  raddr : Nat
  laddr : Nat
  shape : Nat
  nblk : Nat
  stream : Nat
  rtctr : Nat
  sigmode : Nat
  rtinc : Nat
  sumaddr : Nat
  padval : Nat
  dpitch : Int
  ds2 : Int
  ds3 : Int
  splane : Nat
  dplane : Nat
  baseseq : Nat
  skind : Nat
  elem : Nat
  sstream : Nat
  sraddr : Nat
  sladdr : Nat
  deriving DecidableEq, Repr

def StrmD.parse (b : List Byte) : StrmD where
  kind := fieldLE b 0 1 % 16
  esize := fieldLE b 0 1 / 16
  dlay := fieldLE b 1 1 % 4
  scpx := bit (fieldLE b 1 1) 2
  dcpx := bit (fieldLE b 1 1) 3
  gather := bit (fieldLE b 1 1) 4
  sums := bits (fieldLE b 1 1) 6 5
  sumacc := bit (fieldLE b 1 1) 7
  rot := fieldLE b 2 1 % 4
  rev := bits (fieldLE b 2 1) 5 2
  cpx := bit (fieldLE b 2 1) 6
  tk := fieldLE b 3 1 % 4
  tc := bits (fieldLE b 3 1) 2 2
  fg := bits (fieldLE b 3 1) 5 3
  fgen := bit (fieldLE b 3 1) 6
  raddr := fieldLE b 4 8
  laddr := d26 b 12
  shape := d26 b 16
  nblk := fieldLE b 16 2
  stream := fieldLE b 20 2
  rtctr := fieldLE b 22 2 % 4096
  sigmode := bits (fieldLE b 22 2) 13 12
  rtinc := fieldLE b 24 2
  sumaddr := d26 b 28
  padval := fieldLE b 32 4
  dpitch := sext 32 (fieldLE b 36 4)
  ds2 := sext 32 (fieldLE b 40 4)
  ds3 := sext 32 (fieldLE b 44 4)
  splane := fieldLE b 48 4
  dplane := fieldLE b 52 4
  baseseq := fieldLE b 36 2
  skind := bits (fieldLE b 36 4) 16 16
  elem := bits (fieldLE b 36 4) 18 17
  sstream := fieldLE b 40 2
  sraddr := fieldLE b 44 8
  sladdr := d26 b 52

/-- A shape record (Table 9.2). -/
structure Shape where
  d : Nat × Nat × Nat × Nat
  s : Int × Int × Int
  org0 : Int
  org1 : Int
  w0 : Nat
  w1 : Nat
  pt : Nat
  pb : Nat
  pl : Nat
  pr : Nat
  crot : List Int
  gidx : Nat
  deriving DecidableEq, Repr

def Shape.parse (b : List Byte) : Shape where
  d := (fieldLE b 0 3, fieldLE b 4 3, fieldLE b 8 3, fieldLE b 12 3)
  s := (sext 32 (fieldLE b 16 4), sext 32 (fieldLE b 20 4), sext 32 (fieldLE b 24 4))
  org0 := sext 32 (fieldLE b 28 4)
  org1 := sext 32 (fieldLE b 32 4)
  w0 := fieldLE b 36 3
  w1 := fieldLE b 40 3
  pt := fieldLE b 44 2
  pb := fieldLE b 46 2
  pl := fieldLE b 48 2
  pr := fieldLE b 50 2
  crot := (List.range 4).map fun i => sext 16 (fieldLE b (52 + 2 * i) 2)
  gidx := d26 b 60

/-- An extent is 0 (R275). -/
def Shape.empty (h : Shape) : Bool :=
  decide (h.d.1 = 0) || decide (h.d.2.1 = 0) || decide (h.d.2.2.1 = 0) || decide (h.d.2.2.2 = 0)
    || decide (h.w0 = 0) || decide (h.w1 = 0)

/-! ### Sizes (R256, R257, R260, R261) -/

/-- Bits of one part. -/
def StrmD.part (x : StrmD) : Nat := 4 * 2 ^ (x.esize % 4)

/-- Bits of an element on its source side and on its destination side. -/
def StrmD.ses (x : StrmD) : Nat := if x.cpx && !x.scpx then 2 * x.part else x.part
def StrmD.des (x : StrmD) : Nat := if x.cpx && !x.dcpx then 2 * x.part else x.part

/-- Window rows and columns as the plane takes them. -/
def StrmD.h (x : StrmD) (g : Shape) : Nat := if x.rot % 2 = 0 then g.w1 else g.w0
def StrmD.w (x : StrmD) (g : Shape) : Nat := if x.rot % 2 = 0 then g.w0 else g.w1

/-- Rows and columns of the output plane. -/
def StrmD.rows (x : StrmD) (g : Shape) : Nat := x.h g + g.pt + g.pb
def StrmD.cols (x : StrmD) (g : Shape) : Nat := x.w g + g.pl + g.pr

/-- Tile depth and width. -/
def StrmD.tkN (x : StrmD) : Nat := 16 * 2 ^ x.tk
def StrmD.tcN (x : StrmD) : Nat := if x.tc = 1 then 16 else 32

/-- Bits that one position of a STA32 tile takes: a byte for a 4-bit element with TC 16. -/
def StrmD.staBits (x : StrmD) : Nat := if x.part = 4 ∧ x.tc = 1 then 8 else x.des

/-- Bytes of a STA32 tile, and its row of tiles. -/
def StrmD.tb (x : StrmD) : Nat := x.tkN * x.tcN * x.staBits / 8
def StrmD.nkb (x : StrmD) (g : Shape) : Nat := ceilDiv (x.rows g) x.tkN

/-- Bytes of a STR32 row and of a K-block. -/
def StrmD.rb (x : StrmD) : Nat := x.tkN * x.des / 8
def StrmD.bstride (x : StrmD) (g : Shape) : Nat := ceilDiv (x.rows g * x.rb) 64 * 64

/-- Bit place of element (j1, j0) within its slice (R259 to R261). -/
def StrmD.place (x : StrmD) (g : Shape) (j1 j0 : Nat) : Int :=
  match x.dlay with
  | 0 => 8 * (j1 * x.dpitch) + j0 * x.des
  | 1 => 8 * (j0 * x.dpitch) + j1 * x.des
  | 2 =>
    let k := j1 % x.tkN
    let c := j0 % x.tcN
    let t := (j0 / x.tcN * x.nkb g + j1 / x.tkN) * x.tb * 8
    ((if x.part = 4 ∧ x.tc ≠ 1 then t + (k / 2 * 32 + c) * 8 + k % 2 * 4 else t + (k * x.tcN + c) * x.staBits : Nat) : Int)
  | _ => ((j0 / x.tkN * x.bstride g * 8 + j1 * x.rb * 8 + j0 % x.tkN * x.des : Nat) : Int)

/-- Bits written at an element's place. -/
def StrmD.putBits (x : StrmD) : Nat := if x.dlay = 2 then x.staBits else x.des

/-- The places of one slice that receive fill code 0 (R260, R261): bit place and width. -/
def StrmD.fills (x : StrmD) (g : Shape) : List (Int × Nat) :=
  let R := x.rows g
  let C := x.cols g
  match x.dlay with
  | 2 =>
    (List.range (ceilDiv C x.tcN * x.tcN)).flatMap fun j0 =>
      ((List.range (x.nkb g * x.tkN)).filter fun j1 => decide (R ≤ j1) || decide (C ≤ j0)).map fun j1 =>
        (x.place g j1 j0, x.staBits)
  | 3 =>
    (List.range (ceilDiv C x.tkN)).flatMap fun kb =>
      ((List.range R).flatMap fun n =>
        ((List.range x.tkN).filter fun i => decide (C ≤ kb * x.tkN + i)).map fun i => (x.place g n (kb * x.tkN + i), x.des))
        ++ (List.range (x.bstride g - R * x.rb)).map fun i => ((((kb * x.bstride g + R * x.rb + i) * 8 : Nat) : Int), 8)
  | _ => []

/-! ### The source view (R257, R258) -/

/-- A coordinate held inside 0 to n − 1. -/
def clampI (v : Int) (n : Nat) : Nat := if v < 0 then 0 else min v.toNat (n - 1)

/-- A floor modulus. -/
def modN (v : Int) (n : Nat) : Nat := (v % (n : Int)).toNat

/-- Where output element (j3, j2, j1, j0) comes from: `none` for padding; else its source coordinates, and whether a
clamp changed s0, and s1. -/
structure Src where
  s3 : Nat
  s2 : Nat
  s1 : Nat
  s0 : Nat
  c0 : Bool
  c1 : Bool
  deriving DecidableEq, Repr

def StrmD.source (x : StrmD) (g : Shape) (idx : List Int) (j3 j2 j1 j0 : Nat) : Option Src :=
  if j1 < g.pt ∨ g.pt + x.h g ≤ j1 ∨ j0 < g.pl ∨ g.pl + x.w g ≤ j0 then none
  else
    let a1 : Int := ((j1 - g.pt : Nat) : Int)
    let a0 : Int := ((j0 - g.pl : Nat) : Int)
    let b1 : Int := match x.rot with
      | 0 => a1
      | 1 => (g.w1 : Int) - 1 - a0
      | 2 => (g.w1 : Int) - 1 - a1
      | _ => a0
    let b0 : Int := match x.rot with
      | 0 => a0
      | 1 => a1
      | 2 => (g.w0 : Int) - 1 - a0
      | _ => (g.w0 : Int) - 1 - a1
    let turn : Nat → Int → Nat → Nat := fun k b n =>
      let v := modN (b + g.crot.getD k 0) n
      if bit x.rev k then n - 1 - v else v
    let t0 := g.org0 + (turn 0 b0 g.w0 : Nat)
    let d1 := turn 1 b1 g.w1
    let t1 := if x.gather then idx.getD d1 0 else g.org1 + (d1 : Nat)
    let s0 := clampI t0 g.d.1
    let s1 := clampI t1 g.d.2.1
    some ⟨turn 3 (j3 : Nat) g.d.2.2.2, turn 2 (j2 : Nat) g.d.2.2.1, s1, s0, decide (t0 ≠ (s0 : Nat)), decide (t1 ≠ (s1 : Nat))⟩

/-- Bit address of source element `p` from source base `base` (bytes). -/
def StrmD.srcBit (x : StrmD) (g : Shape) (base : Int) (p : Src) : Int :=
  8 * (base + (p.s1 : Nat) * g.s.1 + (p.s2 : Nat) * g.s.2.1 + (p.s3 : Nat) * g.s.2.2) + (p.s0 * x.ses : Nat)

/-- The parts of a source element: their bit addresses. -/
def StrmD.srcParts (x : StrmD) (a : Int) : List Int :=
  if x.cpx then [a, if x.scpx then a + 8 * x.splane else a + x.part] else [a]

/-! ### Extents and the checks at start (R256, R265, R266, R276, Table 9.5) -/

/-- Least and greatest sum of the linear terms (step, count). -/
def extLo (ts : List (Int × Nat)) : Int := ts.foldl (fun a t => a + min 0 (t.1 * ((t.2 : Int) - 1))) 0
def extHi (ts : List (Int × Nat)) : Int := ts.foldl (fun a t => a + max 0 (t.1 * ((t.2 : Int) - 1))) 0

/-- The bytes [lo, hi) that linear terms in bits reach from a byte base, with `w` bits at each place. -/
def extent (base : Int) (ts : List (Int × Nat)) (w : Nat) : Int × Int :=
  (base + (extLo ts) / 8, base + (extHi ts + w + 7) / 8)

/-- Bytes of the described source tensor. -/
def StrmD.srcExt (x : StrmD) (g : Shape) (base : Int) : Int × Int :=
  extent base [((x.ses : Int), g.d.1), (8 * g.s.1, g.d.2.1), (8 * g.s.2.1, g.d.2.2.1), (8 * g.s.2.2, g.d.2.2.2)]
    (x.ses + (if x.cpx && x.scpx then 8 * x.splane else 0))

/-- Bytes of the destination of a LOAD. -/
def StrmD.dstExt (x : StrmD) (g : Shape) : Int × Int :=
  let outer := [(8 * x.ds3, g.d.2.2.2), (8 * x.ds2, g.d.2.2.1)]
  let pl := if x.cpx && x.dcpx then 8 * x.dplane else 0
  match x.dlay with
  | 0 => extent x.laddr (outer ++ [(8 * x.dpitch, x.rows g), ((x.des : Int), x.cols g)]) (x.des + pl)
  | 1 => extent x.laddr (outer ++ [(8 * x.dpitch, x.cols g), ((x.des : Int), x.rows g)]) (x.des + pl)
  | 2 => extent x.laddr outer (8 * x.tb * x.nkb g * ceilDiv (x.cols g) x.tcN)
  | _ => extent x.laddr outer (8 * x.bstride g * ceilDiv (x.cols g) x.tkN)

/-- A byte range lies inside the scratchpad. -/
def padExt (r : Int × Int) : Bool := decide (0 ≤ r.1) && decide (r.2 ≤ (SPAD : Int))

/-- Fill group registers (Table 9.8). -/
def fgKey (e : Fin 8) (n : Nat) : Nat := key e (CTU + 0x40100 + 16 * n)

/-- A fill group (R264): its place in bits, its element size in bits, its bitmap. -/
structure FillG where
  lo : Nat
  hi : Nat
  ebits : Nat
  map : Nat
  en : Bool
  deriving DecidableEq, Repr

def State.fillG (s : State) (e : Fin 8) (n : Nat) : FillG :=
  let k := fgKey e n
  let base := s.fld k 25 0
  ⟨8 * base, 8 * (base + s.fld (k + 4) 25 0), 4 * 2 ^ s.fld (k + 12) 2 1, s.fld (k + 8) 25 0, decide (s.fld (k + 12) 0 0 = 1)⟩

/-- Bytes of the group's bitmap. -/
def FillG.mapBytes (f : FillG) : Nat := ceilDiv (ceilDiv (f.hi - f.lo) f.ebits) 8

/-- MODE of a LOAD or STORE. -/
def StrmD.modeOk (x : StrmD) (g : Shape) (fg : FillG) : Bool :=
  decide (x.esize ≤ 3) && decide (x.sums ≠ 3) && decide (x.tk ≠ 3)
    && !(x.cpx && decide (x.esize = 0)) && !(decide (x.sums ≠ 0) && (decide (x.esize ≠ 1) || x.cpx))
    && !(x.cpx && (x.scpx || x.dcpx) && decide (2 ≤ x.dlay))
    && (if x.kind = 1 then decide (x.sigmode = 0) && !(x.fgen && !fg.en)
        else decide (x.sigmode ≠ 3) && decide (x.rot = 0) && decide (x.rev = 0) && !x.gather && decide (x.sums = 0) && !x.fgen
          && decide (x.dlay ≤ 1) && decide (g.pt = 0) && decide (g.pb = 0) && decide (g.pl = 0) && decide (g.pr = 0)
          && g.crot.all (· == 0))

/-- ALIGN of a LOAD or STORE (R256): bases, source row bytes, destination row bytes, tile steps and planes. -/
def StrmD.alignOk (x : StrmD) (g : Shape) : Bool :=
  decide (x.raddr % 64 = 0) && decide (x.laddr % 64 = 0) && decide (g.d.1 * x.ses % 512 = 0)
    && (match x.dlay with
        | 0 => decide (x.cols g * x.des % 512 = 0)
        | 1 => decide (x.rows g * x.des % 512 = 0)
        | _ => decide (x.dpitch % 64 = 0) && decide (x.ds2 % 64 = 0) && decide (x.ds3 % 64 = 0))
    && !(x.cpx && x.scpx && decide (x.splane % 64 ≠ 0)) && !(x.cpx && x.dcpx && decide (x.dplane % 64 ≠ 0))

/-- Number of sums. -/
def StrmD.nsums (x : StrmD) (g : Shape) : Nat :=
  if x.sums = 0 then 0 else g.d.2.2.1 * g.d.2.2.2 * (if x.sums = 1 then x.rows g else x.cols g)

/-- RANGE of a LOAD or STORE: bitmap, index table, sums, and the local sides. -/
def StrmD.rangeOk (x : StrmD) (g : Shape) (fg : FillG) (localSrc : Bool) : Bool :=
  !(x.fgen && decide (SPAD < fg.map + fg.mapBytes))
    && !(x.gather && (decide (g.gidx % 4 ≠ 0) || decide (SPAD < g.gidx + 4 * g.w1)))
    && !(decide (x.sums ≠ 0) && (decide (x.sumaddr % 4 ≠ 0) || decide (SPAD < x.sumaddr + 4 * x.nsums g)))
    && (if x.kind = 1 then padExt (x.dstExt g) && (!localSrc || padExt (x.srcExt g (offOf x.raddr)))
        else padExt (x.srcExt g x.laddr))

/-- The checks of Table 9.5 at start, in its order: MODE, ALIGN, RANGE (0: none fails). -/
def StrmD.check (x : StrmD) (g : Shape) (fg : FillG) (localSrc : Bool) : Nat :=
  if x.modeOk g fg = false then 2
  else if x.alignOk g = false then 3
  else if x.rangeOk g fg localSrc = false then 4
  else 0

/-! ### The image (R259 to R264, R266) -/

/-- What a transfer has built: the bytes to write, bitmap bits newly set, counts, sums. -/
structure Img where
  bytes : List (Nat × Byte)
  set : List Nat
  oob : Nat
  gidx : Nat
  padsup : Nat
  sums : List (Nat × Int)
  deriving DecidableEq, Repr

def Img.empty : Img := ⟨[], [], 0, 0, 0, []⟩

/-- The value of an image byte, else the byte that memory holds there. -/
def Img.byte (m : Img) (old : Nat → Byte) (a : Nat) : Byte :=
  match m.bytes.find? fun x => decide (x.1 = a) with
  | some x => x.2
  | none => old a

/-- Put `w` bits (4 or a multiple of 8) of `v` at bit place `a`. -/
def Img.putBits (m : Img) (old : Nat → Byte) (a w v : Nat) : Img :=
  if w % 8 = 0 then
    { m with bytes := (toLE (w / 8) v).zipIdx.foldl (fun b x => Sparse.ins (a / 8 + x.2) x.1 (Sparse.drop (a / 8 + x.2) b)) m.bytes }
  else
    let b := (m.byte old (a / 8)).toNat
    { m with bytes := Sparse.ins (a / 8) (BitVec.ofNat 8 (setBits b (a % 8 + w - 1) (a % 8) v)) (Sparse.drop (a / 8) m.bytes) }

/-- Put a valid element, or a padding element or fill code, under the descriptor's fill group (R264). `mapBit` reads the
bitmap as it stood at start. -/
def Img.put (m : Img) (old : Nat → Byte) (fg : Option FillG) (mapBit : Nat → Bool) (a w v : Nat) (valid : Bool) : Img :=
  match fg with
  | none => m.putBits old a w v
  | some f =>
    if a < f.hi ∧ f.lo < a + w then
      let i0 := (max a f.lo - f.lo) / f.ebits
      let i1 := (min (a + w) f.hi - 1 - f.lo) / f.ebits
      let is := (List.range (i1 + 1 - i0)).map (· + i0)
      if valid then { m.putBits old a w v with set := (is.filter fun i => !(m.set.contains i)) ++ m.set }
      else if is.any fun i => m.set.contains i || mapBit i then { m with padsup := m.padsup + 1 }
      else m.putBits old a w v
    else m.putBits old a w v

/-- Add a valid element to its sum. -/
def Img.addSum (m : Img) (k : Nat) (v : Int) : Img :=
  { m with sums := Sparse.set (fun _ => (0 : Int)) m.sums k (Sparse.get (fun _ => (0 : Int)) m.sums k + v) }

/-- One output element with the values of its parts (none: padding). -/
def StrmD.element (x : StrmD) (g : Shape) (old : Nat → Byte) (fg : Option FillG) (mapBit : Nat → Bool) (base : Int)
    (j3 j2 j1 j0 : Nat) (parts : Option (List Nat)) (m : Img) : Img :=
  let pad := x.padval % 2 ^ x.part
  let ps := parts.getD (if x.cpx then [pad, pad] else [pad])
  let valid := parts.isSome
  let a := (8 * (base + (j3 : Nat) * x.ds3 + (j2 : Nat) * x.ds2) + x.place g j1 j0).toNat
  let m1 :=
    if x.cpx && x.dcpx then
      (m.put old fg mapBit a x.part (ps.getD 0 0) valid).put old fg mapBit (a + 8 * x.dplane) x.part (ps.getD 1 0) valid
    else m.put old fg mapBit a x.putBits (ps.getD 0 0 + ps.getD 1 0 * 2 ^ x.part) valid
  if valid ∧ x.sums ≠ 0 then
    let t := j3 * g.d.2.2.1 + j2
    m1.addSum (if x.sums = 1 then t * x.rows g + j1 else t * x.cols g + j0) (sext 8 (ps.getD 0 0))
  else m1

/-- The maximal runs of consecutive addresses of a sorted image. -/
def runsOf : List (Nat × Byte) → List (Nat × List Byte)
  | [] => []
  | (a, b) :: r =>
    match runsOf r with
    | (a', bs) :: t => if a' = a + 1 then (a, b :: bs) :: t else (a, [b]) :: (a', bs) :: t
    | [] => [(a, [b])]

/-- A run cut at multiples of 64. -/
def cut64 (r : Nat × List Byte) : List (Nat × List Byte) :=
  let n0 := 64 - r.1 % 64
  let first := (r.1, r.2.take n0)
  first :: (chunks 64 (r.2.drop n0)).zipIdx.map fun c => (r.1 + n0 + 64 * c.2, c.1)

end Sys2Proof.Machine
end

