-- ==== Sys2Proof/Machine/Streams.lean ====
section
/-! DEFINITION. The streamers (09): LOAD, STORE, PLOAD, PSTORE and single remote operations, their errors and their
completion. Operations that a descriptor sends wait in `fab.waiting` until FABRIC_OP_ISSUE. -/
namespace Sys2Proof.Machine

/-! ### Errors and starts -/

/-- Status of the killed command for a streamer cause (Table 9.5). -/
def strmStatus (cause fcause : Nat) : Nat :=
  if cause = 5 then causeStatus fcause else if cause = 6 then ECC_UNCORR else if cause = 7 then SCALE_SKEW else BAD_PARAM

/-- A descriptor of stream queue `q` completes in error (R277, R278). -/
def State.strmError (s : State) (e : Fin 8) (q cause fcause origin : Nat) : State :=
  let s1 := if cause = 6 ∨ (cause = 5 ∧ fcause = 9) then
      s.modEng e fun en => { en with eccHalt := if q ∈ en.eccHalt then en.eccHalt else en.eccHalt ++ [q] }
    else s
  s1.unitError e (key e (CTU + 0x40000)) (cause + 16 * fcause + 2 ^ 16 * q) (key e (CTU + 0x40004)) (origin % 2 ^ 26)
    (strmStatus cause fcause)

/-- The descriptors that streamer `q mod 4` holds (R250). -/
def State.strmHeld (s : State) (e : Fin 8) (q : Nat) : Nat :=
  (s.eng[e].started.filter fun d => match d.q with
    | .stream r => decide (r % 4 = q % 4)
    | _ => false).length

/-- Start the descriptor at the head of stream queue `q` when its kind is `kind`, its operand tokens are present (R254),
the streamer has a place for it (R250) and the queue is not halted (R278). -/
def State.startStrm (s : State) (e : Fin 8) (q kind : Nat) (k : State → Queued → State) : State :=
  match s.headOf e (.stream q) with
  | none => s
  | some d =>
    let kd := fieldLE d.desc 0 1 % 16
    if s.tokensOk e d.desc = false ∨ 16 ≤ s.strmHeld e q ∨ q ∈ s.eng[e].eccHalt then s
    else if kd = 0 ∨ 5 < kd then (s.dequeue e d.id).strmError e q 1 0 d.origin
    else if kd ≠ kind then s
    else k (s.dequeue e d.id) d

/-- A descriptor is in progress, with `ops` operations to be answered and, when it stopped early, the error with which it
will complete once they have been issued. -/
def State.strmBegin (s : State) (e : Fin 8) (d : Queued) (wrote : List (Nat × Nat)) (ops : Nat)
    (err : Option (Nat × Nat × Nat)) : State :=
  s.modEng e fun en => { en with started := en.started ++ [⟨d.q, d.id, some d.tctr, d.origin, d.desc, err, wrote, ops, [], []⟩] }

/-! ### Reading a source -/

/-- Where the bytes of a source come from. -/
inductive Side where
  /-- the engine's own scratchpad -/
  | own
  /-- a unit of the own device -/
  | unit (u : Nat)
  /-- another device, whose memory the model does not hold -/
  | far
  deriving DecidableEq, Repr

/-- The side that a fabric address (as software gives it) names for engine `e` (R37, R251). -/
def State.sideOf (s : State) (e : Fin 8) (a : Nat) : Side :=
  let t := (s.translate (BitVec.ofNat 64 a)).toNat
  if devOf t ≠ s.ownChain then .far else if unitOf t = e.val then .own else .unit (unitOf t)

/-- One byte of a source. A byte of another device is a free value of its address. -/
def State.sideByte (s : State) (e : Fin 8) (side : Side) (a : Nat) : Byte :=
  match side with
  | .own => s.byte (key e a)
  | .unit u => if a < CTL then s.byte (key u a) else (toLE 4 (s.view (key u (a / 4 * 4)))).getD (a % 4) 0
  | .far => Config.freeByte (s.fresh + a)

/-- The failure (Table 9.5 cause, fabric cause) that the descriptor meets before it reads any byte of a source. -/
def State.sideCause (s : State) (e : Fin 8) (side : Side) (stream addr : Nat) : Option (Nat × Nat) :=
  match side with
  | .own => none
  | .far =>
    if (s.routePort (devOf (s.translate (BitVec.ofNat 64 addr)).toNat)).isNone then some (5, 2)
    else if (s.streamEntry e.val stream).isNone then some (5, 6) else none
  | .unit u =>
    let c := s.unitCause u e.val
    if c ≠ 0 then some (5, c)
    else if (s.streamEntry u stream).isNone ∨ (s.streamEntry e.val stream).isNone then some (5, 6)
    else none

/-- Read the byte ranges `rs` (offset, length) of a source through its checkers: its state, and the failure met. -/
def State.sideRead (s : State) (side : Side) (e : Fin 8) (rs : List (Nat × Nat)) : State × Option (Nat × Nat) :=
  match side with
  | .far => (s, none)
  | .own =>
    let bs := (s.ecc.map (·.1)).filter fun b => rs.any fun r => decide (key e r.1 < b + s.blockSize b) && decide (b < key e r.1 + r.2)
    match s.touchAll bs with
    | (s1, true) => (s1, none)
    | (s1, false) => (s1, some (6, 0))
  | .unit u =>
    if rs.any fun r => !(s.winOk u r.1 r.2) then (s, some (5, 3))
    else
      let bs := (s.ecc.map (·.1)).filter fun b => rs.any fun r => decide (key u r.1 < b + s.blockSize b) && decide (b < key u r.1 + r.2)
      match (s.reach u).touchAll bs with
      | (s1, true) => (s1, none)
      | (s1, false) => (s1, some (5, 9))

/-- Bytes of a source. -/
def State.sideBytes (s : State) (e : Fin 8) (side : Side) (a n : Nat) : List Byte :=
  (List.range n).map fun i => s.sideByte e side (a + i)

/-- After reads from another device: later draws are of other values. -/
def State.passFar (s : State) (side : Side) : State := if side = .far then { s with fresh := s.fresh + 2 ^ 64 } else s

/-! ### LOAD -/

/-- What a LOAD or STORE works with. -/
structure Xfer where
  x : StrmD
  g : Shape
  idx : List Int
  fg : Option FillG
  side : Side
  /-- byte base of the source and of the image -/
  src : Int
  dst : Int
  deriving DecidableEq, Repr

/-- Offset in the unit window. -/
def wrap52 (v : Int) : Nat := wrapN 52 v

/-- The value of `p` bits at bit place `a` of a source. -/
def State.partAt (s : State) (e : Fin 8) (side : Side) (p : Nat) (a : Int) : Nat :=
  let b := wrap52 (a / 8)
  if p < 8 then (s.sideByte e side b).toNat / 2 ^ (a % 8).toNat % 2 ^ p
  else leNat ((List.range (p / 8)).map fun i => s.sideByte e side ((b + i) % 2 ^ 52))

/-- Byte ranges of a row's source parts. -/
def Xfer.ranges (t : Xfer) (ps : List (Option Src)) : List (Nat × Nat) :=
  (ps.filterMap id).flatMap fun p => (t.x.srcParts (t.x.srcBit t.g t.src p)).map fun a => (wrap52 (a / 8), ceilDiv t.x.part 8)

/-- The bitmap bit of the descriptor's fill group. -/
def State.mapBit (s : State) (e : Fin 8) (fg : Option FillG) (i : Nat) : Bool :=
  match fg with
  | some f => (s.byte (key e (f.map + i / 8))).toNat.testBit (i % 8)
  | none => false

/-- The elements of one output row. -/
def State.rowElems (s : State) (e : Fin 8) (t : Xfer) (old : Nat → Byte) (j3 j2 j1 : Nat) (ps : List (Option Src)) (m : Img) : Img :=
  ps.zipIdx.foldl (fun m p =>
    match p.1 with
    | none => t.x.element t.g old t.fg (s.mapBit e t.fg) t.dst j3 j2 j1 p.2 none m
    | some q =>
      let vs := (t.x.srcParts (t.x.srcBit t.g t.src q)).map (s.partAt e t.side t.x.part)
      let m1 := if q.c0 || (!t.x.gather && q.c1) then { m with oob := m.oob + 1 } else m
      t.x.element t.g old t.fg (s.mapBit e t.fg) t.dst j3 j2 j1 p.2 (some vs) m1) m

/-- The rows of a transfer in ascending (j3, j2, j1): the state after its reads, the image, and the failure that stopped
it. The fill codes of a slice are put before its elements. -/
def State.xferRows (s : State) (e : Fin 8) (t : Xfer) (old : Nat → Byte) :
    List (Nat × Nat × Nat) → Img → State × Img × Option (Nat × Nat)
  | [], m => (s, m, none)
  | (j3, j2, j1) :: r, m =>
    let m0 := if j1 = 0 then (t.x.fills t.g).foldl (fun m f =>
        m.put old t.fg (s.mapBit e t.fg) (8 * (t.dst + (j3 : Nat) * t.x.ds3 + (j2 : Nat) * t.x.ds2) + f.1).toNat f.2 0 false) m
      else m
    let ps := (List.range (t.x.cols t.g)).map fun j0 => t.x.source t.g t.idx j3 j2 j1 j0
    match s.sideRead t.side e (t.ranges ps) with
    | (s1, some c) => (s1, m0, some c)
    | (s1, none) =>
      let m1 := s1.rowElems e t old j3 j2 j1 ps m0
      let m2 := if t.x.gather && ps.any (fun p => match p with
          | some q => q.c1
          | none => false) then { m1 with gidx := m1.gidx + 1 } else m1
      s1.xferRows e t old r m2

/-- The rows of the output tensor. -/
def Xfer.rows (t : Xfer) : List (Nat × Nat × Nat) :=
  (List.range t.g.d.2.2.2).flatMap fun j3 => (List.range t.g.d.2.2.1).flatMap fun j2 =>
    (List.range (t.x.rows t.g)).map fun j1 => (j3, j2, j1)

/-- The distinct 64-byte lines of a source that a transfer reads, ascending. -/
def Xfer.lines (t : Xfer) : List Nat :=
  (t.rows.flatMap fun j => (t.ranges ((List.range (t.x.cols t.g)).map fun j0 => t.x.source t.g t.idx j.1 j.2.1 j.2.2 j0)).map
    fun r => r.1 / 64).foldl (fun (m : List (Nat × Unit)) k => Sparse.ins k () (Sparse.drop k m)) [] |>.map (·.1)

/-- Runs of consecutive lines, at most 64 lines (4,096 bytes) each (R271): first line, count. -/
def lineRuns : List Nat → List (Nat × Nat)
  | [] => []
  | a :: r =>
    match lineRuns r with
    | (b, n) :: t => if b = a + 1 ∧ n < 64 then (a, n + 1) :: t else (a, 1) :: (b, n) :: t
    | [] => [(a, 1)]

/-- Write runs of bytes into the engine's scratchpad; false when a partly covered block is uncorrectable. -/
def State.writeRuns (s : State) (e : Fin 8) : List (Nat × List Byte) → State × Bool
  | [] => (s, true)
  | r :: rs => match s.write (key e r.1) r.2 with
    | (s1, true) => s1.writeRuns e rs
    | (s1, false) => (s1, false)

/-- The bitmap bytes that newly set bits change. -/
def State.mapRuns (s : State) (e : Fin 8) (f : FillG) (set : List Nat) : List (Nat × List Byte) :=
  let img := set.foldl (fun (m : List (Nat × Byte)) i =>
    let a := f.map + i / 8
    let b := match m.find? (fun x => decide (x.1 = a)) with
      | some x => x.2
      | none => s.byte (key e a)
    Sparse.ins a (b ||| BitVec.ofNat 8 (2 ^ (i % 8))) (Sparse.drop a m)) []
  runsOf img

/-- The sums of R266: old values when SUMACC is set, each saturated to INT32; whether one saturated. -/
def State.sumBytes (s : State) (e : Fin 8) (x : StrmD) (n : Nat) (sums : List (Nat × Int)) : List Byte × Bool :=
  let vs := (List.range n).map fun k =>
    let v := Sparse.get (fun _ => (0 : Int)) sums k
    if x.sumacc then v + sext 32 (leNat (s.bytes (key e (x.sumaddr + 4 * k)) 4)) else v
  let c := fun (v : Int) => if v < -(2 ^ 31) then -(2 ^ 31) else if 2 ^ 31 - 1 < v then 2 ^ 31 - 1 else v
  (vs.flatMap fun v => toLE 4 (wrapN 32 (c v)), vs.any fun v => decide (c v ≠ v))

/-- Registers of the streamer (Table 9.6). -/
def strmKey (e : Fin 8) (o : Nat) : Nat := key e (CTU + 0x40000 + o)

/-- Bytes of a LOAD's destination that are also bytes of its own-scratchpad source are undefined (R262). -/
def State.overlap (s : State) (e : Fin 8) (t : Xfer) (bytes : List (Nat × Byte)) : State :=
  if t.side ≠ .own then s
  else
    let rowB := ceilDiv (t.g.d.1 * t.x.ses) 8
    let starts := (List.range t.g.d.2.2.2).flatMap fun s3 => (List.range t.g.d.2.2.1).flatMap fun s2 =>
      (List.range t.g.d.2.1).map fun s1 => t.src + (s1 : Nat) * t.g.s.1 + (s2 : Nat) * t.g.s.2.1 + (s3 : Nat) * t.g.s.2.2
    let hit := fun (a : Nat) => starts.any fun b =>
      (decide (b ≤ (a : Nat)) && decide ((a : Nat) < b + (rowB : Nat)))
        || (t.x.cpx && t.x.scpx && decide (b + (t.x.splane : Nat) ≤ (a : Nat)) && decide ((a : Nat) < b + (t.x.splane : Nat) + (rowB : Nat)))
    s.undefAll ((bytes.filter fun b => hit b.1).map fun b => (key e b.1, 1))

/-- The counts of a transfer (R258, R263, R264). -/
def State.prismCounts (s : State) (e : Fin 8) (m : Img) : State :=
  ((s.countUp (strmKey e 0x14) m.oob).countUp (strmKey e 0x18) m.gidx).countUp (strmKey e 0x1C) m.padsup

/-- The checks of R185 on the returns of a LOAD, one per merged GET. -/
def State.loadPairs (s : State) (e : Fin 8) (stream : Nat) (side : Side) : (i : Nat) → List (Nat × Nat) → State
  | _, [] => s
  | i, (l, n) :: r => ((s.pairCheck e stream (i % 2 ^ 16) (s.sideBytes e side (64 * l) (64 * n))).1).loadPairs e stream side (i + n) r

/-- Write what a LOAD has built, apply its counts, and leave it to its completion or its error. -/
def State.loadEnd (s : State) (e : Fin 8) (d : Queued) (q : Nat) (t : Xfer) (m : Img) (fail : Option (Nat × Nat)) : State :=
  let runs := runsOf m.bytes
  let maps := match t.fg with
    | some f => s.mapRuns e f m.set
    | none => []
  let n := t.x.nsums t.g
  let sb := s.sumBytes e t.x n m.sums
  let all := runs ++ maps ++ (if fail.isNone ∧ t.x.sums ≠ 0 then [(t.x.sumaddr, sb.1)] else [])
  let sumsOk := if t.x.sums ≠ 0 ∧ t.x.sumacc then s.check (key e t.x.sumaddr) (4 * n) else (s, true)
  match sumsOk with
  | (s1, false) => s1.strmError e q 6 0 d.origin
  | (s1, true) =>
    match s1.writeRuns e all with
    | (s2, false) => s2.strmError e q 6 0 d.origin
    | (s2, true) =>
      let s3 := (s2.overlap e t m.bytes).prismCounts e m
      let s4 := if fail.isNone ∧ t.x.sums ≠ 0 ∧ sb.2 then s3.setFld (strmKey e 8) 16 16 1 else s3
      let wrote := all.map fun r => (key e r.1, r.2.length)
      match fail with
      | none =>
        let s5 := s4.strmBegin e d wrote 0 none
        if t.side = .own then s5
        else
          let ls := t.lines
          let rs := lineRuns ls
          ((s5.countUp (strmKey e 0x10) (ls.length - rs.length)).loadPairs e t.x.stream t.side 0 rs).passFar t.side
      | some (5, f) =>
        (s4.strmBegin e d wrote 1 none).failOp e.val f 2 t.x.stream (s4.translate (BitVec.ofNat 64 t.x.raddr)).toNat (.desc e d.id)
      | some (c, f) => s4.strmError e q c f d.origin

/-- Read the shape record of a LOAD or STORE (R255): its place, then its bytes. -/
def State.readShape (s : State) (e : Fin 8) (off : Nat) : State × (Nat ⊕ Shape) :=
  if off % 64 ≠ 0 ∨ SPAD < off + 64 then (s, .inl 4)
  else match s.read (key e off) 64 with
    | (s1, none) => (s1, .inl 6)
    | (s1, some b) => (s1, .inr (Shape.parse b))

/-- A LOAD starts (R255 to R266, R275, R277). -/
def State.runLoad (e : Fin 8) (q : Nat) (s : State) (d : Queued) : State :=
  let x := StrmD.parse d.desc
  match s.readShape e x.shape with
  | (s1, .inl c) => s1.strmError e q c 0 d.origin
  | (s1, .inr g) =>
    if g.empty then s1.strmBegin e d [] 0 none
    else
      let side := s1.sideOf e x.raddr
      let fg := s1.fillG e x.fg
      let c := x.check g fg (decide (side = .own))
      if c ≠ 0 then s1.strmError e q c 0 d.origin
      else match (if x.gather then s1.read (key e g.gidx) (4 * g.w1) else (s1, some [])) with
        | (s2, none) => s2.strmError e q 6 0 d.origin
        | (s2, some ib) =>
          match (if x.fgen then s2.check (key e fg.map) fg.mapBytes else (s2, true)) with
          | (s3, false) => s3.strmError e q 6 0 d.origin
          | (s3, true) =>
            let t : Xfer := {
              x := x, g := g
              idx := (List.range g.w1).map fun i => sext 32 (fieldLE ib (4 * i) 4)
              fg := if x.fgen then some fg else none
              side := side, src := offOf x.raddr, dst := x.laddr }
            match s3.sideCause e side x.stream x.raddr with
            | some c => s3.loadEnd e d q t Img.empty (some c)
            | none =>
              let r := s3.xferRows e t (fun a => s3.byte (key e a)) t.rows Img.empty
              r.1.loadEnd e d q t r.2.1 r.2.2

/-! ### Operations that a descriptor sends -/

/-- The header of an operation of engine `e`: SRC is the engine (R43), the address is translated (R37); its priority is
set when it issues. -/
def State.mkHdr (s : State) (unit addr len tctr seq stream tinc : Nat) : Hdr where
  addr := s.translate (BitVec.ofNat 64 addr)
  prio := 0
  mc := false
  unord := false
  srcUnit := BitVec.ofNat 8 unit
  srcChain := BitVec.ofNat 4 s.ownChain
  len := BitVec.ofNat 13 len
  tctr := BitVec.ofNat 12 tctr
  seq := BitVec.ofNat 16 seq
  stream := BitVec.ofNat 16 stream
  tinc := BitVec.ofNat 16 tinc
  rctr := 0
  raddr := 0

/-- Operations join their issuing queue. -/
def State.pushItems (s : State) (xs : List FabItem) : State :=
  { s with fab := { s.fab with waiting := s.fab.waiting ++ xs } }

/-- Operation `i` of `n` data operations of a STORE or PSTORE, by SIGMODE (Table 9.1). -/
def State.dataItem (s : State) (e : Fin 8) (d : Queued) (q : Nat) (x : StrmD) (i n addr seq stream : Nat) (bs : List Byte) : FabItem :=
  let sg := decide (x.sigmode = 1) || (decide (x.sigmode = 2) && decide (i + 1 = n))
  { op := if sg then .putSignal else .put
    hdr := s.mkHdr e.val addr bs.length (if sg then x.rtctr else 0) seq stream (if sg then x.rtinc else 0)
    payload := bs
    owner := .desc e d.id
    queue := streamQueue e q
    since := s.clock.nclk
    level := 0
    tgts := [] }

/-- A descriptor sends its operations; without any it completes, or fails at once with the error that stopped it. -/
def State.sendOps (s : State) (e : Fin 8) (d : Queued) (q : Nat) (items : List FabItem) (fail : Option (Nat × Nat))
    (wrote : List (Nat × Nat) := []) : State :=
  match fail with
  | some (c, f) =>
    if items.isEmpty then s.strmError e q c f d.origin
    else (s.strmBegin e d wrote items.length (some (c, f, 0))).pushItems items
  | none => (s.strmBegin e d wrote items.length none).pushItems items

/-- An empty STORE or PSTORE (R275). -/
def State.emptyStore (s : State) (e : Fin 8) (d : Queued) (q : Nat) (x : StrmD) : State :=
  if x.sigmode = 1 ∨ x.sigmode = 2 then
    s.sendOps e d q [s.dataItem e d q { x with sigmode := 1 } 0 1 x.raddr 0 x.stream []] none
  else s.strmBegin e d [] 0 none

/-- A STORE starts: it reads its source and sends one operation for each 64-byte line of its destination (R253, R276).
One that an error stopped does not send its last operation (R277). -/
def State.runStore (e : Fin 8) (q : Nat) (s : State) (d : Queued) : State :=
  let x := StrmD.parse d.desc
  match s.readShape e x.shape with
  | (s1, .inl c) => s1.strmError e q c 0 d.origin
  | (s1, .inr g) =>
    if g.empty then s1.emptyStore e d q x
    else
      let c := x.check g (s1.fillG e x.fg) false
      if c ≠ 0 then s1.strmError e q c 0 d.origin
      else
        let t : Xfer := {
          x := x, g := g, idx := [], fg := none, side := .own, src := x.laddr, dst := offOf x.raddr + 2 ^ 52 }
        let r := s1.xferRows e t (fun _ => 0) t.rows Img.empty
        let ps := (runsOf r.2.1.bytes).flatMap cut64
        let n := ps.length + (if r.2.2.isSome then 1 else 0)
        let items := ps.zipIdx.map fun p =>
          r.1.dataItem e d q x p.2 n (x.raddr / 2 ^ 52 * 2 ^ 52 + p.1.1 % 2 ^ 52) p.2 x.stream p.1.2
        r.1.sendOps e d q items r.2.2

/-! ### Paired transfers (R267, R268) -/

/-- Bytes of a block and of a record. -/
def StrmD.blockB (x : StrmD) : Nat := if x.elem = 0 then 512 else 1024
def StrmD.recB (x : StrmD) : Nat := recBytes x.skind

/-- The checks at start of PLOAD and PSTORE: MODE, ALIGN, RANGE; `remote` local sides are checked when they lie in the own
scratchpad. -/
def StrmD.pairedCheck (x : StrmD) (ownData ownRec : Bool) : Nat :=
  if (if x.kind = 3 then decide (x.sigmode ≠ 0) else decide (x.sigmode = 3)) || decide (x.elem = 3)
      || (decide (x.skind = 1) && decide (x.elem ≠ 0)) then 2
  else if x.raddr % 64 ≠ 0 ∨ x.laddr % 64 ≠ 0 ∨ x.sraddr % 64 ≠ 0 ∨ x.sladdr % 64 ≠ 0 then 3
  else if SPAD < x.laddr + x.nblk * x.blockB ∨ SPAD < x.sladdr + x.nblk * x.recB
      ∨ (ownData ∧ SPAD < offOf x.raddr + x.nblk * x.blockB) ∨ (ownRec ∧ SPAD < offOf x.sraddr + x.nblk * x.recB) then 4
  else 0

/-- Move `n` bytes from a source to the scratchpad, one GET: the failure met. A return passes the pair check of R185. -/
def State.moveIn (s : State) (e : Fin 8) (side : Side) (stream seq addr dst n : Nat) (ok : List Byte → Option (Nat × Nat)) :
    State × Option (Nat × Nat) :=
  match s.sideCause e side stream addr with
  | some c => (s, some c)
  | none => match s.sideRead side e [(offOf addr, n)] with
    | (s1, some c) => (s1, some c)
    | (s1, none) =>
      let bs := s1.sideBytes e side (offOf addr) n
      let s2 := if side = .own then s1 else (s1.pairCheck e stream seq bs).1
      match ok bs with
      | some c => (s2.passFar side, some c)
      | none => match s2.write (key e dst) bs with
        | (s3, true) => (s3.passFar side, none)
        | (s3, false) => (s3, some (6, 0))

/-- The skew check of record `i` of a paired transfer (R187, R268). -/
def StrmD.recCheck (x : StrmD) (i : Nat) (bs : List Byte) : Option (Nat × Nat) :=
  if recOk bs (x.baseseq + i) x.skind x.elem then none else some (7, recSeq bs)

/-- Record a skew of stream queue `q` at record `i` (SOURCE 5). -/
def State.strmSkew (s : State) (e : Fin 8) (q : Nat) (x : StrmD) (i found : Nat) : State :=
  s.recordSkew e 5 0 q (x.baseseq + i) found

/-- The pairs of a PLOAD from `i` on, each block before its record: the failure met (a skew gives its record). -/
def State.ploadFrom (s : State) (e : Fin 8) (q : Nat) (x : StrmD) (da ra : Side) : (fuel i : Nat) → State × Option (Nat × Nat × Nat)
  | 0, _ => (s, none)
  | n + 1, i =>
    match s.moveIn e da x.stream ((x.baseseq + i) % 2 ^ 16) (x.raddr + i * x.blockB) (x.laddr + i * x.blockB) x.blockB (fun _ => none) with
    | (s1, some c) => (s1, some (c.1, c.2, x.raddr + i * x.blockB))
    | (s1, none) =>
      match s1.moveIn e ra x.sstream ((x.baseseq + i) % 2 ^ 16) (x.sraddr + i * x.recB) (x.sladdr + i * x.recB) x.recB (x.recCheck i) with
      | (s2, some (7, f)) => (s2.strmSkew e q x i f, some (7, 0, 0))
      | (s2, some c) => (s2, some (c.1, c.2, x.sraddr + i * x.recB))
      | (s2, none) => s2.ploadFrom e q x da ra n (i + 1)

/-- A PLOAD starts. -/
def State.runPload (e : Fin 8) (q : Nat) (s : State) (d : Queued) : State :=
  let x := StrmD.parse d.desc
  if x.nblk = 0 then s.strmBegin e d [] 0 none
  else
    let da := s.sideOf e x.raddr
    let ra := s.sideOf e x.sraddr
    let c := x.pairedCheck (decide (da = .own)) (decide (ra = .own))
    if c ≠ 0 then s.strmError e q c 0 d.origin
    else
      let wrote := [(key e x.laddr, x.nblk * x.blockB), (key e x.sladdr, x.nblk * x.recB)]
      match s.ploadFrom e q x da ra x.nblk 0 with
      | (s1, none) => s1.strmBegin e d wrote 0 none
      | (s1, some (5, f, a)) =>
        (s1.strmBegin e d [] 1 none).failOp e.val f 2 (if a = x.raddr then x.stream else x.sstream)
          (s1.translate (BitVec.ofNat 64 a)).toNat (.desc e d.id)
      | (s1, some (c, f, _)) => s1.strmError e q c f d.origin

/-- The pairs of a PSTORE from `i` on, as (address, sequence, stream, bytes): each record is read and checked before it
and its block are sent. -/
def State.pstoreFrom (s : State) (e : Fin 8) (q : Nat) (x : StrmD) :
    (fuel i : Nat) → State × List (Nat × Nat × Nat × List Byte) × Option (Nat × Nat)
  | 0, _ => (s, [], none)
  | n + 1, i =>
    match s.read (key e (x.laddr + i * x.blockB)) x.blockB with
    | (s1, none) => (s1, [], some (6, 0))
    | (s1, some b) => match s1.read (key e (x.sladdr + i * x.recB)) x.recB with
      | (s2, none) => (s2, [], some (6, 0))
      | (s2, some r) => match x.recCheck i r with
        | some (_, f) => (s2.strmSkew e q x i f, [], some (7, 0))
        | none =>
          let t := s2.pstoreFrom e q x n (i + 1)
          (t.1, (x.raddr + i * x.blockB, x.baseseq + i, x.stream, b) :: (x.sraddr + i * x.recB, x.baseseq + i, x.sstream, r) :: t.2.1, t.2.2)

/-- A PSTORE starts. -/
def State.runPstore (e : Fin 8) (q : Nat) (s : State) (d : Queued) : State :=
  let x := StrmD.parse d.desc
  if x.nblk = 0 then s.emptyStore e d q x
  else
    let c := x.pairedCheck false false
    if c ≠ 0 then s.strmError e q c 0 d.origin
    else
      let r := s.pstoreFrom e q x x.nblk 0
      let n := 2 * x.nblk
      let items := r.2.1.zipIdx.map fun p => r.1.dataItem e d q x p.2 n p.1.1 (p.1.2.1 % 2 ^ 16) p.1.2.2.1 p.1.2.2.2
      r.1.sendOps e d q items r.2.2

/-! ### Single remote operations (R269, R270) -/

/-- The command on engine `e` issues on an ordered stream (R68). -/
def State.noteFadd (s : State) (e : Fin 8) (h : Hdr) : State :=
  match s.eng[e].cmd with
  | none => s
  | some id =>
    let f := (unitOf h.addr.toNat, h.stream.toNat)
    if devOf h.addr.toNat ≠ s.ownChain then s
    else s.modCmd id fun c => { c with fadds := if f ∈ c.fadds then c.fadds else c.fadds ++ [f] }

/-- An RMO starts: its checks, and its one operation, whose payload is read when it issues. -/
def State.runRmo (e : Fin 8) (q : Nat) (s : State) (d : Queued) : State :=
  let b := d.desc
  match FabOp.ofCode (fieldLE b 0 1 / 16) with
  | none => s.strmError e q 2 0 d.origin
  | some op =>
    let len := fieldLE b 2 2 % 2 ^ 13
    let laddr := d26 b 12
    let ret := d26 b 16
    let pay := decide (op ≠ .get ∧ op ≠ .signal)
    if (pay ∧ laddr % 8 ≠ 0) ∨ (op.returns ∧ ret % 8 ≠ 0) then s.strmError e q 3 0 d.origin
    else if (pay ∧ SPAD < laddr + len) ∨ (op.returns ∧ SPAD < ret + op.retLen len) then s.strmError e q 4 0 d.origin
    else
      let h := s.mkHdr e.val (fieldLE b 4 8) len (fieldLE b 22 2 % 4096) (fieldLE b 26 2) (fieldLE b 20 2) (fieldLE b 24 2)
      let item : FabItem := {
        op := op
        hdr := { h with
          mc := bit (fieldLE b 1 1) 0
          unord := bit (fieldLE b 1 1) 1
          rctr := if op.returns then BitVec.ofNat 12 (fieldLE b 28 2) else 0
          raddr := if op.returns then s.translate (BitVec.ofNat 64 (0xF * 2 ^ 60 + e.val * 2 ^ 52 + ret)) else 0 }
        payload := [], owner := .desc e d.id, queue := streamQueue e q, since := s.clock.nclk, level := 0, tgts := [] }
      (if op = .orderedFadd then s.noteFadd e h else s).sendOps e d q [item] none
        (if op.returns then [(key e ret, op.retLen len)] else [])

/-! ### The rows -/

/-- LOAD (R257). -/
def execLoad (e : Fin 8) (q : BitVec 10) (s : State) : Out := .next (s.startStrm e q.toNat 1 (State.runLoad e q.toNat))

/-- STORE (R276). -/
def execStore (e : Fin 8) (q : BitVec 10) (s : State) : Out := .next (s.startStrm e q.toNat 2 (State.runStore e q.toNat))

/-- PLOAD (R267). -/
def execPload (e : Fin 8) (q : BitVec 10) (s : State) : Out := .next (s.startStrm e q.toNat 3 (State.runPload e q.toNat))

/-- PSTORE (R268). -/
def execPstore (e : Fin 8) (q : BitVec 10) (s : State) : Out := .next (s.startStrm e q.toNat 4 (State.runPstore e q.toNat))

/-- RMO (R269). -/
def execRmo (e : Fin 8) (q : BitVec 10) (s : State) : Out := .next (s.startStrm e q.toNat 5 (State.runRmo e q.toNat))

/-- The oldest descriptor in progress of a stream queue completes once every operation of it has been answered: completion
increments are applied in queue order (R250, R252). -/
def execStreamDescComplete (e : Fin 8) (q : BitVec 10) (s : State) : Out :=
  match s.eng[e].started.find? fun d => decide (d.q = .stream q.toNat) with
  | some d => .next (if d.ops = 0 ∧ d.err = none then s.completeDesc e d else s)
  | none => .next s

/-- Effective level of a stream queue (R272, R273). -/
def State.effLevel (s : State) (e : Fin 8) (q : Nat) : Nat :=
  let b := (s.queueDesc (streamQueue e q)).level
  if b ≤ 5 then min 6 (b + Sparse.get (fun _ => 0) s.eng[e].aged q) else b

/-- A queue of base level 0 to 5 that holds a ready operation rises one effective level, to at most 6; an INTERVAL of 0
disables aging (R273). -/
def execQueueAging (e : Fin 8) (q : BitVec 10) (s : State) : Out :=
  let n := q.toNat
  if (s.queueDesc (streamQueue e n)).level ≤ 5 ∧ s.fld (strmKey e 0xC) 15 0 ≠ 0 ∧ s.effLevel e n < 6
      ∧ (s.fab.waiting.any fun x => decide (x.queue = streamQueue e n)) then
    .next (s.modEng e fun en => { en with aged := Sparse.set (fun _ => 0) en.aged n (Sparse.get (fun _ => 0) en.aged n + 1) })
  else .next s

/-- PRISM_CNT_CLR.CLR: the three Prism counts and STRM_MERGE_CNT are 0 (R280). -/
def State.prismClr (s : State) (e : Fin 8) : State := [0x10, 0x14, 0x18, 0x1C].foldl (fun t o => t.setRegN (strmKey e o) 0) s

/-- A write of PRISM_CNT_CLR (R280). -/
def execPrismCntClr (src : BitVec 8) (e : Fin 8) (s : State) : Out :=
  .next (anchorWrite src e (CTU + 0x40020) (fun t => t.prismClr e) s)

end Sys2Proof.Machine
end

