-- ==== Sys2Proof/Machine/FabOps.lean ====
section
/-! DEFINITION. Streams and credits (02): registration and deregistration (R58, R60), the credits that an operation holds
(R54, R59), and how an operation fails (R79). -/
namespace Sys2Proof.Machine

/-! ### The credit table -/

/-- Indices of the valid entries of unit `u`'s credit table. -/
def State.validCrd (s : State) (u : Nat) : List Nat :=
  let lo := key u CTC
  (s.regs.filter fun r => decide (lo ≤ r.1) && decide (r.1 < lo + 0x2000) && decide ((r.1 - lo) % 8 = 4)
    && bit r.2.toNat 31).map fun r => (r.1 - lo) / 8

/-- ESC and MAX of entry `k` of unit `u`. -/
def State.crdEsc (s : State) (u k : Nat) : Nat := s.fld (crdW1 u k) 11 0
def State.crdMax (s : State) (u k : Nat) : Nat := s.fld (crdW1 u k) 23 12
def State.crdWin (s : State) (u k : Nat) : Nat := s.fld (crdW1 u k) 29 24

/-- Sum of ESC over the valid entries of unit `u`. -/
def State.escSum (s : State) (u : Nat) : Nat := (s.validCrd u).foldl (fun a k => a + s.crdEsc u k) 0

/-! ### Credits in use -/

/-- Ingress credits that a stream holds at a unit (device · 256 + unit), from its reservation or in all. -/
def State.heldCredits (s : State) (du stream : Nat) (esc : Bool) : Nat :=
  (s.fab.ingress.filter fun i => decide (i.unit = du) && decide (i.stream = stream) && (!esc || i.fromEsc)).foldl (fun a i => a + i.n) 0

/-- Credits of the shared pool in use at unit `u`. -/
def State.poolCredits (s : State) (u : Nat) : Nat :=
  (s.fab.ingress.filter fun i => decide (i.unit = s.ownChain * 256 + u) && !i.fromEsc).foldl (fun a i => a + i.n) 0

/-- Size of unit `u`'s shared pool: what the reservations leave of its ingress buffer (R59). -/
def State.poolSize (s : State) (u : Nat) : Nat := ingressCredits (unitClass u) - s.escSum u

/-- Whether unit `u` grants `n` credits to entry `k`'s stream (R59): within MAX, and within the unused reservation (then
true: they come from it) or the shared pool. -/
def State.grant (s : State) (u k stream n : Nat) : Option Bool :=
  let du := s.ownChain * 256 + u
  if s.crdMax u k < s.heldCredits du stream false + n then none
  else if s.heldCredits du stream true + n ≤ s.crdEsc u k then some true
  else if s.poolCredits u + n ≤ s.poolSize u then some false
  else none

/-- Take credits. -/
def State.hold (s : State) (i : Ingress) : State := { s with fab := { s.fab with ingress := s.fab.ingress ++ [i] } }

/-- Who waits for the return of an operation's credits: nobody where a return ends it (R251). -/
def FabItem.creditOwner (x : FabItem) : Owner := if x.op.returns then .none else x.owner

/-- The ingress entry of an operation at a unit that has not arrived. -/
def inFlight (du : Nat) (x : FabItem) (i : Ingress) : Bool :=
  decide (i.unit = du) && decide (i.stream = x.hdr.stream.toNat) && decide (i.owner = x.creditOwner)
    && decide (i.n = credits x.payload.length ∨ i.n = credits x.hdr.len.toNat) && !i.arrived

/-- The operation has taken effect or failed at unit `du`: its ingress entry drains, and CREDIT_RETURN takes it away. -/
def State.arrive (s : State) (du : Nat) (x : FabItem) : State :=
  match takeFirst (inFlight du x) s.fab.ingress with
  | some (i, r) => { s with fab := { s.fab with ingress := r ++ [{ i with arrived := true }] } }
  | none => s

/-! ### Failures (R79) -/

/-- The header names the own device as source. -/
def State.fromHere (s : State) (h : Hdr) : Bool := decide (h.srcChain.toNat = s.ownChain)

/-- An operation fails at unit `du` (device · 256 + unit): its credits come back and an error response goes to its source. An
operation of another device is answered there. -/
def State.failItem (s : State) (du : Nat) (x : FabItem) (cause : Nat) : State :=
  let s1 := s.arrive du x
  if s.fromHere x.hdr then
    s1.failOp x.hdr.srcUnit.toNat cause x.op.code x.hdr.stream.toNat x.hdr.addr.toNat x.owner
  else s1

/-- Deregistration fails what the stream's reorder window holds with NO_STREAM (R58). -/
def State.dropHeld (s : State) (u stream : Nat) : State :=
  let out := s.fab.held.filter fun h => decide (h.1 = u) && decide (h.2.hdr.stream.toNat = stream)
  let s1 := { s with fab := { s.fab with held := s.fab.held.filter fun h => !(decide (h.1 = u) && decide (h.2.hdr.stream.toNat = stream)) } }
  out.foldl (fun t h => t.failItem (s.ownChain * 256 + u) h.2 6) s1

/-! ### Registration -/

/-- Deregister entry `k` of unit `u` (R58). -/
def State.deregister (s : State) (u k : Nat) : State :=
  let st := s.fld (crdW0 u k) 15 0
  (s.setFld (crdW1 u k) 31 31 0).dropHeld u st

/-- Without an earlier registration of `stream` at unit `u`. -/
def State.withoutStream (s : State) (u stream : Nat) : State :=
  match s.streamEntry u stream with
  | some k => s.deregister u k
  | none => s

/-- Register a stream at unit `u` as firmware does: the stream's own entry, else the lowest free one; none when no entry is
free or the reservations would exceed the ingress buffer (R60). -/
def State.register (s : State) (u stream esc mx win nextSeq : Nat) : Option State :=
  let s0 := s.withoutStream u stream
  let used := s0.validCrd u
  match (List.range (creditEntries (unitClass u))).find? fun k => decide (k ∉ used) with
  | none => none
  | some k =>
    if ingressCredits (unitClass u) < s0.escSum u + esc then none
    else some ((s0.setRegN (crdW0 u k) (stream % 2 ^ 16 + nextSeq % 2 ^ 16 * 2 ^ 16)).setRegN (crdW1 u k)
      (esc % 2 ^ 12 + mx % 2 ^ 12 * 2 ^ 12 + win % 2 ^ 6 * 2 ^ 24 + 2 ^ 31))

/-- Register a list of streams (unit, stream, ESC, MAX, ORDER_WIN), all or none. -/
def State.registerAll (s : State) : List (Nat × Nat × Nat × Nat × Nat) → Option State
  | [] => some s
  | r :: rs => match s.register r.1 r.2.1 r.2.2.1 r.2.2.2.1 r.2.2.2.2 0 with
    | some s1 => s1.registerAll rs
    | none => none

/-- NEXT_SEQ of every ordered stream of the own device, by FAB_CRD_k_W0. -/
def State.orderedSeqs (s : State) : List (Nat × Nat) :=
  (s.regs.filter fun r => bit r.2.toNat 31 && decide (bits r.2.toNat 29 24 ≠ 0) && decide (r.1 / 2 ^ 52 < 256)
    && decide (CTC ≤ r.1 % 2 ^ 52) && decide (r.1 % 2 ^ 52 < CTC + 0x2000) && decide (r.1 % 8 = 4)).map
    fun r => (r.1 - 4, s.fld (r.1 - 4) 31 16)

/-- Before a killed command re-runs (R68): each ordered stream on which it issued is deregistered, and registered again with
the NEXT_SEQ that it held when the command started. -/
def State.rewindOrdered (s : State) (c : Cmd) : State :=
  c.fadds.foldl (fun t f => match t.streamEntry f.1 f.2 with
    | none => t
    | some k =>
      let w0 := crdW0 f.1 k
      match c.nseq.find? fun x => decide (x.1 = w0) with
      | some x => (((t.deregister f.1 k).setFld w0 31 16 x.2)).setFld (crdW1 f.1 k) 31 31 1
      | none => t) s

end Sys2Proof.Machine
end

