-- ==== Sys2Proof/Machine/VecTables.lean ====
section
/-! DEFINITION. The tables and constants of the function recipes (Table 7.7, R219): each entry is the exact value of its
formula rounded by RNE to FP32, written as its code. -/
namespace Sys2Proof.Machine

/-- TR[i] = 1 / (1 + (i + 0.5) / 128). -/
def tabTR : List Nat :=
  [0x3F7F00FF, 0x3F7D08E5, 0x3F7B1885, 0x3F792FB2, 0x3F774E40, 0x3F757404, 0x3F73A0D5, 0x3F71D48C] ++
  [0x3F700F01, 0x3F6E500F, 0x3F6C9791, 0x3F6AE564, 0x3F693965, 0x3F679373, 0x3F65F36D, 0x3F645933] ++
  [0x3F62C4A7, 0x3F6135AA, 0x3F5FAC1F, 0x3F5E27EB, 0x3F5CA8F1, 0x3F5B2F17, 0x3F59BA42, 0x3F584A5A] ++
  [0x3F56DF44, 0x3F5578E9, 0x3F541733, 0x3F52BA08, 0x3F516154, 0x3F500D01, 0x3F4EBCF9, 0x3F4D7127] ++
  [0x3F4C2978, 0x3F4AE5D8, 0x3F49A634, 0x3F486A79, 0x3F473294, 0x3F45FE74, 0x3F44CE08, 0x3F43A13E] ++
  [0x3F427806, 0x3F415250, 0x3F40300C, 0x3F3F112B, 0x3F3DF59D, 0x3F3CDD53, 0x3F3BC841, 0x3F3AB656] ++
  [0x3F39A786, 0x3F389BC3, 0x3F379301, 0x3F368D31, 0x3F358A48, 0x3F348A3A, 0x3F338CFA, 0x3F32927C] ++
  [0x3F319AB6, 0x3F30A59B, 0x3F2FB322, 0x3F2EC33E, 0x3F2DD5E6, 0x3F2CEB10, 0x3F2C02B0, 0x3F2B1CBE] ++
  [0x3F2A392F, 0x3F2957FB, 0x3F287917, 0x3F279C7B, 0x3F26C21E, 0x3F25E9F7, 0x3F2513FD, 0x3F244029] ++
  [0x3F236E72, 0x3F229ECF, 0x3F21D13A, 0x3F2105A9, 0x3F203C17, 0x3F1F747A, 0x3F1EAECD, 0x3F1DEB07] ++
  [0x3F1D2922, 0x3F1C6917, 0x3F1BAADF, 0x3F1AEE73, 0x3F1A33CD, 0x3F197AE7, 0x3F18C3BB, 0x3F180E41] ++
  [0x3F175A75, 0x3F16A850, 0x3F15F7CC, 0x3F1548E5, 0x3F149B93, 0x3F13EFD2, 0x3F13459C, 0x3F129CEC] ++
  [0x3F11F5BD, 0x3F115009, 0x3F10ABCC, 0x3F100901, 0x3F0F67A2, 0x3F0EC7AB, 0x3F0E2918, 0x3F0D8BE3] ++
  [0x3F0CF009, 0x3F0C5584, 0x3F0BBC51, 0x3F0B246B, 0x3F0A8DCD, 0x3F09F874, 0x3F09645C, 0x3F08D181] ++
  [0x3F083FDE, 0x3F07AF70, 0x3F072033, 0x3F069223, 0x3F06053C, 0x3F05797C, 0x3F04EEDD, 0x3F04655E] ++
  [0x3F03DCF9, 0x3F0355AD, 0x3F02CF75, 0x3F024A4E, 0x3F01C636, 0x3F014328, 0x3F00C122, 0x3F004020]

/-- TS[i] = 1 / sqrt(midpoint of bin i), m′ in [1, 4). -/
def tabTS : List Nat :=
  [0x3F7F017E, 0x3F7D0D3E, 0x3F7B2452, 0x3F79464E, 0x3F7772CB, 0x3F75A969, 0x3F73E9CB, 0x3F723399] ++
  [0x3F708681, 0x3F6EE232, 0x3F6D4660, 0x3F6BB2C5, 0x3F6A271A, 0x3F68A31D, 0x3F672691, 0x3F65B139] ++
  [0x3F6442DB, 0x3F62DB41, 0x3F617A36, 0x3F601F87, 0x3F5ECB04, 0x3F5D7C7F, 0x3F5C33CC, 0x3F5AF0BF] ++
  [0x3F59B330, 0x3F587AF7, 0x3F5747EE, 0x3F5619F2, 0x3F54F0DF, 0x3F53CC93, 0x3F52ACEE, 0x3F5191D1] ++
  [0x3F507B1D, 0x3F4F68B6, 0x3F4E5A7F, 0x3F4D505E, 0x3F4C4A38, 0x3F4B47F4, 0x3F4A497A, 0x3F494EB3] ++
  [0x3F485787, 0x3F4763E2, 0x3F4673AC, 0x3F4586D3, 0x3F449D42, 0x3F43B6E6, 0x3F42D3AD, 0x3F41F383] ++
  [0x3F411659, 0x3F403C1C, 0x3F3F64BD, 0x3F3E902C, 0x3F3DBE58, 0x3F3CEF34, 0x3F3C22B1, 0x3F3B58C0] ++
  [0x3F3A9154, 0x3F39CC60, 0x3F3909D6, 0x3F3849AA, 0x3F378BD0, 0x3F36D03D, 0x3F3616E4, 0x3F355FBA] ++
  [0x3F3450FC, 0x3F32EF41, 0x3F319589, 0x3F304387, 0x3F2EF8F2, 0x3F2DB587, 0x3F2C7904, 0x3F2B432A] ++
  [0x3F2A13C0, 0x3F28EA8C, 0x3F27C759, 0x3F26A9F4, 0x3F25922C, 0x3F247FD3, 0x3F2372BD, 0x3F226ABE] ++
  [0x3F2167AF, 0x3F206968, 0x3F1F6FC4, 0x3F1E7AA0, 0x3F1D89D9, 0x3F1C9D4E, 0x3F1BB4E1, 0x3F1AD073] ++
  [0x3F19EFE6, 0x3F191320, 0x3F183A05, 0x3F17647C, 0x3F16926C, 0x3F15C3BC, 0x3F14F857, 0x3F143026] ++
  [0x3F136B13, 0x3F12A90B, 0x3F11E9F9, 0x3F112DCA, 0x3F10746D, 0x3F0FBDCE, 0x3F0F09DD, 0x3F0E5889] ++
  [0x3F0DA9C2, 0x3F0CFD79, 0x3F0C539F, 0x3F0BAC25, 0x3F0B06FD, 0x3F0A641A, 0x3F09C36D, 0x3F0924EC] ++
  [0x3F088889, 0x3F07EE37, 0x3F0755ED, 0x3F06BF9E, 0x3F062B40, 0x3F0598C7, 0x3F05082A, 0x3F04795F] ++
  [0x3F03EC5C, 0x3F036117, 0x3F02D788, 0x3F024FA6, 0x3F01C967, 0x3F0144C4, 0x3F00C1B4, 0x3F004030]

/-- TE[i] = 2^(i/64). -/
def tabTE : List Nat :=
  [0x3F800000, 0x3F8164D2, 0x3F82CD87, 0x3F843A29, 0x3F85AAC3, 0x3F871F62, 0x3F88980F, 0x3F8A14D5] ++
  [0x3F8B95C2, 0x3F8D1ADF, 0x3F8EA43A, 0x3F9031DC, 0x3F91C3D3, 0x3F935A2B, 0x3F94F4F0, 0x3F96942D] ++
  [0x3F9837F0, 0x3F99E046, 0x3F9B8D3A, 0x3F9D3EDA, 0x3F9EF532, 0x3FA0B051, 0x3FA27043, 0x3FA43516] ++
  [0x3FA5FED7, 0x3FA7CD94, 0x3FA9A15B, 0x3FAB7A3A, 0x3FAD583F, 0x3FAF3B79, 0x3FB123F6, 0x3FB311C4] ++
  [0x3FB504F3, 0x3FB6FD92, 0x3FB8FBAF, 0x3FBAFF5B, 0x3FBD08A4, 0x3FBF179A, 0x3FC12C4D, 0x3FC346CD] ++
  [0x3FC5672A, 0x3FC78D75, 0x3FC9B9BE, 0x3FCBEC15, 0x3FCE248C, 0x3FD06334, 0x3FD2A81E, 0x3FD4F35B] ++
  [0x3FD744FD, 0x3FD99D16, 0x3FDBFBB8, 0x3FDE60F5, 0x3FE0CCDF, 0x3FE33F89, 0x3FE5B907, 0x3FE8396A] ++
  [0x3FEAC0C7, 0x3FED4F30, 0x3FEFE4BA, 0x3FF28177, 0x3FF5257D, 0x3FF7D0DF, 0x3FFA83B3, 0x3FFD3E0C]

/-- TL[i] = −ln TR[i], with TR[i] exact. -/
def tabTL : List Nat :=
  [0x3B7F8055, 0x3C3EE23B, 0x3C9E7522, 0x3CDCFE01, 0x3D0D86CC, 0x3D2C52DD, 0x3D4AE418, 0x3D693B5C] ++
  [0x3D83ACC2, 0x3D929FB1, 0x3DA176E6, 0x3DB032C5, 0x3DBED3B3, 0x3DCD5A12, 0x3DDBC641, 0x3DEA189F] ++
  [0x3DF85186, 0x3E0338A9, 0x3E0A3C2C, 0x3E113379, 0x3E181EB9, 0x3E1EFE16, 0x3E25D1B8, 0x3E2C99C7] ++
  [0x3E33566A, 0x3E3A07C8, 0x3E40AE05, 0x3E474947, 0x3E4DD9B1, 0x3E545F68, 0x3E5ADA8D, 0x3E614B43] ++
  [0x3E67B1AA, 0x3E6E0DE5, 0x3E746013, 0x3E7AA853, 0x3E807362, 0x3E838DC3, 0x3E86A35B, 0x3E89B438] ++
  [0x3E8CC069, 0x3E8FC7FD, 0x3E92CB01, 0x3E95C982, 0x3E98C38E, 0x3E9BB933, 0x3E9EAA7D, 0x3EA19779] ++
  [0x3EA48034, 0x3EA764BA, 0x3EAA4516, 0x3EAD2156, 0x3EAFF984, 0x3EB2CDAC, 0x3EB59DD9, 0x3EB86A17] ++
  [0x3EBB3271, 0x3EBDF6F0, 0x3EC0B7A1, 0x3EC3748D, 0x3EC62DBE, 0x3EC8E33F, 0x3ECB951A, 0x3ECE4358] ++
  [0x3ED0EE03, 0x3ED39525, 0x3ED638C6, 0x3ED8D8F0, 0x3EDB75AD, 0x3EDE0F04, 0x3EE0A500, 0x3EE337A7] ++
  [0x3EE5C704, 0x3EE8531D, 0x3EEADBFD, 0x3EED61AA, 0x3EEFE42D, 0x3EF2638D, 0x3EF4DFD3, 0x3EF75906] ++
  [0x3EF9CF2E, 0x3EFC4252, 0x3EFEB279, 0x3F008FD6, 0x3F01C4F7, 0x3F02F8A6, 0x3F042AE4, 0x3F055BB6] ++
  [0x3F068B1E, 0x3F07B921, 0x3F08E5C1, 0x3F0A1101, 0x3F0B3AE5, 0x3F0C6370, 0x3F0D8AA6, 0x3F0EB088] ++
  [0x3F0FD51A, 0x3F10F860, 0x3F121A5B, 0x3F133B10, 0x3F145A80, 0x3F1578B0, 0x3F1695A0, 0x3F17B155] ++
  [0x3F18CBD0, 0x3F19E516, 0x3F1AFD27, 0x3F1C1408, 0x3F1D29BA, 0x3F1E3E40, 0x3F1F519D, 0x3F2063D2] ++
  [0x3F2174E3, 0x3F2284D3, 0x3F2393A2, 0x3F24A154, 0x3F25ADEB, 0x3F26B96A, 0x3F27C3D2, 0x3F28CD26] ++
  [0x3F29D568, 0x3F2ADC9B, 0x3F2BE2C0, 0x3F2CE7D9, 0x3F2DEBEA, 0x3F2EEEF3, 0x3F2FF0F7, 0x3F30F1F8]

/-- TSN[i] = sin(iπ/32). -/
def tabTSN : List Nat :=
  [0x00000000, 0x3DC8BD36, 0x3E47C5C2, 0x3E94A031, 0x3EC3EF15, 0x3EF15AEA, 0x3F0E39DA, 0x3F226799] ++
  [0x3F3504F3, 0x3F45E403, 0x3F54DB31, 0x3F61C598, 0x3F6C835E, 0x3F74FA0B, 0x3F7B14BE, 0x3F7EC46D] ++
  [0x3F800000, 0x3F7EC46D, 0x3F7B14BE, 0x3F74FA0B, 0x3F6C835E, 0x3F61C598, 0x3F54DB31, 0x3F45E403] ++
  [0x3F3504F3, 0x3F226799, 0x3F0E39DA, 0x3EF15AEA, 0x3EC3EF15, 0x3E94A031, 0x3E47C5C2, 0x3DC8BD36] ++
  [0x00000000, 0xBDC8BD36, 0xBE47C5C2, 0xBE94A031, 0xBEC3EF15, 0xBEF15AEA, 0xBF0E39DA, 0xBF226799] ++
  [0xBF3504F3, 0xBF45E403, 0xBF54DB31, 0xBF61C598, 0xBF6C835E, 0xBF74FA0B, 0xBF7B14BE, 0xBF7EC46D] ++
  [0xBF800000, 0xBF7EC46D, 0xBF7B14BE, 0xBF74FA0B, 0xBF6C835E, 0xBF61C598, 0xBF54DB31, 0xBF45E403] ++
  [0xBF3504F3, 0xBF226799, 0xBF0E39DA, 0xBEF15AEA, 0xBEC3EF15, 0xBE94A031, 0xBE47C5C2, 0xBDC8BD36]

/-- TCS[i] = cos(iπ/32). -/
def tabTCS : List Nat :=
  [0x3F800000, 0x3F7EC46D, 0x3F7B14BE, 0x3F74FA0B, 0x3F6C835E, 0x3F61C598, 0x3F54DB31, 0x3F45E403] ++
  [0x3F3504F3, 0x3F226799, 0x3F0E39DA, 0x3EF15AEA, 0x3EC3EF15, 0x3E94A031, 0x3E47C5C2, 0x3DC8BD36] ++
  [0x00000000, 0xBDC8BD36, 0xBE47C5C2, 0xBE94A031, 0xBEC3EF15, 0xBEF15AEA, 0xBF0E39DA, 0xBF226799] ++
  [0xBF3504F3, 0xBF45E403, 0xBF54DB31, 0xBF61C598, 0xBF6C835E, 0xBF74FA0B, 0xBF7B14BE, 0xBF7EC46D] ++
  [0xBF800000, 0xBF7EC46D, 0xBF7B14BE, 0xBF74FA0B, 0xBF6C835E, 0xBF61C598, 0xBF54DB31, 0xBF45E403] ++
  [0xBF3504F3, 0xBF226799, 0xBF0E39DA, 0xBEF15AEA, 0xBEC3EF15, 0xBE94A031, 0xBE47C5C2, 0xBDC8BD36] ++
  [0x00000000, 0x3DC8BD36, 0x3E47C5C2, 0x3E94A031, 0x3EC3EF15, 0x3EF15AEA, 0x3F0E39DA, 0x3F226799] ++
  [0x3F3504F3, 0x3F45E403, 0x3F54DB31, 0x3F61C598, 0x3F6C835E, 0x3F74FA0B, 0x3F7B14BE, 0x3F7EC46D]

/-- TA[j] = atan(j/64). -/
def tabTA : List Nat :=
  [0x00000000, 0x3C7FFAAB, 0x3CFFEAAE, 0x3D3FDC0C, 0x3D7FAADE, 0x3D9FACF8, 0x3DBF70C1, 0x3DDF1CF6] ++
  [0x3DFEADD5, 0x3E0F0FD8, 0x3E1EB777, 0x3E2E4C09, 0x3E3DCBDA, 0x3E4D3547, 0x3E5C86BB, 0x3E6BBEAF] ++
  [0x3E7ADBB0, 0x3E84EE2D, 0x3E8C5FAD, 0x3E93C1B9, 0x3E9B13BA, 0x3EA25522, 0x3EA9856D, 0x3EB0A420] ++
  [0x3EB7B0CA, 0x3EBEAB02, 0x3EC5926A, 0x3ECC66AA, 0x3ED32776, 0x3ED9D489, 0x3EE06DA6, 0x3EE6F29A] ++
  [0x3EED6338, 0x3EF3BF5C, 0x3EFA06E8, 0x3F001CE4, 0x3F032BF5, 0x3F0630A3, 0x3F092AED, 0x3F0C1AD4] ++
  [0x3F0F005D, 0x3F11DB8F, 0x3F14AC73, 0x3F177314, 0x3F1A2F81, 0x3F1CE1C9, 0x3F1F89FE, 0x3F222833] ++
  [0x3F24BC7D, 0x3F2746F3, 0x3F29C7AC, 0x3F2C3EC1, 0x3F2EAC4C, 0x3F311069, 0x3F336B32, 0x3F35BCC5] ++
  [0x3F38053E, 0x3F3A44BC, 0x3F3C7B5E, 0x3F3EA941, 0x3F40CE86, 0x3F42EB4B, 0x3F44FFB0, 0x3F470BD5] ++
  [0x3F490FDB]

/-! Named constants. -/

/-- 64 / ln 2. -/
def kC64 : Nat := 0x42B8AA3B
/-- 1/6. -/
def kC6 : Nat := 0x3E2AAAAB
/-- 1/3. -/
def kC3 : Nat := 0x3EAAAAAB
/-- ln 2. -/
def kLN2 : Nat := 0x3F317218
/-- 32/π. -/
def kI32PI : Nat := 0x4122F983
/-- 1/120. -/
def kC120 : Nat := 0x3C088889
/-- 1/24. -/
def kC24 : Nat := 0x3D2AAAAB
/-- π/2. -/
def kPI2 : Nat := 0x3FC90FDB
/-- π. -/
def kPI : Nat := 0x40490FDB
/-- π/4. -/
def kPI4 : Nat := 0x3F490FDB
/-- 3π/4. -/
def kPI34 : Nat := 0x4016CBE4
/-- 0.2. -/
def kP2 : Nat := 0x3E4CCCCD
/-- 0.375. -/
def kP375 : Nat := 0x3EC00000
/-- 0.3125. -/
def kP3125 : Nat := 0x3EA00000
/-- 0.2734375. -/
def kP273 : Nat := 0x3E8C0000
/-- ln 2 / 64 to 10 bits. -/
def kLH : Nat := 0x3C318000
/-- π/32 to 10 bits. -/
def kPH : Nat := 0x3DC90000
/-- ln 2 / 64 − lh, exactly, rounded to FP32 (log 21). -/
def kLL : Nat := 0xB65E8083
/-- π/32 − ph, exactly, rounded to FP32 (log 21). -/
def kPL : Nat := 0x37FDAA22

end Sys2Proof.Machine
end

