-- ==== Sys2Proof/Machine/VecNum.lean ====
section
/-! DEFINITION. The vector unit's arithmetic (07): formats, the operations of Table 7.3, the function recipes of R219,
the reduction tree and the summaries of R226. -/
namespace Sys2Proof.Machine

/-! ### Formats (Table 7.2) -/

/-- A vector format: the element it holds and the bits it occupies (a BFP mantissa occupies a 16-bit container). -/
structure VFmt where
  fmt : Fmt
  width : Nat
  deriving DecidableEq, Repr

/-- Table 7.2. -/
def vfmt (c : Nat) : Option VFmt :=
  match c with
  | 0x0 => some ⟨.fp32, 32⟩ | 0x1 => some ⟨.fp16, 16⟩ | 0x2 => some ⟨.bf16, 16⟩ | 0x3 => some ⟨.e4m3, 8⟩
  | 0x4 => some ⟨.e5m2, 8⟩ | 0x5 => some ⟨.int 8, 8⟩ | 0x6 => some ⟨.int 16, 16⟩ | 0x7 => some ⟨.int 32, 32⟩
  | 0x8 => some ⟨.int 4, 4⟩ | 0x9 => some ⟨.e8m0, 8⟩ | 0xA => some ⟨.int 8, 16⟩ | 0xB => some ⟨.int 9, 16⟩
  | 0xC => some ⟨.int 12, 16⟩ | 0xD => some ⟨.int 14, 16⟩ | 0xE => some ⟨.int 16, 16⟩ | _ => none

/-- The formats that only a conversion may use (Table 7.2). -/
def convOnly (c : Nat) : Bool := decide (8 ≤ c) && decide (c ≤ 0xE)

/-- A format that any use allows. -/
def plainFmt (c : Nat) : Bool := decide (c < 8)

/-- Bits of an element of format code `c`. -/
def vwidth (c : Nat) : Nat := ((vfmt c).map (·.width)).getD 32

/-- The value of an element code; a BFP mantissa is its container read as a two's-complement number (R119). -/
def VFmt.value (f : VFmt) (c : Nat) : Val :=
  match f.fmt with
  | .int _ => Val.ofInt (sext f.width c)
  | g => g.decode (c % 2 ^ f.width)

/-- Convert a value to the format (R142, R143): a BFP mantissa is stored sign-extended. -/
def VFmt.enc (f : VFmt) (mode : Rnd) (sat : Bool) (v : Val) : Nat :=
  match f.fmt with
  | .int w => wrapN f.width (convertInt w mode v).1
  | g => (g.convert mode sat v).1

/-- Floating-point results of R212: IEEE 754-2019 in FP32, FP16 and BF16; the columns of Table 4.6 in FP8, where a
zero keeps its sign. -/
def FFmt.vround (f : FFmt) (mode : Rnd) (sat : Bool) (v : Val) : Nat :=
  if f.width ≠ 8 then f.roundArith mode v
  else match v with
    | .fin n _ _ =>
      let r := (f.convert mode sat v).1
      if r = 0 then f.sign n else r
    | _ => (f.convert mode sat v).1

/-- IEEE 754-2019 minimum: NaN propagates, −0 < +0. -/
def Val.minimum (a b : Val) : Val :=
  if a.isNan || b.isNan then .nan
  else if a.lt b then a else if b.lt a then b else if a.neg? then a else b

/-- IEEE 754-2019 maximum. -/
def Val.maximum (a b : Val) : Val :=
  if a.isNan || b.isNan then .nan
  else if b.lt a then a else if a.lt b then b else if a.neg? then b else a

/-! ### Function recipes (R219): every step one binary32 operation under RNE, on FP32 codes -/

def fadd (a b : Nat) : Nat := fFP32.roundArith .rne ((f32 a).add (f32 b))
def fsub (a b : Nat) : Nat := fFP32.roundArith .rne ((f32 a).add (f32 b).negate)
def fmul (a b : Nat) : Nat := fFP32.roundArith .rne ((f32 a).mul (f32 b))

/-- An integer as FP32. -/
def fint (k : Int) : Nat := fFP32.roundArith .rne (Val.ofInt k)

/-- Add `n` to the exponent of a value; beyond ±1,000 every format's result is the same. -/
def Val.shift (v : Val) (n : Int) : Val :=
  match v with
  | .fin s m e => .fin s m (e + (if n < -1000 then -1000 else if 1000 < n then 1000 else n))
  | v => v

/-- v × 2^n rounded once by RNE. -/
def ldexp (v : Nat) (n : Int) : Nat := fFP32.roundArith .rne ((f32 v).shift n)

/-- FP32 constants. -/
def f0 : Nat := 0
def f1 : Nat := 0x3F800000
def fHalf : Nat := 0x3F000000
def fNan : Nat := 0x7FC00000
def fInf : Nat := 0x7F800000

/-- −a: the sign bit inverted. -/
def fneg (a : Nat) : Nat := if a < 2 ^ 31 then a + 2 ^ 31 else a - 2 ^ 31

/-- The code with the sign `n`. -/
def fsign (n : Bool) (a : Nat) : Nat := a % 2 ^ 31 + (if n then 2 ^ 31 else 0)

/-- round_rne of an FP32 code to an integer; none when it is not finite. -/
def fround (a : Nat) : Option Int :=
  match f32 a with
  | .fin n m e =>
    let r := roundMag none 0 .rne m e
    let k : Nat := r.1 * 2 ^ r.2.toNat
    some (if n then -(k : Int) else k)
  | _ => none

/-- m and e of x = m × 2^e with m in [1, 2) as FP32, and the 23 fraction bits of m, for a finite nonzero magnitude. -/
def fnorm (m : Nat) (e : Int) : Nat × Int × Nat :=
  let l := Nat.log2 m
  (fFP32.roundArith .rne (.fin false m (-(l : Int))), e + l, m * 2 ^ 23 / 2 ^ l % 2 ^ 23)

/-- RECIP (Table 7.7). -/
def fRecip (x : Nat) : Nat :=
  match f32 x with
  | .nan => fNan
  | .inf n => fsign n 0
  | .fin n m e =>
    if m = 0 then fsign n fInf
    else
      let (c, e, fr) := fnorm m e
      let y0 := tabTR.getD (fr / 2 ^ 16) 0
      let d := fsub f1 (fmul c y0)
      let p := fadd f1 (fmul d (fadd f1 (fmul d (fadd f1 d))))
      fsign n (ldexp (fmul y0 p) (-e))

/-- RSQRT (Table 7.7). -/
def fRsqrt (x : Nat) : Nat :=
  match f32 x with
  | .nan => fNan
  | .inf n => if n then fNan else 0
  | .fin n m e =>
    if m = 0 then fsign n fInf
    else if n then fNan
    else
      let (c, e, fr) := fnorm m e
      let odd := decide (e % 2 = 1)
      let c := if odd then ldexp c 1 else c
      let y0 := tabTS.getD (fr / 2 ^ 17 + (if odd then 64 else 0)) 0
      let d := fsub f1 (fmul (fmul c y0) y0)
      let p := fadd f1 (fmul d (fadd fHalf (fmul d (fadd kP375 (fmul d (fadd kP3125 (fmul d kP273)))))))
      ldexp (fmul y0 p) (-(e / 2))

/-- SQRT (Table 7.7). -/
def fSqrt (x : Nat) : Nat :=
  match f32 x with
  | .nan => fNan
  | .inf n => if n then fNan else fInf
  | .fin n m _ => if m = 0 then x else if n then fNan else fmul x (fRsqrt x)

/-- EXP (R219); none where k is not finite. -/
def fExp (x : Nat) : Option Nat :=
  match f32 x with
  | .nan => some fNan
  | .inf n => some (if n then 0 else fInf)
  | _ =>
    match fround (fmul x kC64) with
    | none => none
    | some k =>
      let kf := fint k
      let r := fsub (fsub x (fmul kf kLH)) (fmul kf kLL)
      let p := fadd f1 (fmul r (fadd f1 (fmul r (fadd fHalf (fmul r kC6)))))
      some (ldexp (fmul (tabTE.getD (k % 64).toNat 0) p) (k / 64))

/-- LOG (Table 7.7). -/
def fLog (x : Nat) : Nat :=
  match f32 x with
  | .nan => fNan
  | .inf n => if n then fNan else fInf
  | .fin n m e =>
    if m = 0 then fsign true fInf
    else if n then fNan
    else if x = f1 then 0
    else
      let (c, e, fr) := fnorm m e
      let i := fr / 2 ^ 16
      let z := fsub (fmul c (tabTR.getD i 0)) f1
      let p := fmul z (fadd f1 (fmul z (fadd (fneg fHalf) (fmul z (fadd kC3 (fmul z (fneg 0x3E800000)))))))
      fadd (fadd (fmul (fint e) kLN2) (tabTL.getD i 0)) p

/-- SIN (`cos` false) and COS (Table 7.7); none where k is not finite. -/
def fSinCos (cos : Bool) (x : Nat) : Option Nat :=
  match f32 x with
  | .nan => some fNan
  | .inf _ => some fNan
  | .fin _ m _ =>
    if m = 0 then some (if cos then f1 else x)
    else match fround (fmul x kI32PI) with
      | none => none
      | some k =>
        let kf := fint k
        let r := fsub (fsub x (fmul kf kPH)) (fmul kf kPL)
        let r2 := fmul r r
        let s := fmul r (fadd f1 (fmul r2 (fadd (fneg kC6) (fmul r2 kC120))))
        let c := fadd f1 (fmul r2 (fadd (fneg fHalf) (fmul r2 kC24)))
        let i := (k % 64).toNat
        let sn := tabTSN.getD i 0
        let cs := tabTCS.getD i 0
        some (if cos then fsub (fmul cs c) (fmul sn s) else fadd (fmul sn c) (fmul cs s))

/-- The value that IEEE 754-2019 recommends for atan2 of NaN, zero and infinite operands. -/
def atan2Special (y x : Val) : Option Nat :=
  if y.isNan || x.isNan then some fNan
  else if y.isInf then some (fsign y.neg? (if x.isInf then (if x.neg? then kPI34 else kPI4) else kPI2))
  else if x.isInf then some (fsign y.neg? (if x.neg? then kPI else 0))
  else if y.isZero then some (fsign y.neg? (if x.neg? then kPI else 0))
  else if x.isZero then some (fsign y.neg? kPI2)
  else none

/-- ATAN2(y, x) (Table 7.7); none where j is not finite. -/
def fAtan2 (y x : Nat) : Option Nat :=
  let vy := f32 y
  let vx := f32 x
  match atan2Special vy vx with
  | some r => some r
  | none =>
    let ay := fsign false y
    let ax := fsign false x
    let swap := vx.abs.lt vy.abs
    let q := if swap then fmul ax (fRecip ay) else fmul ay (fRecip ax)
    match fround (fmul q 0x42800000) with
    | none => none
    | some j =>
      let t := ldexp (fint j) (-6)
      let z := fmul (fsub q t) (fRecip (fadd f1 (fmul q t)))
      let z2 := fmul z z
      let th := fadd (tabTA.getD j.toNat 0) (fmul z (fadd f1 (fmul z2 (fadd (fneg kC3) (fmul z2 kP2)))))
      let th := if swap then fsub kPI2 th else th
      let th := if vx.neg? then fsub kPI th else th
      some (if vy.neg? then fneg th else th)

/-- The recipe of an EP code on FP32 codes. -/
def recipe (op a b : Nat) : Option Nat :=
  match op with
  | 0x13 => some (fRecip a)
  | 0x14 => some (fRsqrt a)
  | 0x15 => some (fSqrt a)
  | 0x16 => fExp a
  | 0x17 => some (fLog a)
  | 0x18 => fSinCos false a
  | 0x19 => fSinCos true a
  | _ => fAtan2 a b

/-! ### Table 7.3 -/

/-- The operations of Table 7.3 are given the formats that it lists for them; `src` is CVT's source format (R209). -/
def opFmtOk (op c src : Nat) : Bool :=
  if op = 0x11 then decide (c < 0xF) && decide (src < 0xF)
  else if op = 3 ∨ 0x12 ≤ op then decide (c < 5)
  else if 0xC ≤ op ∧ op ≤ 0x10 then decide (5 ≤ c) && decide (c < 8)
  else plainFmt c

/-- Integer operations. -/
def intAlu (op w a b : Nat) (sat : Bool) : Nat :=
  let x := sext w a
  let y := sext w b
  let top : Int := (2 ^ (w - 1) : Nat) - 1
  let bot : Int := -((2 ^ (w - 1) : Nat) : Int)
  let wrap : Int → Nat := fun r => wrapN w (if sat then (if r < bot then bot else if top < r then top else r) else r)
  let flag : Bool → Nat := fun t => if t then 2 ^ w - 1 else 0
  match op with
  | 0x00 => wrap (x + y)
  | 0x01 => wrap (x - y)
  | 0x02 => wrap (x * y)
  | 0x04 => wrapN w (if x ≤ y then x else y)
  | 0x05 => wrapN w (if x ≤ y then y else x)
  | 0x06 => if x = bot then Config.vecOpen op w a % 2 ^ w else wrapN w (x.natAbs : Int)
  | 0x07 => if x = bot then Config.vecOpen op w a % 2 ^ w else wrapN w (-x)
  | 0x08 => flag (decide (x = y))
  | 0x09 => flag (decide (x < y))
  | 0x0A => flag (decide (x ≤ y))
  | 0x0C => a % 2 ^ w &&& b % 2 ^ w
  | 0x0D => a % 2 ^ w ||| b % 2 ^ w
  | 0x0E => a % 2 ^ w ^^^ b % 2 ^ w
  | 0x0F => a * 2 ^ (b % 2 ^ w % w) % 2 ^ w
  | _ => wrapN w (x / ((2 ^ (b % 2 ^ w % w) : Nat) : Int))

/-- Floating-point operations (R212, R219). -/
def floatAlu (op : Nat) (f : FFmt) (mode : Rnd) (sat : Bool) (a b c : Nat) : Nat :=
  let A := f.decode (a % 2 ^ f.width)
  let B := f.decode (b % 2 ^ f.width)
  let C := f.decode (c % 2 ^ f.width)
  let flag : Bool → Nat := fun t => if t then 2 ^ f.width - 1 else 0
  match op with
  | 0x00 => f.vround mode sat (A.add B)
  | 0x01 => f.vround mode sat (A.add B.negate)
  | 0x02 => f.vround mode sat (A.mul B)
  | 0x03 => f.vround mode sat ((A.mul B).add C)
  | 0x04 => match A.minimum B with | .nan => f.nanCode | _ => if A.minimum B = A then a % 2 ^ f.width else b % 2 ^ f.width
  | 0x05 => match A.maximum B with | .nan => f.nanCode | _ => if A.maximum B = A then a % 2 ^ f.width else b % 2 ^ f.width
  | 0x06 => if A.isNan then f.nanCode else a % 2 ^ (f.width - 1)
  | 0x07 => if A.isNan then f.nanCode else (a + 2 ^ (f.width - 1)) % 2 ^ f.width
  | 0x08 => flag (A.eq B)
  | 0x09 => flag (A.lt B)
  | 0x0A => flag (A.le B)
  | 0x12 => f.vround mode sat (A.shift (sext f.width b))
  | _ =>
    let wide : Val → Nat := fun v => fFP32.roundArith .rne v
    match recipe op (wide A) (wide B) with
    | some r => if f = fFP32 then r else f.vround mode sat (f32 r)
    | none => Config.vecOpen op (wide A) (wide B) % 2 ^ f.width

/-- Operation `op` (EP code of Table 7.3) in format `f` on codes A, B and C; `src` is CVT's source format. -/
def vecAlu (op : Nat) (f src : VFmt) (mode : Rnd) (sat : Bool) (a b c : Nat) : Nat :=
  if op = 0x0B then (if c % 2 ^ f.width ≠ 0 then a % 2 ^ f.width else b % 2 ^ f.width)
  else if op = 0x11 then f.enc mode sat (src.value a)
  else match f.fmt.ffmt with
    | some g => floatAlu op g mode sat a b c
    | none => intAlu op f.width a b sat

/-! ### Reductions (R223, R224) -/

/-- Widen an element: floating-point to FP32, integers exactly (R224). -/
def VFmt.wide (f : VFmt) (c : Nat) : Val := f.value c

/-- One node (R224): operation 0 SUM, 1 MAX, 2 MIN, 3 ARGMAX, 4 ARGMIN on present inputs with their indices. -/
def redNode (op : Nat) (isf : Bool) (l r : Option (Val × Nat)) : Option (Val × Nat) :=
  match l, r with
  | none, r => r
  | l, none => l
  | some a, some b =>
    match op with
    | 0 => some (if isf then f32 (fFP32.roundArith .rne (a.1.add b.1)) else a.1.add b.1, a.2)
    | 1 => some (a.1.maximum b.1, a.2)
    | 2 => some (a.1.minimum b.1, a.2)
    | 3 => some (if (b.1.isNan && !a.1.isNan) || a.1.lt b.1 then b else a)
    | _ => some (if (b.1.isNan && !a.1.isNan) || b.1.lt a.1 then b else a)

/-- One level of Table 7.8. -/
def redLevel (op : Nat) (isf : Bool) : List (Option (Val × Nat)) → List (Option (Val × Nat))
  | a :: b :: r => redNode op isf a b :: redLevel op isf r
  | r => r

/-- The five levels of Table 7.8. -/
def redTree (op : Nat) (isf : Bool) (l : List (Option (Val × Nat))) : Option (Val × Nat) :=
  ((List.range 5).foldl (fun l _ => redLevel op isf l) l).headD none

/-- A result as its 32-bit code (R225, Table 7.10), and whether INT32 saturation changed it (R224). -/
def redResult (op : Nat) (isf : Bool) (r : Option (Val × Nat)) : Nat × Bool :=
  match r with
  | none =>
    (match op with
      | 0 => 0
      | 1 => if isf then 0xFF800000 else 0x80000000
      | 2 => if isf then 0x7F800000 else 0x7FFFFFFF
      | _ => 0xFFFFFFFF, false)
  | some (v, i) =>
    if 3 ≤ op then (i % 2 ^ 32, false)
    else if isf then (fFP32.roundArith .rne v, false)
    else (wrapN 32 (sat32 v.toInt).1, (sat32 v.toInt).2)

/-! ### Summaries (R226) -/

/-- PRED on an element against K (R226). -/
def predOk (pred : Nat) (isf : Bool) (v k : Val) : Bool :=
  match pred with
  | 0 => true
  | 1 => !v.isNan && !v.isZero
  | 2 => k.lt v
  | 3 => k.le v
  | 4 => v.lt k
  | 5 => v.le k
  | 6 => isf && v.isNan
  | _ => isf && (v.isNan || v.isInf)

/-- A widened element as the slot's 32-bit code (Table 3.2). -/
def sumCode (isf : Bool) (v : Val) : Nat := if isf then fFP32.roundArith .rne v else wrapN 32 v.toInt

/-- The summary of a set of elements (R226). -/
def summaryOf (f : VFmt) (pred k : Nat) (codes : List Nat) : Summary :=
  let isf := f.fmt.isFloat
  let vs := codes.map f.value
  let kv := f.value k
  let nums := vs.filter fun v => !v.isNan
  let n := (vs.filter fun v => predOk pred isf v kv).length
  { max := match nums with
      | [] => if isf then 0xFF800000 else 0x80000000
      | v :: r => sumCode isf (r.foldl Val.maximum v)
    min := match nums with
      | [] => if isf then 0x7F800000 else 0x7FFFFFFF
      | v :: r => sumCode isf (r.foldl Val.minimum v)
    count := n % 2 ^ 32
    any := decide (0 < n)
    all := decide (n = codes.length)
    empty := codes.isEmpty
    fp := isf }

end Sys2Proof.Machine
end

