-- ==== Sys2Proof/Machine/Vector.lean ====
section
/-! DEFINITION. Direct instructions on pipe 0 (07): registers, the operations of Tables 7.3 and 7.5, issue and
completion. -/
namespace Sys2Proof.Machine

/-! ### Vector and tile registers (R208, R210) -/

/-- Vector register `r` as a 4,096-bit number. -/
def Engine.vr (en : Engine) (r : Nat) : Nat :=
  leNat ((List.range 512).map fun i => Sparse.get memZero en.vreg (512 * r + i))

/-- Put a 4,096-bit number into vector register `r`. -/
def Engine.setVr (en : Engine) (r v : Nat) : Engine := { en with vreg := putBytes en.vreg (512 * r) (toLE 512 v) }

/-- Element `i` (row-major) of tile register `t`. -/
def Engine.tr (en : Engine) (t i : Nat) : Nat :=
  leNat ((List.range 4).map fun k => Sparse.get memZero en.treg (4096 * t + 4 * i + k))

/-- Put element `i` of tile register `t`. -/
def Engine.setTr (en : Engine) (t i v : Nat) : Engine := { en with treg := putBytes en.treg (4096 * t + 4 * i) (toLE 4 v) }

/-- The first `n` elements of `w` bits of a register. -/
def elems (w n reg : Nat) : List Nat := (List.range n).map fun l => reg / 2 ^ (w * l) % 2 ^ w

/-- A register with its first elements replaced. -/
def packElems (w reg : Nat) (codes : List Nat) : Nat :=
  reg / 2 ^ (w * codes.length) * 2 ^ (w * codes.length) + codes.foldr (fun c a => c % 2 ^ w + 2 ^ w * a) 0

/-- n of R210 for elements of `w` bits. -/
def Engine.vn (en : Engine) (w : Nat) : Nat := min en.vl.toNat (4096 / w)

/-! ### Legality (R92, R214, Table 7.5) -/

/-- The direct instructions that write elements of VD, on which SUMEN is allowed (R214). -/
def sumAllowed (op : Nat) : Bool := decide (op ≤ 0x2A) || decide (op ∈ [0x30, 0x31, 0x35, 0x37, 0x38, 0x3A, 0x3B])

/-- The fields that trap with ILLEGAL when they hold a reserved value. -/
def directLegal (op : Nat) (f : DirectF) : Bool :=
  decide (f.rnd ≠ 3) && (!f.sumen || (f.ten && sumAllowed op)) && (decide (op ≠ 0x3B) || f.sumen)
    && (decide (op ≠ 0x33) || decide (f.vd.toNat < 8)) && (decide (op ≠ 0x3A) || decide (f.vb.toNat % 8 < 5))

/-- The direct instructions that make no use of FMT (R215). -/
def noFmt (op : Nat) : Bool := decide (op ∈ [0x33, 0x34, 0x3C, 0x3D, 0x3E])

/-! ### Effects -/

/-- What a direct instruction did: refused with a cause of Table 7.13, or done, with the bytes it writes and the codes
and format of the elements it writes to VD. -/
inductive DirOut where
  | err (s : State) (cause : Nat)
  | ok (s : State) (wrote : List (Nat × Nat)) (codes : List Nat) (sfmt : Nat)

/-- VEC_CLAMP_CNT, VEC_DROP_CNT and VEC_SAT_CNT (Table 7.14) at k = 0, 1, 2. -/
def vecCnt (e : Fin 8) (k : Nat) : Nat := key e (CTU + 0x20010 + 4 * k)

/-- Add to one of the three counts. -/
def State.vecCount (s : State) (e : Fin 8) (k n : Nat) : State := if n = 0 then s else s.countUp (vecCnt e k) n

/-- Write elements to VD. -/
def State.toVd (s : State) (e : Fin 8) (f : DirectF) (c : Nat) (codes : List Nat) : DirOut :=
  .ok (s.modEng e fun en => en.setVr f.vd.toNat (packElems (vwidth c) (en.vr f.vd.toNat) codes)) [] codes c

/-- The operations of Table 7.3 as direct instructions (R210, R211, R216). -/
def State.vecArith (s : State) (e : Fin 8) (op : Nat) (f : DirectF) : DirOut :=
  let c := f.fmt.toNat
  let sc := if op = 0x11 then f.vb.toNat % 16 else c
  match vfmt c, vfmt sc with
  | some vf, some sf =>
    let en := s.eng[e]
    let n := en.vn (max vf.width sf.width)
    let as := elems sf.width n (en.vr f.va.toNat)
    let bs := elems vf.width n (en.vr f.vb.toNat)
    let cs := elems vf.width n (en.vr f.vd.toNat)
    s.toVd e f c ((List.range n).map fun l =>
      vecAlu op vf sf (s.rnd e f.rnd.toNat ((en.srbase.toNat + l) % 2 ^ 32)) f.sat (as.getD l 0) (bs.getD l 0) (cs.getD l 0))
  | _, _ => .err s 2

/-- The scratchpad offset X[XA] + 64 × IMM of R215. -/
def dirOff (f : DirectF) (xa : Word) : Nat := (xa + 64 * f.imm.setWidth 64).toNat

/-- VBCAST. -/
def State.vBcast (s : State) (e : Fin 8) (f : DirectF) (xa : Word) : DirOut :=
  let c := f.fmt.toNat
  s.toVd e f c (List.replicate (s.eng[e].vn (vwidth c)) (xa.toNat % 2 ^ vwidth c))

/-- VLD. -/
def State.vLd (s : State) (e : Fin 8) (f : DirectF) (xa : Word) : DirOut :=
  let a := dirOff f xa
  let w := vwidth f.fmt.toNat
  if a % 64 ≠ 0 ∨ SPAD < a + 512 then .err s 3
  else match s.read (key e a) 512 with
    | (s1, none) => .err s1 5
    | (s1, some bs) => s1.toVd e f f.fmt.toNat (elems w (s.eng[e].vn w) (leNat bs))

/-- VST. -/
def State.vSt (s : State) (e : Fin 8) (f : DirectF) (xa : Word) : DirOut :=
  let a := dirOff f xa
  let w := vwidth f.fmt.toNat
  let n := s.eng[e].vn w * w / 8
  if a % 64 ≠ 0 ∨ SPAD < a + 512 then .err s 3
  else match s.write (key e a) (toLE n (s.eng[e].vr f.va.toNat)) with
    | (s1, false) => .err s1 5
    | (s1, true) => .ok s1 [(key e a, n)] [] 0

/-- VLDT. -/
def State.vLdt (s : State) (e : Fin 8) (f : DirectF) (xa : Word) : DirOut :=
  let a := dirOff f xa
  if a % 64 ≠ 0 ∨ SPAD < a + 4096 then .err s 3
  else if s.eng[e].vl = 0 then .ok s [] [] 0
  else match s.read (key e a) 4096 with
    | (s1, none) => .err s1 5
    | (s1, some bs) => .ok (s1.modEng e fun en => { en with treg := putBytes en.treg (4096 * (f.vd.toNat % 8)) bs }) [] [] 0

/-- VSTT. -/
def State.vStt (s : State) (e : Fin 8) (f : DirectF) (xa : Word) : DirOut :=
  let a := dirOff f xa
  if a % 64 ≠ 0 ∨ SPAD < a + 4096 then .err s 3
  else if s.eng[e].vl = 0 then .ok s [] [] 0
  else
    let bs := (List.range 4096).map fun i => Sparse.get memZero s.eng[e].treg (4096 * (f.va.toNat % 8) + i)
    match s.write (key e a) bs with
    | (s1, false) => .err s1 5
    | (s1, true) => .ok s1 [(key e a, 4096)] [] 0

/-- Tile element of row or column IMM[4:0], place l (Table 7.5). -/
def tilePos (f : DirectF) (l : Nat) : Nat :=
  let r := f.imm.toNat % 32
  if bit f.imm.toNat 5 then 32 * l + r else 32 * r + l

/-- VTGET. -/
def State.vTget (s : State) (e : Fin 8) (f : DirectF) : DirOut :=
  let w := vwidth f.fmt.toNat
  let en := s.eng[e]
  s.toVd e f f.fmt.toNat ((List.range (min 32 (en.vn w))).map fun l => en.tr (f.va.toNat % 8) (tilePos f l) % 2 ^ w)

/-- VTPUT. -/
def State.vTput (s : State) (e : Fin 8) (f : DirectF) : DirOut :=
  let w := vwidth f.fmt.toNat
  let en := s.eng[e]
  let xs := (elems w (min 32 (en.vn w)) (en.vr f.va.toNat)).zipIdx
  .ok (s.modEng e fun en => xs.foldl (fun en x => en.setTr (f.vd.toNat % 8) (tilePos f x.2) x.1) en) [] [] 0

/-- VPERM (R220). -/
def State.vPerm (s : State) (e : Fin 8) (f : DirectF) : DirOut :=
  let w := vwidth f.fmt.toNat
  let en := s.eng[e]
  let n := en.vn w
  let vals := elems w n (en.vr f.va.toNat)
  let idx := elems w n (en.vr f.vb.toNat)
  (s.vecCount e 0 (idx.filter fun i => decide (n ≤ i)).length).toVd e f f.fmt.toNat
    (idx.map fun i => vals.getD (min i (n - 1)) 0)

/-- Read the distinct 64-byte lines that hold the given offsets. -/
def State.checkLines (s : State) (e : Fin 8) (offs : List Nat) : State × Bool :=
  s.checkAll ((offs.map fun o => o / 64).eraseDups.map fun l => (key e (64 * l), 64))

/-- VGATHER (R221). -/
def State.vGather (s : State) (e : Fin 8) (f : DirectF) (xa : Word) : DirOut :=
  let w := vwidth f.fmt.toNat
  let en := s.eng[e]
  let a := dirOff f xa
  let bound := en.vbound.toNat
  let idx := elems 32 (min (en.vn w) 128) (en.vr f.vb.toNat)
  let offs := if bound = 0 then [] else idx.map fun i => a + min i (bound - 1) * (w / 8)
  if a % 64 ≠ 0 ∨ (offs.any fun o => decide (SPAD < o + w / 8)) then .err s 3
  else match s.checkLines e offs with
    | (s1, false) => .err s1 5
    | (s1, true) =>
      (s1.vecCount e 0 (idx.filter fun i => decide (bound ≤ i)).length).toVd e f f.fmt.toNat
        (offs.map fun o => leNat (s1.bytes (key e o) (w / 8)))

/-- Store elements in lane order: the highest lane wins (R222). -/
def State.scatter (s : State) (e : Fin 8) (n : Nat) : List (Nat × Nat) → State × Bool
  | [] => (s, true)
  | (o, v) :: r => match s.write (key e o) (toLE n v) with
    | (s1, true) => s1.scatter e n r
    | (s1, false) => (s1, false)

/-- VSCATTER (R222). -/
def State.vScatter (s : State) (e : Fin 8) (f : DirectF) (xa : Word) : DirOut :=
  let w := vwidth f.fmt.toNat
  let en := s.eng[e]
  let a := dirOff f xa
  let m := min (en.vn w) 128
  let idx := elems 32 m (en.vr f.vb.toNat)
  let pairs := (idx.zip (elems w m (en.vr f.va.toNat))).filter fun p => decide (p.1 < en.vbound.toNat)
  let sts := pairs.map fun p => (a + p.1 * (w / 8), p.2)
  if a % 64 ≠ 0 ∨ (sts.any fun x => decide (SPAD < x.1 + w / 8)) then .err s 3
  else match (s.vecCount e 1 (m - pairs.length)).scatter e (w / 8) sts with
    | (s1, false) => .err s1 5
    | (s1, true) => .ok s1 (sts.map fun x => (key e x.1, w / 8)) [] 0

/-- The positions of one row (axis 0) or column (axis 1), absent ones none. -/
def redLine (axis : Bool) (rows cols i : Nat) (at_ : Nat → Nat → Val) (base : Nat) : List (Option (Val × Nat)) :=
  (List.range 32).map fun j =>
    let r := if axis then j else i
    let c := if axis then i else j
    if r < rows ∧ c < cols then some (at_ r c, base + j) else none

/-- Results of 32-bit width: code 0 (FP32) or 7 (INT32). -/
def redFmt (op : Nat) (isf : Bool) : Nat := if isf && decide (op < 3) then 0 else 7

/-- VREDT (R223). -/
def State.vRedt (s : State) (e : Fin 8) (f : DirectF) : DirOut :=
  match vfmt f.fmt.toNat with
  | none => .err s 2
  | some vf =>
    let en := s.eng[e]
    let op := f.vb.toNat % 8
    let isf := vf.fmt.isFloat
    let rs := (List.range (min 32 en.vl.toNat)).map fun i =>
      redResult op isf (redTree op isf
        (redLine (bit f.vb.toNat 3) 32 32 i (fun r c => vf.value (en.tr (f.va.toNat % 8) (32 * r + c) % 2 ^ vf.width)) 0))
    (s.vecCount e 2 (rs.filter (·.2)).length).toVd e f (redFmt op isf) (rs.map (·.1))

/-- The effect of a direct instruction on registers, memory and counts: the FORMAT check of R209 first, then its own. -/
def State.directEffect (s : State) (e : Fin 8) (d : Direct) : DirOut :=
  let f := d.f
  let c := f.fmt.toNat
  if d.op ≤ 0x2A then
    if opFmtOk (d.op - 0x10) c (f.vb.toNat % 16) then s.vecArith e (d.op - 0x10) f else .err s 2
  else if !noFmt d.op && !plainFmt c then .err s 2
  else match d.op with
    | 0x30 => s.vBcast e f d.xa
    | 0x31 => s.vLd e f d.xa
    | 0x32 => s.vSt e f d.xa
    | 0x33 => s.vLdt e f d.xa
    | 0x34 => s.vStt e f d.xa
    | 0x35 => s.vTget e f
    | 0x36 => s.vTput e f
    | 0x37 => s.vPerm e f
    | 0x38 => s.vGather e f d.xa
    | 0x39 => s.vScatter e f d.xa
    | 0x3A => s.vRedt e f
    | 0x3B => .ok s [] (elems (vwidth c) (s.eng[e].vn (vwidth c)) (s.eng[e].vr f.va.toNat)) c
    | 0x3C => .ok (s.modEng e fun en => { en with vl := (d.xa + f.imm.setWidth 64).setWidth 32 }) [] [] 0
    | 0x3D => .ok (s.modEng e fun en => { en with vbound := (d.xa + f.imm.setWidth 64).setWidth 32 }) [] [] 0
    | _ => .ok (s.modEng e fun en => { en with srbase := d.xa.setWidth 32 + f.imm.setWidth 32 }) [] [] 0

/-! ### Starting and completing -/

/-- Status of the killed command for a vector cause (Table 7.13). -/
def vecStatus (cause : Nat) : Nat := if cause = 5 then ECC_UNCORR else if cause = 6 then SCALE_SKEW else BAD_PARAM

/-- An item of the vector unit completes in error (R229): VEC_ERR_INFO, VEC_ERR_DESC, and the kill. `unit` is 0–3 for a
pipe and 4 for Collimator. -/
def State.vecError (s : State) (e : Fin 8) (unit cause origin : Nat) (direct : Bool) : State :=
  s.unitError e (key e (CTU + 0x20000)) (cause + 512 * unit) (key e (CTU + 0x20004))
    (origin % 2 ^ 26 + 2 ^ 26 * b2n direct) (vecStatus cause)

/-- The register writes that put a summary into slot `k` (R89). -/
def summaryRegs (e : Fin 8) (k : Nat) (m : Summary) : List (Nat × Reg32) :=
  [(sumKey e k, BitVec.ofNat 32 m.max), (sumKey e k + 4, BitVec.ofNat 32 m.min), (sumKey e k + 8, BitVec.ofNat 32 m.count),
    (sumKey e k + 12, BitVec.ofNat 32 m.flags)]

/-- A direct instruction starts (R207): its registers and memory change now, its summary and its increment come at its
completion (R216). -/
def State.startDirect (s : State) (e : Fin 8) (q : Queued) (d : Direct) : State :=
  match s.directEffect e d with
  | .err s1 cause => s1.vecError e 0 cause q.origin true
  | .ok s1 wrote codes sfmt =>
    let summ := match d.f.sumen, vfmt sfmt with
      | true, some vf =>
        if d.op = 0x3B then summaryRegs e d.f.slot.toNat (summaryOf vf (d.f.vb.toNat % 8) (d.xa.toNat % 2 ^ 32) codes)
        else summaryRegs e d.f.slot.toNat (summaryOf vf 0 0 codes)
      | _, _ => []
    s1.modEng e fun en => { en with started := en.started ++
      [⟨.direct, q.id, if d.f.ten then some q.tctr else none, q.origin, [], none, wrote, 0, summ, []⟩] }

/-- Start the direct instructions that stand at the head of the pipe-0 queue (R207). -/
def State.runDirects (s : State) (e : Fin 8) : (fuel : Nat) → State
  | 0 => s
  | n + 1 =>
    match s.headOf e (.pipe 0) with
    | none => s
    | some q =>
      match q.dir with
      | none => s
      | some d => ((s.dequeue e q.id).startDirect e q d).runDirects e n

/-- Issue a direct instruction to the pipe-0 queue (R206, R207); a full queue stalls it. -/
def State.issueDirect (s : State) (e : Fin 8) (op : Nat) (f : DirectF) : State :=
  if s.room e (.pipe 0) = false then s.seqWait e (.direct op f)
  else
    (s.modEng e fun en => { en with
      queue := en.queue ++ [⟨.pipe 0, en.nextId, f.tctr, en.pc.toNat, [], some ⟨op, f, en.rx f.xa⟩⟩]
      nextId := en.nextId + 1
      state := .running
      wait := .none
      pc := en.pc + 8 }).runDirects e 17

/-- One direct instruction of the sequencer: legality (R92, R214), then its issue. -/
def directInstr (op : Nat) (e : Fin 8) (f : DirectF) (s : State) : Out :=
  onSeq (0xC0 + op) s e (directLegal op f) fun s1 => s1.issueDirect e op f

/-- A stalled ISSUE or direct instruction proceeds once its queue has room (R98); without one nothing happens. -/
def execIssueStallRelease (e : Fin 8) (s : State) : Out :=
  match s.eng[e].state, s.eng[e].wait with
  | .waiting, .issue cls f => .next (s.issue e cls f)
  | .waiting, .direct op f => .next (s.issueDirect e op f)
  | _, _ => .next s

/-- The latency of the k-th direct instruction in progress ends: its summary and its increment (R216). -/
def execDirectInstrComplete (e : Fin 8) (k : BitVec 6) (s : State) : Out :=
  match (s.eng[e].started.filter fun d => decide (d.q = .direct))[k.toNat]? with
  | some d => .next (s.completeDesc e d)
  | none => .next s

/-- Direct ADD (R211). -/
def execVecAdd (e : Fin 8) (f : DirectF) (s : State) : Out := directInstr 0x10 e f s

/-- Direct SUB (R211). -/
def execVecSub (e : Fin 8) (f : DirectF) (s : State) : Out := directInstr 0x11 e f s

/-- Direct MUL (R211). -/
def execVecMul (e : Fin 8) (f : DirectF) (s : State) : Out := directInstr 0x12 e f s

/-- Direct FMA (R211). -/
def execVecFma (e : Fin 8) (f : DirectF) (s : State) : Out := directInstr 0x13 e f s

/-- Direct MIN (R211). -/
def execVecMin (e : Fin 8) (f : DirectF) (s : State) : Out := directInstr 0x14 e f s

/-- Direct MAX (R211). -/
def execVecMax (e : Fin 8) (f : DirectF) (s : State) : Out := directInstr 0x15 e f s

/-- Direct ABS (R211). -/
def execVecAbs (e : Fin 8) (f : DirectF) (s : State) : Out := directInstr 0x16 e f s

/-- Direct NEG (R211). -/
def execVecNeg (e : Fin 8) (f : DirectF) (s : State) : Out := directInstr 0x17 e f s

/-- Direct CEQ (R211). -/
def execVecCeq (e : Fin 8) (f : DirectF) (s : State) : Out := directInstr 0x18 e f s

/-- Direct CLT (R211). -/
def execVecClt (e : Fin 8) (f : DirectF) (s : State) : Out := directInstr 0x19 e f s

/-- Direct CLE (R211). -/
def execVecCle (e : Fin 8) (f : DirectF) (s : State) : Out := directInstr 0x1A e f s

/-- Direct SEL (R211). -/
def execVecSel (e : Fin 8) (f : DirectF) (s : State) : Out := directInstr 0x1B e f s

/-- Direct AND (R211). -/
def execVecAnd (e : Fin 8) (f : DirectF) (s : State) : Out := directInstr 0x1C e f s

/-- Direct OR (R211). -/
def execVecOr (e : Fin 8) (f : DirectF) (s : State) : Out := directInstr 0x1D e f s

/-- Direct XOR (R211). -/
def execVecXor (e : Fin 8) (f : DirectF) (s : State) : Out := directInstr 0x1E e f s

/-- Direct SHL (R211). -/
def execVecShl (e : Fin 8) (f : DirectF) (s : State) : Out := directInstr 0x1F e f s

/-- Direct SHR (R211). -/
def execVecShr (e : Fin 8) (f : DirectF) (s : State) : Out := directInstr 0x20 e f s

/-- Direct CVT (R142, R143). -/
def execCvt (e : Fin 8) (f : DirectF) (s : State) : Out := directInstr 0x21 e f s

/-- Direct SCALB (R211). -/
def execScalb (e : Fin 8) (f : DirectF) (s : State) : Out := directInstr 0x22 e f s

/-- Direct RECIP (R219). -/
def execRecip (e : Fin 8) (f : DirectF) (s : State) : Out := directInstr 0x23 e f s

/-- Direct RSQRT (R219). -/
def execRsqrt (e : Fin 8) (f : DirectF) (s : State) : Out := directInstr 0x24 e f s

/-- Direct SQRT (R219). -/
def execSqrt (e : Fin 8) (f : DirectF) (s : State) : Out := directInstr 0x25 e f s

/-- Direct EXP (R219). -/
def execExp (e : Fin 8) (f : DirectF) (s : State) : Out := directInstr 0x26 e f s

/-- Direct LOG (R219). -/
def execLog (e : Fin 8) (f : DirectF) (s : State) : Out := directInstr 0x27 e f s

/-- Direct SIN (R219). -/
def execSin (e : Fin 8) (f : DirectF) (s : State) : Out := directInstr 0x28 e f s

/-- Direct COS (R219). -/
def execCos (e : Fin 8) (f : DirectF) (s : State) : Out := directInstr 0x29 e f s

/-- Direct ATAN2 (R219). -/
def execAtan2 (e : Fin 8) (f : DirectF) (s : State) : Out := directInstr 0x2A e f s

/-- VBCAST (R215). -/
def execVbcast (e : Fin 8) (f : DirectF) (s : State) : Out := directInstr 0x30 e f s

/-- VLD (R215). -/
def execVld (e : Fin 8) (f : DirectF) (s : State) : Out := directInstr 0x31 e f s

/-- VST (R215). -/
def execVst (e : Fin 8) (f : DirectF) (s : State) : Out := directInstr 0x32 e f s

/-- VLDT (R215). -/
def execVldt (e : Fin 8) (f : DirectF) (s : State) : Out := directInstr 0x33 e f s

/-- VSTT (R215). -/
def execVstt (e : Fin 8) (f : DirectF) (s : State) : Out := directInstr 0x34 e f s

/-- VTGET (R215). -/
def execVtget (e : Fin 8) (f : DirectF) (s : State) : Out := directInstr 0x35 e f s

/-- VTPUT (R215). -/
def execVtput (e : Fin 8) (f : DirectF) (s : State) : Out := directInstr 0x36 e f s

/-- VPERM (R220). -/
def execVperm (e : Fin 8) (f : DirectF) (s : State) : Out := directInstr 0x37 e f s

/-- VGATHER (R221). -/
def execVgather (e : Fin 8) (f : DirectF) (s : State) : Out := directInstr 0x38 e f s

/-- VSCATTER (R222). -/
def execVscatter (e : Fin 8) (f : DirectF) (s : State) : Out := directInstr 0x39 e f s

/-- VREDT (R223). -/
def execVredt (e : Fin 8) (f : DirectF) (s : State) : Out := directInstr 0x3A e f s

/-- VSUMM (R226). -/
def execVsumm (e : Fin 8) (f : DirectF) (s : State) : Out := directInstr 0x3B e f s

/-- VSETVL (R215). -/
def execVsetvl (e : Fin 8) (f : DirectF) (s : State) : Out := directInstr 0x3C e f s

/-- VSETBND (R215). -/
def execVsetbnd (e : Fin 8) (f : DirectF) (s : State) : Out := directInstr 0x3D e f s

/-- VSETSR (R215). -/
def execVsetsr (e : Fin 8) (f : DirectF) (s : State) : Out := directInstr 0x3E e f s

end Sys2Proof.Machine
end

