-- ==== Sys2Proof/Machine/VecDesc.lean ====
section
/-! DEFINITION. Pipe and Collimator descriptors (07): element programs, reductions, the quantise kinds, CRC, SUM64, FILL
and COMPARE. -/
namespace Sys2Proof.Machine

/-! ### Starting and ending an item -/

/-- How a descriptor's run ended: in error with a cause of Table 7.13, or to be completed. -/
inductive DescOut where
  | err (s : State) (cause : Nat)
  | ok (s : State) (wrote : List (Nat × Nat)) (result : List (Nat × Reg32)) (stores : List (Nat × List Byte))

/-- Start the descriptor at the head of queue `q` of unit `u` (0–3 pipe, 4 Collimator) when its kind is `kind` and its
operand tokens are present (R99, R206); a kind that the queue does not execute ends it in error with KIND. -/
def State.startVec (s : State) (e : Fin 8) (q : EngQ) (u : Nat) (kinds : List Nat) (kind : Nat)
    (k : State → Queued → DescOut) : State :=
  match s.headOf e q with
  | none => s
  | some d =>
    let kd := fieldLE d.desc 0 1 % 16
    if d.dir.isSome ∨ s.tokensOk e d.desc = false then s
    else if kd ∉ kinds then ((s.dequeue e d.id).vecError e u 1 d.origin false).runDirects e 17
    else if kd ≠ kind then s
    else
      match k (s.dequeue e d.id) d with
      | .err s1 c => (s1.vecError e u c d.origin false).runDirects e 17
      | .ok s1 wrote result stores =>
        (s1.modEng e fun en => { en with started := en.started ++
          [⟨d.q, d.id, some d.tctr, d.origin, d.desc, none, wrote, 0, result, stores⟩] }).runDirects e 17

/-- The kinds that pipes and Collimator execute (R206, R228). -/
def pipeKinds : List Nat := [1, 2, 3, 4, 5, 6]
def colKinds : List Nat := [2, 8, 9, 10, 11]

/-- The four register writes of a descriptor's summary, when SUMEN is set (Table 7.9, byte 5). -/
def descSummary (e : Fin 8) (desc : List Byte) (vf : VFmt) (codes : List Nat) : List (Nat × Reg32) :=
  let b := fieldLE desc 5 1
  if bit b 3 then summaryRegs e (b % 8) (summaryOf vf (b / 16 % 8) (fieldLE desc 40 4) codes) else []

/-- [off, off + n) is a tensor of the scratchpad at a multiple of 64. -/
def inPad (off n : Nat) : Bool := decide (off % 64 = 0) && decide (off + n ≤ SPAD)

/-! ### Element programs (R217, R218) -/

/-- An operation of a program (Table 7.6). -/
structure EpOp where
  opc : Nat
  dst : Nat
  sa : Nat
  sb : Nat
  sc : Nat
  fmt : Nat
  rnd : Nat
  deriving DecidableEq, Repr

def EpOp.parse (w : Nat) : EpOp :=
  ⟨bits w 31 26, bits w 25 21, bits w 20 16, bits w 15 11, bits w 10 6, bits w 5 2, w % 4⟩

/-- Operands of an operation: 1, 2 or 3 (Table 7.3). -/
def epArity (op : Nat) : Nat :=
  if op = 3 ∨ op = 0xB then 3
  else if op ∈ [6, 7, 0x11, 0x13, 0x14, 0x15, 0x16, 0x17, 0x18, 0x19] then 1
  else 2

/-- An operand code of Table 7.6. -/
def epCode (c : Nat) : Bool := decide (c < 0x16) || (decide (0x18 ≤ c) && decide (c < 0x20))

/-- A format wider than a lane (R218); code 0xF is judged as FORMAT. -/
def tooWide (lane c : Nat) : Bool := decide (c ≠ 0xF) && decide (lane < vwidth c)

/-- The PROG checks of one operation (R218). -/
def EpOp.ok (o : EpOp) (lane : Nat) : Bool :=
  decide (o.opc ≤ 0x1A) && decide (o.rnd ≠ 3) && (decide (o.dst < 16) || decide (o.dst = 0x14) || decide (o.dst = 0x15))
    && epCode o.sa
    && (if o.opc = 0x11 then decide (o.sb < 16) && !tooWide lane o.sb
        else if 2 ≤ epArity o.opc then epCode o.sb else decide (o.sb = 0))
    && (if epArity o.opc = 3 then epCode o.sc else decide (o.sc = 0))
    && !tooWide lane o.fmt

/-- A program descriptor and its image. -/
structure Prog where
  lane : Nat
  sat : Bool
  ops : List EpOp
  consts : List Nat
  fin : List Nat
  fout : List Nat
  ins : List Nat
  outs : List Nat
  count : Nat
  srbase : Nat
  deriving DecidableEq, Repr

/-- The registers of an element: T0–T15, I0–I3, O0–O1, two unused codes, K0–K7 (Table 7.6). -/
def Prog.regs (p : Prog) (inputs : List Nat) : List Nat :=
  List.replicate 16 0 ++ (inputs ++ List.replicate 4 0).take 4 ++ List.replicate 4 0 ++ p.consts

/-- Run the operations on one element's registers (R218, step 3). -/
def State.runEp (s : State) (e : Fin 8) (p : Prog) (el : Nat) (regs : List Nat) : List Nat :=
  p.ops.zipIdx.foldl (fun r x =>
    let o := x.1
    match vfmt o.fmt, vfmt (if o.opc = 0x11 then o.sb else o.fmt) with
    | some vf, some sf =>
      r.set o.dst (vecAlu o.opc vf sf (s.rnd e o.rnd ((p.srbase + 64 * el + x.2) % 2 ^ 32)) p.sat
        (r.getD o.sa 0) (if o.opc = 0x11 then 0 else r.getD o.sb 0) (r.getD o.sc 0) % 2 ^ p.lane)
    | _, _ => r) regs

/-- Read element `el` of width `w` of the tensor at `off`. -/
def State.readElem (s : State) (e : Fin 8) (off w el : Nat) : State × Option Nat :=
  match s.read (key e (off + el * w / 8)) (if w = 4 then 1 else w / 8) with
  | (s1, none) => (s1, none)
  | (s1, some bs) => (s1, some (if w = 4 then leNat bs / 16 ^ (el % 2) % 16 else leNat bs))

/-- Write element `el` of width `w` of the tensor at `off`; a 4-bit element leaves its byte's other half alone. -/
def State.writeElem (s : State) (e : Fin 8) (off w el v : Nat) : State × Bool :=
  let a := key e (off + el * w / 8)
  if w = 4 then
    let old := (s.byte a).toNat
    let lo := 4 * (el % 2)
    s.write a (toLE 1 (setBits old (lo + 3) lo v))
  else s.write a (toLE (w / 8) v)

/-- Read the inputs of an element. -/
def State.readIns (s : State) (e : Fin 8) (el : Nat) : List (Nat × Nat) → State × Option (List Nat)
  | [] => (s, some [])
  | (off, f) :: r =>
    match s.readElem e off (vwidth f) el with
    | (s1, none) => (s1, none)
    | (s1, some v) => match s1.readIns e el r with
      | (s2, none) => (s2, none)
      | (s2, some vs) => (s2, some (v :: vs))

/-- Write the outputs of an element. -/
def State.writeOuts (s : State) (e : Fin 8) (el : Nat) : List ((Nat × Nat) × Nat) → State × Bool
  | [] => (s, true)
  | ((off, f), v) :: r =>
    match s.writeElem e off (vwidth f) el v with
    | (s1, false) => (s1, false)
    | (s1, true) => s1.writeOuts e el r

/-- The elements from `el` on, in order (R218): the state, whether it ended without an error, and the O0 values. -/
def State.runElems (s : State) (e : Fin 8) (p : Prog) : (fuel : Nat) → (el : Nat) → State × Bool × List Nat
  | 0, _ => (s, true, [])
  | n + 1, el =>
    match s.readIns e el (p.ins.zip p.fin) with
    | (s1, none) => (s1, false, [])
    | (s1, some vs) =>
      let r := s1.runEp e p el (p.regs vs)
      match s1.writeOuts e el ((p.outs.zip p.fout).zipIdx.map fun x => (x.1, r.getD (0x14 + x.2) 0)) with
      | (s2, false) => (s2, false, [])
      | (s2, true) =>
        let t := s2.runElems e p n (el + 1)
        (t.1, t.2.1, r.getD 0x14 0 :: t.2.2)

/-- Bytes of a tensor of `n` elements of format `c`. -/
def tensorBytes (n c : Nat) : Nat := ceilDiv (n * vwidth c) 8

/-- An element program (R217, R218): FORMAT of its tensors, the place of its image, PROG, FORMAT of its operations, RANGE
of its tensors, then its elements in order. -/
def State.runProg (e : Fin 8) (s : State) (d : Queued) : DescOut :=
  let b := d.desc
  let b1 := fieldLE b 1 1
  let nin := b1 % 8
  let nout := b1 / 8 % 4
  let fin := (List.range (min nin 4)).map fun i => fieldLE b 2 2 / 16 ^ i % 16
  let fout := (List.range (min nout 2)).map fun i => fieldLE b 4 1 / 16 ^ i % 16
  let of0 := fieldLE b 4 1 % 16
  let paddr := d26 b 8
  if (fin ++ fout).contains 0xF ∨ (bit (fieldLE b 5 1) 3 ∧ !plainFmt of0) then .err s 2
  else if inPad paddr 64 = false then .err s 3
  else match s.read (key e paddr) 64 with
    | (s1, none) => .err s1 5
    | (s1, some h) =>
      let nops := fieldLE h 0 1
      let lane := 32 / 2 ^ (fieldLE h 1 1 % 4)
      if nops = 0 ∨ 48 < nops ∨ 3 ≤ fieldLE h 1 1 ∨ 4 < nin ∨ nout = 3 then .err s1 4
      else if inPad paddr (64 + 4 * nops) = false then .err s1 3
      else match s1.read (key e (paddr + 64)) (4 * nops) with
        | (s2, none) => .err s2 5
        | (s2, some ob) =>
          let ops := (List.range nops).map fun i => EpOp.parse (fieldLE ob (4 * i) 4)
          let p : Prog := {
            lane := lane, sat := bit (fieldLE h 2 1) 0, ops := ops
            consts := (List.range 8).map fun i => fieldLE h (8 + 4 * i) 4 % 2 ^ lane
            fin := fin, fout := fout
            ins := (List.range nin).map fun i => d26 b (16 + 4 * i)
            outs := (List.range nout).map fun i => d26 b (32 + 4 * i)
            count := d26 b 12, srbase := fieldLE b 44 4 }
          if (ops.all fun o => o.ok lane) = false ∨ (fin ++ fout).any (tooWide lane) then .err s2 4
          else if (ops.all fun o => opFmtOk o.opc o.fmt o.sb) = false then .err s2 2
          else if ((p.ins.zip fin ++ p.outs.zip fout).all fun x => inPad x.1 (tensorBytes p.count x.2)) = false then .err s2 3
          else
            let wrote := (p.outs.zip fout).map fun x => (key e x.1, tensorBytes p.count x.2)
            match s2.runElems e p p.count 0 with
            | (s3, false, _) => .err s3 5
            | (s3, true, o0) => .ok s3 wrote (match vfmt of0 with
              | some vf => descSummary e b vf o0
              | none => []) []

/-- The element program at the head of pipe p's queue starts (R218). -/
def execElementProgram (e : Fin 8) (p : Fin 4) (s : State) : Out :=
  .next (s.startVec e (.pipe p.val) p.val pipeKinds 1 (State.runProg e))

/-! ### REDUCE (R223 to R225) -/

/-- Element (r, c) of tile t, each stored row-major at `saddr`. -/
def State.redElem (s : State) (e : Fin 8) (saddr : Nat) (vf : VFmt) (t r c : Nat) : Nat :=
  leNat (s.bytes (key e (saddr + (t * 1024 + 32 * r + c) * (vf.width / 8))) (vf.width / 8))

/-- REDUCE (R225): FORMAT and RANGE, then tiles in ascending order, FULL, saturation. -/
def State.runReduce (e : Fin 8) (s : State) (d : Queued) : DescOut :=
  let b := d.desc
  let c := fieldLE b 0 1 / 16
  let b1 := fieldLE b 1 1
  let op := b1 % 8
  let axis := bit b1 3
  let full := bit b1 4
  let rlen := fieldLE b 2 1 % 64
  let clen := fieldLE b 3 1 % 64
  let nt := fieldLE b 6 2
  let sa := d26 b 8
  let da := d26 b 12
  if plainFmt c = false ∨ 4 < op then .err s 2
  else match vfmt c with
    | none => .err s 2
    | some vf =>
      let n := nt * 1024 * (vf.width / 8)
      let outN := if nt = 0 then 0 else if full then 4 else 128
      if 32 < rlen ∨ 32 < clen ∨ inPad sa n = false ∨ inPad da outN = false then .err s 3
      else match s.check (key e sa) n with
        | (s1, false) => .err s1 5
        | (s1, true) =>
          let isf := vf.fmt.isFloat
          let lines := fun t => (List.range 32).map fun i =>
            redTree op isf (redLine axis rlen clen i (fun r c => vf.value (s1.redElem e sa vf t r c)) (32 * t))
          let acc := (List.range nt).foldl (fun a t => (a.zip (lines t)).map fun x => redNode op isf x.1 x.2)
            (List.replicate 32 none)
          let rs := (if full then [redTree op isf acc] else acc).map (redResult op isf)
          let codes := (List.range nt).flatMap fun t => (List.range rlen).flatMap fun r =>
            (List.range clen).map fun c => s1.redElem e sa vf t r c
          let summ := descSummary e b vf codes
          if nt = 0 then .ok s1 [] summ []
          else match (s1.vecCount e 2 (rs.filter (·.2)).length).write (key e da) (rs.flatMap fun x => toLE 4 x.1) with
            | (s2, false) => .err s2 5
            | (s2, true) => .ok s2 [(key e da, outN)] summ []

/-- REDUCE on a pipe (p = 0–3) or on Collimator (p = 4) (R225, R228). -/
def execReduce (e : Fin 8) (p : Fin 5) (s : State) : Out :=
  .next (if p.val = 4 then s.startVec e .col 4 colKinds 2 (State.runReduce e)
    else s.startVec e (.pipe p.val) p.val pipeKinds 2 (State.runReduce e))

/-! ### Quantise and dequantise (R189 to R197, R227) -/

/-- A quantise descriptor (Table 7.11). -/
structure QntD where
  kind : Nat
  vf : Nat
  rnd : Nat
  skind : Nat
  efmt : Nat
  asym : Bool
  base : Nat
  count : Nat
  src : Nat
  ddata : Nat
  dscale : Nat
  chlen : Nat
  alpha : Nat
  beta : Nat
  srbase : Nat
  deriving DecidableEq, Repr

def QntD.parse (b : List Byte) : QntD :=
  let b0 := fieldLE b 0 1
  let b1 := fieldLE b 1 1
  { kind := b0 % 16, vf := b0 / 16, rnd := b1 % 4, skind := b1 / 4 % 2, efmt := b1 / 8 % 4, asym := bit b1 5
    base := fieldLE b 2 2, count := d26 b 4, src := d26 b 8, ddata := d26 b 12, dscale := d26 b 16, chlen := d26 b 20
    alpha := fieldLE b 24 4, beta := fieldLE b 28 4, srbase := fieldLE b 44 4 }

/-- The refusals of Table 7.11 with FORMAT (R227). -/
def QntD.formatOk (q : QntD) : Bool :=
  decide (q.vf < 3) && (decide (q.kind ≠ 6) || decide (q.vf = 0)) && (decide (q.rnd = 0) || decide (q.rnd = 2))
    && (decide (q.kind = 4) || (decide (q.efmt < 3) && (decide (q.skind = 0) || decide (q.efmt = 0))))

def QntD.vsize (q : QntD) : Nat := vwidth q.vf / 8
def QntD.blocks (q : QntD) : Nat := ceilDiv q.count 1024
def QntD.blockBytes (q : QntD) : Nat := if q.efmt = 0 then 512 else 1024

/-- The tensors of a descriptor: wide side, narrow data, records. -/
def QntD.spans (q : QntD) : List (Nat × Nat) :=
  if q.kind = 4 then [(q.src, q.count * q.chlen * q.vsize), (q.ddata, q.count * q.chlen), (q.dscale, 8 * q.count)]
  else [(q.src, q.count * q.vsize), (q.ddata, q.blocks * q.blockBytes), (q.dscale, q.blocks * recBytes q.skind)]

/-- What a kill leaves undefined (R230). -/
def QntD.wrote (q : QntD) (e : Fin 8) : List (Nat × Nat) :=
  ((if q.kind = 5 then q.spans.take 1 else q.spans.drop 1)).map fun x => (key e x.1, x.2)

/-- Quantise the elements of one block (R189, R190): its data bytes, its scale codes, and the counts. `e0` is the index
of its first element. -/
def State.bqBlock (s : State) (e : Fin 8) (q : QntD) (e0 : Nat) (vs : List Val) : State × List Byte × List Nat :=
  let g := groupSize q.skind
  let groups := (chunks g vs).zipIdx
  let res := groups.map fun x =>
    let sc := scaleCode q.skind q.efmt x.1
    let bad := x.1.any fun v => v.isNan || v.isInf
    let sv := if q.skind = 1 then ue4m3Val sc else e8m0Val sc
    (sc, bad, x.1.zipIdx.map fun v =>
      if bad then (0, false, false)
      else encElem q.efmt (s.rnd e q.rnd ((q.srbase + e0 + x.2 * g + v.2) % 2 ^ 32)) v.1 sv)
  let all := res.flatMap fun x => x.2.2
  let codes := all.map (·.1) ++ List.replicate (1024 - all.length) 0
  let data := if q.efmt = 0 then (chunks 2 codes).map fun c => BitVec.ofNat 8 (c.getD 0 0 + 16 * c.getD 1 0)
    else codes.map (BitVec.ofNat 8)
  let s1 := s.qntCount e 0 (all.filter fun x => x.2.2).length
  let s2 := s1.qntCount e 1 (all.filter fun x => x.2.1).length
  let s3 := s2.qntCount e 3 (res.filter fun x => x.2.1).length
  (s3, data, res.map (·.1))

/-- A scale record (Table 6.1). -/
def mkRecord (seq kind elem : Nat) (scales : List Nat) : List Byte :=
  (toLE 2 seq ++ toLE 1 kind ++ toLE 1 elem ++ toLE 2 scales.length ++ List.replicate 10 0 ++ scales.map (BitVec.ofNat 8)
    ++ List.replicate (recBytes kind) 0).take (recBytes kind)

/-- Dequantise `n` elements of a block exactly (R118, R123, R180). -/
def dqBlock (q : QntD) (data r : List Byte) (n : Nat) : List Val :=
  (List.range n).map fun i =>
    let code := if q.efmt = 0 then fieldLE data (i / 2) 1 / 16 ^ (i % 2) % 16 else fieldLE data i 1
    scaled (recScale q.skind r (i / groupSize q.skind)) ((elemFmt q.efmt).decode code)

/-- Write one quantised block and its record (R181). -/
def State.putBlock (s : State) (e : Fin 8) (q : QntD) (b : Nat) (data : List Byte) (scales : List Nat) : State × Bool :=
  match s.write (key e (q.ddata + b * q.blockBytes)) data with
  | (s1, false) => (s1, false)
  | (s1, true) =>
    s1.write (key e (q.dscale + b * recBytes q.skind)) (mkRecord ((q.base + b) % 2 ^ 16) q.skind q.efmt scales)

/-- Value of wide-side bytes. -/
def wideVals (q : QntD) (bs : List Byte) (n : Nat) : List Val :=
  (List.range n).map fun i => ((vfmt q.vf).map fun f => f.value (fieldLE bs (i * q.vsize) q.vsize)).getD .nan

/-- Read and check record `b` of a descriptor (R187, Table 6.2); the skew is recorded under R188 with the pipe. -/
def State.readRecord (s : State) (e : Fin 8) (pipe : Nat) (q : QntD) (b : Nat) : State × Option Nat × List Byte :=
  match s.read (key e (q.dscale + b * recBytes q.skind)) (recBytes q.skind) with
  | (s1, none) => (s1, some 5, [])
  | (s1, some r) =>
    let seq := (q.base + b) % 2 ^ 16
    if recOk r seq q.skind q.efmt then (s1, none, r) else (s1.recordSkew e 4 0 pipe seq (recSeq r), some 6, [])

/-- One block of BQUANT, DEQUANT or QACC: an error cause, if it stops here. -/
def State.qntBlock (s : State) (e : Fin 8) (pipe : Nat) (q : QntD) (b : Nat) : State × Option Nat :=
  let n := min 1024 (q.count - 1024 * b)
  if q.kind = 3 then
    match s.read (key e (q.src + 1024 * b * q.vsize)) (n * q.vsize) with
    | (s1, none) => (s1, some 5)
    | (s1, some bs) =>
      let r := s1.bqBlock e q (1024 * b) (wideVals q bs n)
      match r.1.putBlock e q b r.2.1 r.2.2 with
      | (s2, ok) => (s2, if ok then none else some 5)
  else match s.readRecord e pipe q b with
    | (s1, some c, _) => (s1, some c)
    | (s1, none, rc) =>
      match s1.read (key e (q.ddata + b * q.blockBytes)) q.blockBytes with
      | (s2, none) => (s2, some 5)
      | (s2, some data) =>
        let vs := dqBlock q data rc n
        if q.kind = 5 then
          match vfmt q.vf with
          | none => (s2, none)
          | some f =>
            let out := vs.zipIdx.flatMap fun x =>
              toLE q.vsize (f.enc (s2.rnd e q.rnd ((q.srbase + 1024 * b + x.2) % 2 ^ 32)) false x.1)
            match s2.write (key e (q.src + 1024 * b * q.vsize)) out with
            | (s3, ok) => (s3, if ok then none else some 5)
        else match s2.read (key e (q.src + 4096 * b)) (4 * n) with
          | (s3, none) => (s3, some 5)
          | (s3, some ab) =>
            let ws := vs.zipIdx.map fun x =>
              let dc := (fFP32.convert .rne false x.1).1
              f32 (fadd (fmul q.alpha dc) (fmul q.beta (fieldLE ab (4 * x.2) 4)))
            let r := s3.bqBlock e q (1024 * b) ws
            match r.1.putBlock e q b r.2.1 r.2.2 with
            | (s4, ok) => (s4, if ok then none else some 5)

/-- The blocks (or channels) in order, stopping at the first error (R229). -/
def qntLoop (step : State → Nat → State × Option Nat) (s : State) : (fuel : Nat) → (i : Nat) → State × Option Nat
  | 0, _ => (s, none)
  | n + 1, i =>
    match step s i with
    | (s1, none) => qntLoop step s1 n (i + 1)
    | r => r

/-- x × DIV / FULL, exact enough for one rounding to an integer (64 places and a sticky bit). -/
def chQuot (x full : Val) (dv : Nat) : Val := divScale (x.mul (Val.ofInt dv)) full

/-- A magnitude rounded to FP32 toward +∞ (R194). -/
def fp32Up (v : Val) : Nat :=
  let c := fFP32.roundArith .rtz v
  if (f32 c).lt v then c + 1 else c

/-- The record and codes of a channel (R193 to R197): FULL, DIV, ZP, codes, and which count it adds to. -/
def State.cqChannel (s : State) (e : Fin 8) (q : QntD) (e0 : Nat) (vs : List Val) : State × Nat × Nat × Int × List Int :=
  match vs with
  | [] => (s, 0x42FE0000, 127, 0, [])
  | v0 :: r =>
    if vs.any fun v => v.isNan || v.isInf then (s.qntCount e 3 1, 0x7FC00000, 127, 0, vs.map fun _ => 0)
    else
      let lo := r.foldl (fun a v => if v.lt a then v else a) v0
      let hi := r.foldl (fun a v => if a.lt v then v else a) v0
      if lo.eq hi then
        let s1 := s.qntCount e 2 1
        if lo.isZero then (s1, 0x42FE0000, 127, 0, vs.map fun _ => 0)
        else (s1, fFP32.roundArith .rne lo.abs, 127, 0, vs.map fun v => if v.neg? then -127 else 127)
      else
        let zero : Val := .fin false 0 0
        let lo' := if zero.lt lo then zero else lo
        let hi' := if hi.lt zero then zero else hi
        let full := if q.asym then fp32Up (hi'.add lo'.negate)
          else fFP32.roundArith .rne (if lo.abs.lt hi.abs then hi.abs else lo.abs)
        let dv := if q.asym then 255 else 127
        let rnd := fun (m : Rnd) (v : Val) => if (f32 full).isInf then (0 : Int) else (convertInt 32 m (chQuot v (f32 full) dv)).1
        let zp : Int := if q.asym then -128 - rnd .rne lo' else 0
        let qs := vs.zipIdx.map fun x => rnd (s.rnd e q.rnd ((q.srbase + e0 + x.2) % 2 ^ 32)) x.1 + zp
        let cs := qs.map fun x => if x < -128 then -128 else if 127 < x then 127 else x
        (s.qntCount e 1 ((qs.zip cs).filter fun x => decide (x.1 ≠ x.2)).length, full, dv, zp, cs)

/-- One channel of CQUANT (R227). -/
def State.cqStep (s : State) (e : Fin 8) (q : QntD) (i : Nat) : State × Option Nat :=
  match s.read (key e (q.src + i * q.chlen * q.vsize)) (q.chlen * q.vsize) with
  | (s1, none) => (s1, some 5)
  | (s1, some bs) =>
    let (s2, full, dv, zp, cs) := s1.cqChannel e q (i * q.chlen) (wideVals q bs q.chlen)
    match s2.write (key e (q.ddata + i * q.chlen)) (cs.map fun c => BitVec.ofInt 8 c) with
    | (s3, false) => (s3, some 5)
    | (s3, true) =>
      match s3.write (key e (q.dscale + 8 * i)) (toLE 4 full ++ toLE 1 dv ++ toLE 1 (wrapN 8 zp) ++ toLE 2 0) with
      | (s4, ok) => (s4, if ok then none else some 5)

/-- A descriptor of Table 7.11 (R227). -/
def State.runQnt (e : Fin 8) (pipe : Nat) (s : State) (d : Queued) : DescOut :=
  let q := QntD.parse d.desc
  if q.formatOk = false then .err s 2
  else if (q.spans.all fun x => inPad x.1 x.2) = false then .err s 3
  else
    match (if q.kind = 4 then qntLoop (fun t i => t.cqStep e q i) s q.count 0
      else qntLoop (fun t b => t.qntBlock e pipe q b) s q.blocks 0) with
    | (s1, some c) => .err s1 c
    | (s1, none) => .ok s1 (q.wrote e) [] []

/-- BQUANT (R227). -/
def execBquant (e : Fin 8) (p : Fin 4) (s : State) : Out :=
  .next (s.startVec e (.pipe p.val) p.val pipeKinds 3 (State.runQnt e p.val))

/-- CQUANT (R227). -/
def execCquant (e : Fin 8) (p : Fin 4) (s : State) : Out :=
  .next (s.startVec e (.pipe p.val) p.val pipeKinds 4 (State.runQnt e p.val))

/-- DEQUANT (R227). -/
def execDequant (e : Fin 8) (p : Fin 4) (s : State) : Out :=
  .next (s.startVec e (.pipe p.val) p.val pipeKinds 5 (State.runQnt e p.val))

/-- QACC (R227). -/
def execQacc (e : Fin 8) (p : Fin 4) (s : State) : Out :=
  .next (s.startVec e (.pipe p.val) p.val pipeKinds 6 (State.runQnt e p.val))

/-- The k-th started descriptor of a queue. -/
def State.startedOn (s : State) (e : Fin 8) (q : EngQ) (k : Nat) : Option Started :=
  (s.eng[e].started.filter fun d => decide (d.q = q))[k]?

/-- The k-th descriptor in progress on pipe p ends: its summary and its increment (R89, R99). -/
def execVectorDescComplete (e : Fin 8) (p : Fin 4) (k : BitVec 6) (s : State) : Out :=
  match s.startedOn e (.pipe p.val) k.toNat with
  | some d => .next (s.completeDesc e d)
  | none => .next s

/-! ### Collimator (R228) -/

/-- Collimator's view of its engine: the scratchpad and the accumulator memory, whole. -/
def colRange (a n : Nat) : Bool :=
  decide (a + n ≤ SPAD) || (decide (0x10000000 ≤ a) && decide (a + n ≤ 0x10800000))

/-- The reflected CRC-32C step for one bit. -/
def crc32cBit (c : Nat) : Nat := if c % 2 = 1 then c / 2 ^^^ 0x82F63B78 else c / 2

/-- CRC-32C of bytes (Table 7.12). -/
def crc32c (bs : List Byte) : Nat :=
  bs.foldl (fun c b => (List.range 8).foldl (fun c _ => crc32cBit c) (c ^^^ b.toNat)) 0xFFFFFFFF ^^^ 0xFFFFFFFF

/-- The little-endian 64-bit words of bytes. -/
def words64 (bs : List Byte) : List Nat := (chunks 8 bs).map leNat

/-- VEC_COL_LO, VEC_COL_HI, VEC_COL_STATUS, VEC_COL_MISS (Table 7.14). -/
def colLo (e : Fin 8) : Nat := key e (CTU + 0x20020)
def colStatus (e : Fin 8) : Nat := key e (CTU + 0x20028)
def colMiss (e : Fin 8) : Nat := key e (CTU + 0x2002C)

/-- The result of a Collimator item, written at its completion: 8 bytes at RADDR and the two registers. -/
def colResult (e : Fin 8) (radr v : Nat) (miss : List (Nat × Reg32)) (s : State) : DescOut :=
  .ok s [(key e radr, 8)] ([(colLo e, BitVec.ofNat 32 v), (colLo e + 4, BitVec.ofNat 32 (v / 2 ^ 32))] ++ miss)
    [(key e radr, toLE 8 v)]

/-- The kinds of Table 7.12. -/
def State.runCol (e : Fin 8) (s : State) (d : Queued) : DescOut :=
  let b := d.desc
  let kind := fieldLE b 0 1 % 16
  let pm := fieldLE b 1 1 % 4
  let len := fieldLE b 4 4
  let a1 := fieldLE b 8 4
  let a2 := fieldLE b 12 4
  let ra := fieldLE b 24 4
  if kind = 0xA ∧ pm = 3 then .err s 2
  else if len % 64 ≠ 0 ∨ a1 % 64 ≠ 0 ∨ (kind = 0xB ∧ a2 % 64 ≠ 0) ∨ ra % 8 ≠ 0
      ∨ (len ≠ 0 ∧ colRange a1 len = false) ∨ (len ≠ 0 ∧ kind = 0xB ∧ colRange a2 len = false)
      ∨ (kind ≠ 0xA ∧ colRange ra 8 = false) then .err s 3
  else if kind = 0xA then
    let ws := (List.range (len / 8)).map fun i =>
      let pat := fieldLE b 16 8
      if pm = 0 then pat else if pm = 1 then pat ^^^ i else 2 ^ 64 - 1 - (pat ^^^ i)
    match s.write (key e a1) (ws.flatMap (toLE 8)) with
    | (s1, false) => .err s1 5
    | (s1, true) => .ok s1 [(key e a1, len)] [] []
  else match s.read (key e a1) len with
    | (s1, none) => .err s1 5
    | (s1, some x) =>
      if kind = 0x8 then colResult e ra (if len = 0 then 0 else crc32c x) [] s1
      else if kind = 0x9 then colResult e ra ((words64 x).foldl (· + ·) 0 % 2 ^ 64) [] s1
      else match s1.read (key e a2) len with
        | (s2, none) => .err s2 5
        | (s2, some y) =>
          let diff := ((words64 x).zip (words64 y)).zipIdx.filter fun w => decide (w.1.1 ≠ w.1.2)
          colResult e ra diff.length (match diff with
            | w :: _ => [(colMiss e, BitVec.ofNat 32 (8 * w.2 % 2 ^ 29))]
            | [] => []) s2

/-- CRC (R228). -/
def execCrc (e : Fin 8) (s : State) : Out := .next (s.startVec e .col 4 colKinds 0x8 (State.runCol e))

/-- SUM64 (R228). -/
def execSum64 (e : Fin 8) (s : State) : Out := .next (s.startVec e .col 4 colKinds 0x9 (State.runCol e))

/-- FILL (R228). -/
def execFill (e : Fin 8) (s : State) : Out := .next (s.startVec e .col 4 colKinds 0xA (State.runCol e))

/-- COMPARE (R228). -/
def execCompare (e : Fin 8) (s : State) : Out := .next (s.startVec e .col 4 colKinds 0xB (State.runCol e))

/-- The k-th Collimator item in progress ends: the result at RADDR and in VEC_COL_LO and VEC_COL_HI, the first
difference while MISMATCH is 0 (Table 7.15), the increment (R228). -/
def execCollimatorComplete (e : Fin 8) (k : BitVec 6) (s : State) : Out :=
  match s.startedOn e .col k.toNat with
  | none => .next s
  | some d =>
    match s.storeAll d.stores with
    | (s1, false) => .next (s1.vecError e 4 5 d.origin false)
    | (s1, true) =>
      let miss := d.result.any fun r => decide (r.1 = colMiss e)
      let keep := decide (s1.fld (colStatus e) 0 0 = 0)
      let s2 := if miss then s1.setFld (colStatus e) 0 0 1 else s1
      .next (s2.completeDesc e { d with result := d.result.filter fun r => keep || decide (r.1 ≠ colMiss e) })

/-- VEC_CNT_CLR.CLR: the three counts are 0 (R231). -/
def State.vecClr (s : State) (e : Fin 8) : State := [0, 1, 2].foldl (fun t k => t.setRegN (vecCnt e k) 0) s

/-- A write of VEC_CNT_CLR (R231). -/
def execVecCntClr (src : BitVec 8) (e : Fin 8) (s : State) : Out :=
  .next (anchorWrite src e (CTU + 0x2001C) (fun t => t.vecClr e) s)

end Sys2Proof.Machine
end

