-- ==== Sys2Proof/Machine/Jobs.lean ====
section
/-! DEFINITION. Partitions, job images, and the running of job commands (14). -/
namespace Sys2Proof.Machine

/-! ### PART_CREATE and PART_DESTROY (R382 to R384) -/

/-- A partition of Table 14.1. -/
def Part.parse (b : List Byte) : Part where
  cls := fieldLE b 1 1
  flags := fieldLE b 2 1 % 4
  prio := fieldLE b 3 1
  engmask := fieldLE b 4 1
  borrow := fieldLE b 5 1
  fmask := fieldLE b 6 1
  hbmBase := fieldLE b 8 8
  hbmSize := fieldLE b 16 8
  poolBase := fieldLE b 24 4
  poolSize := fieldLE b 28 4
  fshare := fieldLE b 32 2
  lendq := fieldLE b 34 2
  lendBase := fieldLE b 36 4
  retryNs := fieldLE b 40 4

/-- LEND (Table 14.1). -/
def Part.lends (q : Part) : Bool := bit q.flags 1

/-- Two ranges (base, size) meet. -/
def overlaps (a b : Nat × Nat) : Bool :=
  decide (0 < a.2) && decide (0 < b.2) && decide (a.1 < b.1 + b.2) && decide (b.1 < a.1 + a.2)

/-- The partitions that exist, with their numbers. -/
def State.partList (s : State) : List (Fin 8 × Part) :=
  (List.finRange 8).filterMap fun p => s.parts[p].map fun q => (p, q)

/-- A parameter of PART_CREATE is invalid (R382): BAD_PARAM. -/
def State.partBad (s : State) (c : Cmd) (n : Nat) (q : Part) : Bool :=
  decide (n ≠ c.part) || decide (3 < q.cls) || (decide (q.cls ≠ 0) && decide (6 < q.prio))
    || decide (2 ^ s.nEngines ≤ q.engmask) || decide (2 ^ s.nEngines ≤ q.borrow) || decide (2 ^ s.nEngines ≤ q.fmask)
    || (decide (q.cls = 0) && (bit q.flags 0 || decide (q.borrow ≠ 0))) || (decide (q.cls ≠ 0) && q.lends)
    || decide (q.hbmBase % 0x200000 ≠ 0) || decide (q.hbmSize % 0x200000 ≠ 0) || decide (q.poolBase % 0x10000 ≠ 0)
    || decide (q.poolSize % 0x10000 ≠ 0) || decide (q.lendBase % 4096 ≠ 0) || decide (SPAD < q.lendBase) || decide (1024 < q.lendq)
    || decide (s.hbmBytes < q.hbmBase + q.hbmSize) || decide (0x4000000 < q.poolBase + q.poolSize)

/-- A resource of PART_CREATE is taken (R382): NO_RESOURCE. -/
def State.partBusy (s : State) (n : Nat) (q : Part) : Bool :=
  let ps := s.partList
  let lent : Nat → Bool := fun e => (ps.any fun x => bit x.2.engmask e && x.2.lends) && (s.borrowPart e).isNone
  (ps.any fun x => decide (x.1.val = n) || decide (x.2.engmask &&& q.engmask ≠ 0)
      || overlaps (x.2.hbmBase, x.2.hbmSize) (q.hbmBase, q.hbmSize) || overlaps (x.2.poolBase, x.2.poolSize) (q.poolBase, q.poolSize))
    || (List.range 8).any (fun e => bit q.borrow e && !(lent e))
    || (List.range 8).any fun f => bit q.fmask f
        && decide (1000 < q.fshare + (ps.filter fun x => bit x.2.fmask f).foldl (fun a x => a + x.2.fshare) 0)

/-- Request power-ups of the engines of a mask that are in E-OFF (R554, R556), in ascending order. -/
def State.wakeMask (s : State) (m : Nat) : State :=
  let es := (List.finRange 8).filter fun e => bit m e.val && decide (s.eng[e].power = .off) && decide (e.val ∉ s.power.wakeq)
  { s with power := { s.power with wakeq := s.power.wakeq ++ es.map (·.val) } }

/-- SEC_STATE.STATE. -/
def State.setDev (s : State) (v : Nat) : State := s.setFld secState 2 0 v

/-- PART_CREATE: it completes once every engine that it names has power (R382, R554); its DYN_CHOICES are 0 (R425), and the first
partition takes the device to RUNNING. -/
def State.partCreate (c : Cmd) (s : State) : State :=
  let b := c.pkt.drop 16
  let n := fieldLE b 0 1
  let q := Part.parse b
  if h : n < 8 then
    if s.partBad c n q then c.ends BAD_PARAM 0 0 s
    else if s.partBusy n q then c.ends NO_RESOURCE 0 0 s
    else if (List.finRange 8).any fun e => bit (q.engmask ||| q.borrow) e.val && decide (s.eng[e].power = .off) then
      (s.wakeMask (q.engmask ||| q.borrow)).modCmd c.id fun c => { c with phase := .waiting }
    else
      let s1 := s.finish c.id OK 0 0 (slice c.pkt 16 48)
      (({ s1 with parts := s1.parts.set n (some q) } : State).setReg64 (dynKey n) 0).setDev 4
  else c.ends BAD_PARAM 0 0 s

/-- PART_CREATE (R382). -/
def execPartCreate (pair : BitVec 16) (s : State) : Out := onCmd 0x10 pair State.partCreate s

/-- Engine `e` enters E-OFF: its memories and registers are kept by nothing (Table 21.4); the power-up zeroes them. -/
def State.engOff (s : State) (e : Fin 8) : State := s.modEng e fun en => { en with power := .off }

/-- PART_DESTROY (R384): engines that no partition names go to E-OFF; the last partition takes the device back to LOADED. -/
def State.partDestroy (c : Cmd) (s : State) : State :=
  let n := c.param 0 1
  if h : n < 8 then
    match s.parts[n] with
    | none => c.ends BAD_PARAM 0 0 s
    | some q =>
      if (s.jobs.any fun j => decide (j.part = n)) || !(s.partCarriers n).isEmpty
          || (s.queues.any fun x => x.2.valid && decide (x.1 < 4096) && decide (x.2.part = n))
          || (q.lends && (List.range 8).any fun e => bit q.engmask e && (s.borrowPart e).isSome) then
        c.ends NO_RESOURCE 0 0 s
      else
        let s1 := s.finish c.id OK 0 n (slice c.pkt 16 1)
        let s2 : State := { s1 with parts := s1.parts.set n none }
        let s3 := (List.finRange 8).foldl (fun t e =>
          if (t.homePart e.val).isNone ∧ (t.borrowPart e.val).isNone ∧ t.eng[e].power ≠ .off then t.engOff e else t) s2
        if s3.partList.isEmpty then s3.setDev 3 else s3
  else c.ends BAD_PARAM 0 0 s

/-- PART_DESTROY (R384). -/
def execPartDestroy (pair : BitVec 16) (s : State) : Out := onCmd 0x11 pair State.partDestroy s

/-! ### Job images (R385, R386) -/

/-- Bytes of a STATE table entry: the HBM offsets of its two halves, and their size. -/
def STENTRY : Nat := 24

/-- STATE entry `i` of an image: offsets of half 0 and half 1, and their size. -/
def stateEntry (img : List Byte) (st i : Nat) : Nat × Nat × Nat :=
  (fieldLE img (st + STENTRY * i) 8, fieldLE img (st + STENTRY * i + 8) 8, fieldLE img (st + STENTRY * i + 16) 8)

/-- [off, off + n) lies in a partition's HBM region. -/
def Part.inHbm (q : Part) (off n : Nat) : Bool := decide (q.hbmBase ≤ off) && decide (off + n ≤ q.hbmBase + q.hbmSize)

/-- HBM refresh model of the device (R444): FAB_HBM_REFMODEL in the HBM unit's control region. -/
def State.refModel (s : State) : Nat := s.regN (key 0x40 (CTL + 0x120))

/-- One command entry passes R385 for `l` engines and `nst` STATE buffers. -/
def entryOk (b : List Byte) (l nst : Nat) : Bool :=
  decide (fieldLE b 0 2 < 2 ^ l) && decide (1 ≤ fieldLE b 2 1) && decide (fieldLE b 4 4 < 2 ^ nst)

/-- The fields of Table 14.2 and R385 pass for partition `q`. -/
def State.imageOk (s : State) (q : Part) (img : List Byte) : Bool :=
  let l := q.engines.length
  let nent := fieldLE img 8 2
  let nst := fieldLE img 10 1
  let ent := fieldLE img 28 4
  let st := fieldLE img 32 4
  decide (36 ≤ img.length) && decide (fieldLE img 0 4 = 0x534C4A31) && decide (fieldLE img 4 2 = s.fld (key BAR0 0x1C) 31 16)
    && decide (fieldLE img 6 1 = q.cls) && decide (fieldLE img 7 1 = l) && decide (1 ≤ nent) && decide (nent ≤ 256)
    && decide (nst ≤ 32) && decide (fieldLE img 12 4 % 64 = 0)
    && (decide (q.cls ≠ 0) || (decide (fieldLE img 20 4 = s.refModel) && decide (q.retryNs ≤ fieldLE img 24 4)))
    && decide (ent + 64 * nent ≤ img.length) && decide (st + STENTRY * nst ≤ img.length)
    && (List.range nent).all (fun i => entryOk (slice img (ent + 64 * i) 64) l nst)
    && (List.range nst).all fun i =>
        let h := stateEntry img st i
        q.inHbm h.1 h.2.2 && q.inHbm h.2.1 h.2.2

/-- The resident job that an image makes. -/
def Job.ofImage (part slot prio off len step : Nat) (seeds : List Nat) (img : List Byte) : Job where
  part := part
  slot := slot
  prio := prio
  image := off
  length := len
  cls := fieldLE img 6 1
  nentry := fieldLE img 8 2
  nstate := fieldLE img 10 1
  ctx := fieldLE img 12 4
  blockLimit := fieldLE img 16 4
  entoff := fieldLE img 28 4
  stoff := fieldLE img 32 4
  step := step
  seeds := seeds
  sel := 0
  behind := []

/-- JOB_LOAD after its parameters have passed: signature, fields, slot, streams (R60) and admission, in this order. -/
def State.jobLoadImage (c : Cmd) (p : Nat) (q : Part) (s : State) (img : List Byte) : State :=
  let slot := c.param 0 1
  if Config.jobSigOk ((s.secure.image.map Image.bytes).getD []) s.secure.custKeys img = false then c.ends SIG_FAIL 0 0 s
  else if s.imageOk q img = false then c.ends BAD_PARAM 0 0 s
  else if (s.jobAt p slot).isSome then c.ends NO_RESOURCE 0 0 s
  else
    match s.registerAll (Config.jobStreams img) with
    | none => c.ends NO_RESOURCE 0 0 s
    | some s1 =>
      let j := Job.ofImage p slot (c.param 1 1) (c.param 8 8) (c.param 4 4) (c.param 16 8) ((List.range 4).map fun i => c.param (24 + 4 * i) 4) img
      let s2 : State := { s1 with jobs := s1.jobs ++ [j] }
      if q.cls = 0 ∧ s2.admits s.power.cap = false then c.ends ADMIT_REFUSED 0 0 s
      else s2.finish c.id OK 0 0 (slice c.pkt 16 40)

/-- JOB_LOAD. -/
def State.jobLoad (c : Cmd) (s : State) : State :=
  match c.partNo.bind fun p => s.parts[p].map fun q => (p.val, q) with
  | none => c.ends BAD_PARAM 0 0 s
  | some (p, q) =>
    let len := c.param 4 4
    let off := c.param 8 8
    if 7 < c.param 0 1 ∨ 7 < c.param 1 1 then c.ends BAD_PARAM 0 0 s
    else if len = 0 then c.ends OK_EMPTY 0 0 s
    else if q.inHbm off len = false then c.ends BAD_PARAM 0 0 s
    else match s.read (key 0x40 off) len with
      | (s1, none) => c.ends ECC_UNCORR 0 0 s1
      | (s1, some img) => s1.jobLoadImage c p q img

/-- JOB_LOAD (R386). -/
def execJobLoad (pair : BitVec 16) (s : State) : Out := onCmd 0x12 pair State.jobLoad s

/-! ### Ready and waiting jobs (R392) -/

/-- The check of a JOB_CMD (R369, R386, R388): the status with which it ends at once, if it does. -/
def State.jobCmdCheck (s : State) (c : Cmd) : Option Nat :=
  match s.jobOf c, c.partNo.bind fun p => s.parts[p] with
  | some j, some q =>
    if j.nentry ≤ c.param 2 2 then some BAD_PARAM
    else if c.param 16 4 = 0 then (if Config.argZeroOk (s.entryOf c) then none else some OK_EMPTY)
    else if q.inHbm (c.param 8 8) (c.param 16 4) then none else some BAD_PARAM
  | _, _ => some BAD_PARAM

/-- A command of the job in slot `j` of partition `p`. -/
def Cmd.ofJob (c : Cmd) (p j : Nat) : Bool := decide (c.op = 0x13) && decide (c.part = p) && decide (c.param 0 1 = j)

/-- A job command that waits to run: started under R370 or swapped out, or the next of its ring. -/
def State.cmdReady (s : State) (c : Cmd) : Bool :=
  match c.phase with
  | .waiting | .swapped => true
  | .accepted => (s.nextCmd c.pair == some c) && s.barrierOk c && (s.jobCmdCheck c).isNone
  | _ => false

/-- The waiting commands of a job, in acceptance order. -/
def State.readyCmds (s : State) (j : Job) : List Cmd := s.cmds.filter fun c => c.ofJob j.part j.slot && s.cmdReady c

/-- The commands of a job that run. -/
def State.runningCmds (s : State) (j : Job) : List Cmd :=
  s.cmds.filter fun c => c.ofJob j.part j.slot && decide (c.phase = .running)

/-- The jobs of a partition that are ready or swapped out. -/
def State.readyJobs (s : State) (p : Nat) : List Job :=
  s.jobs.filter fun j => decide (j.part = p) && !(s.readyCmds j).isEmpty

/-- The running job of a partition (R392): the one that has a started command. -/
def State.runningJob (s : State) (p : Nat) : Option Job :=
  s.jobs.find? fun j => decide (j.part = p) && !(s.runningCmds j).isEmpty

/-- When a job became ready or was swapped out. -/
def State.since (s : State) (j : Job) : Nat :=
  let cs := s.readyCmds j
  match (cs.filter fun c => decide (c.phase = .swapped)).map (·.order) with
  | [] => ((cs.map (·.order)).min?).getD 0
  | l => (l.min?).getD 0

/-- The engines on which an accepted command runs. -/
def State.cmdEngines (s : State) (id : Nat × Nat) : List (Fin 8) := (List.finRange 8).filter fun e => decide (s.eng[e].cmd = some id)

/-- Kill a running command on every engine (R110). -/
def State.killCmd (s : State) (id : Nat × Nat) (k : KillInfo) : State :=
  (s.cmdEngines id).foldl (fun t e => t.killEng e k) s

/-- Pre-emption (R394): a ready job of higher PRIO than the running one has the running commands killed and swapped out; never in
a REALTIME partition (R397). -/
def State.preempt (s : State) (p : Nat) : State :=
  if h : p < 8 then
    match s.runningJob p with
    | none => s
    | some r =>
      if s.isRealtime (some ⟨p, h⟩) = false ∧ (s.readyJobs p).any (fun j => decide (r.prio < j.prio)) then
        (s.runningCmds r).foldl (fun t c => t.killCmd c.id ⟨.preempt, KILLED, 0⟩) s
      else s
  else s

/-! ### Block limits (R105, R395, R397) -/

/-- The limit of engine `e` has been passed in the current wait. -/
def State.overLimit (s : State) (e : Fin 8) : Bool :=
  let lim := s.regN (key e (CTU + 0x24))
  decide (lim ≠ 0xFFFFFFFF) && (match s.eng[e].wait with
    | .token .. | .tokenLimit .. | .doorbell .. => decide (lim < s.clock.aclk - s.eng[e].waitSince)
    | _ => false)

/-- Change a job. -/
def State.modJob (s : State) (p j : Nat) (f : Job → Job) : State :=
  { s with jobs := s.jobs.map fun x => if x.part = p ∧ x.slot = j then f x else x }

/-- OVERBLOCK stands on engine `e` of a running job command (R395): while another job of the partition is ready or swapped
out, the command is killed and swapped out behind every job that waits now; while none is, it keeps waiting. -/
def State.blockTest (s : State) (e : Fin 8) : State :=
  match s.eng[e].cmd.bind s.cmdOf with
  | none => s
  | some c =>
    let j := c.param 0 1
    let others := (s.readyJobs c.part).filter fun x => decide (x.slot ≠ j)
    if c.op ≠ 0x13 ∨ s.isRealtime c.partNo ∨ others.isEmpty then s
    else
      let s1 := s.setFld (key e (CTU + 8)) 3 3 0
      (s1.modJob c.part j fun x => { x with behind := others.map (·.slot) }).killCmd c.id ⟨.preempt, KILLED, 0⟩

/-- ENG_BLOCK_CYC exceeds ENG_BLOCK_LIMIT in a wait (R105): OVERBLOCK is set and the anchor is told. On a REALTIME engine it logs
an EVENT (R397), whose status the spec does not name. -/
def execOverblock (e : Fin 8) (s : State) : Out :=
  let lim := s.regN (key e (CTU + 0x24))
  match s.eng[e].state, s.eng[e].wait with
  | .waiting, .token .. | .waiting, .tokenLimit .. | .waiting, .doorbell .. =>
    .next (if lim = 0xFFFFFFFF ∨ s.fld (key e (CTU + 8)) 3 3 = 1 then s
      else
        let s1 := (s.passAclk (s.eng[e].waitSince + lim + 1)).setFld (key e (CTU + 8)) 3 3 1
        if s1.isRealtime (s1.ownerPart e) then s1.event (Config.eventStatus 0) e.val lim else s1.blockTest e)
  | _, _ => .next s

/-- A job has become ready: the anchor clears OVERBLOCK and tests again (R395). -/
def State.retest (s : State) (p : Nat) : State :=
  (List.finRange 8).foldl (fun (t : State) (e : Fin 8) =>
    if ((t.eng[e].cmd.bind t.cmdOf).any fun c => decide (c.part = p)) ∧ t.fld (key e (CTU + 8)) 3 3 = 1 then
      let t1 := t.setFld (key e (CTU + 8)) 3 3 0
      if t1.overLimit e then (t1.setFld (key e (CTU + 8)) 3 3 1).blockTest e else t1
    else t) s

/-- COMMAND_ACCEPT on a pair (R364): the next entry is accepted, or the pair stops. A job command that makes its job ready may
pre-empt the running one (R394), and OVERBLOCK is tested again (R395). -/
def execCommandAccept (pair : BitVec 11) (s : State) : Out :=
  let s1 := s.acceptStep pair.toNat
  match s1.cmds.getLast? with
  | some c =>
    if s.cmds.length < s1.cmds.length ∧ c.op = 0x13 ∧ s1.cmdReady c then .next ((s1.preempt c.part).retest c.part) else .next s1
  | none => .next s1

/-- JOB_CMD: the checked command waits for its engines. -/
def State.jobCmd (c : Cmd) (s : State) : State :=
  match s.jobCmdCheck c with
  | some st => c.ends st 0 0 s
  | none => (s.modCmd c.id fun c => { c with phase := .waiting }).preempt c.part |>.retest c.part

/-- JOB_CMD (R388). -/
def execJobCmd (pair : BitVec 16) (s : State) : Out := onCmd 0x13 pair State.jobCmd s

/-! ### JOB_UNLOAD and JOB_ABORT (R387, R398) -/

/-- The accepted and incomplete commands of a job. -/
def State.jobCmds (s : State) (p j : Nat) : List Cmd := s.cmds.filter fun c => c.ofJob p j && decide (c.phase ≠ .done)

/-- A carrier of partition `p` that the radio image in slot `j` serves is active. -/
def State.servesCarrier (s : State) (p j : Nat) : Bool :=
  ((s.radioJob p).any fun x => decide (x.slot = j)) && !(s.partCarriers p).isEmpty

/-- JOB_UNLOAD. -/
def State.jobUnload (c : Cmd) (s : State) : State :=
  match s.jobAt c.part (c.param 0 1) with
  | none => c.ends BAD_PARAM 0 0 s
  | some j =>
    if !(s.jobCmds j.part j.slot).isEmpty || s.servesCarrier j.part j.slot then c.ends NO_RESOURCE 0 0 s
    else
      let s1 := s.finish c.id OK 0 0 (slice c.pkt 16 1)
      { s1 with jobs := s1.jobs.filter fun x => !(decide (x.part = j.part) && decide (x.slot = j.slot)) }

/-- JOB_UNLOAD (R387). -/
def execJobUnload (pair : BitVec 16) (s : State) : Out := onCmd 0x14 pair State.jobUnload s

/-- End one command of an aborted job with KILLED: at once, or when its engines have stopped. -/
def State.abortCmd (s : State) (c : Cmd) : State :=
  if c.phase = .running then
    let s1 := s.killCmd c.id ⟨.final, KILLED, 0⟩
    (s1.cmdEngines c.id).foldl (fun t e => t.modEng e fun en => { en with kill := some ⟨.final, KILLED, 0⟩ }) s1
  else s.finish c.id KILLED 0 c.reruns2

/-- JOB_ABORT. -/
def State.jobAbort (c : Cmd) (s : State) : State :=
  match s.jobAt c.part (c.param 0 1) with
  | none => c.ends BAD_PARAM 0 0 s
  | some j =>
    if s.isRealtime c.partNo then c.ends BAD_PARAM 0 0 s
    else match s.jobCmds j.part j.slot with
      | [] => c.ends OK_EMPTY 0 0 s
      | cs => c.ends OK 0 0 (cs.foldl (fun t x => t.abortCmd x) s)

/-- JOB_ABORT (R398). -/
def execJobAbort (pair : BitVec 16) (s : State) : Out := onCmd 0x15 pair State.jobAbort s

/-! ### Starting a command (R106, R389) -/

/-- A fabric address of HBM on the own device. -/
def hbmAddr (off : Nat) : Nat := 0xF * 2 ^ 60 + 0x40 * 2 ^ 52 + off

/-- The context block (R389): argument address and length, step counter, seeds, and of each STATE buffer the committed half and
the other. -/
def State.contextBlock (s : State) (j : Job) (arg len step : Nat) : List Byte :=
  let img := key 0x40 j.image
  toLE 8 (hbmAddr arg) ++ toLE 8 len ++ toLE 8 step ++ j.seeds.flatMap (toLE 4) ++ List.replicate 24 0
    ++ (List.range j.nstate).flatMap fun i =>
      let h := stateEntry (s.bytes (img + j.stoff) (STENTRY * j.nstate)) 0 i
      let c := if bit j.sel i then (h.2.1, h.1) else (h.1, h.2.1)
      toLE 8 (hbmAddr c.1) ++ toLE 8 (hbmAddr c.2)

/-- What the anchor clears on an engine before ENG_CTL.RUN: array flags and clamp counts (R177), quantiser counts and the skew
record (R205), vector counts and error record (R231), signal-lane flags (R249), streamer counts, error record and SUMSAT
(R280). -/
def State.clearFlags (s : State) (e : Fin 8) : State :=
  let as := List.range 64
  let s1 := ((((s.clrClamp e as).clrFlags e as).qntClr e).vecClr e).prismClr e
  (((((s1.setFld (key e (CTU + 0x220)) 0 0 0).setFld (key e (CTU + 0x20000)) 8 8 0).setFld (key e (CTU + 0x30000)) 2 0 0).setFld
    (key e (CTU + 0x30004)) 8 8 0).setFld (key e (CTU + 0x40000)) 8 8 0).setFld (key e (CTU + 0x40008)) 16 16 0

/-- Rounding seeds and step (R202). -/
def State.setKeys (s : State) (e : Fin 8) (seeds : List Nat) (step : Nat) : State :=
  ((List.range 4).foldl (fun t i => t.setRegN (key e (CTU + 0x200 + 4 * i)) (seeds.getD i 0)) s).setReg64 (key e (CTU + 0x210)) step

/-- The anchor prepares engine `e` for an entry of job `j` and writes ENG_CTL.RUN (R106, R389): code registers, block limit,
token counters, doorbell mask, context block. -/
def State.launch (s : State) (e : Fin 8) (id : Nat × Nat) (j : Job) (entry ctx : List Byte) (step : Nat) : State :=
  let s1 := ((s.wakeEng e).clearFlags e).setKeys e j.seeds step
  let s2 := (((s1.setRegN (key e (CTU + 0xC)) (Config.codeBase entry * 64 % 2 ^ 26)).setRegN (key e (CTU + 0x10))
    (Config.codeSize entry * 8 % 2 ^ 26)).setRegN (key e (CTU + 0x14)) (Config.codeEntry entry * 8 % 2 ^ 26)).setRegN
    (key e (CTU + 0x24)) j.blockLimit
  let s3 := (Config.jobTokens entry).foldl (fun t k => t.setReg (tokKey e.val (k % 4096)) 0) s2
  let s4 := (s3.setRegN (dbMask e.val) (Config.doorbellMask entry)).poke (key e j.ctx) ctx
  (s4.startEng e).modEng e fun en => { en with cmd := some id }

/-- Engine `e` is free for a command: powered, answering, no command on it; one that is TRAPPED after its abort is first taken
to IDLE by a KILL (R112). -/
def State.engFree (s : State) (e : Fin 8) : Bool :=
  let en := s.eng[e]
  decide (en.power ≠ .off) && !s.power.tripped && en.cmd.isNone && !en.aborting
    && decide (en.state = .idle ∨ en.state = .trapped)

/-- Array cycles that SHADOW commands may take in a window of 1 ms (R343). -/
def State.shadowBudget (s : State) : Nat := s.shadow.cap * (64 * s.nEngines) * (aclkTen s.power.cap * 100000) / 100

/-- The anchor may start a non-REALTIME command of partition `q` on engines `es` now (R343, R396, R552, R553). -/
def State.mayStart (s : State) (q : Part) (es : List (Fin 8)) (entry : List Byte) : Bool :=
  decide (q.cls = 0) ||
    (!s.power.throttle && s.power.pendingCap.isNone && (decide (q.cls ≠ 1) || decide (s.shadow.used < s.shadowBudget))
      && es.all fun e => !(bit q.borrow e.val) || (match s.nextTrigger e.val with
        | none => true
        | some t => decide (s.ptp * aclkTen s.power.cap + nsT (fieldLE entry 8 4 * 10) ≤ t * aclkTen s.power.cap)))

/-- The engines that an entry names, as engine numbers. -/
def Part.startEngines (q : Part) (entry : List Byte) : List (Fin 8) :=
  (List.finRange 8).filter fun e => decide (e.val ∈ q.entryEngines entry)

/-- The command of job `j` that starts next, and whether it overtakes an earlier one (R392, R425): the first of its waiting
commands, and in a relaxed partition the first whose engines are free. -/
def State.pickCmd (s : State) (q : Part) (j : Job) : Option (Cmd × Bool) :=
  let can : Cmd → Bool := fun c => decide (c.phase ≠ .accepted) && (q.startEngines (s.entryOf c)).all s.engFree
  match s.readyCmds j with
  | [] => none
  | c :: rest =>
    if can c then some (c, false)
    else if bit q.flags 0 then (rest.find? can).map fun x => (x, true)
    else none

/-- The job that a partition runs next (R392, R395): the running one, else of the ready jobs the one of highest PRIO, and among
equals the one that became so earliest; a job behind others that still wait comes after them. -/
def State.pickJob (s : State) (p : Nat) : Option Job :=
  match s.runningJob p with
  | some j =>
    if (s.readyJobs p).any (fun x => decide (j.prio < x.prio)) ∨ (s.runningCmds j).any (fun c =>
        (s.cmdEngines c.id).any fun e => s.eng[e].kill.isSome) then none
    else some j
  | none =>
    let rs := s.readyJobs p
    let free := rs.filter fun j => !(j.behind.any fun k => rs.any fun x => decide (x.slot = k))
    let cs := if free.isEmpty then rs else free
    let top := latest (cs.map (·.prio))
    (cs.filter fun j => decide (j.prio = top)).foldl (fun b j => match b with
      | none => some j
      | some x => if s.since j < s.since x then some j else b) none

/-- Start command `c` of job `j` (R106, R389, R393): from a re-run's own step counter when it ran before. -/
def State.startCmd (s : State) (q : Part) (j : Job) (c : Cmd) (mayDyn : Bool) : State :=
  let entry := s.entryOf c
  let step := if c.phase = .swapped then c.step0 else j.step
  let s1 := if c.phase = .swapped then s.rewindOrdered c else s
  let ctx := s1.contextBlock j (c.param 8 8) (c.param 16 4) step
  let s2 := s1.modCmd c.id fun c => { c with
    phase := .running, dyn0 := s.reg64 (dynKey j.part), step0 := step, nseq := s1.orderedSeqs, fadds := [] }
  let s3 := (q.startEngines entry).foldl (fun t e => (t.toIdle e).launch e c.id j entry ctx step) s2
  let s4 := { s3 with jobs := s3.jobs.map fun x =>
    if x.part = j.part then { x with behind := x.behind.filter fun k => decide (k ≠ j.slot) } else x }
  if mayDyn then s4.dynChoice c.partNo else s4

/-- COMMAND_START in partition `p` (R392, R394): the partition's job starts its next command on free engines; a ready job of
higher PRIO first has the running one swapped out. -/
def execCommandStart (p : Fin 8) (s : State) : Out :=
  let s1 := s.preempt p.val
  match s1.parts[p] with
  | none => .next s1
  | some q => match s1.pickJob p.val with
    | none => .next s1
    | some j => match s1.pickCmd q j with
      | none => .next s1
      | some (c, mayDyn) =>
        let entry := s1.entryOf c
        .next (if s1.mayStart q (q.startEngines entry) entry ∧ s1.fullIf then s1.startCmd q j c mayDyn else s1)

/-! ### Commit (R391, R412, R413) -/

/-- Reports of engine `e`'s digest list at CTX + 0x200. -/
def State.digestList (s : State) (e : Fin 8) (ctx : Nat) : List Byte :=
  let n := min 8 (leNat (s.bytes (key e (ctx + 0x200)) 8))
  s.bytes (key e (ctx + 0x208)) (8 * n)

/-- The commit digest (R413). -/
def State.commitDigest (s : State) (es : List (Fin 8)) (ctx : Nat) : Nat :=
  let r := es.flatMap fun e => s.digestList e ctx
  if r.isEmpty then 0 else crc32c r

/-- A command's engines produced a NaN or an infinity (R131, R177, R205). -/
def State.nonfinite (s : State) (es : List (Fin 8)) : Bool :=
  es.any fun e => decide (s.arrSum e 0 ≠ 0) || decide (s.regN (qntKey e 3) ≠ 0)

/-- The replayed command that starts at STOP_STEP of STOP_JOB is held (R422). -/
def State.mustHold (s : State) (c : Cmd) : Bool :=
  decide (s.mirror.held = some c.id) || (match s.mirror.replay with
    | some r => c.replay && decide (r.stopStep = c.step0) && decide (r.stopStep ≠ 2 ^ 64 - 1)
        && decide (r.stopJob = (c.param 0 1, c.part))
    | none => false)

/-- A running command has ended on every engine, and each Facet descriptor of its queues has its status record (R391). -/
def State.cmdEnded (s : State) (c : Cmd) : Bool :=
  decide (c.phase = .running) && (s.cmdEngines c.id).all (fun e => s.eng[e].ended && s.eng[e].kill.isNone)
    && (Config.facetQueues (s.entryOf c)).all fun x => !(s.fctBusy (x.1 % 8) (x.2 % 32))

/-- Commit a command that has ended: status, COMMIT record with the new selectors, step counter, digest and DYN_CHOICES increase,
and their application (R391, R412, R426); the digest is recorded, or compared in a replay (R421). -/
def State.commitCmd (s : State) (j : Job) (c : Cmd) : State :=
  let es := s.cmdEngines c.id
  let st := if s.nonfinite es then 0x05 else OK
  let sel := j.sel ^^^ fieldLE (s.entryOf c) 4 4
  let step := (j.step + 1) % 2 ^ 64
  let dig := s.commitDigest es j.ctx
  let dyn := (s.reg64 (dynKey j.part) + 2 ^ 64 - c.dyn0) % 2 ^ 64
  let s1 := s.finish c.id st 0 c.reruns2 (toLE 8 step ++ toLE 4 sel ++ toLE 4 dig ++ toLE 8 dyn)
  let s2 := s1.modJob j.part j.slot fun x => { x with sel := sel, step := step }
  let s3 := es.foldl (fun t e => t.modEng e fun en => { en with cmd := none, ended := false }) s2
  s3.digest c.replay j.part j.slot (c.pair % 0x8000) c.seq c.step0 dig dyn

/-- COMMAND_COMMIT in partition `p` (R391): the oldest command that has ended commits. -/
def execCommandCommit (p : Fin 8) (s : State) : Out :=
  match s.cmds.find? fun c => decide (c.op = 0x13) && decide (c.part = p.val) && s.cmdEnded c && !(s.mustHold c) with
  | none => .next s
  | some c => match s.jobOf c with
    | none => .next s
    | some j => .next (if s.ledger.up then s.commitCmd j c else s)

end Sys2Proof.Machine
end

