-- ==== Sys2Proof/Machine/Integrity.lean ====
section
/-! DEFINITION. Memory and integrity (16): committing ledger records, LEDGER_READ, write-back, scrubbing, refresh and patrol,
injection, and retries of the UCIe link. -/
namespace Sys2Proof.Machine

/-! ### Writes of anchor-only registers -/

/-- A write of a register of unit `u` that takes writes only from the anchor: another source fails with ACCESS (R461, R568), after
the unit's own causes. -/
def anchorReg (src u off : Nat) (f : State → State) (s : State) : State :=
  let c := s.unitCause u src
  if c ≠ 0 then s.failOp src c 1 0 (key u off) .none
  else if src ≠ 0x60 then (s.reach u).failOp src 7 1 0 (key u off) .none
  else f (s.reach u)

/-! ### The ledger (R451 to R460) -/

/-- The first record issued and not committed is dropped from the queue. -/
def State.ledgerPop (s : State) : State := { s with ledger := { s.ledger with queue := s.ledger.queue.drop 1 } }

/-- Change the ledger. -/
def State.modLedger (s : State) (f : Ledger → Ledger) : State := { s with ledger := f s.ledger }

/-- An EVENT record that would leave less free space than the reserve is dropped (R456). -/
def State.dropsEvent (s : State) (type : Nat) (payload : List Byte) : Bool :=
  decide (type = 0x05) && decide (s.ledger.free < s.ledgerReserve + recSize payload)

/-- LEDGER_COMMIT: the oldest issued record is written and checked in the copies in service (R453); `ok0` and `ok1` say whether
each copy's check passes in the end. A copy whose check fails twice leaves service, and the other takes an EVENT (R457); with
no copy left the ledger path is at fault and the record waits (R458). -/
def execLedgerCommit (ok0 : Bool) (ok1 : Bool) (s : State) : Out :=
  match s.ledger.queue with
  | [] => .next s
  | r :: _ =>
    if s.ledger.up = false then .next s
    else if s.dropsEvent r.1 r.2 then .next (s.ledgerPop.modLedger fun l => { l with drop := satAdd 0xFFFFFFFF l.drop 1 })
    else
      let c0 := s.ledger.copy0 && ok0
      let c1 := s.ledger.copy1 && ok1
      if c0 = false ∧ c1 = false then .next (s.modLedger fun l => { l with pathFault := true })
      else
        let lost := (s.ledger.copy0 && !c0) || (s.ledger.copy1 && !c1)
        let s1 := (s.ledgerPop.modLedger fun l => { l with copy0 := c0, copy1 := c1 }).ledgerCommit r.1 r.2
        .next (if lost then s1.event (Config.eventStatus 3) 0x61 (b2n c0 + 2 * b2n c1) else s1)

/-- The bytes of a ledger record (Table 16.5): header and padded payload. -/
def LedRec.bytes (r : LedRec) : List Byte :=
  let h := toLE 2 0x4C44 ++ toLE 1 r.type ++ toLE 1 0 ++ toLE 4 r.payload.length ++ toLE 8 r.lseq ++ toLE 8 r.time ++ toLE 4 0
  let p := r.payload ++ List.replicate (recSize r.payload - 32 - r.payload.length) 0
  h ++ toLE 4 (crc32c (h ++ p)) ++ p

/-- The records that LEDGER_READ copies: of those that match, the longest run from the first on that fits. -/
def takeFit (room : Nat) : List LedRec → List LedRec
  | [] => []
  | r :: rs => if recSize r.payload ≤ room then r :: takeFit (room - recSize r.payload) rs else []

/-- LEDGER_READ. -/
def State.ledgerRead (c : Cmd) (s : State) : State :=
  let fr := c.param 0 8
  let dest := c.param 8 8
  let room := c.param 16 4
  let match_ := s.ledger.recs.filter fun r => decide (fr ≤ r.lseq) && bit (c.param 20 4) r.type
  let out := takeFit room match_
  let bytes := out.flatMap LedRec.bytes
  if room = 0 ∨ s.ledger.next ≤ fr then c.ends OK_EMPTY 0 0 s
  else if fr < s.ledger.oldest then c.ends BAD_PARAM 1 0 s
  else if dest % 64 ≠ 0 then c.ends BAD_PARAM 0 0 s
  else if match_ ≠ [] ∧ out = [] then c.ends NO_RESOURCE 0 0 s
  else if s.master = false then s
  else (s.finish c.id OK (min 0xFFFF out.length) bytes.length).hostWrite dest bytes

/-- LEDGER_READ (R460). -/
def execLedgerRead (pair : BitVec 16) (s : State) : Out := onCmd 0x58 pair State.ledgerRead s

/-! ### Write-back, scrubbing, patrol (R432, R435, R445) -/

/-- The oldest correction that waits is written back. -/
def execEccWriteback (s : State) : Out :=
  match s.writeback with
  | [] => .next s
  | b :: _ => .next (s.mend b)

/-- Window ranges of a unit's SRAMs, ascending: base and size. -/
def sramRanges (u : Nat) : List (Nat × Nat) :=
  match unitClass u with
  | .engine => [(0, SPAD), (0x10000000, 0x800000)]
  | .pool => [(0, 0x4000000)]
  | _ => []

/-- The place after block `o` of a unit's memories, and whether the pass ends with it. -/
def scrubNext (u o : Nat) : Nat × Bool :=
  match (sramRanges u).find? fun r => decide (r.1 ≤ o + 64) && decide (o + 64 < r.1 + r.2) with
  | some _ => (o + 64, false)
  | none => match (sramRanges u).find? fun r => decide (o < r.1) with
    | some r => (r.1, false)
    | none => (0, true)

/-- One read of a block by the scrubber: corrected, or poisoned and recorded (R435). -/
def State.scrubTouch (s : State) (b : Nat) : State := (s.touch b).1

/-- SCRUB_READ of unit `unit`: the next block in ascending order, wrapping at the end. RATE 0 disables the scrubber, and a unit that is
off or in reset scrubs nothing. A unit whose memories have no window has its passes completed at times the spec does not give:
each read ends a pass or not, by a free bit. -/
def execScrubRead (unit : BitVec 8) (s : State) : Out :=
  let u := unit.toNat
  let pass := key u (CTL + 0x118)
  if s.fld (key u (CTL + 0x114)) 15 0 = 0 ∨ s.unitCause u 0x60 ≠ 0 ∨ regRow (key u (CTL + 0x114)) = none then .next s
  else if (sramRanges u).isEmpty then
    let d := s.draw
    .next (d.2.setRegN pass ((d.2.regN pass + d.1.toNat % 2) % 2 ^ 32))
  else
    let o := Sparse.get (fun _ => 0) s.scrub u
    let n := scrubNext u o
    let s1 := s.scrubTouch (key u o)
    let s2 : State := { s1 with scrub := Sparse.set (fun _ => 0) s1.scrub u n.1 }
    .next (if n.2 then s2.setRegN pass ((s2.regN pass + 1) % 2 ^ 32) else s2)

/-- Pseudo-channel of 256-byte line `l` of HBM (R441). -/
def State.hbmChannel (s : State) (l : Nat) : Nat :=
  if s.fuse.gradeA then ((l / 4) ^^^ (l / 2 ^ 11)) % 32 else ((l / 2) ^^^ (l / 2 ^ 10)) % 32

/-- Lines with a given `p` (R441): 2 to the power of this many. -/
def State.hbmShift (s : State) : Nat := if s.fuse.gradeA then 7 else 6

/-- Bank, column and row of a line's `p` (R441). -/
def hbmBank (p : Nat) : Nat := p % 16
def hbmColumn (p : Nat) : Nat := p / 16 % 8
def hbmRow (p : Nat) : Nat := p / 128

/-- The lines of stack `st` with the given `p`: one of each pseudo-channel. -/
def State.patrolLines (s : State) (st p : Nat) : List Nat :=
  ((List.range (2 ^ s.hbmShift)).map fun i => p * 2 ^ s.hbmShift + i).filter fun l => decide (s.hbmStack l = st)

/-- Every code word of [a, a + n) is read, whatever the others hold. -/
def State.touchEach (s : State) (a n : Nat) : State := (s.dirtyBlocks a n).foldl (fun t b => (t.touch b).1) s

/-- A refresh slot of the controller of stack `st` (R444), in which its patrol reads one line of each pseudo-channel (R445). A stack
in self-refresh is not patrolled. -/
def execHbmRefresh (st : Fin 4) (s : State) : Out :=
  let asleep := s.power.dIdle && !(s.power.hbmAwake.any fun x => decide (x.1 = st.val))
  if (s.fuse.gradeA = false ∧ 2 ≤ st.val) ∨ s.computeUp = false ∨ asleep then .next s
  else
    let p := Sparse.get (fun _ => 0) s.patrol st.val
    let s1 := (s.patrolLines st.val p).foldl (fun t l => t.touchEach (key 0x40 (l * 256)) 256) s
    .next { s1 with patrol := Sparse.set (fun _ => 0) s1.patrol st.val ((p + 1) % (24576 * 128)) }

/-! ### FAB_ECC_INJ and FAB_ECC_STATUS (R461, R598) -/

/-- Memory codes of the memories that a unit holds (Table 16.7). -/
def memsOf (u : Nat) : List Nat :=
  match unitClass u with
  | .engine => [0, 1, 2, 3]
  | .facet => [3, 4]
  | .port | .mirror => [3, 5]
  | .pool => [6]
  | .hbm => [7]
  | .anchor => [3, 8]
  | .time | .modem | .brivel => [3]
  | _ => []

/-- Unit `u` holds a running command: an engine one of its own, a decoder a descriptor in progress. -/
def State.unitRuns (s : State) (u : Nat) : Bool :=
  match unitClass u with
  | .engine => match engOf u with
    | some e => s.eng[e].cmd.isSome
    | none => false
  | .facet => (s.fct (u - 0x10)).cur.isSome
  | _ => false

/-- A write of FAB_ECC_INJ: PATTERN and MEM take the written values; ARM is set only for a memory of the unit, while it holds no
running command. -/
def State.injWrite (s : State) (u v : Nat) : State :=
  let k := key u (CTL + 0x11C)
  let armed := s.fld k 3 3 = 1 ∨ (bit v 3 ∧ bits v 15 8 ∈ memsOf u ∧ s.unitRuns u = false)
  s.setRegN k (setBits v 3 3 (if armed then 1 else 0))

/-- A write of FAB_ECC_INJ with ARM (R461). -/
def execEccInjArm (src : BitVec 8) (unit : BitVec 8) (v : Reg32) (s : State) : Out :=
  let k := key unit.toNat (CTL + 0x11C)
  .next (if regRow k = none then s else anchorReg src.toNat unit.toNat (CTL + 0x11C) (fun t => t.injWrite unit.toNat (setBits v.toNat 3 3 1)) s)

/-- CNT_CLR: both counts are 0. -/
def State.eccClr (s : State) (u : Nat) : State := (s.setRegN (key u (CTL + 0x10C)) 0).setRegN (key u (CTL + 0x110)) 0

/-- A write of FAB_ECC_STATUS.CNT_CLR (R461). -/
def execEccCntClr (src : BitVec 8) (unit : BitVec 8) (s : State) : Out :=
  .next (if regRow (key unit.toNat (CTL + 0x10C)) = none then s
    else anchorReg src.toNat unit.toNat (CTL + 0x100) (fun t => t.eccClr unit.toNat) s)

/-! ### The UCIe link (R447, R448) -/

/-- NCLK cycles of 10 µs. -/
def RETRYWINDOW : Nat := 16000

/-- A retry, `ns` nanoseconds after the previous moment: the retries of the last 10 µs are kept. -/
def execUcieRetry (ns : BitVec 16) (s : State) : Out :=
  let s1 := s.passNclk (s.clock.nclk + ns.toNat * 16 / 10)
  let t := s1.clock.nclk
  .next { s1 with ucie := { s1.ucie with
    retries := (s1.ucie.retries.filter fun x => decide (t < x + RETRYWINDOW)) ++ [t] } }

/-- A retrain begins when more than 8 retries have occurred within 10 µs (R447): operations are held, and an EVENT is written
(R448). -/
def execUcieRetrain (s : State) : Out :=
  if s.ucie.retraining ∨ s.ucie.retries.length ≤ 8 then .next s
  else .next ({ s with ucie := ⟨[], true⟩ }.event (Config.eventStatus 1) 0x60 0)

end Sys2Proof.Machine
end

