-- ==== Sys2Proof/Machine/SlotOps.lean ====
section
/-! DEFINITION. Slot requests and slot results (10): the fields of a request block (Table 13.12), the capture ring (12), what a
publication commits (R296, R300 to R303), and what an abandonment or a reset does to a slot. -/
namespace Sys2Proof.Machine

/-! ### The request block (Table 13.12) -/

/-- Records of kind `i` of a request block: their count and byte offset. -/
def reqCount (b : List Byte) (i : Nat) : Nat := fieldLE b (12 + 2 * i) 2
def reqOff (b : List Byte) (i : Nat) : Nat := fieldLE b (24 + 4 * i) 4

/-- Bytes of a record of kind `i`: uplink PUSCH, PUCCH, PRACH, SRS; downlink PDSCH, PDCCH, SSB, CSI-RS. -/
def reqSize (dl : Bool) (i : Nat) : Nat := if i = 0 then 64 else if i = 1 then 32 else if i = 2 then 16 else if dl then 32 else 32

/-- The records of kind `i`. -/
def reqRecs (dl : Bool) (b : List Byte) (i : Nat) : List (List Byte) :=
  (List.range (reqCount b i)).map fun k => slice b (reqOff b i + reqSize dl i * k) (reqSize dl i)

/-- Every record fits the block. -/
def reqFits (dl : Bool) (b : List Byte) : Bool :=
  decide (64 ≤ b.length) && (List.range 4).all fun i =>
    decide (reqCount b i = 0) || decide (reqOff b i + reqSize dl i * reqCount b i ≤ b.length)

/-- The request schedules nothing (R301). -/
def reqEmpty (b : List Byte) : Bool := (List.range 4).all fun i => decide (reqCount b i = 0)

/-- Limits of Table 10.1 on the number of records and on layers. -/
def reqLimits (dl : Bool) (b : List Byte) : Bool :=
  let sch := reqRecs dl b 0
  decide (sch.length ≤ 64) && decide (reqCount b 1 ≤ (if dl then 64 else 128))
    && (dl || (decide (reqCount b 2 ≤ 8) && decide (reqCount b 3 ≤ 32)))
    && sch.all (fun r => decide (fieldLE r 7 1 ≤ if dl then 8 else 4))
    && decide (sch.foldl (fun a r => a + fieldLE r 7 1) 0 ≤ 16)

/-- Options of Table 10.1 that the fields show: modulation orders, HARQ processes, symbols and PRBs of the carrier. -/
def reqOptions (dl : Bool) (d b : List Byte) : Bool :=
  (reqRecs dl b 0).all (fun r =>
    decide (fieldLE r 6 1 ∈ (if dl then [2, 4, 6, 8, 10] else [1, 2, 4, 6, 8])) && decide (fieldLE r 4 1 < 16) && decide (1 ≤ fieldLE r 7 1)
      && decide (fieldLE r 12 1 + fieldLE r 13 1 ≤ cNsym d) && decide (fieldLE r 8 2 + fieldLE r 10 2 ≤ cNprb d))
    && Config.optionsOk b

/-- UE handle, kind and bits of every UCI record that an uplink request calls for: HARQ-ACK, SR, CSI part 1, CSI part 2. -/
def uciRecs (b : List Byte) : List (Nat × Nat × Nat) :=
  ((reqRecs false b 0).flatMap fun r => [(0, fieldLE r 32 2), (2, fieldLE r 34 2), (3, fieldLE r 36 2)].map fun x => (fieldLE r 0 2, x))
    ++ (reqRecs false b 1).flatMap (fun r => [(0, fieldLE r 16 2), (1, fieldLE r 18 2), (2, fieldLE r 20 2)].map fun x => (fieldLE r 0 2, x))
    |>.filter fun x => decide (0 < x.2.2)

/-- Bytes that a request's records and TB data take in the slot result (R300). -/
def resultBytes (b : List Byte) : Nat :=
  let tb := reqRecs false b 0
  64 + 32 * tb.length + 16 * (uciRecs b).length + tb.foldl (fun a r => a + ceilDiv (fieldLE r 24 4) 8) 0

/-! ### Clocks of a partition (R420) -/

/-- The replay of partition `p`, when one runs. -/
def State.replayOf (s : State) (p : Nat) : Option Replay := s.mirror.replay.filter fun r => bit r.parts p

/-- The time that governs partition `p`: PTP, or the replay clock. -/
def State.timeFor (s : State) (p : Nat) : Nat :=
  match s.replayOf p with
  | some r => nsT r.time
  | none => s.ptp

/-- Time passes up to `t` at least, on the clock of partition `p`. -/
def State.passTime (s : State) (p t : Nat) : State :=
  match s.replayOf p with
  | some _ => s.modReplay fun r => { r with time := max r.time (t / 2 ^ 44) }
  | none => { s with ptp := max s.ptp t }

/-! ### Network sets (R292, R336, R349) -/

/-- Engine `e`'s shadow configuration. -/
def State.shGroup (s : State) (e : Nat) : Option Group := s.shadow.groups.find? fun g => decide (g.eng = e)

/-- Change engine `e`'s shadow configuration. -/
def State.modGroup (s : State) (e : Nat) (f : Group → Group) : State :=
  { s with shadow := { s.shadow with groups := s.shadow.groups.map fun g => if g.eng = e then f g else g } }

/-- GEN of the network set that serves slot `k` of a carrier: the one current at its air start. -/
def State.genAt (s : State) (d : List Byte) (k : Nat) : Nat :=
  let cur := s.hbmN (cNetset d + 16) 4
  match s.shGroup (cEng d) with
  | some g => if 0 < g.since ∧ s.airTime d k 0 ≤ nsT g.since then g.oldGen else cur
  | none => cur

/-! ### The capture ring (R339 to R342) -/

/-- Slot `k` is a capture slot of a carrier's slot `n` (R339). -/
def Group.captures (g : Group) (n k : Nat) : Bool :=
  (decide (0 < g.cstride) && decide (n % g.cstride = 0)) || (match g.trial with
    | some t => decide (t.first ≤ k)
    | none => false)

/-- The capture records of a request: kind, symbol, allocation. -/
def capRecs (b : List Byte) : List (Nat × Nat × Nat) :=
  (List.range (reqCount b 0)).flatMap fun i =>
    let r := (reqRecs false b 0).getD i []
    (((List.range 14).filter fun y => bit (fieldLE r 14 2) y).map fun y => (1, y, i)) ++ [(2, 0, i)]

/-- The header of a capture record (Table 12.3) with STATE 0. -/
def capHeader (car n gen : Nat) (b : List Byte) (x : Nat × Nat × Nat) (pay : Nat) : List Byte :=
  let r := (reqRecs false b 0).getD x.2.2 []
  let data := decide (x.1 = 2)
  toLE 1 x.1 ++ toLE 1 0 ++ toLE 1 car ++ toLE 1 x.2.1 ++ toLE 8 n ++ toLE 4 gen ++ toLE 2 (if data then fieldLE r 0 2 else 0)
    ++ toLE 1 (if data then fieldLE r 4 1 else 0) ++ toLE 1 0 ++ toLE 2 (fieldLE r 8 2) ++ toLE 2 (fieldLE r 10 2) ++ toLE 4 pay
    ++ toLE 4 (if data then x.2.2 else 0) ++ List.replicate 32 0

/-- Place records of given sizes in a ring area from free-running count `w` on: the place and end of each, PAD records included (as
kind 0 entries). -/
def capPlace (area : Nat) : (w : Nat) → List (Nat × Nat) → List (Nat × Nat × Nat × Nat)
  | _, [] => []
  | w, (i, n) :: rest =>
    let o := w % area
    if area < o + n then (0, o, area - o, w + (area - o)) :: (i + 1, 0, n, w + (area - o) + n) :: capPlace area (w + (area - o) + n) rest
    else (i + 1, o, n, w + n) :: capPlace area (w + n) rest

/-- Bytes of the record area that pending records already claim, as a free-running count. -/
def State.capEnd (s : State) (e ring : Nat) : Nat :=
  latest (s.hbmN ring 8 :: (s.captures.filter fun c => decide (c.eng = e)).map Capture.wend)

/-- Write the capture records of slot `k` of engine `e`'s group, or drop the slot (R341): nothing is written when they do not all
fit. The payload is what the stage commands compute: free bytes. -/
def State.capture (s : State) (e k : Nat) : State :=
  match s.shGroup e with
  | none => s
  | some g =>
    let us := (s.ulOf e k).filter fun x => g.captures x.2.n k
    let recs := us.flatMap fun x => (capRecs x.2.req).map fun r => (x.1, x.2, r)
    let size := fun (x : Carrier × UlSlot × Nat × Nat × Nat) => 64 * (1 + Config.capLen x.2.2.1 x.2.1.req x.2.2.2.2)
    let area := g.rsize - 64
    if recs.isEmpty ∨ g.rsize ≤ 64 then s
    else
      let ps := capPlace area (s.capEnd e g.ring) (recs.zipIdx.map fun x => (x.2, size x.1))
      let last := latest (ps.map fun p => p.2.2.2)
      if decide (area < last - s.hbmN (g.ring + 8) 8) || (recs.any fun x => decide (area < size x)) then
        let n := satAdd 0xFFFFFFFF g.capdrop us.length
        (s.modGroup e fun g => { g with capdrop := n }).poke (key 0x40 (g.ring + 16)) (toLE 4 n)
      else
        ps.foldl (fun (t : State) p =>
          let a := g.ring + 64 + p.2.1
          match p.1 with
          | 0 => t.poke (key 0x40 a) (toLE 1 0 ++ toLE 1 2 ++ List.replicate 22 0 ++ toLE 4 (p.2.2.1 - 64) ++ List.replicate 36 0)
          | i + 1 => match recs[i]? with
            | none => t
            | some x =>
              let t1 := (t.undef (key 0x40 a) p.2.2.1).poke (key 0x40 a)
                (capHeader x.1.id x.2.1.n (s.genAt x.1.desc k) x.2.1.req x.2.2 (p.2.2.1 - 64))
              { t1 with captures := t1.captures ++ [⟨e, x.1.id, x.2.1.n, a, x.2.2.1, x.2.2.2.2, p.2.2.2⟩] }) s

/-- A capture record's PRBs overlap a missing block. -/
def capMissing (d : List Byte) (prb0 nprb : Nat) (missing : List Nat) : Bool :=
  missing.any fun m => decide (prb0 < (m % 8) * 64 + 64) && decide ((m % 8) * 64 < prb0 + nprb) && decide (m % 8 < cNblk d)

/-- At publication (R340): the STATE of each record of the slot, and WPTR past them. `pass i`: TB record i carries PASS. -/
def State.captureCommit (s : State) (e : Nat) (c : Carrier) (n : Nat) (bad : Bool) (missing : List Nat) (pass : Nat → Bool) : State :=
  let mine := s.captures.filter fun x => decide (x.eng = e) && decide (x.carrier = c.id) && decide (x.n = n)
  let s1 := mine.foldl (fun (t : State) x =>
    let miss := capMissing c.desc (t.hbmN (x.off + 20) 2) (t.hbmN (x.off + 22) 2) missing
    let st := if bad || miss then 2 else if x.kind = 1 ∨ pass x.tbrec then 1 else 2
    t.poke (key 0x40 (x.off + 1)) (toLE 1 st)) s
  let s2 := match s1.shGroup e, mine.isEmpty with
    | some g, false => s1.poke (key 0x40 g.ring) (toLE 8 (latest (s1.hbmN g.ring 8 :: mine.map Capture.wend)))
    | _, _ => s1
  { s2 with captures := s2.captures.filter fun x => !(decide (x.eng = e) && decide (x.carrier = c.id) && decide (x.n = n)) }

/-! ### Publication -/

/-- Reception of slot `n` of carrier `c`. -/
def State.rxOf (s : State) (c n : Nat) : Option RxSlot := s.rx.find? fun r => decide (r.carrier = c) && decide (r.n = n)

/-- A zero-filled block meets PUSCH or PUCCH allocation `r` of an uplink request: first PRB, PRBs, first symbol, symbols. -/
def meets (m prb0 nprb y0 ny : Nat) : Bool :=
  let y := m / 8 % 14
  decide (y0 ≤ y) && decide (y < y0 + ny) && decide (prb0 < m % 8 * 64 + 64) && decide (m % 8 * 64 < prb0 + nprb)

/-- A zero-filled block overlaps an allocation of the request for certain. -/
def missesAlloc (b : List Byte) (missing : List Nat) : Bool :=
  missing.any fun m =>
    ((reqRecs false b 0).any fun r => meets m (fieldLE r 8 2) (fieldLE r 10 2) (fieldLE r 12 1) (fieldLE r 13 1))
      || (reqRecs false b 1).any fun r => meets m (fieldLE r 8 2) (fieldLE r 10 2) (fieldLE r 5 1) (fieldLE r 6 1)
        || (decide (fieldLE r 12 2 ≠ 0xFFFF) && meets m (fieldLE r 12 2) (fieldLE r 10 2) (fieldLE r 5 1) (fieldLE r 6 1))

/-- The missing-block map of a slot (R285 order, least significant bit first). -/
def missMap (d : List Byte) (missing : List Nat) : List Byte :=
  let nb := cNblk d
  let ix := missing.map fun m => (m / 112 * cNsym d + m / 8 % 14) * nb + m % 8
  (List.range (ceilDiv (cUl d * cNsym d * nb) 8)).map fun i =>
    BitVec.ofNat 8 ((List.range 8).foldl (fun v j => if 8 * i + j ∈ ix then v + 2 ^ j else v) 0)

/-- A TB record (Table 10.6): NOT_DECODED, or what the decoders gave, as free values. -/
def State.tbRecord (s : State) (r : List Byte) (dead : Bool) : List Byte × Bool × State :=
  let d := s.draw
  let crc := if dead then 2 else d.1.toNat % 2
  let b := toLE 2 (fieldLE r 0 2) ++ toLE 1 (fieldLE r 4 1) ++ toLE 1 crc ++ toLE 1 (if dead then 0 else d.1.toNat / 2 % 256) ++ toLE 1 0
    ++ toLE 2 (if crc = 1 then d.1.toNat / 2 ^ 9 % 2 ^ 16 else 0) ++ toLE 4 (ceilDiv (fieldLE r 24 4) 8)
    ++ toLE 4 (d.1.toNat / 2 ^ 25 % 2 ^ 32) ++ List.replicate 16 0
  (b, decide (crc = 0), d.2)

/-- The TB records of a request: bytes, which of them pass, and the state after the draws. -/
def State.tbRecords (s : State) (dead : Bool) : List (List Byte) → List Byte × List Bool × State
  | [] => ([], [], s)
  | r :: rs =>
    let a := s.tbRecord r dead
    let t := a.2.2.tbRecords dead rs
    (a.1 ++ t.1, a.2.1 :: t.2.1, t.2.2)

/-- Why a slot is published. -/
inductive PubWhy where
  /-- its stage commands have ended -/
  | done
  /-- R288 -/
  | abandoned
  /-- R299 -/
  | reset
  deriving DecidableEq, Repr

/-- What one publication leaves: status, detail and digest for its command. -/
structure PubOut where
  st : State
  id : Nat × Nat
  status : Nat
  detail : Nat
  value : Nat

/-- The result of slot `n` of carrier `c` in HBM (R300 to R302), its HARQ states (R291), capture states (R340) and the release of
its buffers (R288). The records' contents are what the learned networks and decoders gave: free values. -/
def State.publishSlot (s : State) (c : Carrier) (u : UlSlot) (why : PubWhy) : PubOut :=
  let d := c.desc
  let k := c.abs u.n
  let b := u.req
  let e := cEng d
  let rx := (s.rxOf c.id u.n).getD ⟨c.id, u.n, [], [], [], none⟩
  let dead := decide (why ≠ .done)
  let now := s.timeFor c.part
  let start := rx.start.getD (now / 2 ^ 44)
  let lat := min 0xFFFFFFFF (now / 2 ^ 44 - start)
  let late := decide (why = .abandoned) || decide (deadlineNs (cMu d) < lat)
  let maybe := decide (0 < reqCount b 2 ∨ 0 < reqCount b 3) && !rx.missing.isEmpty
  let dr := s.draw
  let missing := missesAlloc b rx.missing || (maybe && decide (dr.1.toNat % 2 = 1))
  let gen := (u.gen.getD (s.genAt d k))
  let change := decide (c.gen ≠ none ∧ c.gen ≠ some gen)
  let detail := b2n missing + 2 * b2n (decide (why = .abandoned)) + 4 * b2n u.rerun + 8 * b2n change + 16 * b2n u.nonfinite
  let status := if why = .reset then RESET_ABORT else if late then DEADLINE_MISS else if u.nonfinite then NONFINITE_FLAG
    else if reqEmpty b then OK_EMPTY else OK
  let base := key 0x40 (cResBase d + u.n % cResCount d * cResSize d)
  let tb := (dr.2).tbRecords dead (reqRecs false b 0)
  let d2 := tb.2.2.draw
  let np := d2.1.toNat % (64 * reqCount b 2 + 1)
  let nm := if reqEmpty b then 0 else d2.1.toNat / 2 ^ 16 % 2 ^ 16
  let uci := uciRecs b
  let off := fun i => Config.resultOff i b
  let mo := if rx.missing.isEmpty then 0 else Config.resultOff 4 b / 64 * 64
  let head := toLE 8 u.n ++ toLE 2 (slotSfn d k) ++ toLE 1 (slotIdx d k) ++ toLE 1 c.id ++ toLE 2 status ++ toLE 2 detail
    ++ toLE 4 tb.2.1.length ++ toLE 4 uci.length ++ toLE 4 np ++ toLE 4 nm ++ (List.range 4).flatMap (fun i => toLE 4 (off i))
    ++ toLE 8 start ++ toLE 4 lat ++ toLE 4 mo
  let s1 := d2.2.undef base (cResSize d)
  let s2 := s1.poke (base + off 0) tb.1
  let s3 := uci.zipIdx.foldl (fun (t : State) x => t.poke (base + off 1 + 16 * x.2) (toLE 2 x.1.1 ++ toLE 1 x.1.2.1)) s2
  let s4 := if rx.missing.isEmpty then s3 else s3.poke (base + mo) (missMap d rx.missing)
  let s5 := s4.poke base head
  let harq := if dead then [] else (reqRecs false b 0).map fun r => ((c.id, fieldLE r 0 2, fieldLE r 4 1), u.n)
  let s6 : State := { s5 with
    harq := s5.harq.filter (fun h => !(harq.any fun x => decide (x.1 = h.1))) ++ harq
    carriers := s5.carriers.map fun x => if x.id = c.id then { x with gen := some gen } else x
    ul := s5.ul.filter fun x => !(decide (x.carrier = c.id) && decide (x.n = u.n))
    rx := s5.rx.filter fun x => !(decide (x.carrier = c.id) && decide (x.n = u.n))
    published := s5.published ++ [(c.id, u.n)] }
  let s7 := s6.captureCommit e c u.n (decide (why ≠ .done) || late) rx.missing (fun i => tb.2.1.getD i false)
  let s8 := if late ∧ why = .done then s7.event DEADLINE_MISS e u.n else s7
  let img := s8.bytes base (cResSize d)
  let dig := crc32c (img.take 12 ++ (img.drop 16).take 40 ++ img.drop 60)
  let rep := (s.cmdOf u.cmd).any (·.replay)
  ⟨s8.digest rep c.part c.id (u.cmd.1 % 0x8000) u.cmd.2 (s.radioStep c.part) dig 0, u.cmd, status, detail, u.n % cResCount d⟩

/-- Commit the publications of one group for one slot as one record (R296), and finish their commands. -/
def State.finishGroup (s : State) (xs : List ((Nat × Nat) × Nat × Nat × Nat)) : State :=
  let real := xs.filter fun x => (s.cmdOf x.1).any fun c => !c.replay
  let s1 := match real with
    | [] => s
    | x :: r => s.ledgerCommit 0x02 ((x :: r).flatMap fun y => idBytes y.1 ++ toLE 1 y.2.1 ++ toLE 2 y.2.2.1 ++ toLE 4 y.2.2.2) (r.map (·.1))
  xs.foldl (fun (t : State) x => match t.cmdOf x.1 with
    | none => t
    | some c =>
      if c.replay then { t with cmds := t.cmds.filter fun y => !(decide (y.pair = x.1.1) && decide (y.seq = x.1.2)) }
      else { t.modCmd x.1 (fun c => { c with phase := .done }) with completions := t.completions ++
        [⟨x.1.1, x.1.2, x.2.1, x.2.2.1, x.2.2.2, bit (fieldLE c.pkt 1 1) 1⟩] }) s1

/-- Publish a list of slots together. -/
def State.publishAll (s : State) (why : PubWhy) (us : List (Carrier × UlSlot)) : State :=
  let r := us.foldl (fun (a : State × List ((Nat × Nat) × Nat × Nat × Nat)) x =>
    let o := a.1.publishSlot ((a.1.carriers.find? fun y => decide (y.id = x.1.id)).getD x.1) x.2 why
    (o.st, a.2 ++ [(o.id, o.status, o.detail, o.value)])) (s, [])
  r.1.finishGroup r.2

/-! ### Stage commands -/

/-- The id of a stage command. -/
def stageId (e kind k : Nat) : Nat × Nat := (0x10000 + 32 * e + kind, k)

/-- The stage with id `id` has ended. -/
def Stage.finish (id : Nat × Nat) (nf : Bool) (g : Stage) : Stage :=
  if stageId g.eng g.kind g.slot = id then { g with running := false, ended := true, nonfinite := nf } else g

/-- Stage commands whose engine has ended them: they are marked, with their flags, and the engine is free. -/
def State.collectStages (s : State) : State :=
  (List.finRange 8).foldl (fun (t : State) (e : Fin 8) => match t.eng[e].cmd with
    | none => t
    | some id =>
      if isStage id && t.eng[e].ended && t.eng[e].kill.isNone then
        let nf := t.nonfinite [e]
        let t1 : State := { t with stages := t.stages.map (Stage.finish id nf) }
        t1.modEng e fun en => { en with cmd := none, ended := false }
      else t) s

/-- Abandon slot `n` of a carrier (R288): its stage commands are killed, and it is published with DEADLINE_MISS; a slot without a
request gives its buffers up. Mirror records the decision. -/
def State.abandon (s : State) (c : Carrier) (n : Nat) : State :=
  let k := c.abs n
  let e := cEng c.desc
  let s0 := s.journalCarrier 0x13 0x60 c.id c.part s.ledTime (toLE 1 c.id ++ toLE 8 n ++ toLE 1 0 ++ toLE 1 2)
  let others := (s0.ulOf e k).filter fun x => decide (x.1.id ≠ c.id)
  let s1 := if others.isEmpty then
      let t := (List.finRange 8).foldl (fun (t : State) (j : Fin 8) => match t.eng[j].cmd with
        | some id => if j.val = e ∧ isStage id ∧ id.2 = k ∧ id.1 % 32 ≠ 30 then t.killEng j ⟨.uncounted, KILLED, 0⟩ else t
        | none => t) s0
      { t with stages := t.stages.filter fun g => !(decide (g.eng = e) && decide (g.slot = k) && decide (g.kind ≠ 30)) }
    else s0
  match s1.ul.find? fun u => decide (u.carrier = c.id) && decide (u.n = n) with
  | some u => s1.publishAll .abandoned [(c, u)]
  | none => { s1 with rx := s1.rx.filter fun x => !(decide (x.carrier = c.id) && decide (x.n = n)) }

end Sys2Proof.Machine
end

