-- ==== Sys2Proof/Machine/Shadow.lean ====
section
/-! DEFINITION. Shadow training (12): the configuration of a carrier group, trials, promotion and rollback of network sets. -/
namespace Sys2Proof.Machine

/-- The pointer block of engine `e`'s group (R336): NETSET of its carriers. -/
def State.netBlock (s : State) (e : Nat) : Option Nat := (s.group e).head?.map fun c => cNetset c.desc

/-- SETDIGEST of the set record at HBM offset `a` (Table 12.2). -/
def State.setDigest (s : State) (a : Nat) : List Byte := s.hbm (a + 208) 48

/-- Write bytes into HBM. -/
def State.hbmPut (s : State) (a : Nat) (bs : List Byte) : State := s.poke (key 0x40 a) bs

/-- Per cent of the array cycles that the admitted REALTIME jobs take (R344). -/
def State.rtShare (s : State) : Nat :=
  (s.jobs.filter fun j => s.isRealtime (if h : j.part < 8 then some ⟨j.part, h⟩ else none)).foldl
    (fun a j => a + Config.arrayShare (s.bytes (key 0x40 j.image) j.length)) 0

/-- SHADOW_CONFIG: parameters of Table 12.4 in the SHADOW partition that holds the ring. VALUE is the group's CAPDROP
(R341). An RSIZE of 0 has no effect (R369). -/
def State.shadowConfig (c : Cmd) (s : State) : State :=
  let e := c.param 0 1
  let cap := c.param 1 1
  let ring := c.param 16 8
  let rsize := c.param 24 8
  match c.partNo.bind fun p => s.parts[p] with
  | none => c.ends BAD_PARAM 0 0 s
  | some q =>
    if q.cls ≠ 1 ∨ s.nEngines ≤ e ∨ (70 < cap ∧ cap ≠ 0xFF) ∨ c.param 4 4 < 100 ∨ 65535 < c.param 4 4 ∨ c.param 8 4 < c.param 4 4
        ∨ 10000 < c.param 12 2 ∨ ring % 4096 ≠ 0 ∨ rsize % 4096 ≠ 0 ∨ q.inHbm ring rsize = false then c.ends BAD_PARAM 0 0 s
    else if rsize = 0 then c.ends OK_EMPTY 0 (((s.shGroup e).map (·.capdrop)).getD 0) s
    else if cap ≠ 0xFF ∧ 100 < cap + s.rtShare then c.ends NO_RESOURCE 0 0 s
    else
      let old := s.shGroup e
      let drop := (old.map (·.capdrop)).getD 0
      let fresh := decide (old.map (·.ring) ≠ some ring)
      let s1 := s.finish c.id OK 0 drop (slice c.pkt 16 32)
      let g : Group := ⟨e, c.param 2 2, c.param 4 4, c.param 8 4, c.param 12 2, c.param 14 2, ring, rsize,
        if fresh then 0 else drop, (old.map (·.since)).getD 0, (old.map (·.oldGen)).getD 0, old.bind (·.trial)⟩
      let s2 : State := { s1 with shadow := { s1.shadow with
        cap := if cap = 0xFF then s1.shadow.cap else cap
        groups := (s1.shadow.groups.filter fun x => decide (x.eng ≠ e)) ++ [g] } }
      if fresh then s2.hbmPut ring (List.replicate 64 0) else s2

/-- SHADOW_CONFIG (R341 to R344). -/
def execShadowConfig (pair : BitVec 16) (s : State) : Out := onCmd 0x30 pair State.shadowConfig s

/-- The end of a 1 ms window (R343): cycles beyond its budget are charged to the next window. -/
def execShadowCapWindow (s : State) : Out :=
  .next { s with
    ptp := (s.ptp / nsT 1000000 + 1) * nsT 1000000
    shadow := { s.shadow with used := s.shadow.used - s.shadowBudget } }

/-! ### Trials -/

/-- The candidate record and its three images at HBM offset `a` are sound for a pointer block's ARCH (R345). -/
def State.candOk (s : State) (a arch : Nat) : Bool :=
  let img := fun o i => decide (0 < s.hbmN (a + o + 8) 4)
    && decide (leNat (s.hbm (a + 64 + 48 * i) 48).reverse = Config.sha384 (s.hbm (s.hbmN (a + o) 8) (s.hbmN (a + o + 8) 4)))
  decide (a % 256 = 0) && decide (s.hbmN (a + 4) 4 = arch) && img 8 0 && img 20 1 && img 32 2
    && decide (leNat (s.setDigest a).reverse = Config.sha384 (s.hbm a 208))

/-- Bytes of a set record and its images. -/
def State.candSize (s : State) (a : Nat) : Nat := 256 + s.hbmN (a + 16) 4 + s.hbmN (a + 28) 4 + s.hbmN (a + 40) 4

/-- The NET_TRIAL_END record (Table 12.6). -/
def State.trialEndRecord (s : State) (e : Nat) (t : Trial) (detail : Nat) (decided : Bool) : State :=
  s.ledgerCommit 0x12 (toLE 1 e ++ s.setDigest t.cand ++ toLE 2 detail
    ++ if decided then toLE 8 t.pc ++ toLE 8 t.pd ++ toLE 8 (wrapN 64 t.sc) ++ toLE 8 (wrapN 64 t.sd) else [])

/-- The group holds no trial: TRIAL of its pointer block is 0. -/
def State.clearTrial (s : State) (e : Nat) : State :=
  let s1 := s.modGroup e fun g => { g with trial := none }
  match s1.netBlock e with
  | some a => s1.hbmPut (a + 28) (toLE 1 0)
  | none => s1

/-- GEN_CUR of a group. -/
def State.genCur (s : State) (e : Nat) : Nat := ((s.netBlock e).map fun a => s.hbmN (a + 16) 4).getD 0

/-- A trial ends unpromoted (Table 12.5). -/
def State.endTrial (s : State) (e detail : Nat) (decided : Bool) : State :=
  match (s.shGroup e).bind (·.trial) with
  | none => s
  | some t => ((s.trialEndRecord e t detail decided).clearTrial e).finish t.cmd ROLLBACK detail (s.genCur e)

/-- NET_TRIAL with ABORT (R345, Table 12.5). -/
def State.netTrialAbort (c : Cmd) (s : State) : State :=
  let e := c.param 0 1
  if leNat (slice c.pkt 18 46) ≠ 0 ∨ c.param 1 1 ≠ 1 then c.ends BAD_PARAM 0 0 s
  else if ((s.shGroup e).bind (·.trial)).isNone then c.ends OK_EMPTY 0 (s.genCur e) s
  else c.ends OK 0 (s.genCur e) (s.endTrial e 8 false)

/-- NET_TRIAL: the candidate is checked and copied, and the trial starts with the first slot whose air start follows (R346). -/
def State.netTrial (c : Cmd) (s : State) : State :=
  let e := c.param 0 1
  if bit (c.param 1 1) 0 then s.netTrialAbort c
  else match s.shGroup e, s.group e with
    | some g, x :: _ =>
      let a := cNetset x.desc
      let cand := c.param 8 8
      if g.trial.isSome then c.ends NO_RESOURCE 0 0 s
      else if s.candOk cand (s.hbmN (a + 24) 4) = false then c.ends BAD_PARAM 0 0 s
      else if Config.netRoom e < s.candSize cand then c.ends NO_RESOURCE 0 0 s
      else
        let o := Config.netSlot e (s.hbmN a 8) (s.hbmN (a + 8) 8)
        let im := fun k => s.hbm (s.hbmN (cand + k) 8) (s.hbmN (cand + k + 8) 4)
        let s1 := s.hbmPut o (s.hbm cand 256 ++ im 8 ++ im 20 ++ im 32)
        let s2 := (s1.hbmPut (a + 28) (toLE 1 1)).hbmPut (a + 32) (toLE 8 0)
        let t : Trial := ⟨c.id, o, s.slotAfter x.desc (s.timeFor x.part), 0, 0, 0, 0, 0, 0, 0, 0, 0, 0⟩
        (s2.modGroup e fun g => { g with trial := some t }).modCmd c.id fun c => { c with phase := .waiting }
    | _, _ => c.ends BAD_PARAM 0 0 s

/-- NET_TRIAL (R345). -/
def execNetTrial (pair : BitVec 16) (s : State) : Out := onCmd 0x31 pair State.netTrial s

/-- What a published capture slot adds to a running trial (R346, R347): the slot has elapsed, and it is evaluated when its capture was
not dropped and SHADOW commands may run (R344). The candidate's results are free values. -/
def State.trialSlot (s : State) (e k : Nat) (us : List (Carrier × UlSlot)) (captured : Bool) : State :=
  match (s.shGroup e).bind (·.trial), us with
  | some t, x :: _ =>
    if k < t.first then s
    else
      let ntb := us.foldl (fun a u => a + reqCount u.2.req 0) 0
      let pd := us.foldl (fun a u =>
        let base := cResBase u.1.desc + u.2.n % cResCount u.1.desc * cResSize u.1.desc + Config.resultOff 0 u.2.req
        a + ((List.range (reqCount u.2.req 0)).filter fun i => decide (s.hbmN (base + 32 * i + 3) 1 = 0)).length) 0
      let d1 := s.draw
      let d2 := d1.2.draw
      let d3 := d2.2.draw
      let d4 := d3.2.draw
      let ev := captured && decide (0 < s.shadow.cap)
      let t1 : Trial := { t with seen := k + 1 - t.first }
      let t2 : Trial := if ev then { t1 with
          evald := t.evald + 1
          firstEval := if t.evald = 0 then x.2.n else t.firstEval
          lastEval := x.2.n
          ntb := t.ntb + ntb
          pd := t.pd + pd
          pc := t.pc + d1.1.toNat % (ntb + 1)
          sc := t.sc + d2.1.toInt
          sd := t.sd + d3.1.toInt
          nbits := t.nbits + d4.1.toNat }
        else t1
      let s1 := (if ev then d4.2 else s).modGroup e fun g => { g with trial := some t2 }
      match s1.netBlock e with
      | some a => s1.hbmPut (a + 32) (toLE 4 t2.evald ++ toLE 4 t2.seen)
      | none => s1
  | _, _ => s

/-- The CRC and LLR comparisons of R347. -/
def Trial.crcOk (t : Trial) (mcrc : Nat) : Bool := decide (max 1 (ceilDiv (mcrc * t.ntb) 10000) ≤ (t.pc : Int) - t.pd)
def Trial.llrOk (t : Trial) (mllr : Nat) : Bool := decide (max 1 ((mllr * t.nbits : Nat) : Int) ≤ t.sc - t.sd)

/-- Promotion (R349): the NET_PROMOTE record, then one update of the pointer block. -/
def State.promote (s : State) (e : Nat) (t : Trial) : State :=
  match s.netBlock e with
  | none => s
  | some a =>
    let cur := s.hbmN a 8
    let gen := s.hbmN (a + 16) 4
    let s1 := s.ledgerCommit 0x10 (toLE 1 e ++ toLE 4 gen ++ s.setDigest cur ++ toLE 4 (gen + 1) ++ s.setDigest t.cand ++ toLE 8 t.pc
      ++ toLE 8 t.pd ++ toLE 8 t.ntb ++ toLE 8 (wrapN 64 t.sc) ++ toLE 8 (wrapN 64 t.sd) ++ toLE 8 t.nbits ++ toLE 8 t.firstEval
      ++ toLE 8 t.lastEval ++ toLE 8 s.ledTime)
    let s2 := s1.hbmPut a (toLE 8 t.cand ++ toLE 8 cur ++ toLE 4 (gen + 1) ++ toLE 4 gen)
    s2.modGroup e fun g => { g with since := s.ptpNs, oldGen := gen }

/-- TRIAL_DECIDE: GUARD slots have been evaluated (R347). -/
def execTrialDecide (e : Fin 8) (s : State) : Out :=
  match s.shGroup e.val with
  | none => .next s
  | some g => match g.trial with
    | none => .next s
    | some t =>
      if t.evald < g.guard ∨ s.ledger.up = false then .next s
      else
        let c := t.crcOk g.mcrc
        let l := t.llrOk g.mllr
        if c ∧ l then
          let s1 := (s.promote e.val t).clearTrial e.val
          .next (s1.finish t.cmd OK 0 (s1.genCur e.val))
        else .next (s.endTrial e.val (b2n (!c) + 2 * b2n (!l)) true)

/-- TRIAL_TIMEOUT: TMAX slots have elapsed (R348). -/
def execTrialTimeout (e : Fin 8) (s : State) : Out :=
  match s.shGroup e.val, s.group e.val with
  | some g, x :: _ => match g.trial with
    | none => .next s
    | some t =>
      if g.guard ≤ t.evald ∨ s.ledger.up = false then .next s
      else .next ((s.passTime x.part (s.airTime x.desc (t.first + g.tmax) 0)).endTrial e.val 4 false)
  | _, _ => .next s

/-- NET_ROLLBACK: CUR and PREV change places (R350). -/
def State.netRollback (c : Cmd) (s : State) : State :=
  let e := c.param 0 1
  match s.netBlock e with
  | none => c.ends BAD_PARAM 0 0 s
  | some a =>
    let cur := s.hbmN a 8
    let prev := s.hbmN (a + 8) 8
    let gen := s.hbmN (a + 16) 4
    let genp := s.hbmN (a + 20) 4
    if prev = 0 then c.ends BAD_PARAM 0 0 s
    else
      let s1 := s.endTrial e 8 false
      let s2 := s1.ledgerCommit 0x11 (toLE 1 e ++ toLE 4 gen ++ s1.setDigest cur ++ toLE 4 genp ++ s1.setDigest prev ++ toLE 8 s1.ledTime)
      let s3 := s2.hbmPut a (toLE 8 prev ++ toLE 8 cur ++ toLE 4 genp ++ toLE 4 gen)
      c.ends OK 0 genp (s3.modGroup e fun g => { g with since := s.ptpNs, oldGen := gen })

/-- NET_ROLLBACK (R350). -/
def execNetRollback (pair : BitVec 16) (s : State) : Out := onCmd 0x32 pair State.netRollback s

end Sys2Proof.Machine
end

