-- ==== Sys2Proof/Machine/Radio.lean ====
section
/-! DEFINITION. Carriers, slot requests and the stage commands (10). -/
namespace Sys2Proof.Machine

/-! ### Carriers (R281 to R284, R336, R377) -/

/-- The fields of a carrier descriptor are in range (Table 10.2). -/
def carrierOk (d : List Byte) : Bool :=
  (!(cEcp d) || decide (cMu d = 2)) && decide (1 ≤ cUl d) && decide (1 ≤ cDl d)
    && bit (cGroupEnd d) (cNsym d - 1) && decide (cGroupEnd d < 2 ^ cNsym d) && decide (cDmrsLast d ≤ (cGroups d).headD 0)
    && decide (cRxOpen d < cRxClose d) && decide (cRxClose d ≤ slotNs (cMu d)) && decide (cTxClose d < cTxOpen d)
    && decide (cResBase d % 4096 = 0) && decide (4 ≤ cResCount d) && decide (cResCount d ≤ 4096) && decide (cResSize d % 4096 = 0)
    && decide (0 < cResSize d)

/-- Limits of Table 10.1 for a carrier. -/
def carrierLimits (d : List Byte) : Bool := decide (cNprb d ≤ 273) && decide (cUl d ≤ 16) && decide (cDl d ≤ 16)

/-- The entries of an eAxC map are in range, with their directions in order (Table 10.3). -/
def mapOk (d m : List Byte) : Bool :=
  (List.range (cUl d + cDl d)).all fun i =>
    let x := mapEntry m i
    decide (mDir x = b2n (decide (cUl d ≤ i))) && decide (mSbase x % 4096 = 0) && decide (mSbase x < SPAD)

/-- The uplink slot buffers of a carrier end in the first `lim` bytes of the scratchpad (R282, R285). -/
def buffersFit (d m : List Byte) (lim : Nat) : Bool :=
  (List.range (cUl d)).all fun i => decide (mSbase (mapEntry m i) + 3 * cNsym d * cStride d ≤ lim)

/-- Register the streams of an eAxC map at the owning engine, as firmware does (R60, R377). -/
def State.registerMap (s : State) (d m : List Byte) : Option State :=
  s.registerAll ((List.range (cUl d + cDl d)).map fun i =>
    (cEng d, mStream (mapEntry m i), Config.carrierEsc, Config.carrierMax, 0))

/-- Change the carrier with number `id`. -/
def State.modCarrier (s : State) (id : Nat) (f : Carrier → Carrier) : State :=
  { s with carriers := s.carriers.map fun c => if c.id = id then f c else c }

/-- CARRIER_CFG after the descriptor has been read: the configuration waits for its boundary (R283). -/
def State.carrierPlan (c : Cmd) (p : Nat) (q : Part) (s : State) (d m : List Byte) : State :=
  let id := c.param 0 1
  let old := s.carriers.find? fun x => decide (x.id = id)
  let others := s.carriers.filter fun x => decide (x.id ≠ id) && decide (cEng x.desc = cEng d)
  let put := fun (t : State) =>
    let nx := (c.id, p, d, m)
    let t1 := match old with
      | some _ => t.modCarrier id fun x => { x with next := some nx }
      | none => { t with carriers := t.carriers ++ ([⟨id, p, d, m, none, some nx, none⟩] : List Carrier) }
    t1
  let wait := fun (t : State) => t.modCmd c.id fun c => { c with phase := .waiting }
  if cNprb d = 0 then (if (old.bind (·.base)).isSome then wait (put s) else c.ends BAD_PARAM 0 0 s)
  else if carrierOk d = false ∨ mapOk d m = false
      ∨ (others.any fun x => decide (cMu x.desc ≠ cMu d) || decide (cEcp x.desc ≠ cEcp d) || decide (cNetset x.desc ≠ cNetset d)) then
    c.ends BAD_PARAM 0 0 s
  else if carrierLimits d = false ∨ (old.isNone ∧ s.nCarriers ≤ s.carriers.length) ∨ 3 < others.length
      ∨ buffersFit d m (if q.lends then q.lendBase else SPAD) = false then c.ends NO_RESOURCE 0 0 s
  else match s.registerMap d m with
    | none => c.ends NO_RESOURCE 0 0 s
    | some s1 => if (put s1).admits s.power.cap = false then c.ends ADMIT_REFUSED 0 0 s else wait (put s1)

/-- CARRIER_CFG: the partition and the descriptor (R377). -/
def State.carrierCfg (c : Cmd) (s : State) : State :=
  match c.partNo.bind fun p => s.parts[p].map fun q => (p.val, q) with
  | none => c.ends BAD_PARAM 0 0 s
  | some (p, q) =>
    let o := c.param 8 8
    if q.inHbm o 64 = false then c.ends BAD_PARAM 0 0 s
    else match s.read (key 0x40 o) 64 with
      | (s1, none) => c.ends ECC_UNCORR 0 0 s1
      | (s1, some d) =>
        if q.cls ≠ 0 ∨ bit q.engmask (cEng d) = false ∨ c.param 0 1 ≠ fieldLE d 0 1 % 32 ∨ 24 ≤ c.param 0 1 then c.ends BAD_PARAM 0 0 s1
        else match s1.read (key 0x40 (cEaxc d)) (16 * (cUl d + cDl d)) with
          | (s2, none) => c.ends ECC_UNCORR 0 0 s2
          | (s2, some m) => s2.carrierPlan c p q d m

/-- CARRIER_CFG (R377). -/
def execCarrierCfg (pair : BitVec 16) (s : State) : Out := onCmd 0x20 pair State.carrierCfg s

/-- CARRIER_SWITCH: every slot that the carrier holds in flight has been published, and the first slot boundary after that comes: the
new descriptor takes effect and the command completes (R283, R284). A running trial of a group concerned ends (Table 12.5). -/
def State.carrierSwitch (s : State) (c : Carrier) (id : Nat × Nat) (p : Nat) (d m : List Byte) : State :=
  let k := s.slotAfter (if c.base.isSome then c.desc else d) (s.timeFor p)
  let s0 := s.passTime p (s.airTime (if c.base.isSome then c.desc else d) k 0 - 1)
  let s1 := if c.base.isSome then (s0.endTrial (cEng c.desc) 8 false) else s0
  let s2 := s1.endTrial (cEng d) 8 false
  let s3 := s2.finish id OK 0 c.id (toLE 1 c.id ++ d ++ m)
  if cNprb d = 0 then { s3 with carriers := s3.carriers.filter fun x => decide (x.id ≠ c.id) }
  else
    let kb := s3.slotAfter d (s3.timeFor p)
    let base := match c.base with
      | none => kb
      | some b => kb - (k - b)
    s3.modCarrier c.id fun _ => ⟨c.id, p, d, m, some base, none, c.gen⟩

/-- CARRIER_SWITCH of carrier `c` (R283). -/
def execCarrierSwitch (c : Fin 24) (s : State) : Out :=
  match s.carriers.find? fun x => decide (x.id = c.val) with
  | none => .next s
  | some x => match x.next with
    | none => .next s
    | some (id, p, d, m) =>
      if (s.ul.any fun u => decide (u.carrier = x.id)) || (s.dl.any fun u => decide (u.carrier = x.id)) || !s.ledger.up then .next s
      else .next (s.carrierSwitch x id p d m)

/-! ### Slot requests (R293, R304, R378) -/

/-- A slot request up to its block: the carrier, the slot and the block's bytes, or how the command ends. -/
def State.slotReq (s : State) (c : Cmd) (dl : Bool) : State × (Nat ⊕ (Carrier × Nat × List Byte)) :=
  let n := c.param 8 8
  match s.carrier (c.param 0 1), c.partNo.bind fun p => s.parts[p] with
  | some x, some q =>
    let o := c.param 16 8
    let len := c.param 24 4
    if x.part ≠ c.part ∨ cQpair x.desc ≠ c.pair % 0x8000 then (s, .inl BAD_PARAM)
    else if len = 0 then (s, .inl OK_EMPTY)
    else if o % 64 ≠ 0 ∨ q.inHbm o len = false then (s, .inl BAD_PARAM)
    else match s.read (key 0x40 o) len with
      | (s1, none) => (s1, .inl ECC_UNCORR)
      | (s1, some b) =>
        if fieldLE b 0 8 ≠ n ∨ fieldLE b 8 1 ≠ x.id ∨ fieldLE b 9 1 ≠ b2n dl ∨ reqFits dl b = false ∨ reqOptions dl x.desc b = false then
          (s1, .inl BAD_PARAM)
        else if reqLimits dl b = false then (s1, .inl NO_RESOURCE)
        else (s1, .inr (x, n, b))
  | _, _ => (s, .inl BAD_PARAM)

/-- Slot counter of the previous uplink request on a host pair (R293). -/
def State.prevUl (s : State) (pair : Nat) : Option Nat := (s.lastUl.find? fun x => decide (x.1 = pair)).map (·.2)

/-- UL_SLOT. -/
def State.ulSlot (c : Cmd) (s : State) : State :=
  let n := c.param 8 8
  if (s.prevUl c.pair).any fun m => decide (n ≤ m) then c.ends BAD_PARAM 0 0 s
  else
    let note := fun (t : State) => { t with lastUl := (t.lastUl.filter fun x => decide (x.1 ≠ c.pair)) ++ [(c.pair, n)] }
    match s.slotReq c false with
    | (s1, .inl st) => c.ends st 0 0 (if st = BAD_PARAM then s1 else note s1)
    | (s1, .inr (x, n, b)) =>
      if cResSize x.desc < resultBytes b then c.ends NO_RESOURCE 0 0 (note s1)
      else if s.estTrigger x.desc (x.abs n) ≤ s.timeFor x.part then c.ends DEADLINE_MISS 32 0 (note s1)
      else
        let s2 := (note s1).modCmd c.id fun c => { c with phase := .waiting }
        { s2 with ul := s2.ul ++ ([⟨x.id, n, c.id, b, none, false, false, false, false⟩] : List UlSlot) }

/-- UL_SLOT (R293). -/
def execUlSlot (pair : BitVec 16) (s : State) : Out := onCmd 0x21 pair State.ulSlot s

/-- DL_SLOT. -/
def State.dlSlot (c : Cmd) (s : State) : State :=
  match s.slotReq c true with
  | (s1, .inl st) => c.ends st 0 0 s1
  | (s1, .inr (x, n, b)) =>
    if s.txTrigger (cEng x.desc) x.desc (x.abs n) ≤ s.timeFor x.part then c.ends DEADLINE_MISS 32 0 s1
    else
      let s2 := s1.modCmd c.id fun c => { c with phase := .waiting }
      { s2 with dl := s2.dl ++ ([⟨x.id, n, c.id, b, false, [], false, false⟩] : List DlSlot) }

/-- DL_SLOT (R304). -/
def execDlSlot (pair : BitVec 16) (s : State) : Out := onCmd 0x22 pair State.dlSlot s

/-! ### Stage commands (R295 to R297, R304, R306, R307) -/

/-- The stage command of engine `e` whose trigger comes first among those not started: slot and kind. -/
def State.nextStage (s : State) (e : Nat) : Option (Nat × Nat) :=
  (s.dueStages e).foldl (fun b x => match b with
    | none => some x
    | some y => if s.stageTime e x.2 x.1 < s.stageTime e y.2 y.1 then some x else b) none

/-- A downlink request ends. -/
def State.endDl (s : State) (u : DlSlot) (status : Nat) : State :=
  { s.finish u.cmd status 0 0 with dl := s.dl.filter fun x => !(decide (x.carrier = u.carrier) && decide (x.n = u.n)) }

/-- At the TX trigger, requests whose SRS slot has not been published end with BAD_PARAM (R306). -/
def State.dropSrs (s : State) (e k : Nat) : State :=
  (s.dlOf e k).foldl (fun t x =>
    let n := Config.srsSlot x.2.req
    if n ≠ 0 ∧ (x.1.id, n - 1) ∉ t.published then t.endDl x.2 BAD_PARAM else t) s

/-- Carriers that a stage command serves. -/
def State.stageCarriers (s : State) (e kind k : Nat) : List Nat :=
  if kind = 30 then (s.dlOf e k).map (·.1.id) else (s.ulOf e k).map (·.1.id)

/-- Start stage command `kind` of slot `k` on engine `e` (R295): the radio image's entry; the slot's network set is fixed, and EST
claims the slot's capture records. -/
def State.startStage (s : State) (e : Fin 8) (kind k : Nat) : State :=
  match (s.group e.val).head?.bind fun c => s.radioJob c.part with
  | none => s
  | some j =>
    let cs := s.stageCarriers e.val kind k
    let entry := s.jobEntry j (Config.stageEntry kind (s.group e.val).length)
    let a := Config.stageArg kind k
    let ctx := s.contextBlock j a.1 a.2 j.step
    let s1 := if kind = 0 then s.capture e.val k else s
    let s2 := (s1.toIdle e).launch e (stageId e.val kind k) j entry ctx j.step
    { s2 with
      stages := s2.stages ++ ([⟨e.val, kind, k, cs, true, false, false⟩] : List Stage)
      ul := s2.ul.map fun u => match s2.carrier u.carrier with
        | some c => if kind < 30 ∧ cEng c.desc = e.val ∧ c.abs u.n = k ∧ u.gen = none then { u with gen := some (s2.genAt c.desc k) } else u
        | none => u }

/-- The trigger of a stage command on engine `e` comes (R295): a command of another class is killed, a stage command that runs ends
first, and on the free engine the stage starts. `mine` says which kinds the row names. -/
def State.runStage (s : State) (e : Fin 8) (mine : Nat → Bool) : State :=
  let s0 := s.collectStages
  match s0.nextStage e.val with
  | none => s0
  | some (k, kind) =>
    if mine kind = false then s0
    else
      let p := ((s0.group e.val).head?.map (·.part)).getD 0
      let s1 := s0.passTime p (s0.stageTime e.val kind k)
      let s2 := if kind = 30 then s1.dropSrs e.val k else s1
      if kind = 30 ∧ s2.dlOf e.val k = [] then s2
      else match s2.eng[e].cmd with
        | some id =>
          if isStage id ∨ s2.isRealtime (s2.ownerPart e) then s2 else s2.killCmdOn e ⟨.uncounted, KILLED, 0⟩
        | none => if s2.engFree e then s2.startStage e kind k else s2

/-- EST on engine `e` (R295). -/
def execEst (e : Fin 8) (s : State) : Out := .next (s.runStage e fun k => decide (k = 0))

/-- EQ_g on engine `e` (R295). -/
def execEq (e : Fin 8) (s : State) : Out := .next (s.runStage e fun k => decide (1 ≤ k ∧ k < 30))

/-- TX on engine `e` (R304). -/
def execTx (e : Fin 8) (s : State) : Out := .next (s.runStage e fun k => decide (k = 30))

/-- DEC for the earliest slot of engine `e`'s group that has none (R295): from the EST trigger on, the partition's decoders take the
slot's code blocks as their queues name them. -/
def execDec (e : Fin 8) (s : State) : Out :=
  let ks := ((s.group e.val).flatMap fun c => (s.ul.filter fun u => decide (u.carrier = c.id) && !u.aborted).map fun u => c.abs u.n).filter fun k =>
    !(s.stages.any fun g => decide (g.eng = e.val) && decide (g.slot = k) && decide (g.kind = 31))
  match ks.min? with
  | none => .next s
  | some k =>
    let p := ((s.group e.val).head?.map (·.part)).getD 0
    let s1 := s.passTime p (s.stageTime e.val 31 k)
    .next { s1 with stages := s1.stages ++ ([⟨e.val, 31, k, s1.stageCarriers e.val 31 k, true, false, false⟩] : List Stage) }

/-- STAGE_RERUN: the oldest killed stage command becomes due again (R297); the slots that it serves carry RERUN when the kill was for
a fault. A TX of which a frame has left is not re-run, and its requests end with RESET_ABORT (R307). -/
def execStageRerun (s : State) : Out :=
  match s.stageKills with
  | [] => .next s
  | (id, k) :: rest =>
    let e := (id.1 - 0x10000) / 32
    let kind := (id.1 - 0x10000) % 32
    let s1 : State := { s with
      stageKills := rest
      stages := s.stages.filter fun g => decide (stageId g.eng g.kind g.slot ≠ id)
      ul := s.ul.map fun u => match s.carrier u.carrier with
        | some c => if kind < 30 ∧ cEng c.desc = e ∧ c.abs u.n = id.2 ∧ k.why ≠ .uncounted then { u with rerun := true } else u
        | none => u }
    .next (if kind = 30 then (s1.dlOf e id.2).foldl (fun t x => if x.2.left then t.endDl x.2 RESET_ABORT else t) s1 else s1)

/-- The decoders of partition `p` have no descriptor of it left. -/
def State.decodersIdle (s : State) (p : Nat) : Bool :=
  (List.range 8).all fun f => (List.range 32).all fun q => decide (Config.facetPart f q % 8 ≠ p) || !(s.fctBusy f q)

/-- Every stage command of slot `k` of engine `e`'s group has ended. -/
def State.slotEnded (s : State) (e k : Nat) : Bool :=
  (List.range (1 + nGroups (s.group e))).all (fun i => s.stages.any fun g =>
    decide (g.eng = e) && decide (g.slot = k) && decide (g.kind = i) && g.ended)
    && s.stages.any fun g => decide (g.eng = e) && decide (g.slot = k) && decide (g.kind = 31)

/-- SLOT_PUBLISH of slot `k` of engine `e`'s group (R296, R299). -/
def execSlotPublish (e : Fin 8) (k : BitVec 64) (s : State) : Out :=
  let s0 := s.collectStages
  let k := k.toNat
  let dead := (s0.group e.val).flatMap fun c =>
    (s0.ul.filter fun u => decide (u.carrier = c.id) && decide (c.abs u.n = k) && u.aborted).map fun u => (c, u)
  let us := s0.ulOf e.val k
  if s0.ledger.up = false ∨ s0.fullIf = false then .next s0
  else if dead.isEmpty = false then .next (s0.publishAll .reset dead)
  else match us with
    | [] => .next s0
    | (c, _) :: _ =>
      if s0.slotEnded e.val k = false ∨ s0.decodersIdle c.part = false then .next s0
      else
        let nf := s0.stages.any fun g => decide (g.eng = e.val) && decide (g.slot = k) && decide (g.kind ≠ 30) && g.nonfinite
        let capd := s0.captures.any fun x => decide (x.eng = e.val) && us.any fun u => decide (u.1.id = x.carrier) && decide (u.2.n = x.n)
        let s1 := s0.publishAll .done (us.map fun u => (u.1, { u.2 with nonfinite := nf }))
        let s2 : State := { s1 with stages := s1.stages.filter fun g => !(decide (g.eng = e.val) && decide (g.slot = k) && decide (g.kind ≠ 30)) }
        .next (s2.trialSlot e.val k us capd)

/-- DL_SLOT_COMPLETE: every symbol of every stream of the request has been sent or dropped, and its C-plane has left (R307). -/
def execDlSlotComplete (c : Fin 24) (n : BitVec 64) (s : State) : Out :=
  match s.carrier c.val, s.dl.find? fun u => decide (u.carrier = c.val) && decide (u.n = n.toNat) with
  | some x, some u =>
    let all := (List.range (cDl x.desc)).all fun i => (List.range (cNsym x.desc)).all fun y => decide (i * 14 + y ∈ u.done)
    if all = false ∨ u.cplane = false ∨ s.ledger.up = false then .next s
    else
      let e := cEng x.desc
      let k := x.abs u.n
      let s1 := s.collectStages.endDl u (if u.missed then DEADLINE_MISS else OK)
      .next (if s1.dlOf e k = [] then
          { s1 with stages := s1.stages.filter fun g => !(decide (g.eng = e) && decide (g.slot = k) && decide (g.kind = 30) && g.ended) }
        else s1)
  | _, _ => .next s

end Sys2Proof.Machine
end

