-- ==== Sys2Proof/Machine/Front.lean ====
section
/-! DEFINITION. Fronthaul ports (17): classification, the uplink U-plane and block assembly, delivery (R286 to R288), the downlink
and its compression, forwarding and transparent clocks, configuration. eCPRI and O-RAN field places are those of the standards of
Table 0.2. -/
namespace Sys2Proof.Machine

/-! ### Ports -/

/-- A register of fronthaul port `p`. -/
def fhKey (p o : Nat) : Nat := key (0x20 + p) (CTU + o)

/-- Add `n` to count `k` of a port (Table 17.8). -/
def State.fhCount (s : State) (p k n : Nat) : State := if n = 0 then s else s.countUp (fhKey p (0x40 + 4 * k)) n

def State.fhMode (s : State) (p : Nat) : Nat := s.fld (fhKey p 0) 2 0
def State.fhUdp (s : State) (p : Nat) : Bool := decide (s.fld (fhKey p 0) 3 3 = 1)
def State.fhVlan (s : State) (p : Nat) : Bool := decide (s.fld (fhKey p 0) 4 4 = 1)
def State.fhRole (s : State) (p : Nat) : Nat := s.fld (fhKey p 0) 6 5

/-- The port is on and its link is up. -/
def State.fhUp (s : State) (p : Nat) : Bool := decide (s.fhMode p ≠ 0) && decide (s.fld (fhKey p 4) 0 0 = 1) && s.computeUp

/-- What FH_CONFIG set for a port beside its registers. -/
def State.fhComp (s : State) (p : Nat) : FhComp := Sparse.get (fun _ => (⟨0, 0, 0, 0⟩ : FhComp)) s.front.comp p

/-- Change the ports' state. -/
def State.modFront (s : State) (f : Front → Front) : State := { s with front := f s.front }

/-- The big-endian number in `n` bytes of `b` from `i`. -/
def beAt (b : List Byte) (i n : Nat) : Nat := leNat (slice b i n).reverse

/-- `n` bytes, most significant first. -/
def toBE (n v : Nat) : List Byte := (toLE n v).reverse

/-- Own and peer MAC addresses of a port as 48-bit numbers (Table 17.6). -/
def State.fhMac (s : State) (p : Nat) : Nat := s.fld (fhKey p 0xC) 15 0 * 2 ^ 32 + s.regN (fhKey p 8)
def State.fhPeer (s : State) (p : Nat) : Nat := s.fld (fhKey p 0x14) 15 0 * 2 ^ 32 + s.regN (fhKey p 0x10)

/-- A stamp in 2^-16 ns moves the PTP clock forward. -/
def State.passStamp (s : State) (t : Nat) : State := { s with ptp := max s.ptp (t * 2 ^ 28) }

/-- A signed constant of R479. -/
def State.asym (s : State) (p o : Nat) : Int := sext 32 (s.regN (fhKey p o))

/-! ### Frames -/

/-- A frame carries an IEEE 802.1Q tag. -/
def tagged (f : List Byte) : Bool := decide (beAt f 12 2 = 0x8100)

/-- Offset of a frame's EtherType, and its EtherType and VID. -/
def etOff (f : List Byte) : Nat := if tagged f then 16 else 12
def etherType (f : List Byte) : Nat := beAt f (etOff f) 2
def frameVid (f : List Byte) : Nat := beAt f 14 2 % 4096

/-- Table 17.2 rule 1, PTP; rule 2, ESMC. -/
def isPtp (f : List Byte) : Bool :=
  (decide (beAt f 0 6 = 0x011B19000000) || decide (beAt f 0 6 = 0x0180C200000E)) && decide (etherType f = 0x88F7)
def isEsmc (f : List Byte) : Bool :=
  decide (beAt f 0 6 = 0x0180C2000002) && decide (etherType f = 0x8809) && decide (beAt f (etOff f + 2) 1 = 0xA)

/-- Rule 3: the frame is for the port's eCPRI processing. -/
def State.isEcpri (s : State) (p : Nat) (f : List Byte) : Bool :=
  decide (beAt f 0 6 = s.fhMac p) && (if s.fhUdp p then
      decide (etherType f = 0x0800) && decide (beAt f (etOff f + 11) 1 = 17) && decide (beAt f (etOff f + 4 + beAt f (etOff f + 2) 1 % 16 * 4) 2 = s.fld (fhKey p 0x24) 15 0)
    else decide (etherType f = 0xAEFE))

/-- Rule 4: the egress port of the first valid entry of the forwarding table that matches (R474). -/
def State.fwdPort (s : State) (p : Nat) (f : List Byte) : Option Nat :=
  let key := fun j o => fhKey p (0x100 + 16 * j + o)
  ((List.range 64).find? fun j =>
    let hi := s.regN (key j 4)
    let g := s.fld (key j 8) 3 0
    bit hi 31 && decide (beAt f 0 6 = bits hi 15 0 * 2 ^ 32 + s.regN (key j 0))
      && (!(bit hi 28) || (tagged f && decide (frameVid f = bits hi 27 16))) && decide (g ≠ p) && decide (s.fhMode g ≠ 0)).map
    fun j => s.fld (key j 8) 3 0

/-- A port sends a frame. -/
def State.sendFrame (s : State) (p : Nat) (f : List Byte) (bad : Bool := false) : State :=
  (s.fhCount p 13 1).modFront fun r => { r with
    out := Sparse.set (fun _ => []) r.out p f
    badFcs := if bad then (r.badFcs.filter (· ≠ p)) ++ [p] else r.badFcs.filter (· ≠ p) }

/-! ### Forwarding and transparent clocks (R475, R476, R481) -/

/-- Offset of the PTP header, and a message's type, twoStepFlag and sequence identifier. -/
def ptpOff (f : List Byte) : Nat := etOff f + 2
def ptpType (f : List Byte) : Nat := beAt f (ptpOff f) 1 % 16
def ptpTwoStep (f : List Byte) : Bool := bit (beAt f (ptpOff f + 6) 1) 1
def ptpSeq (f : List Byte) : Nat := beAt f (ptpOff f + 30) 2

/-- A correctionField and a residence, both in 2^-16 ns (R481). -/
def addCorrection (cf : Nat) (res : Int) : Nat :=
  let v := sext 64 cf + res
  if 2 ^ 63 - 1 < v ∨ v < -2 ^ 63 then 2 ^ 63 - 1 else wrapN 64 v

/-- Replace the bytes of `f` from `i` by `b`. -/
def putAt (f : List Byte) (i : Nat) (b : List Byte) : List Byte := f.take i ++ b ++ f.drop (i + b.length)

/-- A frame as it leaves port `g`, whose PCS time at the timestamp point is `tx`: a Sync or Delay_Req of a transparent clock takes the
residence time. -/
def State.corrected (s : State) (g : Nat) (f : List Byte) (stamp : Option Int) (tx : Nat) : List Byte :=
  match stamp with
  | none => f
  | some i =>
    let o := ptpOff f + 8
    putAt f o (toBE 8 (addCorrection (beAt f o 8) ((tx : Int) + s.asym g 0x2C - i)))

/-- Bytes of stored frames at an egress port. -/
def State.storedBytes (s : State) (g : Nat) : Nat :=
  (s.front.stored.filter fun x => decide (x.egress = g)).foldl (fun a x => a + x.bytes.length + 4) 0

/-- Forward a frame from port `p` to port `g` (R475): cut through when the ingress port allows it, both run one mode and the egress
port is idle, else stored. -/
def State.forward (s : State) (p g : Nat) (f : List Byte) (good : Bool) (stamp : Option Int) (tx : Nat) : State :=
  let cut := decide (s.fld (fhKey p 0) 7 7 = 1) && decide (s.fhMode p = s.fhMode g)
    && !(s.front.stored.any fun x => decide (x.egress = g))
  if cut then
    let s1 := s.sendFrame g (s.corrected g f stamp tx) (!good)
    if good then s1 else s1.fhCount g 11 1
  else if good = false then s
  else if 524288 < s.storedBytes g + f.length + 4 then s.fhCount g 12 1
  else s.modFront fun r => { r with stored := r.stored ++ [⟨g, f, stamp⟩] }

/-- STORED_FRAME_SEND: at a frame boundary the egress port sends the stored frame that became ready first (R475). -/
def execStoredFrameSend (port : Fin 16) (tx : BitVec 96) (s : State) : Out :=
  let g := port.val
  .next (match s.fhUp g, takeFirst (fun x => decide (x.egress = g)) s.front.stored with
    | true, some (x, rest) =>
      (((s.passStamp tx.toNat).modFront fun q => { q with stored := rest }).sendFrame g (s.corrected g x.bytes x.stamp tx.toNat))
    | _, _ => s)

/-! ### Uplink U-plane (R465 to R468) -/

/-- Width of a compression code of FH_CONFIG (Table 17.4): 0 stands for uncompressed. -/
def compWidth (c : Nat) : Nat := if c = 1 then 8 else if c = 2 then 9 else if c = 3 then 12 else if c = 4 then 14 else if c = 5 then 16 else 0

/-- udCompHdr of a compression code: width and method. -/
def compHdr (c : Nat) : Nat := if compWidth c = 0 then 0 else compWidth c % 16 * 16 + 1

/-- Bytes of a PRB under a udCompHdr; none for a method that the C8 does not know. -/
def prbBytes (h : Nat) : Option Nat :=
  if h % 16 = 0 then some 48 else if h % 16 = 1 then some (1 + 3 * (if h / 16 = 0 then 16 else h / 16)) else none

/-- The `w` bits of `b` from bit `i` on, most significant bit first. -/
def msbBits (b : List Byte) (i w : Nat) : Nat :=
  let n := i % 8 + w
  beAt b (i / 8) (ceilDiv n 8) / 2 ^ (8 * ceilDiv n 8 - n) % 2 ^ w

/-- One sample part (R468): its value and whether it saturated. -/
def decompress (meth w e m : Nat) : Int × Bool :=
  let v : Int := if meth = 0 then sext 16 m else sext w m * 2 ^ e
  if 32767 < v then (32767, true) else if v < -32768 then (-32768, true) else (v, false)

/-- A PRB of the wire as 48 bytes of R232, and its saturated parts. -/
def prbSamples (h : Nat) (b : List Byte) : List Byte × Nat :=
  let w := if h % 16 = 0 ∨ h / 16 = 0 then 16 else h / 16
  let e := if h % 16 = 0 then 0 else beAt b 0 1 % 16
  let o := if h % 16 = 0 then 0 else 8
  let vs := (List.range 24).map fun i => decompress (h % 16) w e (msbBits b (o + w * i) w)
  (vs.flatMap fun v => toLE 2 (wrapN 16 v.1), (vs.filter (·.2)).length)

/-- A section of a U-plane message: rb or symInc set, first PRB, PRBs (0: to the end), udCompHdr, its PRBs' bytes. -/
structure USect where
  odd : Bool
  start : Nat
  num : Nat
  hdr : Nat
  data : List Byte
  deriving DecidableEq, Repr

/-- The sections of a message's body; a body that ends early, or a method that cannot be skipped, ends the list with `false`. -/
def uSections (nprb : Nat) : (fuel : Nat) → List Byte → List USect × Bool
  | 0, _ => ([], true)
  | k + 1, b =>
    if b.length < 6 then ([], b.isEmpty)
    else
      let w := beAt b 0 3
      let start := w % 1024
      let num := beAt b 3 1
      let h := beAt b 4 1
      match prbBytes h with
      | none => ([], false)
      | some z =>
        let n := (if num = 0 then nprb - start else num) * z
        if b.length < 6 + n then ([], false)
        else
          let r := uSections nprb k (b.drop (6 + n))
          (⟨bit w 11 || bit w 10, start, num, h, slice b 6 n⟩ :: r.1, r.2)

/-- The uplink eAxC `x` of port `p` in an active carrier's map: the carrier and its uplink stream. -/
def State.eaxcOf (s : State) (p x : Nat) : Option (Carrier × Nat) :=
  (s.carriers.filter (·.base.isSome)).findSome? fun c =>
    ((List.range (cUl c.desc)).find? fun i => decide (mPort (mapEntry c.map i) = p) && decide (mEaxc (mapEntry c.map i) = x)).map fun i => (c, i)

/-- The slot that frameId, subframeId and slotId name nearest to PTP time `t` (R467). -/
def State.nearSlot (s : State) (d : List Byte) (frame sub slot t : Nat) : Nat :=
  let per := 10 * 2 ^ cMu d
  let r := frame * per + sub * 2 ^ cMu d + slot
  let now := s.slotAfter d t - 1
  let P := 256 * per
  let k0 := now / P * P + r
  let dist := fun k => (((s.airTime d k 0 : Nat) : Int) - t).natAbs
  ([k0 - P, k0 + P].foldl fun b k => if dist k < dist b then k else b) k0

/-- Change reception of slot `n` of carrier `c`, which begins when there is none. -/
def State.modRx (s : State) (c n : Nat) (f : RxSlot → RxSlot) : State :=
  if (s.rxOf c n).isSome then { s with rx := s.rx.map fun r => if r.carrier = c ∧ r.n = n then f r else r }
  else { s with rx := s.rx ++ [f ⟨c, n, [], [], [], none⟩] }

/-- PRBs of block `k` of a carrier. -/
def blkPrbs (d : List Byte) (k : Nat) : Nat := min 64 (cNprb d - 64 * k)

/-- Block `blk` is ready at its port (R469), damaged or not: it counts as delivered. -/
def State.blockReady (s : State) (p : Nat) (c : Carrier) (n blk : Nat) (bytes : List Byte) (damaged : Bool) : State :=
  (s.modRx c.id n fun r => { r with done := r.done ++ [blk], missing := if damaged then r.missing ++ [blk] else r.missing }).modFront
    fun r => { r with
      ready := r.ready ++ [⟨p, c.id, n, blk, bytes⟩]
      asm := r.asm.filter fun a => !(decide (a.carrier = c.id) && decide (a.n = n) && decide (a.blk = blk)) }

/-- The assembly buffer of a block. -/
def State.asmOf (s : State) (c n blk : Nat) : Option Asm :=
  s.front.asm.find? fun a => decide (a.carrier = c) && decide (a.n = n) && decide (a.blk = blk)

/-- The bytes of a block of `m` PRBs of which some have come: zeros in place of the others. -/
def asmBytes (m : Nat) (prbs : List (Nat × List Byte)) : List Byte :=
  (List.range m).flatMap fun i => ((prbs.find? fun x => decide (x.1 = i)).map (·.2)).getD (List.replicate 48 0)

/-- One PRB goes to the assembled route. -/
def State.putPrb (s : State) (p : Nat) (c : Carrier) (n blk i : Nat) (b : List Byte) : State :=
  if ((s.rxOf c.id n).map (·.done)).any fun l => decide (blk ∈ l) then s.fhCount p 8 1
  else match s.asmOf c.id n blk with
    | none =>
      if 1024 ≤ (s.front.asm.filter fun a => decide (a.port = p)).length then s.fhCount p 9 1
      else
        let s1 := s.modFront fun r => { r with asm := r.asm ++ [⟨p, c.id, n, blk, [(i, b)]⟩] }
        if blkPrbs c.desc (blk % 8) = 1 then s1.blockReady p c n blk b false else s1
    | some a =>
      let dup := a.prbs.any fun x => decide (x.1 = i)
      let ps := (a.prbs.filter fun x => decide (x.1 ≠ i)) ++ [(i, b)]
      let s1 := if dup then s.fhCount p 8 1 else s
      if ps.length = blkPrbs c.desc (blk % 8) then s1.blockReady p c n blk (asmBytes ps.length ps) false
      else s1.modFront fun r => { r with asm := r.asm.map fun x => if x = a then { x with prbs := ps } else x }

/-- One section (R466, R469, R470): whole blocks from a multiple of 64 on go the express route, other PRBs the assembled one. A frame
with a bad FCS reaches the express route only, whose last 64 bytes are then zeros. -/
def State.uplaneSection (s : State) (p : Nat) (c : Carrier) (i n sym : Nat) (good : Bool) (x : USect) : State :=
  let d := c.desc
  let nprb := cNprb d
  if x.odd ∨ x.hdr ≠ compHdr (s.fhComp p).ul ∨ nprb ≤ x.start then (if good then s.fhCount p 4 1 else s)
  else
    let num := if x.num = 0 then nprb - x.start else x.num
    let past := num - (nprb - x.start)
    let use := num - past
    let z := (prbBytes x.hdr).getD 48
    let s0 := if good then s.fhCount p 4 past else s
    let prb := fun j => prbSamples x.hdr (slice x.data (j * z) z)
    let blk := fun k => (i * 14 + sym) * 8 + k
    let whole := if x.start % 64 = 0 then
        (List.range (ceilDiv nprb 64)).filter fun k => decide (x.start ≤ 64 * k) && decide (64 * k + blkPrbs d k ≤ x.start + use)
      else []
    let s1 := whole.foldl (fun (t : State) k =>
      let m := blkPrbs d k
      if ((t.rxOf c.id n).map (·.done)).any fun l => decide (blk k ∈ l) then t.fhCount p 8 m
      else
        let ps := (List.range m).map fun j => prb (64 * k - x.start + j)
        let t1 := t.fhCount p 8 (((t.asmOf c.id n (blk k)).map (·.prbs.length)).getD 0)
        let t2 := t1.fhCount p 10 (ps.foldl (fun a y => a + y.2) 0)
        let bytes := ps.flatMap (·.1)
        t2.blockReady p c n (blk k) (if good then bytes else bytes.take (bytes.length - 64) ++ List.replicate (min 64 bytes.length) 0) (!good)) s0
    if good = false then s1
    else (List.range use).foldl (fun (t : State) j =>
      let q := x.start + j
      if q / 64 ∈ whole then t
      else
        let y := prb j
        (t.fhCount p 10 y.2).putPrb p c n (blk (q / 64)) (q % 64) y.1) s1

/-- The deadline clock of slot `n` starts when the last block of its final symbol has come (R20). -/
def State.startClock (s : State) (c : Carrier) (n t : Nat) : State :=
  let y := cNsym c.desc - 1
  match s.rxOf c.id n with
  | none => s
  | some r =>
    let all := (List.range (cUl c.desc)).all fun i => (List.range (cNblk c.desc)).all fun k => decide ((i * 14 + y) * 8 + k ∈ r.done)
    if r.start.isNone && all then s.modRx c.id n fun r => { r with start := some t } else s

/-- What an UPLANE record holds (Table 15.4): carrier, eAxC, slot, symbol, whether the FCS was good, and each section: start, count,
header, odd flag, bytes of data, data. -/
def uplanePayload (c n eaxc sym : Nat) (good : Bool) (xs : List USect) : List Byte :=
  toLE 1 c ++ toLE 2 eaxc ++ toLE 8 n ++ toLE 1 sym ++ toLE 1 (b2n good) ++ xs.flatMap fun x =>
    toLE 2 x.start ++ toLE 2 x.num ++ toLE 1 x.hdr ++ toLE 1 (b2n x.odd) ++ toLE 2 x.data.length ++ x.data

/-- A U-plane message for stream `i` of a carrier, symbol `sym` of slot `n` (R469), at PTP time `t` in ns. -/
def State.uplane (s : State) (p : Nat) (c : Carrier) (i n sym t : Nat) (good : Bool) (xs : List USect) : State :=
  let s1 := s.journalCarrier 0x10 (0x20 + p) c.id c.part (t % 2 ^ 64) (uplanePayload c.id n (mEaxc (mapEntry c.map i)) sym good xs)
  (xs.foldl (fun u x => u.uplaneSection p c i n sym good x) s1).startClock c n t

/-- A message body of eAxC `x`: O-RAN header checks, slot and window (R466, R467): a frame that arrives in the TCLK cycle of the close
is late. `t` is the arrival in 2^-16 ns. -/
def State.oran (s : State) (p : Nat) (c : Carrier) (i : Nat) (b : List Byte) (good : Bool) (t : Nat) : State :=
  let d := c.desc
  let bad := fun (u : State) => if good then u.fhCount p 4 1 else u
  let h := beAt b 0 1
  let w := beAt b 2 2
  let sym := w % 64
  if b.length < 4 ∨ bit h 7 ∨ bits h 6 4 ≠ 1 ∨ (h % 16 ≠ 0 ∧ h % 16 ≠ (s.fhComp p).prach) ∨ cNsym d ≤ sym then bad s
  else
    let at_ := t * 2 ^ 28
    let k := s.nearSlot d (beAt b 1 1) (w / 2 ^ 12) (w / 64 % 64) at_
    let n := k - c.base.getD 0
    let ended := s.airTime d k (sym + 1)
    if k < c.base.getD 0 then s
    else if at_ < ended + nsT (cRxOpen d) then (if good then s.fhCount p 5 1 else s)
    else if (ended + nsT (cRxClose d)) / 2 ^ 44 ≤ at_ / 2 ^ 44 then
      (if good then (s.fhCount p 6 1).journalCarrier 0x13 (0x20 + p) c.id c.part (t / 2 ^ 16 % 2 ^ 64) (toLE 1 c.id ++ toLE 8 n ++ toLE 1 sym ++ toLE 1 1)
       else s)
    else
      let r := uSections (cNprb d) b.length (b.drop 4)
      let s1 := s.uplane p c i n sym (t / 2 ^ 16) good r.1
      if r.2 then s1 else bad s1

/-- eCPRI processing (R465). -/
def State.ecpri (s : State) (p : Nat) (f : List Byte) (good : Bool) (t : Nat) : State :=
  let bad := fun (u : State) => if good then u.fhCount p 4 1 else u
  let o := etOff f + 2
  let udp := s.fhUdp p
  let ip := beAt f o 1 = 0x45 ∧ beAt f (o + 6) 2 % 2 ^ 14 = 0 ∧ beAt f (o + 16) 4 = s.regN (fhKey p 0x18)
  let q := if udp then o + 28 else o
  let pay := beAt f (q + 2) 2
  let rest := f.length - q - 4
  if tagged f ≠ s.fhVlan p ∨ (s.fhVlan p ∧ frameVid f ≠ s.fld (fhKey p 0x20) 11 0) ∨ (udp ∧ ¬ ip) ∨ beAt f q 1 / 16 ≠ 1
      ∨ bit (beAt f q 1) 0 ∨ beAt f (q + 1) 1 ≠ 0 ∨ pay < 4 ∨ rest < pay ∨ (pay < rest ∧ 60 < f.length)
      ∨ beAt f (q + 6) 2 % 256 ≠ 0x80 then bad s
  else
    let x := beAt f (q + 4) 2
    match s.eaxcOf p x with
    | none => bad s
    | some (c, i) =>
      let sq := beAt f (q + 6) 1
      let kx := p * 65536 + x
      let s1 := match s.front.seqRx.find? fun y => decide (y.1 = kx) with
        | some y => if good ∧ sq ≠ (y.2 + 1) % 256 then s.fhCount p 7 1 else s
        | none => s
      let s2 := if good then s1.modFront fun r => { r with seqRx := (r.seqRx.filter fun y => decide (y.1 ≠ kx)) ++ [(kx, sq)] } else s1
      if (s2.replayOf c.part).isSome then s2
      else s2.oran p c i (slice f (q + 8) (pay - 4)) good t

/-- A PTP record of Mirror (Table 15.4): port, message type, sequence identifier, stamp. -/
def State.journalPtp (s : State) (p : Nat) (f : List Byte) (stamp : Int) : State :=
  if bit s.mirror.src 2 then
    s.journal 0x12 0x30 0 (wrapN 64 (stamp / 2 ^ 16)) (toLE 1 p ++ toLE 1 (ptpType f) ++ toLE 2 (ptpSeq f) ++ toLE 10 (wrapN 80 stamp))
  else s

/-- A frame arrives at a port (R464): without FCS, whether its FCS is good, PCS time `t` in 2^-16 ns (of the message timestamp point
for PTP, of its last bit otherwise), and PCS time `tx` at which it leaves when it is cut through. -/
def execFrameReceive (port : Fin 16) (frame : List Byte) (good : Bool) (t : BitVec 96) (tx : BitVec 96) (s : State) : Out :=
  let p := port.val
  let f := frame
  if s.fhUp p = false then .next s
  else
    let s1 := (s.passStamp t.toNat).fhCount p (if good then 0 else 1) 1
    let stamp : Int := (t.toNat : Int) - s.asym p 0x28
    if f.length + 4 < 64 ∨ 9600 < f.length + 4 then .next (s1.fhCount p 2 1)
    else if isPtp f then
      let s2 := if good then (s1.modFront fun r => { r with ptpIn := r.ptpIn ++ [(p, stamp, f)] }).journalPtp p f stamp else s1
      let corr := if ptpType f ≤ 1 then some stamp else none
      .next (if s.fhRole p = 3 then
          ((List.range 16).filter fun g => decide (g ≠ p) && decide (s.fhRole g = 3) && decide (s.fhMode g ≠ 0)).foldl
            (fun u g => u.forward p g f good corr tx.toNat) s2
        else s2)
    else if isEsmc f then .next (if good then s1.modFront fun r => { r with ptpIn := r.ptpIn ++ [(p, stamp, f)] } else s1)
    else if s.isEcpri p f then .next (s1.ecpri p f good stamp.toNat)
    else match s.fwdPort p f with
      | some g => .next (s1.forward p g f good none tx.toNat)
      | none => .next (if good then s1.fhCount p 3 1 else s1)

/-! ### Delivery (R286 to R288) -/

/-- The PUT_SIGNAL of a block (R286). -/
def State.blockItem (s : State) (c : Carrier) (b : ReadyBlk) : FabItem :=
  let i := b.blk / 112
  let y := b.blk / 8 % 14
  let k := b.blk % 8
  let x := mapEntry c.map i
  let off := mSbase x + (b.n % 3 * cNsym c.desc + y) * cStride c.desc + k * 3072
  { op := .putSignal
    hdr := s.mkHdr (0x20 + b.port) (0xF * 2 ^ 60 + key (cEng c.desc) off) b.bytes.length (mTctr x) (256 * (b.n % 256) + 16 * y + k) (mStream x) 1
    payload := b.bytes
    owner := .none
    queue := 12544 + 32 * b.port
    since := s.clock.nclk
    level := 0
    tgts := [] }

/-- The slots of a carrier whose buffers slot `n` needs. -/
def State.heldSlots (s : State) (c n : Nat) : List Nat := (s.rx.filter fun r => decide (r.carrier = c) && decide (r.n + 3 ≤ n)).map (·.n)

/-- BLOCK_DELIVERY: the port delivers its oldest block, after the slot that still holds the buffer has been abandoned (R288). -/
def execBlockDelivery (port : Fin 16) (s : State) : Out :=
  match takeFirst (fun b => decide (b.port = port.val)) s.front.ready with
  | none => .next s
  | some (b, rest) =>
    let s1 := s.modFront fun r => { r with ready := rest }
    match s1.carrier b.carrier with
    | none => .next s1
    | some c =>
      let old := s1.heldSlots c.id b.n
      if !old.isEmpty && !s.ledger.up then .next s
      else
        let s2 := old.foldl (fun t m => t.abandon c m) s1
        let s3 := s2.modFront fun r => { r with
          ready := r.ready.filter fun x => !(decide (x.carrier = c.id) && decide (x.n ∈ old))
          asm := r.asm.filter fun x => !(decide (x.carrier = c.id) && decide (x.n ∈ old)) }
        .next (s3.pushItems [s3.blockItem c b])

/-- The receive window of a symbol closes (R287): every block of it not delivered becomes ready, with zeros for what has not come, and
is recorded as missing. -/
def State.closeWindow (s : State) (c : Carrier) (n sym : Nat) : State :=
  let d := c.desc
  let blks := (List.range (cUl d)).flatMap fun i => (List.range (cNblk d)).map fun k => (i, (i * 14 + sym) * 8 + k)
  let rx := (s.rxOf c.id n).getD ⟨c.id, n, [], [], [], none⟩
  let todo := blks.filter fun x => decide (x.2 ∉ rx.done)
  let s1 := todo.foldl (fun (t : State) x =>
    let m := blkPrbs d (x.2 % 8)
    t.blockReady (mPort (mapEntry c.map x.1)) c n x.2 (asmBytes m (((t.asmOf c.id n x.2).map (·.prbs)).getD [])) true) s
  let s2 := s1.modRx c.id n fun r => { r with closed := r.closed ++ [sym] }
  let t := (s.airTime d (c.abs n) (sym + 1) + nsT (cRxClose d)) / 2 ^ 44
  let s3 := s2.journalCarrier 0x13 0x20 c.id c.part (t % 2 ^ 64)
    (toLE 1 c.id ++ toLE 8 n ++ toLE 1 sym ++ toLE 1 0 ++ todo.flatMap fun x => toLE 2 x.2)
  if sym + 1 = cNsym d then s3.startClock c n t else s3

/-- RX_WINDOW_CLOSE of symbol `sym` of slot `n` of carrier `c` (R287). -/
def execRxWindowClose (c : Fin 24) (n : BitVec 64) (sym : Fin 14) (s : State) : Out :=
  match s.carrier c.val with
  | none => .next s
  | some x =>
    if cNsym x.desc ≤ sym.val ∨ (s.published.contains (c.val, n.toNat)) ∨ (s.replayOf x.part).isSome
        ∨ ((s.rxOf c.val n.toNat).map (·.closed)).any (fun l => decide (sym.val ∈ l)) then .next s
    else .next ((s.passTime x.part (s.airTime x.desc (x.abs n.toNat) (sym.val + 1) + nsT (cRxClose x.desc))).closeWindow x n.toNat sym.val)

/-! ### Downlink (R305, R472, R473) -/

/-- Round half to even of v / 2^e. -/
def roundShift (v : Int) (e : Nat) : Int :=
  let q := v / 2 ^ e
  let r := v % 2 ^ e
  if r * 2 < 2 ^ e then q else if 2 ^ e < r * 2 then q + 1 else if q % 2 = 0 then q else q + 1

/-- The exponent and mantissas of a PRB's 24 parts at width `w` (R472). -/
def bfpOf (w : Nat) (vs : List Int) : Nat × List Int :=
  let ok := fun e => vs.all fun v => decide (-(2 ^ (w - 1) : Int) ≤ roundShift v e) && decide (roundShift v e ≤ 2 ^ (w - 1) - 1)
  let e := ((List.range 16).find? ok).getD 15
  (e, vs.map fun v => roundShift v e)

/-- Pack numbers of `w` bits, most significant first. -/
def packMsb (w : Nat) (vs : List Int) : List Byte :=
  let n := vs.foldl (fun a v => a * 2 ^ w + wrapN w v) 0
  toBE (vs.length * w / 8) n

/-- A PRB as it goes on the wire under compression code `c`. -/
def wirePrb (c : Nat) (samples : List Byte) : List Byte :=
  let vs := (List.range 24).map fun i => sext 16 (fieldLE samples (2 * i) 2)
  let w := compWidth c
  if w = 0 then packMsb 16 vs
  else
    let x := bfpOf w vs
    toBE 1 x.1 ++ packMsb w x.2

/-- One's-complement checksum of an IPv4 header. -/
def ipSum (b : List Byte) : Nat :=
  let n := ((List.range (b.length / 2)).map fun i => beAt b (2 * i) 2).foldl (· + ·) 0
  let a := n % 65536 + n / 65536
  0xFFFF - (a % 65536 + a / 65536)

/-- A frame of port `p` around an eCPRI message (R465 in reverse; R473: UDP checksum 0). -/
def State.wrapFrame (s : State) (p : Nat) (msg : List Byte) : List Byte :=
  let mac := toBE 6 (s.fhPeer p) ++ toBE 6 (s.fhMac p)
  let tag := if s.fhVlan p then toBE 2 0x8100 ++ toBE 2 (s.fld (fhKey p 0x20) 14 12 * 2 ^ 13 + s.fld (fhKey p 0x20) 11 0) else []
  if s.fhUdp p then
    let port := toBE 2 (s.fld (fhKey p 0x24) 15 0)
    let udp := port ++ port ++ toBE 2 (8 + msg.length) ++ toBE 2 0
    let h := toBE 1 0x45 ++ toBE 1 (Config.wireField 0) ++ toBE 2 (28 + msg.length) ++ toBE 2 (Config.wireField 1)
      ++ toBE 2 (Config.wireField 3 % 2 * 2 ^ 14) ++ toBE 1 (Config.wireField 2) ++ toBE 1 17
    let a := toBE 4 (s.regN (fhKey p 0x18)) ++ toBE 4 (s.regN (fhKey p 0x1C))
    mac ++ tag ++ toBE 2 0x0800 ++ h ++ toBE 2 (ipSum (h ++ [0, 0] ++ a)) ++ a ++ udp ++ msg
  else mac ++ tag ++ toBE 2 0xAEFE ++ msg

/-- Send a U-plane or C-plane message body of an eAxC, with the next sequence number. -/
def State.sendEcpri (s : State) (p type eaxc : Nat) (body : List Byte) : State :=
  let kx := p * 65536 + eaxc
  let sq := ((s.front.seqTx.find? fun y => decide (y.1 = kx)).map (·.2)).getD 0
  let msg := toBE 1 0x10 ++ toBE 1 type ++ toBE 2 (4 + body.length) ++ toBE 2 eaxc ++ toBE 1 sq ++ toBE 1 0x80 ++ body
  (s.modFront fun r => { r with seqTx := (r.seqTx.filter fun y => decide (y.1 ≠ kx)) ++ [(kx, (sq + 1) % 256)] }).sendFrame p (s.wrapFrame p msg)

/-- The O-RAN header of slot `k`, symbol `sym`. -/
def oranHead (d : List Byte) (dir k sym : Nat) : List Byte :=
  let i := slotIdx d k
  toBE 1 (dir * 128 + 16) ++ toBE 1 (slotSfn d k % 256) ++ toBE 2 (i / 2 ^ cMu d * 2 ^ 12 + i % 2 ^ cMu d * 64 + sym)

/-- The U-plane of a downlink symbol of one stream: a frame for each block of 64 PRBs, from the transmit buffer (R285, R472). -/
def State.sendSymbol (s : State) (c : Carrier) (n i sym : Nat) : State :=
  let d := c.desc
  let x := mapEntry c.map (cUl d + i)
  let p := mPort x
  let code := (s.fhComp p).dl
  let buf := mSbase x + (n % 3 * cNsym d + sym) * cStride d
  (List.range (cNblk d)).foldl (fun (t : State) k =>
    let m := blkPrbs d k
    let prbs := (List.range m).flatMap fun j => wirePrb code (t.bytes (key (cEng d) (buf + k * 3072 + 48 * j)) 48)
    let sect := toBE 3 (Config.wireField 4 % 4096 * 4096 + 64 * k) ++ toBE 1 (m % 256) ++ toBE 1 (compHdr code) ++ toBE 1 0 ++ prbs
    t.sendEcpri p 0 (mEaxc x) (oranHead d 1 (c.abs n) sym ++ sect)) s

/-- UPLANE_SEND: the U-plane of symbol `sym` of downlink stream `i` (R305): sent when its samples are complete, no earlier than TXWIN_OPEN
and no later than TXWIN_CLOSE before the symbol's air start, else dropped. -/
def execUplaneSend (c : Fin 24) (n : BitVec 64) (i : Fin 16) (sym : Fin 14) (complete : Bool) (s : State) : Out :=
  match s.carrier c.val, s.dl.find? fun u => decide (u.carrier = c.val) && decide (u.n = n.toNat) with
  | some x, some u =>
    let d := x.desc
    let y := i.val * 14 + sym.val
    if cDl d ≤ i.val ∨ cNsym d ≤ sym.val ∨ y ∈ u.done then .next s
    else
      let air := s.airTime d (x.abs u.n) sym.val
      let late := decide (air - nsT (cTxClose d) < s.timeFor x.part)
      let ok := complete && !late
      let s1 := s.passTime x.part (air - nsT (if ok then cTxOpen d else cTxClose d))
      let s2 : State := { s1 with dl := s1.dl.map fun v => if v = u then
        { v with done := v.done ++ [y], missed := v.missed || !ok, left := v.left || ok } else v }
      .next (if ok ∧ (s.replayOf x.part).isNone then s2.sendSymbol x u.n i.val sym.val else s2)
  | _, _ => .next s

/-- The C-plane frames of a request leave on each of its eAxCs (R473). -/
def State.sendCplane (s : State) (c : Carrier) (n : Nat) (dl : Bool) (req : List Byte) : State :=
  let ix := if dl then (List.range (cDl c.desc)).map (cUl c.desc + ·) else List.range (cUl c.desc)
  ix.foldl (fun t i =>
    let x := mapEntry c.map i
    let t1 := t.journalCarrier 0x11 (0x20 + mPort x) c.id c.part t.ledTime (toLE 1 c.id ++ toLE 2 (mEaxc x) ++ toLE 8 n ++ toLE 1 0)
    if (t.replayOf c.part).isSome then t1 else t1.fhCount (mPort x) 13 (Config.cplaneFrames req)) s

/-- CPLANE_SEND: the C-plane messages of slot `n` of carrier `c` leave, by CP_ADVANCE before its air start (R305, R473). -/
def execCplaneSend (c : Fin 24) (n : BitVec 64) (s : State) : Out :=
  match s.carrier c.val with
  | none => .next s
  | some x =>
    let us := s.ul.filter fun u => decide (u.carrier = c.val) && decide (u.n = n.toNat) && !u.cplane
    let ds := s.dl.filter fun u => decide (u.carrier = c.val) && decide (u.n = n.toNat) && !u.cplane
    let s1 := us.foldl (fun t u => t.sendCplane x u.n false u.req) s
    let s2 := ds.foldl (fun t u => t.sendCplane x u.n true u.req) s1
    .next { s2 with
      ul := s2.ul.map fun u => if u ∈ us then { u with cplane := true } else u
      dl := s2.dl.map fun u => if u ∈ ds then { u with cplane := true, left := true } else u }

/-! ### Configuration (R462, R489) -/

/-- A carrier that is active has an eAxC on port `p`. -/
def State.portInUse (s : State) (p : Nat) : Bool :=
  s.carriers.any fun c => c.base.isSome && (List.range (cUl c.desc + cDl c.desc)).any fun i => decide (mPort (mapEntry c.map i) = p)

/-- FH_CONFIG. -/
def State.fhConfig (c : Cmd) (s : State) : State :=
  let p := c.param 0 1
  let mode := c.param 1 1
  let b2 := c.param 2 1
  let taken := (mode = 4 ∧ p % 2 = 1) ∨ (p % 2 = 1 ∧ s.fhMode (p - 1) = 4) ∨ (mode = 4 ∧ s.fhMode (p + 1) ≠ 0)
  if 15 < p ∨ 4 < mode ∨ 5 < c.param 3 1 % 16 ∨ 5 < c.param 3 1 / 16 ∨ 15 < c.param 4 1 ∨ 5 < c.param 5 1 ∨ taken then c.ends BAD_PARAM 0 0 s
  else if mode ≠ s.fhMode p ∧ s.portInUse p then c.ends NO_RESOURCE 0 0 s
  else
    let s0 := s.finish c.id OK 0 p (slice c.pkt 16 40)
    let s1 := s0.setRegN (fhKey p 0) (mode + 8 * bits b2 0 0 + 16 * bits b2 1 1 + 32 * bits b2 3 2 + 128 * bits b2 4 4)
    let mac := fun i => (beAt c.pkt (16 + i) 2, beAt c.pkt (18 + i) 4)
    let s2 := [(8, (mac 8).2), (0xC, (mac 8).1), (0x10, (mac 14).2), (0x14, (mac 14).1), (0x18, c.param 20 4), (0x1C, c.param 24 4),
      (0x20, c.param 6 2 % 2 ^ 15), (0x24, c.param 28 2), (0x28, c.param 32 4), (0x2C, c.param 36 4)].foldl
        (fun (t : State) x => t.setRegN (fhKey p x.1) x.2) s1
    let s3 := if mode ≠ s.fhMode p then s2.setRegN (fhKey p 4) 0 else s2
    let u := 0x20 + p
    let fc : FhComp := ⟨c.param 3 1 % 16, c.param 3 1 / 16, c.param 4 1, c.param 5 1⟩
    { s3.modFront (fun r => { r with comp := Sparse.set (fun _ => (⟨0, 0, 0, 0⟩ : FhComp)) r.comp p fc }) with
      configured := if u ∈ s3.configured then s3.configured else s3.configured ++ [u] }

/-- FH_CONFIG (R489). -/
def execFhConfig (pair : BitVec 16) (s : State) : Out := onCmd 0x38 pair State.fhConfig s

/-- A port's link comes up or goes down (R463). -/
def execPortLinkChange (port : Fin 16) (up : Bool) (s : State) : Out :=
  .next (if s.fhMode port.val = 0 ∨ s.computeUp = false then s else s.setRegN (fhKey port.val 4) (if up then 3 else 0))

/-- All counts of a port are 0. -/
def State.fhClr (s : State) (p : Nat) : State := (List.range 16).foldl (fun t k => t.setRegN (fhKey p (0x40 + 4 * k)) 0) s

/-- A write of FH_n_CNT_CLR (R490). -/
def execFhCntClr (src : BitVec 8) (port : Fin 16) (s : State) : Out :=
  .next (anchorReg src.toNat (0x20 + port.val) (CTU + 0x3C) (fun t => t.fhClr port.val) s)

end Sys2Proof.Machine
end

