-- ==== Sys2Proof/Machine/Time.lean ====
section
/-! DEFINITION. The time unit (17): the PTP clock and its corrections, triggers, the pulse per second and the time of day. -/
namespace Sys2Proof.Machine

/-- Registers of the time unit. -/
def ptpKey (o : Nat) : Nat := key 0x30 (CTU + o)

/-- PTP_CTL.EN, MODE (GUARD), HOLD and PPSEN. -/
def State.ptpEn (s : State) : Bool := decide (s.fld (ptpKey 0) 0 0 = 1)
def State.ptpGuard (s : State) : Bool := decide (s.fld (ptpKey 0) 1 1 = 1)
def State.ptpHeld (s : State) : Bool := decide (s.fld (ptpKey 0) 2 2 = 1)
def State.ppsEn (s : State) : Bool := decide (s.fld (ptpKey 0) 4 4 = 1)

/-- A carrier is active. -/
def State.anyActive (s : State) : Bool := s.carriers.any fun c => c.base.isSome

/-- A read of PTP_SEC_LO (R477). -/
def execPtpSecLatch (s : State) : Out := .next (if s.computeUp then s.ptpLatch else s)

/-- Units of the clock in one turn of its 64-bit seconds. -/
def PTPTURN : Nat := 2 ^ 64 * 10 ^ 9 * 2 ^ 44

/-- Add an offset in 2^-16 ns to the clock; seconds wrap modulo 2^64. -/
def State.ptpStep (s : State) (off : Int) : State :=
  { s with ptp := (((s.ptp : Int) + off * 2 ^ 28) % (PTPTURN : Int)).toNat }

/-- Apply an offset (R482): one step, or a slew while EN is 1 and a carrier is active, which replaces what is left of an earlier
one. -/
def State.ptpApply (s : State) (off : Int) : State :=
  if s.ptpEn && s.anyActive then (s.modFront fun r => { r with slew := off }).setFld (ptpKey 4) 2 2 (b2n (decide (off ≠ 0)))
  else s.ptpStep off

/-- The offset that PTP_ADJ_HI and PTP_ADJ_LO hold, in 2^-16 ns. -/
def State.ptpAdjOfs (s : State) : Int := sext 64 (s.reg64 (ptpKey 0x1C))

/-- A write of PTP_ADJ_HI: ignored under HOLD (R483), refused beyond the threshold in GUARD mode (R484), else applied (R482). -/
def State.ptpAdjWrite (s : State) (v : Nat) : State :=
  let s1 := s.setRegN (ptpKey 0x20) v
  let off := s1.ptpAdjOfs
  if s1.ptpEn = false then s1.ptpApply off
  else if s1.ptpHeld then s1
  else if s1.ptpGuard ∧ s1.regN (ptpKey 0x24) * 2 ^ 16 < off.natAbs then
    ((s1.setFld (ptpKey 4) 1 1 1).setReg64 (ptpKey 0x2C) (s1.reg64 (ptpKey 0x1C))).modFront fun r => { r with held := some off }
  else s1.ptpApply off

/-- A write of PTP_ADJ_HI (R482 to R484). -/
def execPtpAdj (src : BitVec 8) (v : Reg32) (s : State) : Out :=
  .next (anchorReg src.toNat 0x30 (CTU + 0x20) (fun t => t.ptpAdjWrite v.toNat) s)

/-- The whole slew has been applied (R482). -/
def execSlewEnd (s : State) : Out :=
  .next (if s.fld (ptpKey 4) 2 2 = 1 ∧ s.computeUp then
      ((s.ptpStep s.front.slew).modFront fun r => { r with slew := 0 }).setFld (ptpKey 4) 2 2 0
    else s)

/-- A write of PTP_CTL: HOLDOVER follows HOLD (R483). -/
def State.ptpCtlWrite (s : State) (v : Nat) : State := (s.setRegN (ptpKey 0) v).setFld (ptpKey 4) 0 0 (bits v 2 2)

/-- HOLD is set or cleared (R483). -/
def execPtpHold (src : BitVec 8) (hold : Bool) (s : State) : Out :=
  .next (anchorReg src.toNat 0x30 CTU (fun t => t.ptpCtlWrite (setBits (t.regN (ptpKey 0)) 2 2 (b2n hold))) s)

/-- Parameters of PTP_CONFIG out of range (Table 17.4). -/
def ptpBad (c : Cmd) : Bool :=
  decide (31 < c.param 0 1) || decide (c.param 1 1 < 24) || decide (43 < c.param 1 1) || decide (c.param 8 4 < 1)
    || decide (100000 < c.param 8 4) || decide (9999999 < c.param 12 4) || decide (15 < c.param 20 1)

/-- PTP_CONFIG. -/
def State.ptpConfig (c : Cmd) (s : State) : State :=
  let b := c.param 0 1
  let accept := bit b 4
  let status := if accept ∧ s.front.held = none then OK_EMPTY else OK
  if ptpBad c then c.ends BAD_PARAM 0 0 s
  else
    let s0 := s.finish c.id status 0 0 (slice c.pkt 16 21)
    let ctl := setBits (setBits (setBits (s0.regN (ptpKey 0)) 1 0 b) 3 3 (bits b 2 2)) 4 4 (bits b 3 3)
    let s1 := [(0x24, c.param 4 4), (0x28, c.param 8 4), (0x34, c.param 12 4), (0x38, c.param 16 4), (0x3C, c.param 20 1)].foldl
      (fun (t : State) x => t.setRegN (ptpKey x.1) x.2) (s0.ptpCtlWrite ctl)
    let s2 := s1.modFront fun r => { r with domain := c.param 1 1, utc := c.param 2 2 }
    match accept, s2.front.held with
    | true, some off => (s2.ptpApply off).modFront fun r => { r with held := none }
    | _, _ => s2

/-- PTP_CONFIG (R489). ACCEPT applies the held offset once (R484). -/
def execPtpConfig (pair : BitVec 16) (s : State) : Out := onCmd 0x39 pair State.ptpConfig s

/-! ### Triggers (R487) -/

/-- The SIGNAL of a trigger: ADDR names the token counter, queue 13,058. -/
def State.triggerItem (s : State) (addr stream tinc : Nat) : FabItem where
  op := .signal
  hdr := s.mkHdr 0x30 addr 0 ((addr % 2 ^ 52 - CTK) / 4 % 4096) 0 stream tinc
  payload := []
  owner := .none
  queue := 13058
  since := s.clock.nclk
  level := 0
  tgts := []

/-- The clock reaches a trigger's time (in ns), or has passed it: its SIGNAL goes out. A clock that does not advance reaches no
time. -/
def execTriggerFire (time : Word) (addr : Word) (stream : BitVec 16) (tinc : BitVec 16) (s : State) : Out :=
  let t := time.toNat * 2 ^ 44
  .next (if s.computeUp = false ∨ (s.ptpEn = false ∧ s.ptp < t) then s
    else
      let s1 : State := { s with ptp := max s.ptp t }
      s1.pushItems [s1.triggerItem addr.toNat stream.toNat tinc.toNat])

/-! ### Pulse per second and time of day (R486) -/

/-- 1PPS_OUT rises at the next second and PTP_PPS_OFS. -/
def execPpsOut (s : State) : Out :=
  let ofs := s.regN (ptpKey 0x38)
  let sec := 10 ^ 9 * 2 ^ 44
  let t0 := s.ptp / sec * sec + ofs * 2 ^ 44
  let t := if s.ptp ≤ t0 then t0 else t0 + sec
  .next (if s.computeUp = false ∨ s.ptpEn = false ∨ s.ppsEn = false ∨ 10 ^ 9 ≤ ofs then s
    else ({ s with ptp := t } : State).modFront fun r => { r with pps := true, todDue := some (t / sec) })

/-- Year, month and day of a count of days from 1 January 1970 (Gregorian calendar). -/
def civil (days : Nat) : Nat × Nat × Nat :=
  let z := days + 719468
  let era := z / 146097
  let doe := z % 146097
  let yoe := (doe - doe / 1460 + doe / 36524 - doe / 146096) / 365
  let doy := doe - (365 * yoe + yoe / 4 - yoe / 100)
  let mp := (5 * doy + 2) / 153
  let m := if mp < 10 then mp + 3 else mp - 9
  (yoe + era * 400 + (if m ≤ 2 then 1 else 0), m, doy - (153 * mp + 2) / 5 + 1)

/-- `n` decimal digits, and two hexadecimal ones, as ASCII. -/
def decDigits : (n : Nat) → (v : Nat) → List Byte
  | 0, _ => []
  | n + 1, v => decDigits n (v / 10) ++ [BitVec.ofNat 8 (48 + v % 10)]
def hexDigit (v : Nat) : Byte := BitVec.ofNat 8 (if v < 10 then 48 + v else 55 + v)

/-- The ZDA sentence of a UTC second counted from 1 January 1970. -/
def zda (utc : Nat) : List Byte :=
  let d := civil (utc / 86400)
  let r := utc % 86400
  let body := Config.zdaTalker ++ [90, 68, 65, 44] ++ decDigits 2 (r / 3600) ++ decDigits 2 (r / 60 % 60) ++ decDigits 2 (r % 60)
    ++ [46, 48, 48, 44] ++ decDigits 2 d.2.2 ++ [44] ++ decDigits 2 d.2.1 ++ [44] ++ decDigits 4 d.1 ++ [44] ++ Config.zdaZone
  let x := (body.foldl (fun (a : Byte) b => a ^^^ b) 0).toNat
  ([36] : List Byte) ++ body ++ [42, hexDigit (x / 16), hexDigit (x % 16), 13, 10]

/-- TOD_TX sends the sentence of the second that began at the rise; the pulse has ended. -/
def execTodSend (s : State) : Out :=
  .next (match s.front.todDue with
    | some sec => if s.computeUp then
        s.modFront fun r => { r with pps := false, todDue := none, todOut := zda (sec - s.front.utc) }
      else s
    | none => s)

/-- A rising edge on 1PPS_IN at `t` (2^-16 ns) latches the clock. -/
def execPpsIn (t : BitVec 96) (s : State) : Out :=
  .next (if s.computeUp = false then s
    else
      let s1 := s.passStamp t.toNat
      ((s1.setRegN (ptpKey 0x40) s1.ptpNano).setRegN (ptpKey 0x44) s1.ptpFrac).setFld (ptpKey 4) 3 3 1)

/-- A sentence arrives on TOD_RX; firmware reads it in the T-GM role. -/
def execTodReceive (sentence : List Byte) (s : State) : Out :=
  .next (if s.computeUp then s.modFront fun r => { r with todIn := sentence } else s)

/-! ### Messages of the anchor's PTP firmware (R479, R480) -/

/-- A one-step Sync with its egress stamp (2^-16 ns) as originTimestamp. -/
def stampSync (f : List Byte) (stamp : Int) : List Byte :=
  if ptpType f = 0 ∧ ptpTwoStep f = false then
    let ns := (stamp / 2 ^ 16).toNat
    putAt f (ptpOff f + 34) (toBE 6 (ns / 10 ^ 9) ++ toBE 4 (ns % 10 ^ 9))
  else f

/-- A message of queue 13,057 leaves port `port`; its timestamp point passes the PCS boundary at `t` (2^-16 ns). Mirror records
the stamp of an event message. -/
def execPtpEgress (port : Fin 16) (frame : List Byte) (t : BitVec 96) (s : State) : Out :=
  .next (if s.fhUp port.val = false then s
    else
      let s1 := s.passStamp t.toNat
      let stamp := (t.toNat : Int) + s1.asym port.val 0x2C
      let s2 := s1.sendFrame port.val (stampSync frame stamp)
      if isPtp frame ∧ ptpType frame ≤ 1 then s2.journalPtp port.val frame stamp else s2)

end Sys2Proof.Machine
end

