-- ==== Sys2Proof/Machine/Facet.lean ====
section
/-! DEFINITION. The Facet decoders (11): fetching and refusing descriptors, the work of each kind, status records, flushing, and weight
collections. -/
namespace Sys2Proof.Machine

/-! ### Descriptors (Tables 11.2 and 11.3) -/

/-- A field of a descriptor's bytes. -/
def dBg (d : List Byte) : Nat := bits (fieldLE d 0 1) 4 4
def dCrc (d : List Byte) : Nat := bits (fieldLE d 1 1) 7 6
def dNit (d : List Byte) : Nat := fieldLE d 1 1 % 64
def dZc (d : List Byte) : Nat := fieldLE d 2 2 % 512
def dKp (d : List Byte) : Nat := fieldLE d 4 2 % 2 ^ 14
def dRv (d : List Byte) : Nat := fieldLE d 6 1 % 4
def dQm (d : List Byte) : Nat := bits (fieldLE d 6 1) 5 2
def dNl (d : List Byte) : Nat := fieldLE d 7 1 % 64
def dE (d : List Byte) : Nat := fieldLE d 8 4 % 2 ^ 18
def dNcb (d : List Byte) : Nat := fieldLE d 12 2 % 2 ^ 15
def dEt (d : List Byte) : Bool := bit (fieldLE d 0 1) 5
def dHcomb (d : List Byte) : Bool := bit (fieldLE d 0 1) 6
def dHwr (d : List Byte) : Bool := bit (fieldLE d 0 1) 7
def dIn (d : List Byte) : Nat := fieldLE d 16 8
def dHin (d : List Byte) : Nat := fieldLE d 24 8
def dHout (d : List Byte) : Nat := fieldLE d 32 8
def dOut (d : List Byte) : Nat := fieldLE d 40 8
def dWdir (d : List Byte) : Nat := fieldLE d 48 4
def dSt (d : List Byte) : Nat := fieldLE d 52 8
def dRtctr (d : List Byte) : Nat := fieldLE d 60 2 % 4096
/-- POLAR_DEC: lg N, K, CRC length, parity-check bits. POLAR_ENC: lg N, A. -/
def dLg (d : List Byte) : Nat := fieldLE d 1 1 % 16
def dK (d : List Byte) : Nat := fieldLE d 2 2
def dCrcl (d : List Byte) : Nat × Nat := if bit (fieldLE d 4 1) 0 then CRC11 else CRC6
def dPc (d : List Byte) : Nat := if bit (fieldLE d 4 1) 1 then 3 else 0
def dLong (d : List Byte) : Nat := fieldLE d 8 4
def dFlag6 (d : List Byte) : Bool := bit (fieldLE d 6 1) 0

/-- Bytes that a kind does not name and that must be 0 (R312). -/
def unnamed (k : Nat) : List Nat :=
  let rest := [14, 15] ++ (List.range 16).map (· + 24) ++ [48, 49, 50, 51, 62, 63]
  match k with
  | 2 => rest
  | 3 => [5, 7] ++ rest
  | 4 => [4, 5, 7] ++ rest
  | 5 => [2, 3, 4, 5, 7, 12, 13] ++ rest
  | _ => []

/-- A kind's zero length (R331). -/
def dEmpty (d : List Byte) : Bool :=
  match fctKind d with
  | 1 | 2 => decide (dE d = 0)
  | 3 => decide (dLong d = 0)
  | 4 => decide (dLong d = 0) || decide (dK d = 0)
  | 5 => decide (dLong d = 0)
  | _ => false

/-- The ranges of R317, for LDPC_DEC and LDPC_ENC. -/
def ldpcBad (d : List Byte) : Bool :=
  let z := dZc d
  let bg := dBg d
  let k := bgInfo bg * z
  (liftSet z).isNone || decide (k - z < dKp d) || decide ((if bg = 0 then 66 else 50) * z < dNcb d) || decide (dNcb d < k - 2 * z)
    || decide (dQm d ∉ [1, 2, 4, 6, 8]) || decide (dE d % dQm d ≠ 0) || decide (dNl d < 4) || decide ((if bg = 0 then 46 else 42) < dNl d)

/-- PARAM (R312, R317, Table 11.3). -/
def dBad (d : List Byte) : Bool :=
  ((unnamed (fctKind d)).any fun i => decide (d.getD i 0 ≠ 0)) ||
  match fctKind d with
  | 1 => ldpcBad d || decide (32 < dNit d)
  | 2 => ldpcBad d || decide (1 < dCrc d)
  | 3 => decide (dLg d < 5) || decide (10 < dLg d) || decide (dK d < 18) || decide (1023 < dK d) || decide (8192 < dLong d)
  | 4 => decide (dLg d < 5) || decide (9 < dLg d) || decide (140 < dK d) || (dFlag6 d && (decide (dK d ≠ 32) || decide (dLong d ≠ 864)))
  | _ => decide (dCrc d < 2)

/-- RANGE (Table 11.10). -/
def dRange (d : List Byte) : Bool :=
  decide (dSt d % 16 ≠ 0) ||
    (decide (fctKind d = 1) && (decide (dWdir d % 64 ≠ 0) || decide (0x4000000 < dWdir d + 880)
      || (dHcomb d && dHwr d && decide (dHin d < dHout d + dNcb d) && decide (dHout d < dHin d + dNcb d))))

/-- ACLK cycles of a descriptor with `iter` iterations (Table 11.8): the larger of compute and input-output. -/
def occupancy (d : List Byte) (iter : Nat) : Nat :=
  match fctKind d with
  | 1 => max (16 + iter * dNl d * 12) (ceilDiv (dE d + dNcb d * (b2n (dHcomb d) + b2n (dHwr d))) 256)
  | 2 => 48 + 5 * dNl d
  | 3 => 64 + 2 * 2 ^ dLg d + dK d
  | 4 => 32 + 2 ^ dLg d / 8
  | _ => 16 + ceilDiv (dLong d) 2048

/-- Registers of decoder `f`. -/
def fctReg (f o : Nat) : Nat := key (0x10 + f) (CTU + o)

/-- The cause with which a descriptor of a queue of base level `lv` is refused at its fetch (R333), 0 for none. -/
def State.fctRefuse (s : State) (f lv : Nat) (d : List Byte) : Nat :=
  if fctKind d = 0 ∨ 5 < fctKind d then 1
  else if dEmpty d then 0
  else if dBad d then 2
  else if dRange d then 3
  else if lv ≤ 6 ∧ s.regN (fctReg f 0xC) < occupancy d (dNit d) + (if fctKind d = 1 then 80 else 0) then 5
  else 0

/-! ### Errors (R333) -/

/-- The command that owns queue `q` of decoder `f`: a running one whose entry names it, or the decode stage of its partition. -/
def State.fctOwner (s : State) (f q : Nat) : Option (Nat × Nat) :=
  match s.cmds.find? fun c => decide (c.phase = .running) && (Config.facetQueues (s.entryOf c)).any fun x =>
      decide (x.1 % 8 = f) && decide (x.2 % 32 = q) with
  | some c => some c.id
  | none => (List.finRange 8).findSome? fun e => match s.eng[e].cmd with
    | some id => if isStage id ∧ id.1 % 32 = 31 ∧ (s.homePart e.val).any (fun p => decide (p.val = (s.facetDesc f q).part)) then some id else none
    | none => none

/-- The first failure is recorded, and the owning command is killed with the status of Table 11.10. -/
def State.fctErr (s : State) (f q seq cause fcause : Nat) : State :=
  let k := fctReg f 0x10
  let s1 := if s.fld k 8 8 = 1 then s
    else (s.setRegN k (cause + 16 * fcause + 256 + 2 ^ 16 * q)).setRegN (k + 4) (seq % 2 ^ 32)
  let st := if cause = 6 then causeStatus fcause else if cause = 7 then ECC_UNCORR else BAD_PARAM
  match s1.fctOwner f q with
  | some id => s1.killCmd id ⟨.fault, st, 0⟩
  | none => s1

/-- The descriptor in progress stops with an error: operations not yet issued are not issued, and the outputs of work that
has run are undefined (R333). -/
def State.fctFail (s : State) (f cause fcause : Nat) : State :=
  match if h : f < 8 then (s.fct f).cur.map fun w => ((⟨f, h⟩ : Fin 8), w) else none with
  | none => s
  | some (g, w) =>
    let gone := (s.fab.waiting.filter fun x => decide (x.owner = .facet g)).length
    let s1 : State := { s with fab := { s.fab with waiting := s.fab.waiting.filter fun x => decide (x.owner ≠ .facet g) } }
    let s2 := (if w.ran then s1.fctUndef w.desc else s1).modFct f fun x => { x with cur := some { w with
      ran := true, cause := if w.cause = 0 then cause else w.cause, fcause := fcause, ops := w.ops - gone } }
    s2.fctErr f w.queue w.seq cause fcause

/-! ### Reads and writes of a decoder -/

/-- Unit `u` reads `n` bytes at fabric address `addr` on a stream: the failure (6 with the fabric cause, or 7 for an uncorrectable read
return) or the bytes. Bytes of another device are free values. -/
def State.unitRead (s : State) (u stream addr n : Nat) : State × ((Nat × Nat) ⊕ List Byte) :=
  let a := (s.translate (BitVec.ofNat 64 addr)).toNat
  let c := if s.reachCause u stream a n ≠ 0 then s.reachCause u stream a n else if (s.streamEntry u stream).isNone then 6 else 0
  if n = 0 then (s, .inr [])
  else if c ≠ 0 then (s.failOp u c 2 stream a .none, .inl (6, c))
  else if devOf a ≠ s.ownChain then
    ({ s with fresh := s.fresh + n }, .inr ((List.range n).map fun i => Config.freeByte (s.fresh + i)))
  else match (s.reachAt (unitOf a) (offOf a) n).targetRead (unitOf a) (offOf a) n with
    | (s1, none) => (s1.failOp u 9 2 stream a .none, .inl (7, 0))
    | (s1, some b) => (s1, .inr b)

/-- Decoder `f` reads. -/
def State.fctRead (s : State) (f stream addr n : Nat) : State × ((Nat × Nat) ⊕ List Byte) := s.unitRead (0x10 + f) stream addr n

/-- An operation of decoder `f` for queue `q`. -/
def State.fctItem (s : State) (f q : Nat) (op : FabOp) (addr tctr tinc : Nat) (b : List Byte) (owner : Owner) : FabItem where
  op := op
  hdr := s.mkHdr (0x10 + f) addr b.length tctr 0 (s.facetDesc f q).stream tinc
  payload := b
  owner := owner
  queue := 12288 + 32 * f + q
  since := s.clock.nclk
  level := 0
  tgts := []

/-- The PUTs that write `b` at `addr`, 4,096 bytes each. -/
def State.fctPuts (s : State) (f : Fin 8) (q addr : Nat) (b : List Byte) : List FabItem :=
  (chunks 4096 b).zipIdx.map fun x => s.fctItem f.val q .put (addr + 4096 * x.2) 0 0 x.1 (.facet f)

/-- What the work of a descriptor gives: its outputs as (address, bytes), FLAGS, ITER, METRIC, WGEN. -/
structure FctOut where
  puts : List (Nat × List Byte)
  flags : Nat
  iter : Nat
  metric : Nat
  wgen : Nat
  deriving DecidableEq, Repr

/-- A descriptor's work has given `o`: its outputs join the queue, its occupancy is metered (R401), LDPC blocks are counted. -/
def State.fctRan (s : State) (f : Fin 8) (w : FctWork) (o : FctOut) : State :=
  let items := o.puts.flatMap fun p => s.fctPuts f w.queue p.1 p.2
  let q := s.facetDesc f.val w.queue
  let s1 := (s.pushItems items).modFct f.val fun x => { x with
    cur := some { w with ran := true, flags := o.flags, iter := o.iter, metric := o.metric, wgen := o.wgen, ops := items.length }
    metered := if q.level ≤ 6 then Sparse.set (fun _ => 0) x.metered q.part
      (Sparse.get (fun _ => 0) x.metered q.part + occupancy w.desc o.iter) else x.metered }
  if fctKind w.desc = 1 ∧ 0 < dNit w.desc then
    ((s1.countUp (fctReg f.val 0x20) 1).countUp (fctReg f.val 0x24) (bits o.flags 2 2)).countUp (fctReg f.val 0x28) (1 - bits o.flags 1 1)
  else s1

/-- Run the work of the descriptor in progress, if it is of kind `k` and has not run. -/
def fctWork (k : Nat) (f : Fin 8) (body : FctWork → State → State × ((Nat × Nat) ⊕ FctOut)) (s : State) : Out :=
  .next (match (s.fct f.val).cur with
    | none => s
    | some w =>
      if w.ran ∨ fctKind w.desc ≠ k ∨ s.computeUp = false then s
      else match body w s with
        | (s1, .inl c) => s1.fctFail f.val c.1 c.2
        | (s1, .inr o) => s1.fctRan f w o)

/-! ### Fetch (R309, R310) -/

/-- Effective level of queue `q`. -/
def State.fctLevel (s : State) (f q : Nat) : Nat :=
  let b := (s.facetDesc f q).level
  if b ≤ 5 then min 6 (b + Sparse.get (fun _ => 0) (s.fct f).aged q) else b

/-- Queue `q` may start a descriptor: it is usable and ready, and a partition's descriptors of level 6 or below start only below
its share of the window (R401). -/
def State.fctMay (s : State) (f q : Nat) : Bool :=
  let d := s.facetDesc f q
  let share := match if h : d.part < 8 then s.parts[d.part] else none with
    | some p => p.fshare
    | none => 0
  d.valid && s.fctReady f q &&
    (decide (6 < d.level) || decide (Sparse.get (fun _ => 0) (s.fct f).metered d.part < share * aclkTen s.power.cap * 100))

/-- The queue served next: highest effective level, then round robin after the last. -/
def State.fctNext (s : State) (f : Nat) : Option Nat :=
  let qs := ((List.range 32).map fun i => ((s.fct f).last + 1 + i) % 32).filter (s.fctMay f)
  let top := (qs.map (s.fctLevel f)).foldl max 0
  qs.find? fun q => decide (s.fctLevel f q = top)

/-- FACET_FETCH: the next descriptor is fetched and checked. One that cannot be read has no known status address: its failure is
recorded and it ends there. -/
def execFacetFetch (f : Fin 8) (s : State) : Out :=
  if s.computeUp = false ∨ s.nEngines ≤ f.val ∨ (s.fct f.val).cur.isSome then .next s
  else match s.fctNext f.val with
    | none => .next s
    | some q =>
      let d := s.facetDesc f.val q
      let i := s.fctTaken f.val q
      let s0 := s.modFct f.val fun x => { x with
        taken := Sparse.set (fun _ => 0) x.taken q ((i + 1) % 2 ^ 32), aged := Sparse.set (fun _ => 0) x.aged q 0, last := q }
      match s0.fctRead f.val d.stream (d.ring + 64 * (i % 2 ^ d.log2size)) 64 with
      | (s1, .inl c) => .next (s1.fctErr f.val q i c.1 c.2)
      | (s1, .inr b) =>
        let c := s1.fctRefuse f.val d.level b
        let w : FctWork := ⟨q, i, b, decide (c ≠ 0) || dEmpty b, 0, 0, c, 0, 0, 0, 0⟩
        let s2 := s1.modFct f.val fun x => { x with cur := some w }
        .next (if c ≠ 0 then s2.fctErr f.val q i c 0 else s2)

/-- FACET_AGING (R310, R273). -/
def execFacetAging (f : Fin 8) (q : BitVec 5) (s : State) : Out :=
  let n := q.toNat
  .next (if (s.facetDesc f.val n).valid && s.fctReady f.val n && decide ((s.facetDesc f.val n).level ≤ 5)
      && decide (s.fld (fctReg f.val 8) 15 0 ≠ 0) && decide (s.fctLevel f.val n < 6) then
    s.modFct f.val fun x => { x with aged := Sparse.set (fun _ => 0) x.aged n (Sparse.get (fun _ => 0) x.aged n + 1) }
  else s)

/-! ### LDPC -/

/-- A fabric address in Pool of the own device. -/
def poolAddr (off : Nat) : Nat := 0xF * 2 ^ 60 + 0x41 * 2 ^ 52 + off

/-- The weights of a code block (R324, R325): GEN, weight of iteration and class. -/
def State.weightSet (s : State) (f stream : Nat) (d : List Byte) : State × ((Nat × Nat) ⊕ (Nat × (Nat → Nat → Nat))) :=
  let bg := dBg d
  match s.fctRead f stream (poolAddr (dWdir d)) 64 with
  | (s1, .inl c) => (s1, .inl c)
  | (s1, .inr h) =>
    let gen := fieldLE h 0 4
    match s1.fctRead f stream (poolAddr (dWdir d + 64 + 8 * (51 * bg + liftPos (dZc d)))) 8 with
    | (s2, .inl c) => (s2, .inl c)
    | (s2, .inr en) =>
      let off := fieldLE en 0 4 % 2 ^ 26
      if off = 0 then (s2, .inr (gen, fun _ _ => 96))
      else match s2.fctRead f stream (poolAddr off) 16 with
        | (s3, .inl c) => (s3, .inl c)
        | (s3, .inr sh) =>
          let nit := fieldLE sh 1 1
          let ne := fieldLE sh 4 2
          if fieldLE sh 0 1 ≠ bg + 1 ∨ fieldLE sh 2 2 ≠ dZc d ∨ ne ≠ (if bg = 0 then 316 else 197) ∨ nit = 0 ∨ 32 < nit then (s3, .inl (4, 0))
          else match s3.fctRead f stream (poolAddr (off + 16)) (nit * ne) with
            | (s4, .inl c) => (s4, .inl c)
            | (s4, .inr w) =>
              if crc32c w ≠ fieldLE sh 8 4 then (s4, .inl (4, 0))
              else (s4, .inr (gen, fun it c => (w.getD (min it (nit - 1) * ne + c) 0).toNat))

/-- The work of LDPC_DEC once its inputs are there. -/
def ldpcRun (d : List Byte) (gen : Nat) (w : Nat → Nat → Nat) (ls hin : List Byte) (free : Word) : FctOut :=
  let z := dZc d
  let bg := dBg d
  let kp := dKp d
  let buf := combine bg z kp (dematch bg z kp (dNcb d) (dRv d) (dQm d) (ls.map llr)) (hin.map llr)
  let h := if dHwr d then [(dHout d, buf.map fun v => (BitVec.ofNat 8 (wrapN 8 v) : Byte))] else []
  if dNit d = 0 then ⟨h, 0, 0, free.toNat % 2 ^ 32, gen⟩
  else
    let es := (edges bg z).zipIdx
    let r := ldpcLoop z (dNl d) (dEt d) w es (dNit d) 0 ⟨ldpcInput bg z kp buf, List.replicate (es.length * z) 0⟩
    let out := (r.1.app.take kp).map fun v => decide (v < 0)
    let bad := unsat z (dNl d) es r.1.app
    let parity := decide (bad = 0)
    let crc := if dCrc d = 0 then parity else crcOk (cbCrc (dCrc d)) out
    ⟨h ++ [(dOut d, packBits free.toNat out)], b2n parity + 2 * b2n crc + 4 * b2n r.2.2, r.2.1, bad, gen⟩

/-- LDPC_DEC: weights, inputs, decoding. -/
def ldpcBody (f : Fin 8) (w : FctWork) (s : State) : State × ((Nat × Nat) ⊕ FctOut) :=
  let d := w.desc
  let st := (s.facetDesc f.val w.queue).stream
  match s.weightSet f.val st d with
  | (s1, .inl c) => (s1, .inl c)
  | (s1, .inr ws) => match s1.fctRead f.val st (dIn d) (dE d) with
    | (s2, .inl c) => (s2, .inl c)
    | (s2, .inr ls) => match s2.fctRead f.val st (dHin d) (if dHcomb d then dNcb d else 0) with
      | (s3, .inl c) => (s3, .inl c)
      | (s3, .inr hin) => (s3.draw.2, .inr (ldpcRun d ws.1 ws.2 ls hin s3.draw.1))

/-- LDPC_DEC (R317 to R325). -/
def execLdpcDec (f : Fin 8) (s : State) : Out := fctWork 1 f (ldpcBody f) s

/-- A body that reads `n` bytes at INADDR and computes with them and a free value. -/
def fctBody (f : Fin 8) (n : Nat) (k : List Byte → Word → FctOut) (w : FctWork) (s : State) : State × ((Nat × Nat) ⊕ FctOut) :=
  match s.fctRead f.val (s.facetDesc f.val w.queue).stream (dIn w.desc) n with
  | (s1, .inl c) => (s1, .inl c)
  | (s1, .inr b) => (s1.draw.2, .inr (k b s1.draw.1))

/-- LDPC_ENC: CRC, filler, encoding, rate matching, interleaving. -/
def ldpcEncRun (d b : List Byte) (free : Word) : FctOut :=
  let z := dZc d
  let bg := dBg d
  let kp := dKp d
  let l := if dCrc d = 1 then 24 else 0
  let x := unpackBits b (kp - l)
  let info := (if dCrc d = 1 then withCrc CRC24B x else x) ++ List.replicate (bgInfo bg * z - kp) false
  ⟨[(dOut d, packBits free.toNat (ldpcMatch bg z kp (dNcb d) (dRv d) (dQm d) (dE d) (ldpcEncode bg z info)))], 3, 0, 0, 0⟩

/-- LDPC_ENC (R330). -/
def execLdpcEnc (f : Fin 8) (s : State) : Out :=
  fctWork 2 f (fun w t => fctBody f (ceilDiv (dKp w.desc - (if dCrc w.desc = 1 then 24 else 0)) 8) (ldpcEncRun w.desc) w t) s

/-- A free byte string of `n` bytes. -/
def freeBytes (n : Nat) (free : Word) : List Byte := (List.range n).map fun i => Config.freeByte (free.toNat + i)

/-- POLAR_DEC. PARITY_OK is a free bit: the spec gives it a meaning for LDPC alone. A code that cannot be formed gives free values. -/
def polarDecRun (d b : List Byte) (free : Word) : FctOut :=
  let e := dLong d
  let k := dK d
  let g := dCrcl d
  let f := (b.take e).map llr
  let ls := if dFlag6 d then
      let o := chanOrder e
      (List.range e).map fun i => f.getD ((o.findIdx? fun x => decide (x = i)).getD 0) 0
    else f
  let th := fieldLE d 12 2
  match polarDecode (dLg d) k e (dPc d) g ls with
  | some r => ⟨[(dOut d, packBits free.toNat (r.1.take (k - g.1)))],
      free.toNat / 256 % 2 + 2 * b2n r.2.2 + 8 * b2n (decide (th ≠ 0) && decide (th < r.2.1)), 0, r.2.1, 0⟩
  | none => ⟨[(dOut d, freeBytes (ceilDiv (k - g.1) 8) free)], free.toNat % 4 + 8 * (free.toNat / 4 % 2), 0, free.toNat / 8 % 2 ^ 32, 0⟩

/-- POLAR_DEC (R329). -/
def execPolarDec (f : Fin 8) (s : State) : Out := fctWork 3 f (fun w t => fctBody f (dLong w.desc) (polarDecRun w.desc) w t) s

/-- POLAR_ENC. -/
def polarEncRun (d b : List Byte) (free : Word) : FctOut :=
  let e := dLong d
  let c := polarIl (dciBits (dFlag6 d) (fieldLE d 12 2) (unpackBits b (dK d)))
  let out := match polarEncode (dLg d) e c with
    | some x => packBits free.toNat x
    | none => freeBytes (ceilDiv e 8) free
  ⟨[(dOut d, out)], 3, 0, 0, 0⟩

/-- POLAR_ENC (R330). -/
def execPolarEnc (f : Fin 8) (s : State) : Out := fctWork 4 f (fun w t => fctBody f (ceilDiv (dK w.desc) 8) (polarEncRun w.desc) w t) s

/-- TBCRC: check or generation. In check mode PARITY_OK is a free bit. -/
def tbCrcRun (d b : List Byte) (free : Word) : FctOut :=
  let g := cbCrc (dCrc d)
  if dFlag6 d then
    ⟨[(dOut d, packBits 0 (msb g.1 (crcBits g.1 g.2 0 (unpackBits b (dLong d)))))], 3, 0, 0, 0⟩
  else ⟨[], free.toNat % 2 + 2 * b2n (crcOk g (unpackBits b (dLong d + g.1))), 0, 0, 0⟩

/-- TBCRC (R311, R313). -/
def execTbcrc (f : Fin 8) (s : State) : Out :=
  fctWork 5 f (fun w t => fctBody f (ceilDiv (dLong w.desc + (if dFlag6 w.desc then 0 else (cbCrc (dCrc w.desc)).1)) 8) (tbCrcRun w.desc) w t) s

/-! ### Status records, flushing, counts -/

/-- The status record (Table 11.4). -/
def FctWork.record (w : FctWork) : List Byte :=
  toLE 1 (fctKind w.desc) ++ toLE 1 w.flags ++ toLE 1 w.iter ++ toLE 1 w.cause ++ toLE 4 w.metric ++ toLE 4 w.wgen ++ toLE 4 w.seq

/-- FACET_STATUS_RECORD: the descriptor has ended and its operations have been answered (R314). -/
def execFacetStatusRecord (f : Fin 8) (s : State) : Out :=
  .next (match (s.fct f.val).cur with
    | none => s
    | some w =>
      if w.ran = false ∨ w.ops ≠ 0 ∨ s.computeUp = false then s
      else (s.pushItems [s.fctItem f.val w.queue .putSignal (dSt w.desc) (dRtctr w.desc) 1 w.record .none]).modFct f.val
        fun x => { x with cur := none })

/-- A write of FCT_CTL with FLUSH (R334). -/
def execFctFlush (src : BitVec 8) (f : Fin 8) (q : BitVec 5) (s : State) : Out :=
  .next (anchorReg src.toNat (0x10 + f.val) (CTU + 4) (fun t => t.fctFlush f.val q.toNat) s)

/-- The three counts are 0. -/
def State.fctClr (s : State) (f : Nat) : State := [0x20, 0x24, 0x28].foldl (fun t o => t.setRegN (fctReg f o) 0) s

/-- A write of FCT_CNT_CLR (R335). -/
def execFctCntClr (src : BitVec 8) (f : Fin 8) (s : State) : Out :=
  .next (anchorReg src.toNat (0x10 + f.val) (CTU + 0x2C) (fun t => t.fctClr f.val) s)

/-- A 1 ms window of PTP time ends (R401): metering starts again. -/
def execFacetShareWindow (s : State) : Out :=
  let w := 10 ^ 6 * 2 ^ 44
  .next { s with ptp := if s.ptpEn then (s.ptp / w + 1) * w else s.ptp, facet := s.facet.map fun x => { x with metered := [] } }

/-! ### Weight collections (R327, R328) -/

/-- Bytes of a set without and with its padding. -/
def setSize (b : List Byte) (i : Nat) : Nat := 16 + fieldLE b (i + 4) 2 * fieldLE b (i + 1) 1
def setRoom (b : List Byte) (i : Nat) : Nat := ceilDiv (setSize b i) 64 * 64

/-- A set header and its weights pass step 1 of R328. -/
def setOk (b : List Byte) (i : Nat) : Bool :=
  let bg := fieldLE b i 1
  let nit := fieldLE b (i + 1) 1
  let ne := fieldLE b (i + 4) 2
  (decide (bg = 1 ∧ ne = 316) || decide (bg = 2 ∧ ne = 197)) && decide (1 ≤ nit) && decide (nit ≤ 32) && (liftSet (fieldLE b (i + 2) 2)).isSome
    && decide (fieldLE b (i + 6) 2 = 0) && decide (fieldLE b (i + 12) 4 = 0) && decide (i + setRoom b i ≤ b.length)
    && decide (fieldLE b (i + 8) 4 = crc32c (slice b (i + 16) (nit * ne)))

/-- Places of the `n` sets from `i` on (none when one fails), and the place after them. -/
def setPlaces (b : List Byte) : (n i : Nat) → Option (List Nat × Nat)
  | 0, i => some ([], i)
  | n + 1, i => if setOk b i then (setPlaces b n (i + setRoom b i)).map fun r => (i :: r.1, r.2) else none

/-- Index of a set's directory entry (R324). -/
def setIndex (b : List Byte) (i : Nat) : Nat := 51 * (fieldLE b i 1 - 1) + liftPos (fieldLE b (i + 2) 2)

/-- The sets of a collection image that passes every check of step 1. -/
def imageSets (b : List Byte) : Option (List Nat) :=
  let n := fieldLE b 4 4
  if fieldLE b 0 4 ≠ 1 ∨ fieldLE b 8 4 ≠ b.length ∨ 102 < n ∨ (slice b 12 52).any (fun x => decide (x ≠ 0)) ∨ b.length < 64 then none
  else match setPlaces b n 64 with
    | some (ps, e) => if e = b.length ∧ (ps.map (setIndex b)).Nodup then some ps else none
    | none => none

/-- Bytes of a directory, padded. -/
def DIRSIZE : Nat := 896

/-- Pool offset of a half of a partition's weight area. -/
def weightBase (p half : Nat) : Nat := Config.weightHalf p half % 2 ^ 20 * 64

/-- A partition's collections. -/
def State.weightsOf (s : State) (p : Nat) : Option Weights := s.weights.find? fun w => decide (w.part = p)
def State.setWeights (s : State) (w : Weights) : State :=
  { s with weights := s.weights.filter (fun x => decide (x.part ≠ w.part)) ++ [w] }

/-- The values that the commit of a collection sets: GEN and DIGEST, old and new. -/
def weightValues (old new_ : Weights) : List Byte := toLE 4 old.gen ++ toLE 48 old.digest ++ toLE 4 new_.gen ++ toLE 48 new_.digest

/-- The collections of a partition, none loaded yet standing as GEN 0. -/
def State.weightsNow (s : State) (p : Nat) : Weights := (s.weightsOf p).getD ⟨p, 1, 0, 0, none, 0⟩

/-- REVERT: the previous collection becomes current with a new GEN. -/
def State.revertWeights (c : Cmd) (s : State) : State :=
  let w := s.weightsNow c.part
  match w.old with
  | none => c.ends BAD_PARAM 0 0 s
  | some d =>
    let n : Weights := ⟨w.part, 1 - w.half, (w.gen + 1) % 2 ^ 32, d, some w.digest, s.ptpNs⟩
    ((s.finish c.id OK 0 n.gen (weightValues w n)).setWeights n).poke (key 0x41 (weightBase n.part n.half)) (toLE 4 n.gen)

/-- LOAD_WEIGHTS. -/
def State.loadWeights (c : Cmd) (s : State) : State :=
  let src := c.param 0 8
  let len := c.param 8 4
  let fl := c.param 12 1
  match c.partNo.bind fun p => s.parts[p] with
  | none => c.ends BAD_PARAM 0 0 s
  | some q =>
    if 1 < fl ∨ (slice c.pkt 29 35).any (fun x => decide (x ≠ 0)) then c.ends BAD_PARAM 0 0 s
    else if fl = 1 then (if src ≠ 0 ∨ len ≠ 0 then c.ends BAD_PARAM 0 0 s else s.revertWeights c)
    else if len = 0 then c.ends OK_EMPTY 0 (s.weightsNow c.part).gen s
    else if src % 64 ≠ 0 ∨ q.inHbm src len = false then c.ends BAD_PARAM 0 0 s
    else match s.read (key 0x40 src) len with
      | (s1, none) => c.ends ECC_UNCORR 0 0 s1
      | (s1, some b) => match imageSets b with
        | none => c.ends BAD_PARAM 0 0 s1
        | some ps =>
          if q.poolSize < 2 * (DIRSIZE + ps.foldl (fun a i => a + setRoom b i) 0) then c.ends NO_RESOURCE 0 0 s1
          else s1.modCmd c.id fun c => { c with phase := .waiting }

/-- LOAD_WEIGHTS (R327, R328): the image is checked; the collection is committed later. -/
def execLoadWeights (pair : BitVec 16) (s : State) : Out := onCmd 0x28 pair State.loadWeights s

/-- A slot that names the collection to be overwritten is unpublished: it began before the latest change. -/
def State.oldSlots (s : State) (w : Weights) : Bool :=
  s.ul.any fun u => match s.carriers.find? fun c => decide (c.id = u.carrier) with
    | some c => decide (c.part = w.part) && c.base.isSome && decide (s.airTime c.desc (c.abs u.n) 0 ≤ nsT w.since)
    | none => false

/-- A descriptor, in progress or queued, of the partition names a directory in [a, a + n). -/
def State.namesDir (s : State) (p a n : Nat) : Bool :=
  let hit := fun (d : List Byte) => decide (fctKind d = 1) && decide (a ≤ dWdir d) && decide (dWdir d < a + n)
  (List.range 8).any fun f => (List.range 32).any fun q =>
    let d := s.facetDesc f q
    d.valid && decide (d.part = p) && (((s.fct f).cur.any fun w => decide (w.queue = q) && hit w.desc)
      || (s.fctReady f q && decide (d.ring / 2 ^ 60 = 0xF) && (List.range (min (2 ^ d.log2size) (s.tok (0x10 + f) q - BitVec.ofNat 32 (s.fctTaken f q)).toNat)).any fun i =>
        hit (s.bytes ((d.ring + 64 * ((s.fctTaken f q + i) % 2 ^ d.log2size)) % 2 ^ 60) 64)))

/-- The directory of a collection whose sets stand from `base` + DIRSIZE on. -/
def dirBytes (b : List Byte) (ps : List Nat) (base gen digest : Nat) : List Byte :=
  toLE 4 gen ++ toLE 4 ps.length ++ toLE 8 0 ++ toLE 48 digest ++ (List.range 102).flatMap (fun k =>
    match ps.find? fun i => decide (setIndex b i = k) with
    | some i => toLE 4 (base + DIRSIZE + (i - 64)) ++ toLE 4 (setSize b i)
    | none => toLE 8 0) ++ List.replicate (DIRSIZE - 880) 0

/-- WEIGHTS_COMMIT in partition `p`: once nothing names the half to be overwritten, the sets are copied, the directory built, and the
collection committed (R328 steps 2 to 5). -/
def execWeightsCommit (p : Fin 8) (s : State) : Out :=
  match s.cmds.find? fun c => decide (c.op = 0x28) && decide (c.part = p.val) && decide (c.phase = .waiting) with
  | none => .next s
  | some c =>
    let w := s.weightsNow p.val
    let base := weightBase p.val (1 - w.half)
    let len := c.param 8 4
    if s.oldSlots w ∨ s.namesDir p.val base (DIRSIZE + len) ∨ s.ledger.up = false ∨ s.computeUp = false then .next s
    else match s.read (key 0x40 (c.param 0 8)) len with
      | (s1, none) => .next (c.ends ECC_UNCORR 0 0 s1)
      | (s1, some b) => match imageSets b with
        | none => .next (c.ends BAD_PARAM 0 0 s1)
        | some ps =>
          let n : Weights := ⟨p.val, 1 - w.half, (w.gen + 1) % 2 ^ 32, Config.sha384 b, (if w.gen = 0 then none else some w.digest), s.ptpNs⟩
          let s2 := (s1.poke (key 0x41 base) (dirBytes b ps base n.gen n.digest)).poke (key 0x41 (base + DIRSIZE)) (b.drop 64)
          .next ((s2.finish c.id OK 0 n.gen (weightValues w n)).setWeights n)

end Sys2Proof.Machine
end

