-- ==== Sys2Proof/Machine/Brivel.lean ====
section
/-! DEFINITION. The Brivel links (18): configuration and bring-up, routes, transit, replays and retrains, and links that go down. -/
namespace Sys2Proof.Machine

/-- Registers of port `p`. -/
def brvKey (p o : Nat) : Nat := key (0x34 + p) (CTU + o)

/-- BRV_n_STATUS.STATE: 0 DOWN, 1 TRAINING, 2 UP, 3 RETRAIN. -/
def State.brvState (s : State) (p : Nat) : Nat := s.fld (brvKey p 4) 1 0
def State.setBrv (s : State) (p v : Nat) : State := s.setFld (brvKey p 4) 1 0 v

/-- BRV_n_CFG.EN and DATELINE. -/
def State.brvEn (s : State) (p : Nat) : Bool := decide (s.fld (brvKey p 0) 0 0 = 1)
def State.dateline (s : State) (p : Nat) : Bool := decide (s.fld (brvKey p 0) 1 1 = 1)

/-- FAB_DEVID. -/
def devId : Nat := key 0x60 (CTL + 0x1000)
def State.chainSize (s : State) : Nat := s.fld devId 8 4
def State.devLock (s : State) : Bool := decide (s.fld devId 31 31 = 1)

/-- Change what the ports hold. -/
def State.modBrv (s : State) (f : Brivel → Brivel) : State := { s with brivel := f s.brivel }

/-- Waiting BRV_CONFIG commands that `sel` selects. -/
def State.brvCmds (s : State) (sel : Cmd → Bool) : List Cmd :=
  s.cmds.filter fun c => decide (c.op = 0x3A) && decide (c.phase = .waiting) && sel c

/-- Commands that wait for port `p`'s link. -/
def State.brvWaits (s : State) (p : Nat) : List Cmd := s.brvCmds fun c => bit (c.param 1 1) 0 && decide (c.param 0 1 = p)

/-! ### A link goes down (R503) -/

/-- An operation in flight goes to another device through port `p`. -/
def State.viaPort (s : State) (p : Nat) (x : FabItem) : Bool :=
  x.tgts.any fun t => decide (t / 256 ≠ s.ownChain) && (s.routePort (t / 256) == some p)

/-- A return comes from another device through port `p`. -/
def State.retVia (s : State) (p : Nat) (r : RetItem) : Bool :=
  r.far && (s.routePort (devOf r.reqAddr) == some p)

/-- Every operation that the port holds or has sent and that has not been answered fails with RESET; the credits that it held are free
again. -/
def State.failLink (s : State) (p : Nat) : State :=
  let xs := s.fab.flight.filter (s.viaPort p)
  let rs := s.fab.rets.filter (s.retVia p)
  let s1 : State := { s with fab := { s.fab with
    flight := s.fab.flight.filter fun x => !(s.viaPort p x)
    rets := s.fab.rets.filter fun r => !(s.retVia p r)
    ingress := s.fab.ingress.filter fun i => !(decide (i.unit / 256 ≠ s.ownChain) && (s.routePort (i.unit / 256) == some p)) } }
  let s2 := xs.foldl (fun t x => t.failOp x.hdr.srcUnit.toNat 0xA x.op.code x.hdr.stream.toNat x.hdr.addr.toNat x.owner) s1
  rs.foldl (fun t r => t.failOp r.reqUnit 0xA r.reqOp.code r.item.hdr.stream.toNat r.reqAddr r.item.owner) s2

/-- The link of port `p` goes down: DOWN_EVT is set, and an enabled port trains again. -/
def State.linkDown (s : State) (p : Nat) : State :=
  if s.brvState p = 2 ∨ s.brvState p = 3 then
    ((s.failLink p).setBrv p (b2n (s.brvEn p))).setFld (brvKey p 4) 3 3 1
  else s.setBrv p (b2n (s.brvEn p))

/-- BRV_LINK_DOWN: an UP or retraining link is lost. -/
def execBrvLinkDown (port : Fin 2) (s : State) : Out :=
  .next (if s.brvState port.val = 2 ∨ s.brvState port.val = 3 then s.linkDown port.val else s)

/-! ### Configuration (R505, R506) -/

/-- BRV_CONFIG's parameters are invalid. -/
def State.brvBad (s : State) (c : Cmd) : Bool :=
  let fl := c.param 1 1
  let own := c.param 2 1
  let size := c.param 3 1
  let setid := bit fl 2
  let sameId := decide (own = s.ownChain) && decide (size = s.chainSize) && decide (c.param 8 8 = s.reg64 (brvKey 0 0x28))
  let locked := s.devLock || setid
  let route := if bit fl 3 then c.param 4 4 else s.regN (brvKey 0 0x20)
  let dl := if c.param 0 1 = 0 then b2n (bit fl 1) + 2 * b2n (s.dateline 1) else b2n (s.dateline 0) + 2 * b2n (bit fl 1)
  decide (1 < c.param 0 1)
    || (setid && (decide (size = 0) || decide (16 < size) || decide (size ≤ own) || (s.devLock && !sameId)))
    || ((bit fl 0 || bit fl 3) && !locked)
    || (bit fl 3 && ((List.range 16).any (fun d => decide (route / 4 ^ d % 4 = 3))
      || Config.datelineTwice (if setid then own else s.ownChain) (if setid then size else s.chainSize) route dl))

/-- The part of BRV_CONFIG that takes effect at once: identity, EN, DATELINE, and the new routes that wait. A command that sets only
routes leaves the port as it is. -/
def State.brvApply (s : State) (c : Cmd) : State :=
  let fl := c.param 1 1
  let p := c.param 0 1
  let s1 := if bit fl 2 ∧ s.devLock = false then
      (s.setRegN devId (c.param 2 1 + 16 * c.param 3 1 + 2 ^ 31)).setReg64 (brvKey 0 0x28) (c.param 8 8)
    else s
  let s2 := if bit fl 3 then s1.modBrv fun b => { b with route := some (c.param 4 4) } else s1
  if fl % 16 = 8 then s2 else s2.setRegN (brvKey p 0) (fl % 4)

/-- BRV_CONFIG. -/
def State.brvConfig (c : Cmd) (s : State) : State :=
  let fl := c.param 1 1
  let p := c.param 0 1
  if s.brvBad c then c.ends BAD_PARAM 0 0 s
  else if fl % 16 = 8 then (s.brvApply c).modCmd c.id fun c => { c with phase := .waiting }
  else if bit fl 0 then
    if s.brvState p = 2 ∨ s.brvState p = 3 then
      (s.finish c.id OK 0 (s.fld (brvKey p 8) 3 0) (slice c.pkt 16 16)).brvApply c
    else ((s.brvApply c).setBrv p 1).modCmd c.id fun c => { c with phase := .waiting }
  else
    let s1 := (s.finish c.id (if s.brvState p = 2 ∨ s.brvState p = 3 then OK else OK_EMPTY) 0 0 (slice c.pkt 16 16)).brvApply c
    s1.linkDown p

/-- BRV_CONFIG (R505, R506). -/
def execBrvConfig (pair : BitVec 16) (s : State) : Out := onCmd 0x3A pair State.brvConfig s

/-- Complete the commands that wait for port `p`. -/
def State.brvEnd (s : State) (p status detail value : Nat) : State :=
  (s.brvWaits p).foldl (fun t c => t.finish c.id status detail value (slice c.pkt 16 16)) s

/-- The neighbour's IDENT flit arrives at a training port (R506): chain number, CHAIN_SIZE, CHAINID, firmware major version. The link
comes up when they match; otherwise the port keeps training. -/
def execBrvLinkUp (port : Fin 2) (nbr : BitVec 4) (size : BitVec 5) (id : Word) (major : BitVec 16) (s : State) : Out :=
  let p := port.val
  let match_ := decide (size.toNat = s.chainSize) && decide (id.toNat = s.reg64 (brvKey 0 0x28))
    && decide (major.toNat = s.fld (key BAR0 0x1C) 31 16) && decide (nbr.toNat ≠ s.ownChain)
  let s1 := s.setRegN (brvKey p 8) (nbr.toNat + 16 * size.toNat + 2 ^ 16 * major.toNat)
  .next (if s.brvState p ≠ 1 ∨ s.computeUp = false then s
    else if match_ then (s1.brvEnd p OK 0 nbr.toNat).setBrv p 2
    else (s1.brvEnd p NO_RESOURCE 2 0).setFld (brvKey p 4) 2 2 1)

/-- No link has formed within 500 ms (R506). -/
def execBrvLinkTimeout (port : Fin 2) (s : State) : Out := .next (s.brvEnd port.val NO_RESOURCE 1 0)

/-! ### Routes (R494 to R497) -/

/-- Chain numbers whose entry differs between two values of BRV_ROUTE, the own one left out. -/
def State.routeDiff (s : State) (new_ : Nat) : List Nat :=
  (List.range 16).filter fun d => decide (d ≠ s.ownChain) && decide (s.regN (brvKey 0 0x20) / 4 ^ d % 4 ≠ new_ / 4 ^ d % 4)

/-- Operations to chain number `d` wait at their source for a change of its route. -/
def State.routeHeld (s : State) (d : Nat) : Bool := s.brivel.route.any fun r => decide (d ∈ s.routeDiff r)

/-- Operations issued to one of `ds` whose credits have not been returned. -/
def State.unanswered (s : State) (ds : List Nat) : Bool :=
  s.fab.flight.any (fun x => x.tgts.any fun t => decide (t / 256 ∈ ds)) || s.fab.ingress.any fun i => decide (i.unit / 256 ∈ ds)

/-- ROUTE_CHANGE (R497): the new routes take effect, and commands that set only routes complete. -/
def execRouteChange (s : State) : Out :=
  match s.brivel.route with
  | none => .next s
  | some r =>
    if s.unanswered (s.routeDiff r) ∨ s.computeUp = false then .next s
    else
      let s1 := (s.setRegN (brvKey 0 0x20) r).modBrv fun b => { b with route := none }
      .next ((s1.brvCmds fun c => decide (c.param 1 1 % 16 = 8)).foldl (fun t c => t.finish c.id OK 0 0 (slice c.pkt 16 16)) s1)

/-- The virtual channel after a port: crossing the dateline moves VC 0 to 1 and VC 2 to 3 (Table 18.1). -/
def State.leaveVc (s : State) (p vc : Nat) : Nat := if s.dateline p ∧ vc % 2 = 0 then vc + 1 else vc

/-- A transit operation is discarded: an error response goes to its source through the port on which it came. -/
def State.transitErr (s : State) (p : Nat) (h : Hdr) (cause : Nat) : State :=
  s.modBrv fun b => { b with errs := b.errs.filter (fun x => decide (x.1 ≠ p)) ++ [(p, h.srcChain.toNat * 256 + h.srcUnit.toNat, cause)] }

/-- TRANSIT: an operation for another device arrives at port `port` (R495, R498). -/
def execTransit (port : Fin 2) (vc : BitVec 2) (op : BitVec 8) (h : Hdr) (payload : List Byte) (s : State) : Out :=
  let p := port.val
  let d := devOf h.addr.toNat
  .next (if s.computeUp = false ∨ (s.brvState p ≠ 2 ∧ s.brvState p ≠ 3) ∨ d = s.ownChain then s
    else if h.prio = 15 then s.transitErr p h 4
    else match s.routePort d, FabOp.ofCode op.toNat with
      | some q, some o =>
        if q = p then s.transitErr p h 2
        else
          let x : FabItem := ⟨o, h, payload, .none, 0, s.clock.nclk, 0, [], false⟩
          s.modBrv fun b => { b with sent := b.sent.filter (fun y => decide (y.1 ≠ q)) ++ [(q, s.leaveVc q vc.toNat, x)] }
      | none, _ => s.transitErr p h 2
      | _, none => s.transitErr p h 4)

/-! ### Replays and retrains (R500 to R502) -/

/-- Count up a count of port `p`: 0 replays, 1 retrains, 2 CRC errors. -/
def State.brvCount (s : State) (p k : Nat) : State := s.countUp (brvKey p (0xC + 4 * k)) 1

/-- BRV_REPLAY, `ns` nanoseconds after the previous moment; `crc`: this port found a flit with a CRC error. -/
def execBrvReplay (port : Fin 2) (crc : Bool) (ns : BitVec 16) (s : State) : Out :=
  let p := port.val
  let s0 := s.passNclk (s.clock.nclk + ns.toNat * 16 / 10)
  let t := s0.clock.nclk
  .next (if s.brvState p ≠ 2 then s
    else
      let s1 := s0.brvCount p 0
      (if crc then s1.brvCount p 2 else s1).modBrv fun b => { b with
        replays := (b.replays.filter fun x => decide (t < x.2 + RETRYWINDOW)) ++ [(p, t)] })

/-- BRV_RETRAIN: more than 4 replays have occurred on the port within 10 µs. -/
def execBrvRetrain (port : Fin 2) (s : State) : Out :=
  let p := port.val
  .next (if s.brvState p ≠ 2 ∨ (s.brivel.replays.filter fun x => decide (x.1 = p)).length ≤ 4 then s
    else (((s.setBrv p 3).brvCount p 1).modBrv fun b => { b with replays := b.replays.filter fun x => decide (x.1 ≠ p) }).event
      (Config.eventStatus 2) (0x34 + p) 0)

/-- BRV_RETRAIN_END: it completes, or exceeds 40 µs and takes the link down. -/
def execBrvRetrainEnd (port : Fin 2) (ok : Bool) (s : State) : Out :=
  .next (if s.brvState port.val ≠ 3 then s else if ok then s.setBrv port.val 2 else s.linkDown port.val)

/-- The three counts are 0. -/
def State.brvClr (s : State) (p : Nat) : State := [0xC, 0x10, 0x14].foldl (fun t o => t.setRegN (brvKey p o) 0) s

/-- A write of BRV_n_CNT_CLR (R507). -/
def execBrvCntClr (src : BitVec 8) (port : Fin 2) (s : State) : Out :=
  .next (anchorReg src.toNat (0x34 + port.val) (CTU + 0x18) (fun t => t.brvClr port.val) s)

end Sys2Proof.Machine
end

