-- ==== Sys2Proof/Machine/Modem.lean ====
section
/-! DEFINITION. The sensor modem (19): configuration, the converter link, Periscope, reception and transmission. The samples themselves and
the filters that form them are outside the model: an event brings what the demodulator decided. -/
namespace Sys2Proof.Machine

/-- Registers of the modem, and of its channel `c`. -/
def modKey (o : Nat) : Nat := key 0x31 (CTU + o)
def chKey (c o : Nat) : Nat := modKey (0x100 + 0x80 * c + o)

/-- Channel `c`. -/
def State.modCh (s : State) (c : Nat) : ModCh := s.modem.ch.getD c ModCh.reset
def State.setModCh (s : State) (c : Nat) (f : ModCh → ModCh) : State :=
  { s with modem := { s.modem with ch := s.modem.ch.set c (f (s.modCh c)) } }

/-- The modem runs. -/
def State.modOn (s : State) : Bool := s.computeUp && decide (s.fld (modKey 0) 0 0 = 1)

/-- FS in samples per second (Table 19.1). -/
def State.modFs (s : State) : Nat := 12800000 * 2 ^ s.fld (modKey 0) 3 1

/-- RATE of combination `k` of channel `c` is within R510. -/
def State.rateOk (s : State) (c k : Nat) : Bool :=
  let v := s.regN (chKey c (0x10 + 4 * k))
  decide (1200 ≤ bits v 18 0) && decide (bits v 18 0 ≤ 400000) && decide (16 * bits v 18 0 ≤ s.modFs)

/-- RATE and SFLOG of combination `k` of channel `c` are within R510. -/
def State.combOk (s : State) (c k : Nat) : Bool := s.rateOk c k && decide (s.fld (chKey c (0x10 + 4 * k)) 21 19 ≠ 7)

/-- Fields of MOD_c_CFG. -/
def State.chEn (s : State) (c : Nat) : Bool := decide (s.fld (chKey c 0) 0 0 = 1)
def State.chFour (s : State) (c : Nat) : Bool := decide (s.fld (chKey c 0) 1 1 = 1)
def State.chCrc (s : State) (c : Nat) : Bool := decide (s.fld (chKey c 0) 3 3 = 1)
def State.chPlen (s : State) (c : Nat) : Nat := s.fld (chKey c 0) 27 20

/-- One more in MOD_c_LOST. -/
def State.lost (s : State) (c : Nat) : State := s.countUp (chKey c 0x34) 1

/-! ### Configuration -/

/-- Register offsets of the global block and of a channel's block, in offset order (Table 19.5). -/
def globalOffs : List Nat := [0, 4, 8, 0xC] ++ (List.range 32).map (fun i => 0x10 + 4 * i) ++ (List.range 64).map fun i => 0x600 + 4 * i
def channelOffs (c : Nat) : List Nat :=
  ([0, 4, 8, 0xC] ++ (List.range 8).map (fun i => 0x10 + 4 * i) ++ [0x30, 0x34, 0x38]).map fun o => 0x100 + 0x80 * c + o

/-- Load register values; those that are not written by firmware keep theirs. -/
def State.modLoad (s : State) (offs : List Nat) (b : List Byte) : State :=
  offs.zipIdx.foldl (fun (t : State) x =>
    if (regRow (modKey x.1)).any fun r => r.flds.any fun f => decide (f.acc = .rw) then t.setRegN (modKey x.1) (fieldLE b (4 * x.2) 4) else t) s

/-- CFGERR: an enabled combination has a RATE out of range (R510). -/
def State.cfgCheck (s : State) (c : Nat) : State :=
  if (List.range 8).any fun k => decide (s.fld (chKey c (0x10 + 4 * k)) 22 22 = 1) && !(s.rateOk c k) then s.setFld (modKey 4) 3 3 1 else s

/-- MOD_CTL has changed: without EN the links do not run, and every channel's rates are checked against FS. -/
def State.modCtlSet (s : State) : State :=
  (List.range 8).foldl (fun t c => t.cfgCheck c)
    (if s.modOn then s else ({ s with modem := { s.modem with rxUp := false, txUp := false } } : State).setFld (modKey 4) 0 0 0)

/-- Values that the block must not hold: FSSEL 7, H outside 16–128, PLEN below 8. -/
def modBad (g : Bool) (b : List Byte) : Bool :=
  let v := fieldLE b 0 4
  if g then decide (bits v 3 1 = 7) else decide (bits v 19 12 < 16) || decide (128 < bits v 19 12) || decide (bits v 27 20 < 8)

/-- The modem's window answers from its first configuration on. -/
def State.configure (s : State) (u : Nat) : State :=
  { s with configured := if u ∈ s.configured then s.configured else s.configured ++ [u] }

/-- MOD_CONFIG. -/
def State.modConfig (c : Cmd) (s : State) : State :=
  let n := c.param 0 1
  let g := decide (n = 0xFF)
  let offs := if g then globalOffs else channelOffs n
  let off := c.param 8 8
  if 7 < n ∧ g = false then c.ends BAD_PARAM 0 0 s
  else if s.hbmBytes < off + 4 * offs.length then c.ends BAD_PARAM 0 0 s
  else if g = false ∧ s.chEn n then c.ends NO_RESOURCE 0 0 s
  else match s.read (key 0x40 off) (4 * offs.length) with
    | (s1, none) => c.ends ECC_UNCORR 0 0 s1
    | (s1, some b) =>
      if modBad g b then c.ends BAD_PARAM 0 0 s1
      else
        let s2 := ((s1.finish c.id OK 0 n b).modLoad offs b).configure 0x31
        if g then s2.modCtlSet
        else (s2.setModCh n fun _ => { ModCh.reset with
          base := c.param 16 8, size := c.param 24 8, wptr := fieldLE b 56 4, stream := c.param 32 2, tctr := c.param 34 2 % 4096
          taken := (s2.modCh n).taken, lastTx := (s2.modCh n).lastTx }).cfgCheck n

/-- MOD_CONFIG (R510). -/
def execModConfig (pair : BitVec 16) (s : State) : Out := onCmd 0x3B pair State.modConfig s

/-! ### The converter link (R509) -/

/-- LINKUP: both links are aligned. -/
def State.linkUp (s : State) : State := s.setFld (modKey 4) 0 0 (b2n (s.modem.rxUp && s.modem.txUp))

/-- Every frame in reception is abandoned and counted. -/
def State.dropFrames (s : State) : State :=
  (List.range 8).foldl (fun t c => if (t.modCh c).rx.isSome then (t.lost c).setModCh c fun x => { x with rx := none } else t) s

/-- JESD_LINK_LOSS: the receive link loses lock. -/
def execJesdLinkLoss (s : State) : Out :=
  .next (if s.modOn then
    (({ s with modem := { s.modem with rxUp := false } } : State).dropFrames.setFld (modKey 4) 1 1 1).linkUp else s)

/-- JESD_LINK_ALIGN: both links are aligned, and search goes on. -/
def execJesdLinkAlign (s : State) : Out :=
  .next (if s.modOn then ({ s with modem := { s.modem with rxUp := true, txUp := true } } : State).linkUp else s)

/-- Every burst in progress or waiting completes with cause LINK. -/
def State.dropBursts (s : State) : State :=
  { s with modem := { s.modem with ch := s.modem.ch.map fun x => { x with burst := x.burst.map fun b =>
    if b.status = BAD_PARAM then b else { b with status := RESET_ABORT, cause := 2, ended := true } } } }

/-- TRANSMIT_LINK_LOSS: the transmit link goes down. -/
def execTransmitLinkLoss (s : State) : Out :=
  .next (if s.modOn then ({ s with modem := { s.modem with txUp := false } } : State).dropBursts.linkUp else s)

/-! ### Periscope and reception (R513 to R517) -/

/-- The preamble pattern's sign at sample `i`, 8 samples to an air symbol, `sf` air symbols to an information symbol. -/
def preamble (sf i : Nat) : Int := if i / (8 * sf) % 2 = 0 then 1 else -1

/-- The metric of R513. -/
def preambleMetric (sf : Nat) (x : List Int) : Nat :=
  let n := (x.zipIdx.foldl (fun (a : Int) y => a + y.1 * preamble sf y.2) 0).natAbs
  let d := x.foldl (fun (a : Nat) y => a + y.natAbs) 0
  if d = 0 then 0 else 255 * n / d

/-- MODEM records of the blocks of a channel's samples that have come (R520). -/
def State.journalModem (s : State) (c : Nat) (blocks : List (List Byte)) : State :=
  if bit s.mirror.src 4 then blocks.foldl (fun t b => t.journal 0x30 0x31 0 t.ledTime (toLE 1 c ++ b)) s else s

/-- The combinations whose metric reaches THRESH, of those that are searched and whose window is whole, with their metrics. -/
def State.detections (s : State) (c : Nat) (dets : List (Fin 8 × List Int)) : List (Nat × Nat) :=
  dets.filterMap fun d =>
    let k := d.1.val
    let v := s.regN (chKey c (0x10 + 4 * k))
    let sf := 2 ^ bits v 21 19
    let m := preambleMetric sf d.2
    if bits v 22 22 = 1 ∧ s.combOk c k ∧ d.2.length = 8 * sf * s.chPlen c ∧ bits v 31 24 ≤ m then some (k, m) else none

/-- The winner: the highest metric, on a tie the lowest combination. -/
def winner (ds : List (Nat × Nat)) : Option (Nat × Nat) :=
  ds.find? fun d => ds.all fun x => decide (x.2 < d.2) || (decide (x.2 = d.2) && decide (d.1 ≤ x.1))

/-- PERISCOPE_DETECT: detections of channel `c` that are resolved together, with the discriminator outputs of their windows, at PTP time
`t` in ns. -/
def execPeriscopeDetect (c : Fin 8) (dets : List (Fin 8 × List Int)) (t : Word) (blocks : List (List Byte)) (s : State) : Out :=
  let ch := s.modCh c.val
  let ds := s.detections c.val dets
  let s1 := (s.journalModem c.val blocks).countUp (chKey c.val 0x30) ds.length
  .next (if s.modOn = false ∨ s.modem.rxUp = false ∨ s.chEn c.val = false then s
    else match winner ds with
      | none => s1
      | some w =>
        if ch.rx.isSome || (ch.lastTx.any fun x => decide (x ≤ t.toNat) && decide (t.toNat < x + 100000)) then s1.lost c.val
        else s1.setModCh c.val fun x => { x with rx := some ⟨w.1, w.2, none⟩ })

/-- Errors of a received sync word: bits in 2-level mode, symbols of two bits in 4-level mode. -/
def syncErrors (four : Bool) (a b : Nat) : Nat :=
  let x := a ^^^ b
  if four then (List.range 16).foldl (fun n i => n + b2n (decide (bits x (2 * i + 1) (2 * i) ≠ 0))) 0
  else (List.range 32).foldl (fun n i => n + b2n (x.testBit i)) 0

/-- SYNC_FOUND: a received word close enough to MOD_c_SYNC, whose last air symbol crosses the converter interface at `t`. -/
def execSyncFound (c : Fin 8) (word : BitVec 32) (t : Word) (s : State) : Out :=
  let four := s.chFour c.val
  .next (match (s.modCh c.val).rx with
    | none => s
    | some r =>
      if r.sync.isSome ∨ (if four then 1 else 2) < syncErrors four word.toNat (s.regN (chKey c.val 8)) then s
      else s.setModCh c.val fun x => { x with rx := some { r with sync := some t.toNat } })

/-- SYNC_TIMEOUT: 2 × PLEN information symbols have passed without it. -/
def execSyncTimeout (c : Fin 8) (s : State) : Out :=
  .next (match (s.modCh c.val).rx with
    | some r => if r.sync.isSome then s else (s.lost c.val).setModCh c.val fun x => { x with rx := none }
    | none => s)

/-- CRC-16 of R512 over the LEN byte and the payload. -/
def modCrc (b : List Byte) : Nat := crcBits 16 0x1021 0xFFFF (unpackBits b (8 * b.length))

/-- The receive record (Table 19.2). -/
def modRecord (c : Nat) (r : ModRx) (ok : Bool) (pay : List Byte) (rssi fofs : Nat) : List Byte :=
  toLE 1 c ++ toLE 1 r.comb ++ toLE 1 (b2n ok) ++ toLE 1 pay.length ++ toLE 1 r.metric ++ toLE 1 0 ++ toLE 2 rssi ++ toLE 4 fofs
    ++ toLE 4 0 ++ toLE 8 (r.sync.getD 0) ++ toLE 8 0 ++ pay ++ List.replicate (ceilDiv pay.length 32 * 32 - pay.length) 0

/-- An operation of the modem for channel `c`. -/
def State.modItem (s : State) (c : Nat) (op : FabOp) (addr tctr stream tinc : Nat) (b : List Byte) : FabItem where
  op := op
  hdr := s.mkHdr 0x31 addr b.length tctr 0 stream tinc
  payload := b
  owner := .none
  queue := 13088 + c
  since := s.clock.nclk
  level := 0
  tgts := []

/-- Operations that put a record at the ring's write place, in two when it wraps; the last carries the increment. -/
def State.ringItems (s : State) (c : Nat) (x : ModCh) (b : List Byte) : List FabItem :=
  let o := x.wptr % x.size
  if o + b.length ≤ x.size then [s.modItem c .putSignal (x.base + o) x.tctr x.stream 1 b]
  else [s.modItem c .put (x.base + o) 0 x.stream 0 (b.take (x.size - o)), s.modItem c .putSignal x.base x.tctr x.stream 1 (b.drop (x.size - o))]

/-- RX_RECORD: the frame has ended: LEN byte, payload, CRC when MOD_c_CFG.CRC is 1. -/
def execRxRecord (c : Fin 8) (frame : List Byte) (rssi : BitVec 16) (fofs : BitVec 32) (blocks : List (List Byte)) (s : State) : Out :=
  let x := s.modCh c.val
  let len := (frame.getD 0 0).toNat
  let crc := s.chCrc c.val
  .next (match x.rx with
    | none => s
    | some r =>
      if r.sync.isNone ∨ frame.length ≠ 1 + len + (if crc then 2 else 0) then s
      else
        let body := frame.take (1 + len)
        let ok := !crc || decide (modCrc body = (frame.getD (1 + len) 0).toNat * 256 + (frame.getD (2 + len) 0).toNat)
        let b := modRecord c.val r ok (body.drop 1) rssi.toNat fofs.toNat
        let used := (x.wptr + 2 ^ 32 - s.regN (chKey c.val 0x38)) % 2 ^ 32
        let s1 := (s.journalModem c.val blocks).setModCh c.val fun y => { y with rx := none }
        if x.size < used + b.length then s1.lost c.val
        else (s1.pushItems (s1.ringItems c.val x b)).setModCh c.val fun y => { y with wptr := (y.wptr + b.length) % 2 ^ 32 })

/-! ### Transmission (R518 to R520) -/

/-- The descriptor's check at its fetch. -/
def State.burstBad (s : State) (c : Nat) (d : List Byte) : Bool :=
  decide (fieldLE d 0 1 ≠ 1) || decide (7 < fieldLE d 1 1) || (slice d 30 34).any (fun x => decide (x ≠ 0))
    || !(s.combOk c (fieldLE d 1 1))

/-- MOD_TX_FETCH: channel `c` takes its next descriptor as R309 states; a bad one, or one whose payload is absent, completes with
BAD_PARAM. A descriptor that cannot be read has no known status address and ends there. -/
def execModTxFetch (c : Fin 8) (s : State) : Out :=
  let x := s.modCh c.val
  let ready := decide ((s.tok 0x31 c.val - BitVec.ofNat 32 (x.taken + 1)).toNat < 2 ^ 31)
  if s.modOn = false ∨ x.burst.isSome ∨ ready = false then .next s
  else
    let st := Config.modStream c.val % 2 ^ 16
    let s0 := s.setModCh c.val fun x => { x with taken := (x.taken + 1) % 2 ^ 32 }
    match s0.unitRead 0x31 st (Config.modRing c.val % 2 ^ 58 * 64 + 64 * (x.taken % 2 ^ (4 + Config.modLog2 c.val % 17))) 64 with
    | (s1, .inl _) => .next s1
    | (s1, .inr d) =>
      let r := if s1.burstBad c.val d then (s1, true)
        else match s1.unitRead 0x31 st (fieldLE d 12 8) (fieldLE d 2 1) with
          | (s2, .inl _) => (s2, true)
          | (s2, .inr _) => (s2, false)
      let late := decide (fieldLE d 3 1 % 2 = 1) && decide (fieldLE d 4 8 < s1.ptpNs)
      let b : Burst := if r.2 then ⟨d, BAD_PARAM, 0, false, true⟩
        else if s.modem.txUp = false then ⟨d, RESET_ABORT, 2, false, true⟩
        else if late then ⟨d, DEADLINE_MISS, 3, false, false⟩
        else ⟨d, OK, 0, false, false⟩
      .next (r.1.setModCh c.val fun x => { x with burst := some b })

/-- Some segment of the mask has a limit. -/
def State.masked (s : State) : Bool := (List.range 32).any fun i => decide (s.fld (modKey (0x10 + 4 * i)) 7 0 ≠ 0)

/-- TX_BURST_START: at TIME, or at once; `mask`: a block fails the mask check, and the rest is sent as zeros. -/
def execTxBurstStart (c : Fin 8) (mask : Bool) (s : State) : Out :=
  .next (match (s.modCh c.val).burst with
    | none => s
    | some b =>
      if b.started ∨ b.ended ∨ s.modOn = false ∨ s.modem.txUp = false then s
      else
        let at_ := decide (fieldLE b.desc 3 1 % 2 = 1)
        let s1 : State := if at_ then { s with ptp := max s.ptp (nsT (fieldLE b.desc 4 8)) } else s
        if mask ∧ s.masked then
          (s1.setModCh c.val fun x => { x with burst := some { b with started := true, status := KILLED, cause := 1 } }).setFld (modKey 4) 2 2 1
        else s1.setModCh c.val fun x => { x with burst := some { b with started := true } })

/-- TX_BURST_COMPLETE: the burst has ended, at PTP time `t` in ns, with `sat` saturated parts; its status record is written. -/
def execTxBurstComplete (c : Fin 8) (t : Word) (sat : BitVec 16) (s : State) : Out :=
  .next (match (s.modCh c.val).burst with
    | none => s
    | some b =>
      if s.computeUp = false ∨ (b.started = false ∧ b.ended = false) then s
      else
        let rec_ := toLE 1 b.status ++ toLE 1 b.cause ++ toLE 6 0
        let it := s.modItem c.val .putSignal (fieldLE b.desc 20 8) (fieldLE b.desc 28 2 % 4096) (Config.modStream c.val % 2 ^ 16) 1 rec_
        let s1 := if b.started then s.countUp (modKey 8) sat.toNat else s
        (s1.pushItems [it]).setModCh c.val fun x => { x with burst := none, lastTx := if b.started then some t.toNat else x.lastTx })

/-- Every count of the modem is 0. -/
def State.modClr (s : State) : State :=
  (List.range 8).foldl (fun t c => (t.setRegN (chKey c 0x30) 0).setRegN (chKey c 0x34) 0) (s.setRegN (modKey 8) 0)

/-- A write of MOD_CNT_CLR (R521). -/
def execModCntClr (src : BitVec 8) (s : State) : Out := .next (anchorReg src.toNat 0x31 (CTU + 0xC) (fun t => t.modClr) s)

end Sys2Proof.Machine
end

