-- ==== Sys2Proof/Machine/Mirror.lean ====
section
/-! DEFINITION. Mirror (15): starting and stopping a recording, lost records, and replay. -/
namespace Sys2Proof.Machine

/-- Engines of a partition, counted (R385). -/
def Part.count (q : Part) : Nat := q.engines.length

/-- Running firmware version (Table 20.9) and its major number. -/
def State.fwVersion (s : State) : Nat := s.regN (key BAR0 0x1C)

/-! ### Recording (R415 to R418) -/

/-- Image digest of a resident job. -/
def State.jobDigest (s : State) (j : Job) : Nat := Config.sha384 (s.bytes (key 0x40 j.image) j.length)

/-- What the START record says of partition `p`: class, L, count of jobs; of each job its slot, image digest, step counter and seeds; and
then of each job its selectors. -/
def State.partStart (s : State) (p : Nat) (q : Part) : List Byte :=
  let js := (List.range 8).filterMap fun i => s.jobAt p i
  toLE 1 p ++ toLE 1 q.cls ++ toLE 1 q.count ++ toLE 1 js.length
    ++ js.flatMap (fun j => toLE 1 j.slot ++ toLE 48 (s.jobDigest j) ++ toLE 8 j.step ++ j.seeds.flatMap (toLE 4))
    ++ js.flatMap fun j => toLE 4 j.sel

/-- Payload of the START record for the partitions of a mask: firmware version, then the partitions. -/
def State.startPayload (s : State) (parts : Nat) : List Byte :=
  toLE 4 s.fwVersion ++ (s.partList.filter fun x => bit parts x.1.val).flatMap fun x => s.partStart x.1.val x.2

/-- Mirror is busy: it records, replays, or holds a command. -/
def State.mirrorInUse (s : State) : Bool := s.recording || s.mirror.replay.isSome || s.mirror.held.isSome

/-- MIRROR_CTL with OP 0. -/
def State.mirrorStart (c : Cmd) (s : State) : State :=
  let base := c.param 8 8
  let size := c.param 16 8
  if c.param 0 1 = 1 then s
  else if c.param 0 1 ≠ 0 ∨ base % 0x200000 ≠ 0 ∨ size % 0x200000 ≠ 0 ∨ size = 0 ∨ 0x400000000 < size ∨ s.hbmBytes < base + size
      ∨ (s.partList.any fun x => overlaps (x.2.hbmBase, x.2.hbmSize) (base, size)) then c.ends BAD_PARAM 0 0 s
  else if s.mirrorInUse then c.ends NO_RESOURCE 0 0 s
  else
    let s1 := s.finish c.id OK 0 0 (slice c.pkt 16 30)
    let s2 := (((s1.setFld (mirKey 0) 0 0 1).setReg64 (mirKey 4) 0).setRegN (mirKey 0xC) 0)
    let m : Mirror := { s2.mirror with
      base := base, size := size, carriers := c.param 24 4 % 2 ^ 24, parts := c.param 28 1, src := c.param 29 1 % 64, jseq := 0, gap := 0 }
    let s3 : State := { s2 with mirror := m }
    s3.journal 0x01 0x48 0 s3.ledTime (s3.startPayload (c.param 28 1))

/-- MIRROR_START (R415). -/
def execMirrorStart (pair : BitVec 16) (s : State) : Out := onCmd 0x40 pair State.mirrorStart s

/-- MIRROR_CTL with OP 1: its VALUE counts the records, the END record included. -/
def State.mirrorStop (c : Cmd) (s : State) : State :=
  if c.param 0 1 ≠ 1 then s
  else if s.recording = false then c.ends OK_EMPTY 0 0 s
  else
    let s1 := s.journalEnd 0
    s1.finish c.id OK 0 (s1.mirror.jseq % 2 ^ 32)

/-- MIRROR_STOP (R415). -/
def execMirrorStop (pair : BitVec 16) (s : State) : Out := onCmd 0x40 pair State.mirrorStop s

/-- MIRROR_FULL: the next record, of `len` payload bytes, does not fit (R418). -/
def execMirrorFull (len : BitVec 32) (s : State) : Out :=
  .next (if s.recording && s.journalFull len.toNat && s.computeUp then (s.setFld (mirKey 0) 2 2 1).journalEnd 1 else s)

/-- GAP: room has returned, and the number of records lost is written (R418). -/
def execGap (s : State) : Out :=
  let n := s.mirror.gap
  .next (if s.recording = false ∨ n = 0 ∨ s.mirrorNoRoom 4 ∨ s.computeUp = false then s
    else ({ s with mirror := { s.mirror with gap := 0 } } : State).journal 0x03 0x48 0 s.ledTime (toLE 4 n))

/-! ### Starting a replay (R419) -/

/-- Bytes of a partition's entry in a START record with `n` jobs: what a replay compares, and all of it. -/
def startKeyLen (n : Nat) : Nat := 4 + 73 * n
def startLen (n : Nat) : Nat := 4 + 77 * n

/-- The entry of partition `p` in the partitions' part of a START record (fuel: partitions). -/
def startEntry (p : Nat) : (fuel : Nat) → List Byte → Option (List Byte)
  | 0, _ => none
  | f + 1, b =>
    let n := fieldLE b 3 1
    if b.length < 4 then none
    else if fieldLE b 0 1 = p then some (b.take (startKeyLen n))
    else startEntry p f (b.drop (startLen n))

/-- The START record agrees with partition `p` as it is now: class, L, image digests, step counters, seeds. -/
def State.startAgrees (s : State) (b : List Byte) (p : Fin 8) : Bool :=
  match s.parts[p], startEntry p.val 8 (b.drop 4) with
  | some q, some e =>
    let now := s.partStart p.val q
    decide (e = now.take (startKeyLen (fieldLE now 3 1)))
  | _, _ => false

/-- REPLAY with OP 0. -/
def State.replayStart (c : Cmd) (s : State) : State :=
  let parts := c.param 2 1
  let base := c.param 8 8
  let len := s.hbmN (base + 4) 4
  let b := s.hbm (base + 32) len
  let fl := c.param 1 1
  let sj := c.param 32 1
  let mine := (List.finRange 8).filter fun p => bit parts p.val
  if c.param 0 1 = 1 then s
  else if c.param 0 1 ≠ 0 ∨ s.hbmN base 1 ≠ 1 ∨ fieldLE b 2 2 ≠ s.fwVersion / 2 ^ 16 ∨ !(mine.all fun p => s.startAgrees b p) then
    c.ends BAD_PARAM 0 0 s
  else if s.mirrorInUse ∨ (mine.any fun p => !(s.partCarriers p.val).isEmpty
      || s.queues.any fun x => x.2.valid && decide (x.1 < 4096) && decide (x.2.part = p.val)) then c.ends NO_RESOURCE 0 0 s
  else
    let r : Replay := {
      id := c.id, parts := parts, base := base, size := c.param 16 8, pos := journalSize len, pace := bit fl 0, stopDiv := bit fl 1
      stopStep := c.param 24 8, stopJob := (sj % 8, sj / 16 % 8), time := s.hbmN (base + 24) 8, cursor := [], matched := 0
      diverged := false, relaxed := false }
    let s1 := (s.modCmd c.id fun c => { c with phase := .waiting }).setFld (mirKey 0) 1 1 1
    { s1 with mirror := { s1.mirror with replay := some r } }

/-- REPLAY_START (R419). -/
def execReplayStart (pair : BitVec 16) (s : State) : Out := onCmd 0x41 pair State.replayStart s

/-! ### Holding a command (R422) -/

/-- REPLAY_HOLD: the command that started at STOP_STEP has ended on every engine; it is held, and the replay completes. -/
def execReplayHold (s : State) : Out :=
  match s.mirror.replay, s.cmds.find? fun c => decide (c.op = 0x13) && c.replay && s.cmdEnded c && s.mustHold c with
  | some _, some c => .next (({ s with mirror := { s.mirror with held := some c.id } } : State).endReplay false true)
  | _, _ => .next s

/-- Release the engines of the held command and end it; a replayed command leaves no completion. -/
def State.releaseHeld (s : State) (id : Nat × Nat) : State :=
  let s1 := (s.cmdEngines id).foldl (fun t e => t.modEng e fun en => { en with cmd := none, ended := false }) s
  ({ s1 with mirror := { s1.mirror with held := none } } : State).finish id KILLED 0 0

/-- REPLAY with OP 1. -/
def State.replayRelease (c : Cmd) (s : State) : State :=
  if c.param 0 1 ≠ 1 then s
  else match s.mirror.held with
    | none => c.ends OK_EMPTY 0 0 s
    | some id => c.ends OK 0 0 (s.releaseHeld id)

/-- REPLAY_RELEASE (R422). -/
def execReplayRelease (pair : BitVec 16) (s : State) : Out := onCmd 0x41 pair State.replayRelease s

/-! ### Delivering records (R420, R421, R423) -/

/-- Work before the next record has not ended: a replayed job command is open, or a stage command of a replay partition runs. -/
def State.replayBusy (s : State) (r : Replay) : Bool :=
  (s.cmds.any fun c => c.replay && decide (c.op = 0x13) && decide (c.phase ≠ .done))
    || (List.finRange 8).any fun e => s.eng[e].cmd.isSome && (s.ownerPart e).any fun p => bit r.parts p.val

/-- Take a replayed command, with the blocks that it names put where they were. -/
def State.replayHost (s : State) (r : Replay) (b : List Byte) : State :=
  let pkt := slice b 2 64
  if pktPart pkt < 8 ∧ bit r.parts (pktPart pkt) then
    let s1 := blocks (b.drop 66) b.length s
    let s2 : State := { s1 with
      cmds := s1.cmds ++ ([⟨fieldLE b 0 2 + 0x8000, pktSeq pkt, pkt, .accepted, 0, 0, s1.orderNo, 0, 0, true, [], []⟩] : List Cmd)
      orderNo := s1.orderNo + 1 }
    s2.preempt (pktPart pkt)
  else s
where
  /-- Blocks: offset, length, bytes (fuel: bytes of the payload). -/
  blocks (b : List Byte) : Nat → State → State
    | 0, t => t
    | f + 1, t => if b.length < 12 then t
      else blocks (b.drop (12 + fieldLE b 8 4)) f (t.poke (key 0x40 (fieldLE b 0 8)) (slice b 12 (fieldLE b 8 4)))

/-- The sections of an UPLANE record (fuel: bytes). -/
def recSections : (fuel : Nat) → List Byte → List USect
  | 0, _ => []
  | f + 1, b =>
    if b.length < 8 then []
    else ⟨decide (fieldLE b 5 1 = 1), fieldLE b 0 2, fieldLE b 2 2, fieldLE b 4 1, slice b 8 (fieldLE b 6 2)⟩
      :: recSections f (b.drop (8 + fieldLE b 6 2))

/-- Deliver an UPLANE record as the port would have. -/
def State.replayUplane (s : State) (r : Replay) (src time : Nat) (b : List Byte) : State :=
  match s.carrier (fieldLE b 0 1) with
  | none => s
  | some c =>
    if bit r.parts c.part = false then s
    else match (List.range (cUl c.desc)).find? fun i => decide (mEaxc (mapEntry c.map i) = fieldLE b 1 2) with
      | none => s
      | some i => s.uplane (src - 0x20) c i (fieldLE b 3 8) (fieldLE b 11 1) time (decide (fieldLE b 12 1 = 1)) (recSections b.length (b.drop 13))

/-- Apply a CLOSE record: a window's close, or an abandonment; a discarded late frame has no further effect. -/
def State.replayClose (s : State) (r : Replay) (b : List Byte) : State :=
  match s.carrier (fieldLE b 0 1) with
  | none => s
  | some c =>
    let n := fieldLE b 1 8
    let kind := fieldLE b 10 1
    if bit r.parts c.part = false then s
    else if kind = 0 then s.closeWindow c n (fieldLE b 9 1)
    else if kind = 2 then s.abandon c n
    else s

/-- Deliver one record of the journal. PTP, MODEM, CPLANE and DIGEST records change nothing of the block when they are delivered. -/
def State.replayOne (s : State) (r : Replay) (kind src time : Nat) (b : List Byte) : State :=
  if kind = 0x20 then s.replayHost r b
  else if kind = 0x10 then s.replayUplane r src time b
  else if kind = 0x13 then s.replayClose r b
  else s

/-- REPLAY_RECORD: the replay clock reaches the next record. END, GAP, and the end of the journal end the replay. -/
def execReplayRecord (s : State) : Out :=
  match s.mirror.replay with
  | none => .next s
  | some r =>
    let a := r.base + r.pos
    let kind := s.hbmN a 1
    let len := s.hbmN (a + 4) 4
    let time := s.hbmN (a + 24) 8
    if s.computeUp = false ∨ (r.pace = false ∧ s.replayBusy r) then .next s
    else if r.size < r.pos + 32 ∨ kind = 0 ∨ kind = 2 then .next (s.endReplay false false)
    else if kind = 3 then .next (s.endReplay true false)
    else
      let s1 := s.modReplay fun r => { r with pos := r.pos + journalSize len, time := max r.time time }
      .next (s1.replayOne r kind (s.hbmN (a + 1) 1) time (s.hbm (a + 32) len))

end Sys2Proof.Machine
end

