-- ==== Sys2Proof/Machine/Observe.lean ====
section
/-! DEFINITION. Performance counters, Loupe and the test access port (22). -/
namespace Sys2Proof.Machine

/-! ### Counter blocks (R569 to R573) -/

/-- Offset of the counter block of unit `u`; in the anchor's window, the block of fabric node `n`. -/
def pmcBase (u n : Nat) : Nat :=
  match unitClass u with
  | .engine => CTU + 0x50000
  | .anchor => CTU + 0x10000 + 0x100 * n
  | _ => CTU + 0x10000

/-- Counters of unit `u`'s block; 0 for a unit that has none. -/
def pmcSize (u : Nat) : Nat :=
  match unitClass u with
  | .engine => 16
  | .anchor | .port | .brivel => 8
  | _ => 0

/-- The block that PERF_CFG names by KIND and INDEX (Table 22.2): unit and node. -/
def State.pmcBlock (s : State) (kind index : Nat) : Option (Nat × Nat) :=
  if kind = 0 ∧ index < s.nEngines then some (index, 0)
  else if kind = 1 ∧ index < 16 then some (0x60, index)
  else if kind = 2 ∧ index < 16 then some (0x20 + index, 0)
  else if kind = 3 ∧ index < 2 then some (0x34 + index, 0)
  else none

/-- Every running counter of a block is looked at: its value is what its clock has made of it. -/
def State.pmcLookAll (s : State) (u b : Nat) : State := (List.range (pmcSize u)).foldl (fun t k => t.pmcLook u b k) s

/-- Every counter and OVF is set to 0 (R572). -/
def State.pmcClear (s : State) (u b : Nat) : State :=
  (List.range (pmcSize u)).foldl (fun t k => t.pmcPut u b k 0) (s.setRegN (key u (b + 4)) 0)

/-- A write of PMC_CTL (R572): the counters hold what they have reached; CLR then clears them. -/
def State.pmcCtlWrite (s : State) (u b v : Nat) : State :=
  let s1 := (s.pmcLookAll u b).setRegN (key u b) (setBits v 2 2 0)
  if bit v 2 then s1.pmcClear u b else s1

/-- A write of a PMCk_SEL register: the counter holds what it has reached. -/
def State.pmcSelWrite (s : State) (u b k v : Nat) : State := (s.pmcLook u b k).setRegN (key u (b + 0x10 + 16 * k)) v

/-- A carry out of counter `k` (R571): the next counter adds it when it is a CHAIN counter, and carries in turn; otherwise OVF takes
it. -/
def State.pmcCarry (s : State) (u b : Nat) : (fuel k : Nat) → State
  | 0, _ => s
  | n + 1, k =>
    let nx := k + 1
    if nx < pmcSize u ∧ s.fld (key u (b + 0x10 + 16 * nx)) 9 8 = 3 then
      let v := s.pmcCount u b nx
      if v = 2 ^ 48 - 1 then (s.pmcPut u b nx 0).pmcCarry u b n nx else s.pmcPut u b nx (v + 1)
    else s.setFld (key u (b + 4)) k k 1

/-- COUNTER_OVERFLOW: running counter `k` passes 2^48 − 1. -/
def execCounterOverflow (unit : BitVec 8) (n : Fin 16) (k : Fin 16) (s : State) : Out :=
  let u := unit.toNat
  let b := pmcBase u n.val
  .next (if pmcSize u ≤ k.val ∨ s.pmcRuns u b k.val = false ∨ s.unitCause u 0x60 ≠ 0 then s
    else (s.pmcPut u b k.val 0).pmcCarry u b 16 k.val)

/-- A write of PMC_CTL with CLR (R572). -/
def execPmcClr (src : BitVec 8) (unit : BitVec 8) (n : Fin 16) (v : Reg32) (s : State) : Out :=
  let u := unit.toNat
  let b := pmcBase u n.val
  .next (if pmcSize u = 0 then s else anchorReg src.toNat u b (fun t => t.pmcCtlWrite u b (setBits v.toNat 2 2 1)) s)

/-- A read of a counter's LO word latches its HI word (R572). -/
def execPmcLoLatch (unit : BitVec 8) (n : Fin 16) (k : Fin 16) (s : State) : Out :=
  let u := unit.toNat
  .next (if pmcSize u ≤ k.val ∨ s.unitCause u 0x60 ≠ 0 then s else s.pmcLatch u (pmcBase u n.val) k.val)

/-- The SEL words that PROGRAM reads are valid for a block of `n` counters (R573): none of the masked ones has MODE 3 on counter 0. -/
def selsOk (mask : Nat) (w : List Byte) : Bool := !(bit mask 0 && decide (bits (fieldLE w 0 4) 9 8 = 3))

/-- PERF_CFG (R573), for the row whose OP is `op`: conditions in the order of the table, then `k` with the block's unit and offset. -/
def perf (op : Nat) (pair : BitVec 16) (k : Cmd → Nat → Nat → State → State) (s : State) : Out :=
  match s.nextCmd pair.toNat with
  | none => .next s
  | some c0 =>
    if c0.op = 0x50 ∧ c0.param 2 1 ≠ op ∧ (c0.param 2 1 ≤ 4 ∨ op ≠ 0) then .next s
    else onCmd 0x50 pair (fun c t =>
      match t.pmcBlock (c.param 0 1) (c.param 1 1) with
      | none => c.ends BAD_PARAM 0 0 t
      | some (u, n) =>
        let b := pmcBase u n
        let mask := c.param 4 2
        let words := t.hbm (c.param 8 8) (4 * pmcSize u)
        let dest := c.param 16 8
        if 4 < c.param 2 1
            ∨ (op = 0 ∧ (2 ^ pmcSize u ≤ mask ∨ (pmcSize u = 16 ∧ 1023 < c.param 6 2)
              ∨ (mask ≠ 0 ∧ (s.hbmBytes < c.param 8 8 + 4 * pmcSize u ∨ selsOk mask words = false))))
            ∨ (op = 4 ∧ dest % 64 ≠ 0) then c.ends BAD_PARAM 0 0 t
        else if (engOf u).any (fun e => decide (t.eng[e].power = .off)) then c.ends NO_RESOURCE 0 0 t
        else if op = 0 ∧ mask = 0 then c.ends OK_EMPTY 0 0 t
        else k c u b t) s

/-- PROGRAM: each counter of MASK takes its SEL word from HBM, an engine QSEL. -/
def State.perfProgram (c : Cmd) (u b : Nat) (s : State) : State :=
  match s.read (key 0x40 (c.param 8 8)) (4 * pmcSize u) with
  | (s1, none) => c.ends ECC_UNCORR 0 0 s1
  | (s1, some w) =>
    let s2 := s1.finish c.id OK 0 0 (slice c.pkt 16 48)
    let s3 := ((List.range (pmcSize u)).filter (bit (c.param 4 2))).foldl (fun t k => t.pmcSelWrite u b k (fieldLE w (4 * k) 4)) s2
    if pmcSize u = 16 then s3.setRegN (key u (b + 8)) (c.param 6 2) else s3

/-- PERF_CFG PROGRAM. -/
def execPerfProgram (pair : BitVec 16) (s : State) : Out := perf 0 pair State.perfProgram s

/-- PERF_CFG CLEAR. -/
def execPerfClear (pair : BitVec 16) (s : State) : Out := perf 1 pair (fun c u b t => (t.finish c.id OK 0 0).pmcClear u b) s

/-- PERF_CFG FREEZE: FREEZE is set. -/
def execPerfFreeze (pair : BitVec 16) (s : State) : Out :=
  perf 2 pair (fun c u b t =>
    let t1 := t.finish c.id OK 0 0
    t1.pmcCtlWrite u b (setBits (t1.fld (key u b) 1 0) 1 1 1)) s

/-- PERF_CFG RUN: EN is set and FREEZE cleared. -/
def execPerfRun (pair : BitVec 16) (s : State) : Out :=
  perf 3 pair (fun c u b t =>
    let t1 := t.finish c.id OK 0 0
    t1.pmcCtlWrite u b 1) s

/-- SNAPSHOT: the counters of the block as they stand together, as 64-bit words at DEST. -/
def State.perfSnapshot (c : Cmd) (u b : Nat) (s : State) : State :=
  if s.master = false then s
  else
    let s1 := s.pmcLookAll u b
    let w := (List.range (pmcSize u)).flatMap fun k => toLE 8 (s1.pmcCount u b k)
    (s1.finish c.id OK 0 w.length).hostWrite (c.param 16 8) w

/-- PERF_CFG SNAPSHOT. -/
def execPerfSnapshot (pair : BitVec 16) (s : State) : Out := perf 4 pair State.perfSnapshot s

/-! ### Loupe (R574 to R577) -/

/-- The ring meets a partition's HBM region or the journal of a recording or a replay. -/
def State.loupeMeets (s : State) (base size : Nat) : Bool :=
  (s.partList.any fun x => overlaps (base, size) (x.2.hbmBase, x.2.hbmSize))
    || (s.recording && overlaps (base, size) (s.mirror.base, s.mirror.size))
    || (s.mirror.replay.any fun r => overlaps (base, size) (r.base, r.size))

/-- LOUPE_CFG. -/
def State.loupeCfg (c : Cmd) (s : State) : State :=
  let n := c.param 0 1
  let en := bit (c.param 1 1) 0
  let rate := c.param 2 1
  let base := c.param 8 8
  let size := c.param 16 8
  match engOf n with
  | none => c.ends BAD_PARAM 0 0 s
  | some e =>
    if s.nEngines ≤ n ∨ 16 < rate
        ∨ (en ∧ (base % 4096 ≠ 0 ∨ size % 4096 ≠ 0 ∨ size < 4096 ∨ 2 ^ 32 ≤ size ∨ s.hbmBytes < base + size ∨ s.loupeMeets base size)) then
      c.ends BAD_PARAM 0 0 s
    else if en ∧ rate < 8 ∧ s.isRealtime (s.homePart n) then c.ends ADMIT_REFUSED 0 0 s
    else
      let s1 := s.finish c.id OK 0 0 (slice c.pkt 16 24)
      let s2 := ((s1.setRegN (loupeKey e 0) (b2n en + 2 * rate)).setRegN (loupeKey e 4) (c.param 4 4)).setReg64 (loupeKey e 8) base
      let s3 := s2.setRegN (loupeKey e 0x10) size
      if en then (s3.setRegN (loupeKey e 0x14) 0).setRegN (loupeKey e 0x18) 0 else s3

/-- LOUPE_CFG (R577). -/
def execLoupeCfg (pair : BitVec 16) (s : State) : Out := onCmd 0x51 pair State.loupeCfg s

/-- The issuing queue of an engine's Loupe writes in the model (no hardware queue has this number). -/
def LOUPEQ : Nat := 16382

/-- The PUT of a Loupe record at fabric priority 1 (R576). -/
def State.loupeItem (s : State) (e : Fin 8) (off : Nat) (b : List Byte) : FabItem where
  op := .put
  hdr := { s.mkHdr e.val (hbmAddr off) b.length 0 0 (Config.loupeStream e.val) 0 with prio := 1 }
  payload := b
  owner := .none
  queue := LOUPEQ
  since := s.clock.nclk
  level := 0
  tgts := []

/-- A count of cycles in a 32-bit field, and whether it saturated; a stage that was not reached reads all ones. -/
def stageField (v : Option Word) : List Byte := toLE 4 (match v with
  | some n => min 0xFFFFFFFF n.toNat
  | none => 0xFFFFFFFF)
def stageSat (v : Option Word) : Bool := match v with
  | some n => decide (0xFFFFFFFF < n.toNat)
  | none => false

/-- A Loupe record (Table 22.4). -/
def Tag.record (g : Tag) (issue : Word) (ready start commit : Option Word) : List Byte :=
  let sat := stageSat (some issue) || stageSat ready || stageSat start || stageSat commit
  toLE 4 g.step ++ toLE 4 g.idx ++ toLE 4 g.pc ++ toLE 1 (g.code / 64) ++ toLE 1 (g.code % 64)
    ++ toLE 2 (b2n g.killed + 2 * b2n sat) ++ stageField (some issue) ++ stageField ready ++ stageField start ++ stageField commit

/-- LOUPE_RECORD: the k-th outstanding tagged instruction of engine `e` commits, or its command has been killed; the cycles from the
command's start to ISSUE and between the stages are the event's. Only a killed one may have a stage that was not reached. A full
ring drops the record. -/
def execLoupeRecord (e : Fin 8) (k : Fin 16) (issue : Word) (ready : Option Word) (start : Option Word) (commit : Option Word) (s : State) : Out :=
  match s.eng[e].tags[k.val]? with
  | none => .next s
  | some g =>
    if g.killed = false ∧ (ready.isNone ∨ start.isNone ∨ commit.isNone) then .next s
    else
      let s1 := s.modEng e fun en => { en with tags := en.tags.eraseIdx k.val }
      let w := s.regN (loupeKey e 0x14)
      let size := s.regN (loupeKey e 0x10)
      if size < ringDist (w + 32) (s.regN (loupeKey e 0x18)) then .next (s1.countUp (loupeKey e 0x1C) 1)
      else
        let off := s.reg64 (loupeKey e 8) + w % size
        .next ((s1.setRegN (loupeKey e 0x14) (w + 32)).pushItems [s.loupeItem e off (g.record issue ready start commit)])

/-! ### The test access port (R579, R580) -/

/-- IDCODE (R580): 4 × (stepping letter − A) + stepping number, part number, manufacturer, 1. -/
def State.idcodeValue (s : State) : Nat :=
  let id := (s.barView 0).getD 0
  (4 * (bits id 7 4 - 0xA) + bits id 3 0) % 16 * 2 ^ 28 + bits id 31 16 * 2 ^ 12 + 0x2D7 * 2 + 1

/-- The instructions of Table 22.5. -/
inductive TapInstr where
  | idcode | sample | extest | clamp | highz | debug | bypass
  deriving DecidableEq, Repr

/-- The instruction that acts: EXTEST, CLAMP and HIGHZ in device states 0, 2 and 5 only, DEBUG while no identity keys are present. -/
def State.tapInstr (s : State) : TapInstr :=
  let st := s.devState
  let board := decide (st = 0 ∨ st = 2 ∨ st = 5)
  let ir := s.jtag.ir.toNat
  if ir = 1 then .idcode
  else if ir = 2 then .sample
  else if ir = 3 ∧ board then .extest
  else if ir = 4 ∧ board then .clamp
  else if ir = 5 ∧ board then .highz
  else if ir = 0x80 ∧ s.secure.keys = false then .debug
  else .bypass

/-- What the TAP makes of the balls: driven from the boundary register, released, or left to the device. -/
inductive TapDrive where
  | cells (v : BitVec 412)
  | released
  | device
  deriving DecidableEq, Repr

def State.tapDrive (s : State) : TapDrive :=
  match s.tapInstr with
  | .extest | .clamp => .cells s.jtag.boundary
  | .highz => .released
  | _ => .device

/-- Load an instruction; the data register that it selects captures: the identification register its value, the bypass register (which
every instruction without a register of its own selects) 0. -/
def State.tapLoad (s : State) (ir : Nat) : State :=
  let s1 : State := { s with jtag := { s.jtag with ir := BitVec.ofNat 8 ir } }
  let v := match s1.tapInstr with
    | .idcode => s1.idcodeValue
    | _ => 0
  { s1 with jtag := { s1.jtag with dr := BitVec.ofNat 412 v } }

/-- The boundary register captures the balls, and then takes new cells. -/
def State.tapScan (s : State) (balls cells : BitVec 412) : State :=
  { s with jtag := { s.jtag with dr := balls, boundary := cells } }

/-- Five TCK cycles with TMS high (R579): the instruction register holds IDCODE. -/
def execTapReset (s : State) : Out := .next (s.tapLoad 1)

/-- IDCODE (R580). -/
def execIdcode (s : State) : Out := .next (s.tapLoad 1)

/-- SAMPLE/PRELOAD: the boundary register samples the balls and is preloaded; the balls are left to the device. -/
def execSamplePreload (balls : BitVec 412) (cells : BitVec 412) (s : State) : Out := .next ((s.tapLoad 2).tapScan balls cells)

/-- EXTEST: the boundary register captures the balls and drives them; BYPASS in other device states. -/
def execExtest (balls : BitVec 412) (cells : BitVec 412) (s : State) : Out :=
  let t := s.tapLoad 3
  .next (if t.tapInstr = .extest then t.tapScan balls cells else t)

/-- CLAMP: the balls stay driven from the boundary register, and the bypass register is selected. -/
def execClamp (s : State) : Out := .next (s.tapLoad 4)

/-- HIGHZ: the outputs are released. -/
def execHighz (s : State) : Out := .next (s.tapLoad 5)

/-- DEBUG is selected; with identity keys present it acts as BYPASS. -/
def execDebug (s : State) : Out := .next (s.tapLoad 0x80)

/-- BYPASS, and every code that Table 22.5 does not assign. -/
def execBypass (code : BitVec 8) (s : State) : Out :=
  .next (s.tapLoad (if code.toNat ∈ [1, 2, 3, 4, 5, 0x80] then 0xFF else code.toNat))

end Sys2Proof.Machine
end

