-- ==== Sys2Proof/Machine/RegWrite.lean ====
section
/-! DEFINITION. What a write of a register does (R7 to R12): by the access codes of its row, and by the effects of its own that the
chapters give it; who may write it; the mailbox and doorbell block (R379 to R381) and the credit tables (R57, R58). -/
namespace Sys2Proof.Machine

/-! ### Access codes (Table 0.4) -/

/-- What a field holds after a write of `n` over `o`: `w` bits; `locked` says that its LOCK bit held 1 (R12). -/
def Acc.write (a : Acc) (locked : Bool) (w o n : Nat) : Nat :=
  match a with
  | .rw => n
  | .ro => o
  | .w1c => o - (o &&& n % 2 ^ w)
  | .w1s => o ||| n
  | .wo => o
  | .rwl => if locked then o else n

/-- A register's value after a write of `v` over `old`. -/
def RegRow.merge (r : RegRow) (old v : Nat) : Nat :=
  let locked := r.lock.any fun b => bit old b
  r.flds.foldl (fun w f => setBits w f.hi f.lo (f.acc.write locked (f.hi + 1 - f.lo) (bits old f.hi f.lo) (bits v f.hi f.lo))) old

/-- The write of register `a` by its access codes; none where no register is (R8). -/
def State.mergeReg (s : State) (a v : Nat) : State :=
  match regRow a with
  | none => s
  | some r => s.setRegN a (r.merge (s.regN a) v)

/-- Source `du` (device · 256 + unit) may write a register of class `w`: the anchor's identity does not cross a Brivel link (R499); the
consumer of a modem ring is an engine or the host (R521). -/
def State.mayWrite (s : State) (w : Who) (du : Nat) : Bool :=
  let u := du % 256
  let own := decide (du / 256 = s.ownChain)
  match w with
  | .any => true
  | .anchor => own && decide (u = 0x60)
  | .window => own && (decide (u = 0x60) || decide (u = 0x62))
  | .consumer => own && (decide (u = 0x60) || decide (u = 0x62) || decide (u < 8))

/-- The word at offset `o` of unit `u` is a register that the source may not write. -/
def State.regDenied (s : State) (du u o : Nat) : Bool :=
  match regRow (key u o) with
  | none => false
  | some r => !(s.mayWrite r.who du)

/-! ### Credit tables (R58) -/

/-- A write of FAB_CRD_k_W0: none while the entry is VALID. -/
def State.crdW0Write (s : State) (u k v : Nat) : State :=
  if bit (s.regN (crdW1 u k)) 31 then s else s.setRegN (crdW0 u k) v

/-- A write of FAB_CRD_k_W1: on a VALID entry it takes effect only when it writes VALID as 0, and then deregisters the stream. -/
def State.crdW1Write (s : State) (u k v : Nat) : State :=
  if bit (s.regN (crdW1 u k)) 31 then
    if bit v 31 then s else (s.setRegN (crdW1 u k) v).dropHeld u (s.fld (crdW0 u k) 15 0)
  else s.setRegN (crdW1 u k) v

/-! ### Mailboxes and doorbells (R379 to R381) -/

/-- Registers of mailbox `n` of unit `u`. -/
def mbxKey (u n o : Nat) : Nat := key u (CTM + 0x80 * n + o)

/-- Pending doorbell bits have changed since `s0`: in the anchor's block a bit 16 to 31 that has become pending raises MSI-X vector 0
(R381). -/
def State.doorbells (s s0 : State) (u : Nat) : State :=
  if u = 0x60 ∧ (s.dbPend u &&& ~~~(s0.dbPend u)).toNat / 2 ^ 16 ≠ 0 then s.msix 0 else s

/-- Raise bits of DB_RAW of unit `u`. -/
def State.raiseDb (s : State) (u v : Nat) : State :=
  (s.setReg (dbRaw u) (s.reg (dbRaw u) ||| BitVec.ofNat 32 v)).doorbells s u

/-- A GO write by unit `src` to mailbox `n` of unit `u` (R379). -/
def State.mbxPost (s : State) (src u n : Nat) : State :=
  let k := mbxKey u n 0x40
  if s.fld k 0 0 = 1 then s.setFld k 1 1 1
  else ((s.setFld k 0 0 1).setFld k 23 16 src).raiseDb u (2 ^ n)

/-- The issuing queue of mailbox blocks in the model (no hardware queue has this number). -/
def MBXQ : Nat := 16381

/-- The SIGNAL of an answered mailbox (R380): TINC 1 to counter TCTR of unit UNIT on stream 0xFFFE. -/
def State.ntfItem (s : State) (u ntf : Nat) : FabItem where
  op := .signal
  hdr := { s.mkHdr u (0xF * 2 ^ 60 + bits ntf 19 12 * 2 ^ 52) 0 (bits ntf 11 0) 0 0xFFFE 1 with prio := 1 }
  payload := []
  owner := .none
  queue := MBXQ
  since := s.clock.nclk
  level := 0
  tgts := []

/-- A write of MBX_n_ACK (R380): none while GO is 0. -/
def State.mbxAck (s : State) (u n v : Nat) : State :=
  let k := mbxKey u n 0x40
  if s.fld k 0 0 = 0 then s
  else
    let s1 := (s.setRegN (mbxKey u n 0x44) v).setFld k 0 0 0
    let ntf := s.regN (mbxKey u n 0x48)
    if bit ntf 31 then s1.pushItems [s1.ntfItem u ntf] else s1

/-- A write of a DATA word: discarded while GO is 1. -/
def State.mbxData (s : State) (u n i v : Nat) : State :=
  if s.fld (mbxKey u n 0x40) 0 0 = 1 then s.setFld (mbxKey u n 0x40) 1 1 1 else s.setRegN (mbxKey u n (4 * i)) v

/-- A write of unit `src` at offset `o` of the mailbox and doorbell block of unit `u` (Tables 13.9, 13.13). -/
def State.mboxWrite (s : State) (src u o v : Nat) : State :=
  let n := o / 0x80
  let r := o % 0x80
  if o < 0x1000 then
    if r < 0x40 then s.mbxData u n (r / 4) v
    else if r = 0x40 then
      let s1 := s.mergeReg (mbxKey u n 0x40) (v % 4 / 2 * 2)
      if bit v 0 then s1.mbxPost src u n else s1
    else if r = 0x44 then s.mbxAck u n v
    else s.mergeReg (mbxKey u n r) v
  else if o = 0x1004 then s.raiseDb u v
  else (s.mergeReg (key u (CTM + o)) v).doorbells s u

/-! ### Registers with effects of their own -/

/-- Writes of an engine's registers that do more than store (Tables 3.11, 5.8, 6.5, 7.15, 9.6, 22.6); none for the others. -/
def State.engRegWrite (s : State) (e : Fin 8) (o v : Nat) : Option State :=
  if o = CTU + 4 then some (s.ctlWrite e v)
  else if o = CTU + 0x10400 then some (s.arrClr e v)
  else if o = CTU + 0x250 then some (if bit v 0 then s.qntClr e else s)
  else if o = CTU + 0x2001C then some (if bit v 0 then s.vecClr e else s)
  else if o = CTU + 0x40020 then some (if bit v 0 then s.prismClr e else s)
  else if CTU + 0x304 ≤ o ∧ o < CTU + 0x380 ∧ (o - (CTU + 0x304)) % 8 = 0 then some (s.pairCtl e ((o - (CTU + 0x304)) / 8) v)
  else if CTU + 0x10000 ≤ o ∧ o < CTU + 0x10400 ∧ o % 16 = 0 ∧ bit v 0 then
    some ((s.mergeReg (key e o) v).setRegN (key e (o + 4)) 0)
  else none

/-- Writes of the other units' registers that do more than store. -/
def State.unitRegWrite (s : State) (u o v : Nat) : Option State :=
  match unitClass u with
  | .engine => (engOf u).bind fun e => s.engRegWrite e o v
  | .facet =>
    if o = CTU + 4 then some (if bit v 5 then s.fctFlush (u - 0x10) (v % 32) else s)
    else if o = CTU + 0x2C then some (if bit v 0 then s.fctClr (u - 0x10) else s)
    else none
  | .port => if o = CTU + 0x3C then some (if bit v 0 then s.fhClr (u - 0x20) else s) else none
  | .time =>
    if o = CTU then some (s.ptpCtlWrite v)
    else if o = CTU + 0x18 then some (if s.ptpHeld then s else s.setRegN (key u o) v)
    else if o = CTU + 0x20 then some (s.ptpAdjWrite v)
    else none
  | .modem =>
    if o = CTU + 0xC then some (if bit v 0 then s.modClr else s)
    else if o = CTU then some (s.mergeReg (key u o) v).modCtlSet
    else none
  | .brivel =>
    if o = CTU + 0x18 then some (if bit v 0 then s.brvClr (u - 0x34) else s)
    else if o = CTU then
      let p := u - 0x34
      let s1 := s.setRegN (key u o) v
      some (if bit v 0 then (if s1.brvState p = 0 then s1.setBrv p 1 else s1) else s1.linkDown p)
    else none
  | _ => none

/-- Writes of performance counter blocks (R572); none for other registers. -/
def State.pmcRegWrite (s : State) (u o v : Nat) : Option State :=
  let b := match unitClass u with
    | .engine => CTU + 0x50000
    | .anchor => o / 0x100 * 0x100
    | _ => CTU + 0x10000
  if pmcSize u = 0 ∨ o < CTU + 0x10000 ∨ (regRow (key u o)).isNone ∨ o < b ∨ b + 0x200 ≤ o then none
  else if o = b then some (s.pmcCtlWrite u b v)
  else if b + 0x10 ≤ o ∧ (o - b) % 16 = 0 then some (s.pmcSelWrite u b ((o - b - 0x10) / 16) v)
  else none

/-- Write `v` to the register at offset `o` of unit `u`, by a source (device · 256 + unit) that may write it. -/
def State.regWrite (s : State) (du u o v : Nat) : State :=
  if CTC ≤ o ∧ o < CTC + 0x2000 then
    let k := (o - CTC) / 8
    if creditEntries (unitClass u) ≤ k then s
    else if o % 8 = 0 then s.crdW0Write u k v
    else s.crdW1Write u k v
  else if CTM ≤ o ∧ o < CTM + 0x10000 then
    if (regRow (key u o)).isSome then s.mboxWrite (du % 256) u (o - CTM) v else s
  else if o = CTL + 0x100 ∧ (regRow (key u o)).isSome then
    let s1 := s.mergeReg (key u o) v
    if bit v 2 then s1.eccClr u else s1
  else if o = CTL + 0x11C ∧ (regRow (key u o)).isSome then s.injWrite u v
  else match s.unitRegWrite u o v with
    | some t => t
    | none => match s.pmcRegWrite u o v with
      | some t => t
      | none =>
        let s1 := s.mergeReg (key u o) v
        if u = 0x31 ∧ CTU + 0x100 ≤ o ∧ o < CTU + 0x500 then s1.cfgCheck ((o - (CTU + 0x100)) / 0x80) else s1

/-- The words that a write of `n` bytes at offset `o` of a control region covers; a write that is misaligned or narrower than a word
covers none (R7). -/
def ctlWords (o n : Nat) : List Nat := if o % 4 = 0 ∧ n % 4 = 0 then (List.range (n / 4)).map fun i => o + 4 * i else []

/-- A write to a control region would write a register that the source may not write. -/
def State.ctlDenied (s : State) (du u o n : Nat) : Bool := (ctlWords o n).any fun w => s.regDenied du u w

/-- Write bytes to a control region, word by word. -/
def State.ctlPut (s : State) (du u o : Nat) (bs : List Byte) : State :=
  (ctlWords o bs.length).foldl (fun t w => t.regWrite du u w (fieldLE bs (w - o) 4)) s

/-- Unit `src` of the own device writes one register of unit `u`. -/
def State.regPut (s : State) (src u o v : Nat) : State :=
  let c := s.unitCause u src
  let du := s.ownChain * 256 + src
  if o < CTL then s
  else if c ≠ 0 then s.failOp src c 1 0 (key u o) .none
  else if o % 4 ≠ 0 then s
  else if s.regDenied du u o then (s.reach u).failOp src 7 1 0 (key u o) .none
  else (s.reach u).regWrite du u o v

/-! ### Writes of the host to BAR0 (R356, Tables 13.1, 13.11) -/

/-- A write of the host to an entry of the MSI-X table: a vector that is unmasked while it is pending is sent. -/
def State.msixWrite (s : State) (o v : Nat) : State :=
  let s1 := s.mergeReg (key BAR0 o) v
  let n := (o - 0x40000) / 16
  if s1.fld (msixEntry n + 0xC) 0 0 = 0 ∧ s1.fld (msixPba n) (n % 32) (n % 32) = 1 then s1.msix n else s1

/-- A write of the host to a word of BAR0 outside the parts that answer in SAFE. -/
def State.barWrite (s : State) (o v : Nat) : State :=
  let p := o % 0x8000 / 16
  if 0x10000 ≤ o ∧ o < 0x18000 then
    if o % 16 = 0 then s.tailWrite p v else if o % 16 = 0xC then s.cheadWrite p v else s
  else if 0x18000 ≤ o ∧ o < 0x20000 ∧ o % 16 = 0xC then
    if bit v 0 then (s.setFld (qStatus p) 0 0 0).acceptStep p else s
  else if o = 0x1040 then s.admWrite (bit v 0)
  else if 0x40000 ≤ o ∧ o < 0x48000 then s.msixWrite o v
  else s.mergeReg (key BAR0 o) v

/-- The parts of BAR0 that answer in every state: the identity and status registers take no write, and the anchor's mailbox block
takes the host's as those of unit 0x62. -/
def State.hostWriteReg (s : State) (o v : Nat) : State :=
  if s.hostUp = false ∨ o % 4 ≠ 0 then s
  else if 0x20000 ≤ o ∧ o < 0x30000 then s.regWrite (s.ownChain * 256 + 0x62) 0x60 (CTM + (o - 0x20000)) v
  else if o < 0x1000 then s
  else hostReg s fun t => t.barWrite o v

/-! ### The rows -/

/-- REGISTER_WRITE: unit `src` writes the register at offset `off` of unit `unit`; unit 256 stands for BAR0, which the host writes. -/
def execRegisterWrite (src : BitVec 8) (unit : BitVec 9) (off : BitVec 52) (v : Reg32) (s : State) : Out :=
  .next (if unit.toNat = BAR0 then s.hostWriteReg off.toNat v.toNat else s.regPut src.toNat unit.toNat off.toNat v.toNat)

/-- FAB_CRD_W0_WRITE (R57, R58). -/
def execFabCrdW0Write (src : BitVec 8) (unit : BitVec 8) (k : BitVec 10) (v : Reg32) (s : State) : Out :=
  .next (s.regPut src.toNat unit.toNat (CTC + 8 * k.toNat) v.toNat)

/-- FAB_CRD_W1_WRITE (R57, R58). -/
def execFabCrdW1Write (src : BitVec 8) (unit : BitVec 8) (k : BitVec 10) (v : Reg32) (s : State) : Out :=
  .next (s.regPut src.toNat unit.toNat (CTC + 8 * k.toNat + 4) v.toNat)

/-- A host or fabric write of MBX_n_CTL.GO (R379): unit `src`, 0x62 for the host. -/
def execMbxPost (src : BitVec 8) (unit : BitVec 8) (n : Fin 32) (s : State) : Out :=
  .next (if src = 0x62 ∧ unit = 0x60 then s.hostWriteReg (0x20000 + 0x80 * n.val + 0x40) 1
    else s.regPut src.toNat unit.toNat (CTM + 0x80 * n.val + 0x40) 1)

/-- A write of MBX_n_ACK (R380). -/
def execMbxAck (src : BitVec 8) (unit : BitVec 8) (n : Fin 32) (v : Reg32) (s : State) : Out :=
  .next (if src = 0x62 ∧ unit = 0x60 then s.hostWriteReg (0x20000 + 0x80 * n.val + 0x44) v.toNat
    else s.regPut src.toNat unit.toNat (CTM + 0x80 * n.val + 0x44) v.toNat)

/-- A write of DB_SET (R381). -/
def execDbSet (src : BitVec 8) (unit : BitVec 8) (v : Reg32) (s : State) : Out :=
  .next (if src = 0x62 ∧ unit = 0x60 then s.hostWriteReg 0x21004 v.toNat
    else s.regPut src.toNat unit.toNat (CTM + 0x1004) v.toNat)

end Sys2Proof.Machine
end

