-- ==== Sys2Proof/Machine/FabRun.lean ====
section
/-! DEFINITION. Remote memory operations (02): how a source issues them, what they do at their targets, returns, failures, credits,
stalls, and the host's accesses through windows (13). -/
namespace Sys2Proof.Machine

/-! ### Effects at a target -/

/-- The rows of accumulator memory that a write at offset `off` of engine `e` meets race with array descriptors in flight (R160). -/
def State.races (s : State) (u off n : Nat) : State :=
  match engOf u with
  | none => s
  | some e =>
    if 0x10000000 ≤ off ∧ off < CTL ∧ 0 < n then
      let o := off - 0x10000000
      (List.range ((o + n - 1) / 128 - o / 128 + 1)).foldl (fun t i => t.raceRow e ((o / 128 + i) / 1024) ((o / 128 + i) % 1024)) s
    else s

/-- Write bytes at offset `off` of unit `u`, by source `du`: the cause of a failure, or 0. -/
def State.putAt (s : State) (du u off : Nat) (bs : List Byte) : State × Nat :=
  if off < CTL then
    match s.write (key u off) bs with
    | (s1, true) => (s1.races u off bs.length, 0)
    | (s1, false) => (s1, 9)
  else if s.ctlDenied du u off bs.length then (s, 7)
  else (s.ctlPut du u off bs, 0)

/-- A token increment after the writes of its operation (R53); a failed pair check withholds it (R186). -/
def State.signalAt (s : State) (u : Nat) (x : FabItem) (pass : Bool) : State :=
  if pass then s.addTok u x.hdr.tctr.toNat x.hdr.tinc.toNat else s

/-- The pair check of R185 where unit `u` is an engine. -/
def State.pairAt (s : State) (u : Nat) (x : FabItem) : State × Bool :=
  match engOf u with
  | some e => s.pairCheck e x.hdr.stream.toNat x.hdr.seq.toNat x.payload
  | none => (s, true)

/-- A range on which atomic operations act: memory, or token counters (R46). -/
def atomicPlace (off n : Nat) : Bool := decide (off < CTL) || (decide (CTK ≤ off) && decide (off + n ≤ CTK + 0x4000))

/-- Operand width of an atomic operation (R46). -/
def FabOp.width (o : FabOp) (n : Nat) : Nat := if o = .cas then n / 2 else if o = .orderedFadd then 4 else n

def FabOp.atomic (o : FabOp) : Bool := decide (o = .atomicAdd ∨ o = .fetchAdd ∨ o = .cas ∨ o = .orderedFadd)

/-- Source of an operation as unitCause asks for it: a unit of another device has no number here (R499). -/
def State.srcOf (s : State) (h : Hdr) : Nat := if s.fromHere h then h.srcUnit.toNat else 0x1000

/-- Source of an operation, device · 256 + unit. -/
def hdrSrc (h : Hdr) : Nat := h.srcChain.toNat * 256 + h.srcUnit.toNat

/-- The partition of an unordered addition's source, when it is an engine of this device (R71). -/
def State.srcPart (s : State) (h : Hdr) : Option (Fin 8) :=
  if s.fromHere h then (engOf h.srcUnit.toNat).bind s.ownerPart else none

/-- The payload is of the length that the header gives. -/
def FabItem.sized (x : FabItem) : Bool :=
  if x.op = .get then x.payload.isEmpty else decide (x.payload.length = x.hdr.len.toNat)

/-- Why operation `x` fails at unit `u` before any byte is read, 0 when it does not: unit, stream, form, window, region, alignment. -/
def State.landCause (s : State) (x : FabItem) (u : Nat) : Nat :=
  let n := x.hdr.len.toNat
  let off := offOf x.hdr.addr.toNat
  let c := s.unitCause u (s.srcOf x.hdr)
  if c ≠ 0 then c
  else if (s.streamEntry u x.hdr.stream.toNat).isNone then 6
  else if x.op.lenOk n = false ∨ x.sized = false ∨ (s.fromHere x.hdr = false ∧ x.hdr.prio = 15)
      ∨ (x.op = .orderedFadd ∧ x.hdr.unord ∧ s.relaxed (s.srcPart x.hdr) = false) then 4
  else if x.op = .signal then 0
  else if s.winOk u off n = false then 3
  else if x.op.atomic ∧ atomicPlace off n = false then 4
  else if x.op.atomic ∧ off % x.op.width n ≠ 0 then 5
  else 0

/-- How an operation's arrival ends. -/
inductive Landed where
  | done
  /-- held in a reorder window (R68) -/
  | held
  | failed (cause : Nat)
  deriving DecidableEq, Repr

/-- A landing that ends with cause `c`, 0 for none. -/
def Landed.of (c : Nat) : Landed := if c = 0 then .done else .failed c

/-- The return of a GET, FETCH_ADD or CAS sets out (R47). One whose return address lies on another device leaves this one. -/
def State.sendReturn (s : State) (x : FabItem) (u : Nat) (data : List Byte) : State :=
  let ra := x.hdr.raddr.toNat
  if devOf ra ≠ s.ownChain then s
  else
    let h : Hdr := { x.hdr with
      addr := x.hdr.raddr, mc := false, unord := false, srcUnit := BitVec.ofNat 8 u, srcChain := BitVec.ofNat 4 s.ownChain
      len := BitVec.ofNat 13 data.length, tctr := x.hdr.rctr, tinc := 1, rctr := 0, raddr := 0 }
    let item : FabItem := ⟨.putSignal, h, data, x.owner, x.queue, 0, 0, [s.ownChain * 256 + unitOf ra], false⟩
    let r : RetItem := ⟨item, x.hdr.srcUnit.toNat, x.op, x.hdr.addr.toNat, false⟩
    { s with fab := { s.fab with rets := s.fab.rets ++ [r] } }

/-- The FP32 words of `b` with the addends of `p` (R69). -/
def faddBytes (b p : List Byte) : List Byte :=
  (List.range (b.length / 4)).flatMap fun i => toLE 4 (f32Add (fieldLE b (4 * i) 4) (fieldLE p (4 * i) 4))

/-- Apply an ORDERED_FADD at unit `u`: its cause, 0 when it is applied. -/
def State.applyFadd (s : State) (x : FabItem) (u : Nat) : State × Nat :=
  let off := offOf x.hdr.addr.toNat
  match s.targetRead u off x.payload.length with
  | (s1, none) => (s1, 9)
  | (s1, some b) => match s1.putAt (hdrSrc x.hdr) u off (faddBytes b x.payload) with
    | (s2, 0) => (s2.signalAt u x true, 0)
    | r => r

/-- NEXT_SEQ and ORDER_WIN of a stream at unit `u`. -/
def State.nextSeq (s : State) (u k : Nat) : Nat := s.fld (crdW0 u k) 31 16

/-- The reorder window of unit `u` holds sequence `q` of a stream. -/
def State.holdsSeq (s : State) (u stream q : Nat) : Bool :=
  s.fab.held.any fun h => decide (h.1 = u) && decide (h.2.hdr.stream.toNat = stream) && decide (h.2.hdr.seq.toNat = q)

/-- An ORDERED_FADD arrives (R68, R71). -/
def State.landFadd (s : State) (x : FabItem) (u k : Nat) : State × Landed :=
  let q := x.hdr.seq.toNat
  let win := s.crdWin u k
  let d := (q + 2 ^ 16 - s.nextSeq u k) % 2 ^ 16
  if x.hdr.unord then
    match s.applyFadd x u with
    | (s1, 0) => (s1.dynChoice (s.srcPart x.hdr), .done)
    | (s1, c) => (s1, .failed c)
  else if win = 0 ∨ s.holdsSeq u x.hdr.stream.toNat q ∨ win ≤ d then (s, .failed 8)
  else if d = 0 then
    match s.applyFadd x u with
    | (s1, 0) => (s1.setFld (crdW0 u k) 31 16 (q + 1), .done)
    | (s1, c) => (s1, .failed c)
  else ({ s with fab := { s.fab with held := s.fab.held ++ [(u, x)] } }, .held)

/-- An integer addition of `n` bytes modulo 2^(8n) (R45). -/
def addBytes (b p : List Byte) : List Byte := toLE b.length (leNat b + leNat p)

/-- An atomic operation reads `n` bytes, writes what `f` makes of them (nothing for none), and returns them where it is one that does
(R45 to R47). -/
def State.landAtomic (s : State) (x : FabItem) (u n : Nat) (f : List Byte → Option (List Byte)) : State × Landed :=
  let off := offOf x.hdr.addr.toNat
  match s.targetRead u off n with
  | (s1, none) => (s1, .failed 9)
  | (s1, some b) =>
    let r := match f b with
      | some w => s1.putAt (hdrSrc x.hdr) u off w
      | none => (s1, 0)
    if r.2 ≠ 0 then (r.1, .failed r.2)
    else (if x.op.returns then r.1.sendReturn x u b else r.1, .done)

/-- Operation `x` takes effect at unit `u` of the own device, or fails there (R44 to R53, R79). -/
def State.land (s0 : State) (x : FabItem) (u : Nat) : State × Landed :=
  let c := s0.landCause x u
  let n := x.hdr.len.toNat
  let off := offOf x.hdr.addr.toNat
  let s := s0.reachAt u off n
  if c ≠ 0 then (s0, .failed c)
  else match x.op with
    | .put => match s.putAt (hdrSrc x.hdr) u off x.payload with
      | (s1, 0) => ((s1.pairAt u x).1, .done)
      | (s1, d) => (s1, .failed d)
    | .putSignal => match s.putAt (hdrSrc x.hdr) u off x.payload with
      | (s1, 0) => ((s1.pairAt u x).1.signalAt u x (s1.pairAt u x).2, .done)
      | (s1, d) => (s1, .failed d)
    | .signal => (s.signalAt u x true, .done)
    | .get => match s.targetRead u off n with
      | (s1, none) => (s1, .failed 9)
      | (s1, some b) => (s1.sendReturn x u b, .done)
    | .atomicAdd => s.landAtomic x u n fun b => some (addBytes b x.payload)
    | .fetchAdd => s.landAtomic x u n fun b => some (addBytes b x.payload)
    | .cas => s.landAtomic x u (n / 2) fun b => if b = x.payload.take (n / 2) then some (x.payload.drop (n / 2)) else none
    | .orderedFadd => match s.streamEntry u x.hdr.stream.toNat with
      | some k => s.landFadd x u k
      | none => (s, .failed 6)

/-- An operation arrives at unit `u`: it is done, held, or failed. -/
def State.deliver (s : State) (x : FabItem) (u : Nat) : State :=
  let du := s.ownChain * 256 + u
  match s.land x u with
  | (s1, .done) => s1.arrive du x
  | (s1, .held) => s1
  | (s1, .failed c) => s1.failItem du x c

/-! ### Arrival -/

/-- Members of multicast group `g` that are present (R84): unit numbers. -/
def State.members (s : State) (g : Nat) : List Nat :=
  let m := s.regN (key 0x60 (CTL + 0x1100 + 16 * g))
  (((List.range 8).filter (bit m)) ++ ((List.range 8).filter fun f => bit m (8 + f)).map (0x10 + ·)
    ++ ((List.range 16).filter fun p => bit m (16 + p)).map (0x20 + ·)).filter fun u => !(s.unitAbsent u)

/-- The units that an operation goes to (device · 256 + unit), or the cause with which it fails at its source (R74, R75). -/
def State.targets (s : State) (o : FabOp) (h : Hdr) : Nat ⊕ List Nat :=
  let a := h.addr.toNat
  let g := unitOf a
  if h.mc = false then .inr [devOf a * 256 + unitOf a]
  else if o ≠ .put ∧ o ≠ .putSignal ∧ o ≠ .signal then .inl 4
  else if devOf a ≠ s.ownChain ∨ s.fromHere h = false ∨ 31 < g ∨ s.fld (key 0x60 (CTL + 0x1104 + 16 * g)) 0 0 = 0 ∨ s.members g = [] then .inl 1
  else .inr ((s.members g).map (s.ownChain * 256 + ·))

/-- Unit `u` stands on the anchor's side of the UCIe link. -/
def anchorSide (u : Nat) : Bool := decide (u = 0x60 ∨ u = 0x61 ∨ u = 0x62)

/-- A retrain of the UCIe link holds what passes between units `u` and `v` (R448). -/
def State.linkHeld (s : State) (u v : Nat) : Bool := s.ucie.retraining && decide (anchorSide u ≠ anchorSide v)

/-- Two operations are of one source and stream and have a target in common (R64). -/
def FabItem.sameFlow (x y : FabItem) : Bool :=
  decide (hdrSrc x.hdr = hdrSrc y.hdr) && decide (x.hdr.stream = y.hdr.stream) && x.tgts.any fun t => decide (t ∈ y.tgts)

/-- Deliver at each target of the own device. -/
def State.deliverAll (s : State) (x : FabItem) (tgts : List Nat) : State :=
  (tgts.filter fun t => decide (t / 256 = s.ownChain)).foldl (fun t du => t.deliver x (du % 256)) s

/-- The arrival of operation `o`: of one in flight, if it is the oldest of its flow; or of one that comes from outside the model,
such as another device's, which holds no credits here. An operation for another device takes effect there. -/
def State.arriveOp (s : State) (o : FabOp) (h : Hdr) (payload : List Byte) : State :=
  match s.fab.flight.findIdx? fun x => decide (x.op = o) && decide (x.hdr = h) && decide (x.payload = payload) with
  | some i => match s.fab.flight[i]? with
    | none => s
    | some x =>
      if (s.fab.flight.take i).any (fun y => y.sameFlow x) ∨ x.tgts.any (fun t => decide (t / 256 ≠ s.ownChain))
          ∨ x.tgts.any (fun t => s.linkHeld h.srcUnit.toNat (t % 256)) then s
      else ({ s with fab := { s.fab with flight := s.fab.flight.eraseIdx i } } : State).deliverAll x x.tgts
  | none =>
    let x : FabItem := ⟨o, h, payload, .none, 0, 0, 0, [], false⟩
    match s.targets o h with
    | .inl c => if devOf h.addr.toNat = s.ownChain then s.failItem 0 x c else s
    | .inr ts =>
      if s.fromHere h ∧ ts.any fun t => s.linkHeld h.srcUnit.toNat (t % 256) then s else s.deliverAll x ts

/-- PUT (R44). -/
def execPut (h : Hdr) (payload : List Byte) (s : State) : Out := .next (s.arriveOp .put h payload)

/-- GET (R47). -/
def execGet (h : Hdr) (s : State) : Out := .next (s.arriveOp .get h [])

/-- PUT_SIGNAL (R44, R53). -/
def execPutSignal (h : Hdr) (payload : List Byte) (s : State) : Out := .next (s.arriveOp .putSignal h payload)

/-- SIGNAL (R44). -/
def execSignal (h : Hdr) (s : State) : Out := .next (s.arriveOp .signal h [])

/-- ATOMIC_ADD (R45). -/
def execAtomicAdd (h : Hdr) (payload : List Byte) (s : State) : Out := .next (s.arriveOp .atomicAdd h payload)

/-- FETCH_ADD (R45, R47). -/
def execFetchAdd (h : Hdr) (payload : List Byte) (s : State) : Out := .next (s.arriveOp .fetchAdd h payload)

/-- CAS (R45, R47). -/
def execCas (h : Hdr) (payload : List Byte) (s : State) : Out := .next (s.arriveOp .cas h payload)

/-- ORDERED_FADD (R68 to R71). -/
def execOrderedFadd (h : Hdr) (payload : List Byte) (s : State) : Out := .next (s.arriveOp .orderedFadd h payload)

/-- ORDERED_FADD_RELEASE: the held operation whose sequence is NEXT_SEQ is applied (R68). -/
def execOrderedFaddRelease (unit : BitVec 8) (stream : BitVec 16) (s : State) : Out :=
  let u := unit.toNat
  .next (match s.streamEntry u stream.toNat with
    | none => s
    | some k =>
      match takeFirst (fun h => decide (h.1 = u) && decide (h.2.hdr.stream = stream) && decide (h.2.hdr.seq.toNat = s.nextSeq u k)) s.fab.held with
      | none => s
      | some (h, rest) =>
        let s1 : State := { s with fab := { s.fab with held := rest } }
        let du := s.ownChain * 256 + u
        if s.unitCause u (s.srcOf h.2.hdr) ≠ 0 then s
        else match s1.applyFadd h.2 u with
          | (s2, 0) => (s2.setFld (crdW0 u k) 31 16 (h.2.hdr.seq.toNat + 1)).arrive du h.2
          | (s2, c) => s2.failItem du h.2 c)

/-! ### Answers -/

/-- One operation of a descriptor has been answered. -/
def State.opDone (s : State) (w : Owner) : State :=
  match w with
  | .desc e id => s.modEng e fun en => { en with
      started := en.started.map fun d => if d.id = id then { d with ops := d.ops - 1 } else d }
  | .facet f => s.modFct f.val fun x => { x with cur := x.cur.map fun w => { w with ops := w.ops - 1 } }
  | _ => s

/-- Descriptor `id` of engine `e` while it is in progress. -/
def State.liveDesc (s : State) (e : Fin 8) (id : Nat) : Option Started := s.eng[e].started.find? fun d => decide (d.id = id)

/-- An owner that no longer waits: a descriptor that was discarded. -/
def State.ownerGone (s : State) (w : Owner) : Bool :=
  match w with
  | .desc e id => (s.liveDesc e id).isNone
  | _ => false

/-- RETURN_DELIVERY (R47, R185): the oldest return from `src` (device · 256 + unit) to unit `dst` on a stream is written, and RCTR rises
by 1; a return whose descriptor was discarded is dropped (R279), and one that fails is answered to the requester. -/
def execReturnDelivery (src : BitVec 12) (dst : BitVec 8) (stream : BitVec 16) (s : State) : Out :=
  let u := dst.toNat
  let du := s.ownChain * 256 + u
  match takeFirst (fun (r : RetItem) => decide (hdrSrc r.item.hdr = src.toNat) && decide (du ∈ r.item.tgts) && decide (r.item.hdr.stream = stream))
      s.fab.rets with
  | none => .next s
  | some (r, rest) =>
    let x : FabItem := { r.item with owner := .none }
    let s1 : State := { s with fab := { s.fab with rets := rest } }
    .next (if s.fromHere r.item.hdr ∧ s.linkHeld r.item.hdr.srcUnit.toNat u then s
      else if s.ownerGone r.item.owner then s1.arrive du x
      else match s1.land x u with
        | (s2, .done) => (s2.arrive du x).opDone r.item.owner
        | (s2, .held) => s2
        | (s2, .failed c) => (s2.arrive du x).failOp r.reqUnit c r.reqOp.code stream.toNat r.reqAddr r.item.owner)

/-- A descriptor of engine `e` in progress completes in error (R80, R277): its operations not yet issued are not issued. -/
def State.descFail (s : State) (e : Fin 8) (id cause fcause : Nat) : State :=
  match s.liveDesc e id with
  | none => s
  | some d =>
    let s1 : State := { s with fab := { s.fab with waiting := s.fab.waiting.filter fun x => decide (x.owner ≠ .desc e id) } }
    let s2 := s1.modEng e fun en => { en with started := en.started.filter fun y => decide (y.id ≠ id) }
    match d.q with
    | .stream q => s2.strmError e q cause fcause d.origin
    | _ => s2

/-- An error response reaches its source (R79, R80): the failure is recorded, and whoever waits for the operation fails. -/
def State.answerErr (s : State) (r : ErrItem) : State :=
  let s1 := s.recordErr r
  match r.owner with
  | .none => s1
  | .desc e id => s1.descFail e id 5 r.cause
  | .sig e => s1.faultKill e (causeStatus r.cause) 0
  | .facet f => s1.fctFail f.val 6 r.cause

/-- ERROR_RESPONSE (R79): the oldest one for unit `unit`; or, with `far`, one from another device for the oldest operation of the unit on
a stream there, with its cause. -/
def execErrorResponse (unit : BitVec 8) (far : Bool) (stream : BitVec 16) (cause : BitVec 4) (s : State) : Out :=
  let u := unit.toNat
  if far then
    match takeFirst (fun (x : FabItem) => s.fromHere x.hdr && decide (x.hdr.srcUnit = unit) && decide (x.hdr.stream = stream)
        && x.tgts.any fun t => decide (t / 256 ≠ s.ownChain)) s.fab.flight with
    | none => .next s
    | some (x, rest) =>
      if cause.toNat = 0 ∨ 10 < cause.toNat then .next s
      else
        let t := devOf x.hdr.addr.toNat * 256 + unitOf x.hdr.addr.toNat
        let ing := ((takeFirst (inFlight t x) s.fab.ingress).map (·.2)).getD s.fab.ingress
        let s1 : State := { s with fab := { s.fab with flight := rest, ingress := ing } }
        .next (s1.answerErr ⟨u, cause.toNat, x.op.code, stream.toNat, x.hdr.addr.toNat, x.owner⟩)
  else
    match takeFirst (fun (r : ErrItem) => decide (r.unit = u)) s.fab.errs with
    | none => .next s
    | some (r, rest) => .next (({ s with fab := { s.fab with errs := rest } } : State).answerErr r)

/-- The return of a far operation: bytes of another device's memory, free values. -/
def State.farReturn (s : State) (x : FabItem) : State :=
  let n := x.op.retLen x.hdr.len.toNat
  let data := (List.range n).map fun i => Config.freeByte (s.fresh + i)
  let h : Hdr := { x.hdr with
    addr := x.hdr.raddr, srcUnit := BitVec.ofNat 8 (unitOf x.hdr.addr.toNat), srcChain := BitVec.ofNat 4 (devOf x.hdr.addr.toNat)
    len := BitVec.ofNat 13 n, tctr := x.hdr.rctr, tinc := 1, rctr := 0, raddr := 0 }
  let item : FabItem := ⟨.putSignal, h, data, x.owner, x.queue, 0, 0, [s.ownChain * 256 + unitOf x.hdr.raddr.toNat], false⟩
  let r : RetItem := ⟨item, x.hdr.srcUnit.toNat, x.op, x.hdr.addr.toNat, true⟩
  { s with fresh := s.fresh + n, fab := { s.fab with rets := s.fab.rets ++ [r] } }

/-- CREDIT_RETURN (R54): the oldest drained operation of a stream leaves the ingress buffer of `unit` (device · 256 + unit). On another
device the operation has then taken effect. -/
def execCreditReturn (unit : BitVec 12) (stream : BitVec 16) (s : State) : Out :=
  let du := unit.toNat
  if du / 256 = s.ownChain then
    match takeFirst (fun (i : Ingress) => decide (i.unit = du) && decide (i.stream = stream.toNat) && i.arrived) s.fab.ingress with
    | none => .next s
    | some (i, rest) => .next (({ s with fab := { s.fab with ingress := rest } } : State).opDone i.owner)
  else
    match takeFirst (fun (x : FabItem) => decide (du ∈ x.tgts) && decide (x.hdr.stream = stream)) s.fab.flight with
    | none => .next s
    | some (x, rest) =>
      let ing := ((takeFirst (inFlight du x) s.fab.ingress).map (·.2)).getD s.fab.ingress
      let s1 : State := { s with fab := { s.fab with flight := rest, ingress := ing } }
      .next (if x.op.returns then s1.farReturn x else s1.opDone x.owner)

/-! ### Issue -/

/-- Fabric priority of a waiting operation (R43, R72): that of its issuing queue's effective level; ports and the time unit 15. -/
def State.issuePrio (s : State) (x : FabItem) : Nat :=
  let q := x.queue
  if 4096 ≤ q ∧ q < 12288 then levelPrio (s.effLevel (Fin.ofNat 8 ((q - 4096) / 1024)) ((q - 4096) % 1024))
  else if 12288 ≤ q ∧ q < 12544 then levelPrio (s.fctLevel ((q - 12288) / 32) (q % 32))
  else if 12544 ≤ q ∧ q < 13088 then 15
  else if 13088 ≤ q ∧ q < 13120 then levelPrio (s.queueDesc q).level
  else x.hdr.prio.toNat

/-- Priority under which a waiting operation competes: aging raises it to at most 14 (R73). -/
def State.effPrio (s : State) (x : FabItem) : Nat :=
  let p := s.issuePrio x
  if p = 15 then 15 else min 14 (p + x.level)

/-- The streamer of a waiting operation: engine · 4 + streamer (R250). -/
def FabItem.streamer (x : FabItem) : Option Nat :=
  if 4096 ≤ x.queue ∧ x.queue < 12288 then some ((x.queue - 4096) / 1024 * 4 + x.queue % 4) else none

/-- Transaction slots that streamer `k` of engine `e` has in use (R251): operations of its descriptors issued and not answered. -/
def State.streamerSlots (s : State) (e : Fin 8) (k : Nat) : Nat :=
  let mine : Owner → Bool := fun w => match w with
    | .desc j id => decide (j = e) && (s.liveDesc e id).any fun d => match d.q with
      | .stream q => decide (q % 4 = k)
      | _ => false
    | _ => false
  (s.fab.ingress.filter fun i => mine i.owner).length + (s.fab.rets.filter fun r => mine r.item.owner).length
    + (s.fab.flight.filter fun x => mine x.owner && x.op.returns).length

/-- A transaction slot is free for a streamer's operation: one of its 128, or one of the 1,536 shared. -/
def State.slotFree (s : State) (x : FabItem) : Bool :=
  match x.streamer with
  | none => true
  | some n =>
    let e : Fin 8 := Fin.ofNat 8 (n / 4)
    let used := (List.range 4).map (s.streamerSlots e)
    decide (used.getD (n % 4) 0 < 128) || decide (used.foldl (fun a v => a + (v - 128)) 0 < 1536)

/-- Why an operation fails at target `t` before it can leave its source: there, no credits will ever be granted. -/
def State.sourceCause (s : State) (x : FabItem) (t : Nat) : Nat :=
  if t / 256 ≠ s.ownChain then
    (if (s.routePort (t / 256)).isNone then 2 else if s.issuePrio x = 15 then 4 else 0)
  else
    let c := s.unitCause (t % 256) x.hdr.srcUnit.toNat
    if c ≠ 0 then c else if (s.streamEntry (t % 256) x.hdr.stream.toNat).isNone then 6 else 0

/-- Take the credits of an operation of `n` bytes at target `t` (R59): none while they are not granted. Another device grants its own. -/
def State.takeCredits (s : State) (t stream n : Nat) (owner : Owner) : Option State :=
  let c := credits n
  if t / 256 ≠ s.ownChain then some (s.hold ⟨t, stream, c, false, false, owner⟩)
  else match s.streamEntry (t % 256) stream with
    | none => some s
    | some k => (s.grant (t % 256) k stream c).map fun esc => s.hold ⟨t, stream, c, esc, false, owner⟩

/-- Take the credits at every target of a list, all or none (R76). -/
def State.takeAll (s : State) (stream n : Nat) (owner : Owner) : List Nat → Option State
  | [] => some s
  | t :: ts => match s.takeCredits t stream n owner with
    | none => none
    | some s1 => s1.takeAll stream n owner ts

/-- The unit to which an operation's data returns (R48), when it is one of this device that can grant credits. -/
def State.returnUnit (s : State) (x : FabItem) : List Nat :=
  let a := x.hdr.raddr.toNat
  if x.op.returns ∧ devOf a = s.ownChain ∧ s.unitCause (unitOf a) x.hdr.srcUnit.toNat = 0 then [devOf a * 256 + unitOf a] else []

/-- Every credit that an operation needs before it leaves (R48, R54, R76). -/
def State.creditsFor (s : State) (x : FabItem) (ts : List Nat) : Option State :=
  (s.takeAll x.hdr.stream.toNat x.hdr.len.toNat x.creditOwner ts).bind fun s1 =>
    s1.takeAll x.hdr.stream.toNat (x.op.retLen x.hdr.len.toNat) .none (s.returnUnit x)

/-- A target that a change of routes, a retrain of a Brivel link, or one of the UCIe link keeps an operation from reaching (R448, R497,
R502). -/
def State.pathHeld (s : State) (x : FabItem) (t : Nat) : Bool :=
  if t / 256 ≠ s.ownChain then
    s.routeHeld (t / 256) || (s.routePort (t / 256)).any fun p => decide (s.brvState p = 3)
  else s.linkHeld x.hdr.srcUnit.toNat (t % 256)

/-- Targets of a waiting operation that it can reach, and those at which it fails, with the cause. -/
def State.split (s : State) (x : FabItem) (ts : List Nat) : List Nat × List (Nat × Nat) :=
  (ts.filter fun t => decide (s.sourceCause x t = 0), (ts.map fun t => (t, s.sourceCause x t)).filter fun c => decide (c.2 ≠ 0))

/-- A waiting operation can leave now: it has a slot, its path is open, and every credit is granted; or it fails at once. -/
def State.canIssue (s : State) (x : FabItem) : Bool :=
  match s.targets x.op x.hdr with
  | .inl _ => true
  | .inr ts => s.slotFree x && !(ts.any (s.pathHeld x)) && (s.creditsFor x (s.split x ts).1).isSome

/-- The heads of the issuing queues of unit `u`. -/
def State.queueHeads (s : State) (u : Nat) : List FabItem :=
  (s.fab.waiting.filter fun x => decide (x.hdr.srcUnit.toNat = u)).foldl (fun l x => if l.any fun y => decide (y.queue = x.queue) then l else l ++ [x]) []

/-- Effective level of a stream queue's operation. -/
def State.itemLevel (s : State) (x : FabItem) : Nat :=
  s.effLevel (Fin.ofNat 8 ((x.queue - 4096) / 1024)) ((x.queue - 4096) % 1024)

/-- Arbitration (R73, R272): of the heads that can leave, each streamer offers one of highest effective level, and of those that are
offered the one of highest priority goes first. -/
def State.wins (s : State) (u : Nat) (x : FabItem) : Bool :=
  let ready := (s.queueHeads u).filter s.canIssue
  let offered := ready.filter fun y => y.streamer.isNone || !(ready.any fun z => decide (z.streamer = y.streamer) && decide (s.itemLevel y < s.itemLevel z))
  decide (x ∈ offered) && !(offered.any fun y => decide (s.effPrio x < s.effPrio y))

/-- The descriptor of an RMO that operation `x` belongs to: its engine and the scratchpad offset of the payload (R269). -/
def State.rmoOf (s : State) (x : FabItem) : Option (Fin 8 × Nat × Nat) :=
  match x.owner with
  | .desc e id => (s.liveDesc e id).bind fun d => if fieldLE d.desc 0 1 % 16 = 5 then some (e, id, d26 d.desc 12) else none
  | _ => none

/-- The two operations merge (R271). -/
def FabItem.merges (x y : FabItem) : Bool :=
  decide (x.queue = y.queue) && decide (x.owner = y.owner) && decide (x.op = y.op) && decide (x.op = .put ∨ x.op = .putSignal)
    && decide (x.hdr.tctr = y.hdr.tctr) && decide (x.hdr.stream = y.hdr.stream)
    && decide (unitOf x.hdr.addr.toNat = unitOf y.hdr.addr.toNat) && decide (devOf x.hdr.addr.toNat = devOf y.hdr.addr.toNat)
    && decide (y.hdr.addr.toNat = x.hdr.addr.toNat + x.payload.length) && decide (y.payload.length ≤ 256)
    && decide (x.payload.length + y.payload.length ≤ 4096) && decide (x.hdr.tinc.toNat + y.hdr.tinc.toNat ≤ 65535)

/-- The merged operation: the first's TAG, the sum of the TINCs. -/
def FabItem.merge (x y : FabItem) : FabItem :=
  { x with
    payload := x.payload ++ y.payload
    hdr := { x.hdr with len := BitVec.ofNat 13 (x.payload.length + y.payload.length), tinc := x.hdr.tinc + y.hdr.tinc } }

/-- Merge an operation with those that follow it from its queue: the result, the rest, and how many were merged into it. -/
def mergeRun (x : FabItem) : List FabItem → FabItem × List FabItem × Nat
  | [] => (x, [], 0)
  | y :: ys =>
    if y.queue ≠ x.queue ∨ y.hdr.srcUnit ≠ x.hdr.srcUnit then
      let r := mergeRun x ys
      (r.1, y :: r.2.1, r.2.2)
    else if x.merges y then
      let r := mergeRun (x.merge y) ys
      (r.1, r.2.1, r.2.2 + 1)
    else (x, y :: ys, 0)

/-- Add to the operations that a descriptor waits for. -/
def State.addOps (s : State) (w : Owner) (more less : Nat) : State :=
  match w with
  | .desc e id => s.modEng e fun en => { en with
      started := en.started.map fun d => if d.id = id then { d with ops := d.ops + more - less } else d }
  | _ => s

/-- The queue of operation `x` has issued: the next operation of it reaches the head, and the queue returns to its base level (R273). -/
def State.nextHead (s : State) (x : FabItem) : State :=
  let u := x.hdr.srcUnit
  let i := s.fab.waiting.findIdx? fun y => decide (y.queue = x.queue) && decide (y.hdr.srcUnit = u)
  let w := match i with
    | some i => s.fab.waiting.modify i fun y => { y with since := s.clock.nclk, level := 0 }
    | none => s.fab.waiting
  let s1 : State := { s with fab := { s.fab with waiting := w } }
  match x.streamer with
  | some n => s1.modEng (Fin.ofNat 8 (n / 4)) fun en => { en with aged := Sparse.set (fun _ => 0) en.aged ((x.queue - 4096) % 1024) 0 }
  | none => s1

/-- A descriptor that stopped early completes in error once its last operation has issued (R277). -/
def State.lateErr (s : State) (w : Owner) : State :=
  match w with
  | .desc e id => match (s.liveDesc e id).bind (·.err) with
    | some (c, f, _) => if s.fab.waiting.any (fun y => decide (y.owner = w)) then s else s.descFail e id c f
    | none => s
  | _ => s

/-- The group's stall count takes the cycles for which its head operation waited for a member (R77). -/
def State.mcgStall (s : State) (x : FabItem) : State :=
  if x.hdr.mc then s.countUp (key 0x60 (CTL + 0x1108 + 16 * unitOf x.hdr.addr.toNat)) (s.clock.nclk - x.since) else s

/-- Operation `x`, taken from the head of its queue, leaves its source at fabric priority `p` or fails there. -/
def State.sendOut (s : State) (x : FabItem) (p : Nat) : State :=
  let u := x.hdr.srcUnit.toNat
  let fail : State → Nat → State := fun t c => t.failOp u c x.op.code x.hdr.stream.toNat x.hdr.addr.toNat x.owner
  match s.targets x.op x.hdr with
  | .inl c => fail s c
  | .inr ts =>
    let sp := s.split x ts
    let s1 := sp.2.foldl (fun t c => fail t c.2) s
    let s2 := s1.addOps x.owner (ts.length - 1) 0
    if sp.1.isEmpty then s2
    else match s2.creditsFor x sp.1 with
      | none => s2
      | some s3 =>
        let y : FabItem := { x with tgts := sp.1, hdr := { x.hdr with prio := BitVec.ofNat 4 p } }
        ({ s3 with fab := { s3.fab with flight := s3.fab.flight ++ [y] } } : State).mcgStall x

/-- FABRIC_OP_ISSUE: the operation at the head of an issuing queue of a unit leaves, if it can and no other goes first. An RMO reads its
payload now (R269); operations of one descriptor that may be merged are (R271). -/
def State.issueOp (s : State) (u q : Nat) : State :=
  match takeFirst (fun (x : FabItem) => decide (x.hdr.srcUnit.toNat = u) && decide (x.queue = q)) s.fab.waiting with
  | none => s
  | some (x, rest) =>
    if s.wins u x = false then s
    else match s.rmoOf x with
      | some (e, id, laddr) =>
        let s0 : State := { s with fab := { s.fab with waiting := rest } }
        let n := if x.op = .get ∨ x.op = .signal then 0 else x.hdr.len.toNat
        match s0.read (key e laddr) n with
        | (s1, none) => (s1.nextHead x).descFail e id 6 0
        | (s1, some b) => ((s1.nextHead x).sendOut { x with payload := b } (s.issuePrio x)).lateErr x.owner
      | none =>
        let m := mergeRun x rest
        let y := if x.payload.length ≤ 256 ∧ x.streamer.isSome then m else (x, rest, 0)
        if (s.creditsFor y.1 ((s.targets y.1.op y.1.hdr).elim (fun _ => []) fun ts => (s.split y.1 ts).1)).isNone then
          ((({ s with fab := { s.fab with waiting := rest } } : State).nextHead x).sendOut x (s.issuePrio x)).lateErr x.owner
        else
          let s0 : State := { s with fab := { s.fab with waiting := y.2.1 } }
          let s1 := match x.streamer with
            | some k => s0.countUp (strmKey (Fin.ofNat 8 (k / 4)) 0x10) y.2.2
            | none => s0
          (((s1.addOps x.owner 0 y.2.2).nextHead x).sendOut y.1 (s.issuePrio x)).lateErr x.owner

/-- FABRIC_OP_ISSUE (R37, R43, R54, R72 to R76). -/
def execFabricOpIssue (unit : BitVec 8) (queue : BitVec 14) (s : State) : Out := .next (s.issueOp unit.toNat queue.toNat)

/-! ### Waiting (R63, R73, R77, R82) -/

/-- Change the operation at the head of a queue. -/
def State.modHead (s : State) (u q : Nat) (f : FabItem → FabItem) : State :=
  match s.fab.waiting.findIdx? fun x => decide (x.hdr.srcUnit.toNat = u) && decide (x.queue = q) with
  | some i => { s with fab := { s.fab with waiting := s.fab.waiting.modify i f } }
  | none => s

/-- The operation at the head of a queue. -/
def State.headItem (s : State) (u q : Nat) : Option FabItem :=
  s.fab.waiting.find? fun x => decide (x.hdr.srcUnit.toNat = u) && decide (x.queue = q)

/-- The operation waits for credits: nothing else keeps it. -/
def State.waitsCredits (s : State) (x : FabItem) : Bool :=
  match s.targets x.op x.hdr with
  | .inl _ => false
  | .inr ts => (s.creditsFor x (s.split x ts).1).isNone

/-- STALL (R63): the head operation has waited 65,536 NCLK cycles for credits. -/
def execStall (unit : BitVec 8) (queue : BitVec 14) (s : State) : Out :=
  let u := unit.toNat
  match s.headItem u queue.toNat with
  | none => .next s
  | some x =>
    if x.stalled ∨ s.waitsCredits x = false then .next s
    else
      let s1 := (s.passNclk (x.since + 65536)).modHead u queue.toNat fun y => { y with stalled := true }
      let s2 := (s1.setFld (key u CTL) 2 2 1).setFld (key u (CTL + 0x10)) 15 0 x.hdr.stream.toNat
      .next (s2.event 0x04 u x.hdr.stream.toNat)

/-- MCAST_SLOW (R77): a group's operation has waited longer than THRESH × 16 NCLK cycles for a member. -/
def execMcastSlow (group : Fin 32) (s : State) : Out :=
  let g := group.val
  let th := 16 * s.fld (key 0x60 (CTL + 0x1104 + 16 * g)) 31 16
  match s.fab.waiting.find? fun x => x.hdr.mc && decide (unitOf x.hdr.addr.toNat = g)
      && decide ((s.headItem x.hdr.srcUnit.toNat x.queue) = some x) && s.waitsCredits x with
  | none => .next s
  | some x => .next ((s.passNclk (x.since + th + 1)).setFld (key 0x60 (CTL + 0x1004)) g g 1)

/-- PRIORITY_AGING (R73): a waiting operation gains one level after each 4,096 NCLK cycles, up to 14. -/
def execPriorityAging (unit : BitVec 8) (queue : BitVec 14) (s : State) : Out :=
  let u := unit.toNat
  match s.headItem u queue.toNat with
  | none => .next s
  | some x =>
    .next (if 14 ≤ s.effPrio x then s
      else (s.passNclk (x.since + 4096 * (x.level + 1))).modHead u queue.toNat fun y => { y with level := y.level + 1 })

/-- CLOCK_WAKE (R547, R548): an access reaches an engine in E-IDLE, or HBM stack `st` in self-refresh under D-IDLE. -/
def execClockWake (unit : BitVec 8) (st : Fin 4) (s : State) : Out :=
  .next (match engOf unit.toNat with
    | some e => if s.computeUp ∧ s.eng[e].power = .idle then s.wakeEng e else s
    | none => if unit = 0x40 ∧ s.computeUp ∧ (s.fuse.gradeA ∨ st.val < 2) then s.wakeStack st.val else s)

/-! ### Windows (R357, R358) -/

/-- Bytes that window `w` covers. -/
def State.winSize (s : State) (w : Nat) : Nat :=
  let l := s.fld (winKey w + 8) 6 2
  2 ^ (if l = 0 then 32 else l)

/-- The open window that BAR2 offset `o` lies in, with the fabric address of the access. -/
def State.winAt (s : State) (o : Nat) : Option (Nat × Nat) :=
  let w := o / 2 ^ 32
  if 15 < w ∨ s.fld (winKey w + 8) 0 0 = 0 ∨ s.winSize w ≤ o % 2 ^ 32 then none
  else some (w, (s.translate (BitVec.ofNat 64 (s.reg64 (winKey w) + o % 2 ^ 32))).toNat)

/-- A miss at BAR2 offset `o`: the first one is recorded. -/
def State.winMiss (s : State) (o : Nat) : State :=
  if s.fld winStatus 0 0 = 1 then s else (s.setFld winStatus 0 0 1).setReg64 (winStatus + 4) o

/-- The host-window source records its own failed operation (Table 2.8). -/
def State.winFail (s : State) (o c code a : Nat) : State := (s.recordErr ⟨0x62, c, code, 0xFFFD, a, .none⟩).winMiss o

/-- Pieces of an access: each lies in one 4 KiB page. -/
def pages : (fuel : Nat) → (o n : Nat) → List (Nat × Nat)
  | 0, _, _ => []
  | k + 1, o, n =>
    if n = 0 then []
    else
      let m := min n (4096 - o % 4096)
      (o, m) :: pages k (o + m) (n - m)

/-- The operation of a host access: from unit 0x62 on stream 0xFFFD. -/
def State.winItem (s : State) (op : FabOp) (a n : Nat) (b : List Byte) : FabItem where
  op := op
  hdr := { s.mkHdr 0x62 0 n 0 0 0xFFFD 0 with addr := BitVec.ofNat 64 a }
  payload := b
  owner := .none
  queue := 0
  since := s.clock.nclk
  level := 0
  tgts := []

/-- One piece of a read: its bytes, zeros on a miss. Bytes of another device are free values. -/
def State.winRead (s : State) (o n : Nat) : State × List Byte :=
  let zero := List.replicate n 0
  match s.winAt o with
  | none => (s.winMiss o, zero)
  | some (_, a) =>
    let c := if devOf a ≠ s.ownChain then 2 else s.landCause (s.winItem .get a n []) (unitOf a)
    if c ≠ 0 then (s.winFail o c 2 a, zero)
    else match (s.reachAt (unitOf a) (offOf a) n).targetRead (unitOf a) (offOf a) n with
      | (s1, none) => (s1.winFail o 9 2 a, zero)
      | (s1, some b) => (s1, b)

/-- One piece of a write. -/
def State.winWrite (s : State) (o : Nat) (b : List Byte) : State :=
  match s.winAt o with
  | none => s.winMiss o
  | some (w, a) =>
    if s.fld (winKey w + 8) 1 1 = 0 then s.setFld winStatus 1 1 1
    else if devOf a ≠ s.ownChain then s.winFail o 2 1 a
    else match s.land (s.winItem .put a b.length b) (unitOf a) with
      | (s1, .failed c) => s1.winFail o c 1 a
      | (s1, _) => s1

/-- The link to the compute die retrains: accesses through windows wait. -/
def State.winHeld (s : State) : Bool := s.ucie.retraining

/-- WINDOW_READ: a host read of `len` bytes at BAR2 offset `o`. Where the interface is not full, all of BAR2 reads as zero (R356). -/
def execWindowRead (o : BitVec 64) (len : BitVec 13) (s : State) : Out :=
  .next (if s.hostUp = false ∨ s.winHeld then s
    else if s.fullIf = false then { s with readOut := List.replicate len.toNat 0 }
    else
      let r := (pages 4 o.toNat len.toNat).foldl (fun (t : State × List Byte) p =>
        let x := t.1.winRead p.1 p.2
        (x.1, t.2 ++ x.2)) (s, [])
      { r.1 with readOut := r.2 })

/-- WINDOW_WRITE: a host write at BAR2 offset `o`. -/
def execWindowWrite (o : BitVec 64) (data : List Byte) (s : State) : Out :=
  .next (if s.hostUp = false ∨ s.winHeld ∨ s.fullIf = false then s
    else (pages data.length o.toNat data.length).foldl (fun t p => t.winWrite p.1 (slice data (p.1 - o.toNat) p.2)) s)

end Sys2Proof.Machine
end

