-- ==== Sys2Proof/Machine/Power.lean ====
section
/-! DEFINITION. Power (21): caps and clock points, low-power states, the wake budget, PERST_N and bus mastering; and what a power-up or a
reset leaves of a unit's registers and an engine's memories (R557, R565). -/
namespace Sys2Proof.Machine

/-- Change what the power-management controller holds. -/
def State.modPower (s : State) (f : Power → Power) : State := { s with power := f s.power }

/-- Registers of Table 21.9. -/
def pwrKey (o : Nat) : Nat := key 0x60 (CTU + o)

/-! ### What a reset keeps (Table 21.7) -/

/-- The register at offset `o` of unit `u` is a setting that firmware restores, or one of the always-on domain; every other register returns
to its reset value. -/
def keptReg (u o : Nat) : Bool :=
  let r := o - CTU
  (decide (CTC ≤ o) && decide (o < CTC + 0x2000)) ||
  (match unitClass u with
  | .engine => decide (CTU + 0x300 ≤ o) && decide (o < CTU + 0x380)
  | .anchor => decide (o = CTL + 0x1000) || (decide (CTL + 0x1100 ≤ o) && decide (o < CTL + 0x1300) && decide (o % 16 = 0 ∨ o % 16 = 4))
      || decide (o = CTU + 0x108 ∨ o = CTU + 0x10C ∨ o = CTU + 0x110 ∨ o = CTU + 0x114)
  | .port => decide (CTU ≤ o) && ((decide (r < 0x3C) && decide (r ≠ 4)) || (decide (0x100 ≤ r) && decide (r < 0x500)))
  | .time => decide (CTU ≤ o) && decide (r ∈ [0, 0x24, 0x28, 0x34, 0x38, 0x3C])
  | .brivel => decide (CTU ≤ o) && decide (r ∈ [0, 0x20, 0x28, 0x2C])
  | .modem => decide (CTU ≤ o) && (decide (r = 0) || (decide (0x10 ≤ r) && decide (r < 0x90)) || (decide (0x600 ≤ r) && decide (r < 0x700))
      || (decide (0x100 ≤ r) && decide (r < 0x500) && decide (r % 0x80 < 0x30)))
  | .bar0 => decide (o < 0x30) || decide (o = 0x1040) || (decide (0x10000 ≤ o) && decide (o < 0x20000))
      || (decide (0x30000 ≤ o) && decide (o < 0x30100))
  | _ => false)

/-- The registers of the units that `cov` selects return to their reset values, but for settings; a pair entry is no longer HALTED (R185),
and NEXT_SEQ of an ordered stream is the one that its registration set. -/
def State.resetRegs (s : State) (cov : Nat → Bool) : State :=
  let s1 : State := { s with
    regs := Sparse.clear (fun a => cov (a / 2 ^ 52) && !(keptReg (a / 2 ^ 52) (a % 2 ^ 52))) s.regs
    pmcHi := Sparse.clear (fun a => cov (a / 2 ^ 52)) s.pmcHi }
  let ps := (s1.regs.map (·.1)).filter fun a => decide (a / 2 ^ 52 < 8) && cov (a / 2 ^ 52) && decide (CTU + 0x300 ≤ a % 2 ^ 52)
    && decide (a % 2 ^ 52 < CTU + 0x380) && decide (a % 8 = 4)
  let s2 := ps.foldl (fun t a => t.setFld a 19 19 0) s1
  (s2.orderedSeqs.filter fun x => cov (x.1 / 2 ^ 52)).foldl (fun t x => t.setFld x.1 31 16 0) s2

/-- Zero the memories of the units that `cov` selects, but for the keys that `keep` selects, with fresh check bits. -/
def State.zeroMem (s : State) (cov keep : Nat → Bool) : State :=
  { s with
    mem := Sparse.clear (fun a => cov (a / 2 ^ 52) && !(keep a)) s.mem
    ecc := Sparse.clear (fun a => cov (a / 2 ^ 52) && !(keep a)) s.ecc
    writeback := s.writeback.filter fun b => !(cov (b / 2 ^ 52) && !(keep b)) }

/-- Engine `e` starts afresh (R557): no command, registers at their reset values, memories zero. -/
def State.freshEng (s : State) (e : Fin 8) (p : EngPower) : State :=
  let me : Nat → Bool := fun u => decide (u = e.val)
  let s1 := (s.zeroMem me fun _ => false).resetRegs me
  ({ s1 with scrub := Sparse.clear (fun u => decide (u = e.val)) s1.scrub } : State).modEng e fun en =>
    { Engine.reset with power := p, nextId := en.nextId, idleSince := s.clock.aclk }

/-! ### Caps and clock points (R551 to R553) -/

/-- Package cap in watts, and VID code, of a CAP code (Tables 21.2, 23.3). -/
def capWatts (c : Nat) : Nat := if c = 0 then 420 else if c = 1 then 300 else 220
def capVid (c : Nat) : Nat := if c = 0 then 0x19 else if c = 1 then 0x14 else 0x0C

/-- The engines of the partitions, as a mask. -/
def State.partEngines (s : State) : Nat := s.partList.foldl (fun m x => m ||| x.2.engmask ||| x.2.borrow) 0

/-- D-IDLE is left: the engines of the partitions power up. -/
def State.leaveIdle (s : State) : State :=
  if s.power.dIdle then (s.modPower fun w => { w with dIdle := false, hbmAwake := [] }).wakeMask s.partEngines else s

/-- D-IDLE is entered: every engine in E-OFF, HBM in self-refresh. -/
def State.enterIdle (s : State) : State :=
  ((List.finRange 8).foldl (fun (t : State) e => t.engOff e) s).modPower fun w => { w with dIdle := true, hbmAwake := [], wakeq := [] }

/-- STATE of POWER_CAP `c` cannot be taken now (R555). -/
def State.stateBlocked (s : State) (c : Cmd) : Bool :=
  let st := c.param 1 1
  (decide (st = 1) && (s.carriers.any (fun x => x.base.isSome) || s.cmds.any fun x => decide (x.id ≠ c.id) && decide (x.phase ≠ .done)))
    || (decide (st = 2) && decide (s.devState ≠ 3))

/-- ISTEP and IDLE, then STATE 0 or 1, of POWER_CAP `c`. -/
def State.capTail (s : State) (c : Cmd) : State :=
  let s1 := if c.param 2 1 = 0 then s else s.setFld (pwrKey 0x108) 3 0 (c.param 2 1)
  let s2 := if c.param 4 2 = 0xFFFF then s1 else s1.setFld (pwrKey 0x10C) 15 0 (c.param 4 2)
  if c.param 1 1 = 0 then s2.leaveIdle else if c.param 1 1 = 1 then s2.enterIdle else s2

/-- Write the finished completions of pair `p`, as many as there is room for. -/
def State.flushPair (s : State) (p : Nat) : Nat → State
  | 0 => s
  | n + 1 => (s.writeCompletion p).flushPair p n

/-- STATE 2: the completion is written, and then the device is in D-STANDBY; while it cannot be written, the command waits (R555). -/
def State.standby (s t : State) (c : Cmd) : State :=
  if c.param 1 1 ≠ 2 then t
  else
    let t1 := t.flushPair c.pair t.completions.length
    if t1.completions.any fun x => decide (x.pair = c.pair) && decide (x.seq = c.seq) then s
    else t1.modPower fun w => { w with dStandby := true }

/-- The running commands that a change of point kills (R553): those of no REALTIME partition. -/
def State.killForCap (s : State) : State :=
  (s.cmds.filter fun c => decide (c.op = 0x13) && decide (c.phase = .running) && !(s.isRealtime c.partNo)).foldl
    (fun t c => t.killCmd c.id ⟨.uncounted, KILLED, 0⟩) s

/-- POWER_CAP. -/
def State.powerCap (c : Cmd) (s : State) : State :=
  let cap := c.param 0 1
  let st := c.param 1 1
  let change := decide (cap ≠ 0xFF) && decide (cap ≠ s.power.cap)
  if (2 < cap ∧ cap ≠ 0xFF) ∨ (2 < st ∧ st ≠ 0xFF) ∨ 12 < c.param 2 1 ∨ c.param 3 1 ≠ 0 then c.ends BAD_PARAM 0 0 s
  else if cap = 0xFF ∧ st = 0xFF ∧ c.param 2 1 = 0 ∧ c.param 4 2 = 0xFFFF then c.ends OK_EMPTY 0 s.power.cap s
  else if change && !(s.admits cap) then c.ends ADMIT_REFUSED 0 s.power.cap s
  else if s.stateBlocked c then c.ends NO_RESOURCE 0 s.power.cap s
  else if change then
    ((s.modCmd c.id fun c => { c with phase := .waiting }).killForCap).modPower fun w =>
      { w with pendingCap := some (c.pair, c.seq, cap, s.clock.tclk) }
  else s.standby ((s.finish c.id OK 0 s.power.cap (slice c.pkt 16 6)).capTail c) c

/-- POWER_CAP (R553). -/
def execPowerCap (pair : BitVec 16) (s : State) : Out := onCmd 0x49 pair State.powerCap s

/-- The instant is quiet (R553 step 3): no command runs, and no REALTIME trigger falls within the next 50 µs. -/
def State.quiet (s : State) : Bool :=
  (List.finRange 8).all fun e => s.eng[e].cmd.isNone && (match s.nextTrigger e.val with
    | none => true
    | some t => decide (s.ptp + nsT 50000 < t))

/-- The change of point ends: starting commands resumes. -/
def State.capDone (s : State) : State := s.modPower fun w => { w with pendingCap := none }

/-- CAP_SWITCH: at a quiet instant the anchor commits and switches the ACLK point and VID; `quiet` false: 100 ms have passed without
one (R553, R587). -/
def execCapSwitch (quiet : Bool) (s : State) : Out :=
  match s.power.pendingCap with
  | none => .next s
  | some (p, q, cap, t0) => match s.cmdOf (p, q) with
    | none => .next s.capDone
    | some c =>
      if s.ledger.up = false ∨ s.fullIf = false then .next s
      else if quiet = false then
        let s1 : State := { s with clock := { s.clock with tclk := max s.clock.tclk (t0 + 100000000) } }
        .next (s1.finish c.id NO_RESOURCE 0 s.power.cap).capDone
      else if s.quiet = false then .next s
      else if s.stateBlocked c then .next (s.finish c.id NO_RESOURCE 0 s.power.cap).capDone
      else
        let s1 := (s.finish c.id OK 0 cap (slice c.pkt 16 6)).modPower fun w =>
          { w with pendingCap := none, cap := cap, vid := capVid cap }
        .next (s.standby (s1.capTail c) c)

/-- POWER_WINDOW: a metering window of 1 ms of PTP time ends with an average of `watts` sixteenths of a watt (R552). -/
def execPowerWindow (watts : BitVec 16) (s : State) : Out :=
  .next (if s.fullIf = false then s
    else
      let s1 : State := { s with ptp := if s.ptpEn then (s.ptp / nsT 1000000 + 1) * nsT 1000000 else s.ptp }
      (s1.setFld (pwrKey 0x104) 15 0 watts.toNat).modPower fun w => { w with throttle := decide (16 * capWatts w.cap < watts.toNat) })

/-! ### Low-power states (R554 to R557) -/

/-- E_IDLE_ENTRY: engine `e` has been idle for PWR_IDLE.CYC cycles (R554). -/
def execEIdleEntry (e : Fin 8) (s : State) : Out :=
  let en := s.eng[e]
  let cyc := s.fld (pwrKey 0x10C) 15 0
  let still := decide (en.state = .idle ∨ en.state = .halted ∨ en.state = .trapped) && en.queue.isEmpty && en.started.isEmpty
  .next (if s.computeUp && decide (en.power = .on) && still && decide (cyc ≠ 0) && !(s.isRealtime (s.homePart e.val)) then
      (s.passAclk (en.idleSince + cyc)).modEng e fun en => { en with power := .idle }
    else s)

/-- When the next power-up is granted (R556), in TCLK cycles. -/
def State.grantTime (s : State) : Nat :=
  match s.power.grant with
  | none => s.clock.tclk
  | some g => max s.clock.tclk (max (g.1 + 4000) g.2)

/-- Stages of a power-up (R556). -/
def State.powerStages (s : State) : Nat := ceilDiv 12 (max 1 (s.fld (pwrKey 0x108) 3 0))

/-- POWER_UP_GRANT: the oldest request is granted (R556); the engine's memories are zero when it is ready (R557), and a PART_CREATE that waits
for it goes on (R382). -/
def execPowerUpGrant (s : State) : Out :=
  match s.power.wakeq with
  | [] => .next s
  | k :: rest => match engOf k with
    | none => .next (s.modPower fun w => { w with wakeq := rest })
    | some e =>
      if s.computeUp = false then .next s
      else
        let t := s.grantTime
        let s1 : State := { s with clock := { s.clock with tclk := t } }
        let s2 := (s1.freshEng e .on).modPower fun w => { w with wakeq := rest, grant := some (t, t + 1000 * s.powerStages) }
        .next ((s2.cmds.filter fun c => decide (c.op = 0x10) && decide (c.phase = .waiting)).foldl (fun t c => t.partCreate c) s2)

/-- D_IDLE_EXIT: an accepted command ends D-IDLE (R555). -/
def execDIdleExit (s : State) : Out := .next (if s.cmds.any fun c => decide (c.phase ≠ .done) then s.leaveIdle else s)

/-- SELF_REFRESH_RETURN: 1 µs after the latest access, stack `st` returns to self-refresh in D-IDLE (R555). -/
def execSelfRefreshReturn (st : Fin 4) (s : State) : Out :=
  .next (match s.power.dIdle, s.power.hbmAwake.find? fun x => decide (x.1 = st.val) with
    | true, some x =>
      ({ s with clock := { s.clock with tclk := max s.clock.tclk (x.2 + 1000) } } : State).modPower fun w =>
        { w with hbmAwake := w.hbmAwake.filter fun y => decide (y.1 ≠ st.val) }
    | _, _ => s)

/-! ### PERST_N and bus mastering (R563) -/

/-- Write the finished completions of every pair, as many as there is room for. -/
def State.flushAll (s : State) : State := s.validPairs.foldl (fun t p => t.flushPair p t.completions.length) s

/-- Vectors whose pending bit stands. -/
def State.pendingVectors (s : State) : List Nat :=
  ((s.regs.filter fun r => decide (key BAR0 0x48000 ≤ r.1) && decide (r.1 < key BAR0 0x48100)).flatMap fun r =>
    ((List.range 32).filter fun i => bit r.2.toNat i).map fun i => (r.1 - key BAR0 0x48000) / 4 * 32 + i)

/-- PERST_ASSERT: the endpoint and its configuration space are reset; nothing else is. -/
def execPerstAssert (s : State) : Out :=
  let s1 : State := { s with regs := Sparse.clear (fun a => decide (key BAR0 0x40000 ≤ a) && decide (a < key BAR0 0x48000)) s.regs }
  .next (s1.modPower fun w => { w with perst := true, busMaster := false })

/-- PERST_RELEASE: the endpoint answers again (R523). -/
def execPerstRelease (s : State) : Out := .next (s.modPower fun w => { w with perst := false })

/-- BUS_MASTER_ENABLE: the host enables bus mastering, and held completions and messages are written. -/
def execBusMasterEnable (s : State) : Out :=
  .next (if s.hostUp = false then s
    else
      let s1 := (s.modPower fun w => { w with busMaster := true }).flushAll
      s1.pendingVectors.foldl (fun t v => if t.fld (msixEntry v + 0xC) 0 0 = 0 then t.msix v else t) s1)

end Sys2Proof.Machine
end

