-- ==== Sys2Proof/Machine/Image.lean ====
section
/-! DEFINITION. Firmware images (20): layout, the checks of Table 20.5, the image cache, and the self-tests of Table 20.2. -/
namespace Sys2Proof.Machine

/-! ### Images (R528 to R530) -/

def imgSigoff (b : List Byte) : Nat := fieldLE b 16 4
def imgKeyset (b : List Byte) : Nat := fieldLE b 11 1
def imgSvn (b : List Byte) : Nat := fieldLE b 8 1

/-- Checks KEY to STEP of Table 20.5: the first that fails, 0 for none. -/
def State.imageKeys (s : State) (b : List Byte) : Nat :=
  let o := imgSigoff b
  let rk := slice b (o - 448) 384
  let sk := slice b (o - 64) 48
  if Config.imageKeyOk (imgKeyset b) rk sk = false then 3
  else if Config.rsaOk rk (b.take o) (slice b o 384) = false then 4
  else if Config.slhOk sk (b.take o) (slice b (o + 384) 16224) = false then 5
  else if imgSvn b < s.fuse.svn ∨ 64 < imgSvn b then 6
  else if 0xB1 < fieldLE b 10 1 then 7
  else 0

/-- The CAUSE of Table 20.5 for image `b`, 0 when it is accepted. -/
def State.imageCause (s : State) (b : List Byte) : Nat :=
  let o := imgSigoff b
  if fieldLE b 0 4 ≠ 0x57465244 ∨ (slice b 20 236).any (fun x => decide (x ≠ 0)) ∨ 1 < fieldLE b 9 1 ∨ 1 < imgKeyset b then 1
  else if fieldLE b 12 4 ≠ b.length ∨ fieldLE b 12 4 ≠ o + 16608 ∨ o < 704 ∨ o % 64 ≠ 0 ∨ 0x800000 < b.length then 2
  else s.imageKeys b

/-- Status of a failed check (Table 20.5). -/
def causeCode (c : Nat) : Nat := if c ≤ 2 ∨ c = 8 then BAD_PARAM else SIG_FAIL

/-- The image that the host offers at bus address `a`: FETCH when the host cannot be read. -/
def State.fetchImage (s : State) (a n : Nat) : List Byte × Nat :=
  if s.master = false then ([], 8) else (s.hostBytes a n, s.imageCause (s.hostBytes a n))

/-- An accepted image takes the cache, in the ledger copies in service (R532); with ADVANCE the anti-rollback counter rises to its SVN first
(R530). -/
def State.acceptImage (s : State) (b : List Byte) (advance : Bool) : State :=
  let s1 : State := if advance then { s with fuse := { s.fuse with svn := max s.fuse.svn (imgSvn b) } } else s
  { s1 with secure := { s1.secure with
    image := some ⟨fieldLE b 4 4, imgSvn b, fieldLE b 9 1, imgKeyset b, b⟩, cached0 := s1.ledger.copy0, cached1 := s1.ledger.copy1 } }

/-- SEC_STATE, SEC_FWVER and SEC_SVN.IMAGE with no image running: SAFE (R522). -/
def State.enterSafe (s : State) (code : Nat) : State :=
  ((s.setDev code).setRegN (key BAR0 0x1C) 0).setFld (key BAR0 0x20) 14 8 0

/-- The image runs: LOADED, or RUNNING with partitions (R522). A provisioning image fills the key store (R535). -/
def State.runImage (s : State) (i : Image) : State :=
  let s1 := ((s.setDev (if s.partList.isEmpty then 3 else 4)).setRegN (key BAR0 0x1C) i.version).setFld (key BAR0 0x20) 14 8 i.svn
  if i.type = 1 then { s1 with secure := { s1.secure with keys := true, custKeys := Config.provisioned i.bytes } } else s1

/-- SEC_BOOT_ERR (Table 20.9). -/
def State.bootErr (s : State) (cause : Nat) : State := s.setRegN (key BAR0 0x18) (causeCode cause + 2 ^ 8 * cause)

/-- A copy of the cached image passes its re-verification (R532); `bad` names the copies that do not read as they were written. -/
def State.cacheOk (s : State) (bad : BitVec 2) : Bool :=
  ((s.secure.cached0 && !(bit bad.toNat 0)) || (s.secure.cached1 && !(bit bad.toNat 1)))
    && s.secure.image.any fun i => decide (s.imageKeys i.bytes = 0)

/-! ### Self-tests (R525 to R527) -/

/-- Prerequisite of a test (Table 20.2). -/
def prereq (b : Nat) : Option Nat := if b = 0 then none else if b ≤ 2 then some 0 else if b = 3 then some 1 else if b = 5 then some 4 else some 3

/-- Test `b` fails when it runs: LEDGER only when both copies do. -/
def testFails (t : Tests) (b : Nat) : Bool := if b = 2 then decide (t.led = 3) else bit t.fail.toNat b

/-- The tests of a list that pass and that fail: one whose prerequisite is of the list and has not passed does not run. -/
def testRun (t : Tests) (run : List Nat) : List Nat × List Nat :=
  run.foldl (fun a b =>
    if (prereq b).any fun q => decide (q ∈ run) && !(decide (q ∈ a.1)) then a
    else if testFails t b then (a.1, a.2 ++ [b]) else (a.1 ++ [b], a.2)) ([], [])

/-- A mask of bit numbers. -/
def maskOf (l : List Nat) : Nat := l.foldl (fun m b => m ||| 2 ^ b) 0

/-- Tests that run after a reset of a kind (Table 20.3). -/
def testsOf (kind : Nat) : List Nat := if kind = 0 then List.range 8 else if kind = 3 then [4, 5] else [0, 1, 3, 4, 5]

/-- SEC_SELFTEST after the tests of a reset (R526): a COMPUTE reset leaves the bits of the tests that it does not run. -/
def State.selfTest (s : State) (kind : Nat) (t : Tests) : State :=
  let r := testRun t (testsOf kind)
  let k := key BAR0 0x14
  let keep := if kind = 3 then 0xCF else 0
  let unit := match r.2 with
    | [] => 0xFF
    | b :: _ => if b ≤ 2 then 0x60 else t.unit.toNat
  s.setRegN k ((s.fld k 7 0 &&& keep) ||| maskOf r.1 + 2 ^ 8 * ((s.fld k 15 8 &&& keep) ||| maskOf r.2) + 2 ^ 16 * unit)

/-- Every test that has run has passed (R524). -/
def State.testsPass (s : State) : Bool := decide (s.fld (key BAR0 0x14) 15 8 = 0)

end Sys2Proof.Machine
end

