-- ==== Sys2Proof/Machine/Reset.lean ====
section
/-! DEFINITION. Resets (21): what each kind stops, clears and keeps (R558 to R566), recovery (R404), and the rows that reset. Each reset is one
step, from its request to the end of its recovery. -/
namespace Sys2Proof.Machine

/-! ### Scope -/

/-- A reset of kind `kind` covers unit `u` (Table 21.6): 0 POR, 1 PIN, 2 HOST_WARM, 3 COMPUTE; 4 PARTITION and 5 ENGINE cover engines `es`. -/
def covers (kind : Nat) (es : List (Fin 8)) (u : Nat) : Bool :=
  if kind < 3 then true
  else if kind = 3 then !(decide (u = 0x60 ∨ u = 0x61 ∨ u = 0x62 ∨ u = BAR0))
  else es.any fun e => decide (e.val = u)

/-- RST_CAUSE and RST_COUNT (R568). -/
def State.rstMark (s : State) (kind src target : Nat) : State :=
  (s.setRegN (pwrKey 0x110) (kind + 2 ^ 8 * src + 2 ^ 16 * target)).countUp (pwrKey 0x114) 1

/-- Partitions that engines `es` serve, as a mask. -/
def State.partsOf (s : State) (es : List (Fin 8)) : Nat :=
  maskOf ((s.partList.filter fun x => es.any fun e => bit (x.2.engmask ||| x.2.borrow) e.val).map (·.1.val))

/-! ### Commands (R404, Table 14.6) -/

/-- A command that waits on the work of units that the reset covers and runs again from its start. -/
def State.restarts (s : State) (kind : Nat) (es : List (Fin 8)) (c : Cmd) : Bool :=
  decide (c.phase = .waiting) &&
    (if c.op = 0x31 then es.any fun e => ((s.shGroup e.val).bind (·.trial)).any fun t => decide (t.cmd = c.id)
      else decide (kind ≤ 3) && decide (c.op ∉ [0x13, 0x21, 0x22, 0x41]))

/-- Commands that the recovery re-runs: job commands that run on the engines, and those of `restarts`. -/
def State.reruns (s : State) (kind : Nat) (es : List (Fin 8)) : Nat :=
  (s.cmds.filter fun c => !c.replay && (s.restarts kind es c
    || (decide (c.phase = .running) && (s.cmdEngines c.id).any fun e => decide (e ∈ es)))).length

/-- Trials of the groups that engines `es` own end with their progress (R352). -/
def State.dropTrials (s : State) (es : List (Fin 8)) : State :=
  es.foldl (fun t e => if ((t.shGroup e.val).bind (·.trial)).isSome then t.clearTrial e.val else t) s

/-- Waiting commands go back to where they were accepted. -/
def State.restartCmds (s : State) (kind : Nat) (es : List (Fin 8)) : State :=
  let s1 : State := { s.dropTrials es with
    cmds := s.cmds.map fun c => if s.restarts kind es c then { c with phase := .accepted } else c }
  if kind ≤ 3 then
    { s1 with carriers := (s1.carriers.map fun c => { c with next := none }).filter fun c => c.base.isSome }
  else s1

/-- The command that runs on engines of `es` stops (R560): what of it runs elsewhere is killed, and it re-runs uncounted; one that JOB_ABORT
or KILL has ended keeps its outcome. -/
def State.stopCmd (s : State) (es : List (Fin 8)) (id : Nat × Nat) : State :=
  let on := s.cmdEngines id
  let k : KillInfo := ((on.filterMap fun e => s.eng[e].kill).find? fun k => decide (k.why = .final) && decide (k.status = KILLED)).getD
    ⟨.uncounted, KILLED, 0⟩
  let others := on.filter fun e => decide (e ∉ es)
  let s1 := others.foldl (fun (t : State) e => (t.killEng e k).modEng e fun en => { en with kill := some k }) s
  if isStage id then s else if others.any fun e => s1.eng[e].aborting then s1 else s1.settle id k

/-- Every command on engines `es` stops. -/
def State.stopCmds (s : State) (es : List (Fin 8)) : State :=
  ((es.filterMap fun e => s.eng[e].cmd).eraseDups).foldl (fun t id => t.stopCmd es id) s

/-! ### Fabric (R81, R546) -/

/-- The owner of an operation lies in a unit that `cov` selects. -/
def Owner.inUnit (cov : Nat → Bool) : Owner → Bool
  | .none => false
  | .desc e _ => cov e.val
  | .sig e => cov e.val
  | .facet f => cov (0x10 + f.val)

/-- Nobody waits any more for an operation of a unit that was reset. -/
def Owner.drop (cov : Nat → Bool) (o : Owner) : Owner := if o.inUnit cov then .none else o

/-- Memory that a PUT in flight to HBM may have written in part, when HBM's controllers are reset (R81). -/
def putRange (x : FabItem) : List (Nat × Nat) :=
  if (x.op = .put ∨ x.op = .putSignal) ∧ unitOf x.hdr.addr.toNat = 0x40 then [(key 0x40 (offOf x.hdr.addr.toNat), x.payload.length)] else []

/-- Operations that wait in, or travel to or from, the units that `cov` selects (R81): what a reset unit has not issued is gone, what others have
sent to it fails with RESET, and returns to it are discarded. -/
def State.resetFab (s : State) (cov : Nat → Bool) : State :=
  let at_ : Nat → Bool := fun t => decide (t / 256 = s.ownChain) && cov (t % 256)
  let mine : FabItem → Bool := fun x => s.fromHere x.hdr && cov x.hdr.srcUnit.toNat
  let free : FabItem → FabItem := fun x => { x with owner := x.owner.drop cov }
  let hit := s.fab.flight.filter fun x => x.tgts.any at_
  let held := s.fab.held.filter fun h => cov h.1
  let s1 := s.undefAll ((hit.filter fun x => x.tgts.any fun t => at_ t && decide (t % 256 = 0x40)).flatMap putRange)
  let s2 : State := { s1 with fab := { s1.fab with
    waiting := s1.fab.waiting.filter fun x => !(mine x)
    flight := (s1.fab.flight.map fun x => { free x with tgts := x.tgts.filter fun t => !(at_ t) }).filter fun x => !x.tgts.isEmpty
    held := s1.fab.held.filter fun h => !(cov h.1) } }
  let s3 := hit.foldl (fun t x => if mine x then t else (x.tgts.filter at_).foldl (fun t u => t.failItem u x 0xA) t) s2
  let s4 := held.foldl (fun t h => if mine h.2 then t else t.failItem (s.ownChain * 256 + h.1) h.2 0xA) s3
  { s4 with fab := { s4.fab with
    ingress := (s4.fab.ingress.filter fun i => !(at_ i.unit) || i.arrived).map fun i => { i with owner := i.owner.drop cov }
    rets := (s4.fab.rets.filter fun r => !(cov (unitOf r.item.hdr.addr.toNat))).map fun r => { r with item := free r.item }
    errs := (s4.fab.errs.filter fun r => !(cov r.unit)).map fun r => { r with owner := r.owner.drop cov } } }

/-! ### Radio (R299, R307) -/

/-- Carriers whose owning engine is one of `es`. -/
def State.hitCarriers (s : State) (es : List (Fin 8)) : List Carrier :=
  s.carriers.filter fun c => c.base.isSome && es.any fun e => decide (e.val = cEng c.desc)

/-- The slot buffers of the carriers of engines `es` are lost; a slot in the air by now that has an uplink request is to be published with
RESET_ABORT (R299). -/
def State.resetRadio (s : State) (es : List (Fin 8)) : State :=
  let cs := s.hitCarriers es
  let hit : Nat → Bool := fun i => cs.any fun c => decide (c.id = i)
  let mine : Nat → Bool := fun e => es.any fun x => decide (x.val = e)
  { s with
    ul := s.ul.map fun u => match cs.find? fun c => decide (c.id = u.carrier) with
      | some c => if s.airTime c.desc (c.abs u.n) 0 ≤ s.timeFor c.part then { u with aborted := true } else u
      | none => u
    rx := s.rx.filter fun r => !(hit r.carrier)
    stages := s.stages.filter fun g => !(mine g.eng)
    stageKills := s.stageKills.filter fun k => !(mine ((k.1.1 - 0x10000) / 32))
    front := { s.front with
      asm := s.front.asm.filter fun a => !(hit a.carrier)
      ready := s.front.ready.filter fun a => !(hit a.carrier) } }

/-- Requests of which a frame has left end with RESET_ABORT (R307). -/
def State.endLeft (s : State) (es : List (Fin 8)) : State :=
  (s.dl.filter fun u => u.left && (s.hitCarriers es).any fun c => decide (c.id = u.carrier)).foldl (fun t u => t.endDl u RESET_ABORT) s

/-! ### Replay (R424) -/

/-- The replay concerns a partition of engines `es`. -/
def State.replayHit (s : State) (es : List (Fin 8)) : Bool := s.mirror.replay.any fun r => decide (r.parts &&& s.partsOf es ≠ 0)

/-- The replayed commands are gone. -/
def State.dropReplayed (s : State) (es : List (Fin 8)) : State :=
  if s.replayHit es then { s with cmds := s.cmds.filter fun c => !c.replay, mirror := { s.mirror with held := none } } else s

/-- The committed state of a job becomes undefined. -/
def State.undefJob (s : State) (j : Job) : State :=
  let a := s.draw
  let b := a.2.draw
  let c := b.2.draw
  c.2.modJob j.part j.slot fun x => { x with
    step := a.1.toNat
    seeds := [b.1.toNat % 2 ^ 32, b.1.toNat / 2 ^ 32, c.1.toNat % 2 ^ 32, c.1.toNat / 2 ^ 32]
    sel := a.1.toNat % 2 ^ x.nstate }

/-- The state of a replay partition becomes undefined: its HBM, and its jobs' committed state. -/
def State.undefPart (s : State) (p : Fin 8) : State :=
  match s.parts[p] with
  | none => s
  | some q => (s.jobs.filter fun j => decide (j.part = p.val)).foldl (fun t j => t.undefJob j) (s.undef (key 0x40 q.hbmBase) q.hbmSize)

/-- A replay that the reset covers ends: REPLAY completes with RESET_ABORT. -/
def State.abortReplay (s : State) (es : List (Fin 8)) : State :=
  match s.mirror.replay with
  | none => s
  | some r =>
    if s.replayHit es = false then s
    else
      let s1 := (s.finish r.id RESET_ABORT 0 0).setFld (mirKey 0) 1 1 0
      ((List.finRange 8).filter fun p => bit r.parts p.val).foldl (fun t p => t.undefPart p)
        { s1 with mirror := { s1.mirror with replay := none } }

/-! ### The compute die -/

/-- What Facet decoders had in progress is undefined, and the Brivel links go down (R504). -/
def State.dieStop (s : State) : State :=
  let s1 := (List.range 8).foldl (fun (t : State) f => match (t.fct f).cur with
    | some w => t.fctUndef w.desc
    | none => t) s
  (s1.linkDown 0).linkDown 1

/-- Extent of a collection in a half of a partition's weight area: from its directory. -/
def State.weightEnd (s : State) (p half : Nat) : Nat :=
  let b := weightBase p half
  (List.range 102).foldl (fun m i =>
    let e := key 0x41 (b + 64 + 8 * i)
    let n := leNat (s.bytes (e + 4) 4)
    if n = 0 then m else max m (leNat (s.bytes e 4) + ceilDiv n 64 * 64)) (b + DIRSIZE)

/-- Place (Pool offset, end) of every Facet weight collection (R328). -/
def State.weightAreas (s : State) : List (Nat × Nat) :=
  s.weights.flatMap fun w =>
    (if w.gen = 0 then [] else [(weightBase w.part w.half, s.weightEnd w.part w.half)])
      ++ (if w.old.isSome then [(weightBase w.part (1 - w.half), s.weightEnd w.part (1 - w.half))] else [])

/-- A memory key lies in one of the given areas of the Pool. -/
def inAreas (l : List (Nat × Nat)) (a : Nat) : Bool :=
  decide (a / 2 ^ 52 = 0x41) && l.any fun r => decide (r.1 ≤ a % 2 ^ 52) && decide (a % 2 ^ 52 < r.2)

/-- The modem after a reset: bursts are to complete with cause LINK, frames in reception are lost (R520). -/
def State.resetModem (s : State) : State :=
  let s1 := s.dropBursts
  { s1 with modem := ⟨false, false, s1.modem.ch.map fun x => { x with wptr := 0, rx := none, lastTx := none, taken := 0 }⟩ }

/-- The ports and the time unit idle; settings that no register holds are restored. -/
def Front.idle (f : Front) : Front :=
  { f with asm := [], ready := [], seqRx := [], seqTx := [], stored := [], ptpIn := [], slew := 0, held := none, pps := false, todDue := none }

/-- The units of the compute die beside registers, memories and engines; firmware restores settings (R566). `hbm`: their HBM is lost too. -/
def State.dieClear (s : State) (hbm : Bool) : State :=
  let keep := inAreas s.weightAreas
  let s1 := (s.zeroMem (fun u => decide (u = 0x41) || (hbm && decide (u = 0x40))) keep).resetModem
  let s2 : State := { s1 with
    front := s1.front.idle
    facet := List.replicate 8 Facet.reset
    brivel := ⟨none, [], [], []⟩
    mirror := { s1.mirror with base := 0, size := 0, carriers := 0, parts := 0, src := 0, jseq := 0, gap := 0, held := none }
    ucie := ⟨[], false⟩
    scrub := []
    patrol := []
    shadow := { s1.shadow with used := 0 } }
  (s2.setBrv 0 (b2n (s2.brvEn 0))).setBrv 1 (b2n (s2.brvEn 1))

/-- Engines restored after a reset: those that a partition names have power (R554, R562). -/
def State.powerOf (s : State) (e : Fin 8) : EngPower :=
  if (s.homePart e.val).isSome || (s.borrowPart e.val).isSome then .on else .off

/-- Every engine. -/
def allEngines : List (Fin 8) := List.finRange 8

/-- The clock after a COMPUTE reset (R488), and the time that passes in a reset of at most `limit` ns (Table 21.6): a running clock is within
1 µs of the time it would have held. -/
def State.resetClock (s : State) (limit : Nat) (die : Bool) : State :=
  let d := s.draw
  let gone := if s.ptpEn then nsT (d.1.toNat % 2 ^ 32 % (limit + 1)) else 0
  let off := if die then d.1.toNat / 2 ^ 32 % 2001 else 1000
  let s1 : State := { d.2 with ptp := s.ptp + gone + nsT off - nsT 1000 }
  if die && s.ptpEn then (s1.setFld (ptpKey 0) 2 2 1).setFld (ptpKey 4) 0 0 1 else s1

/-- Steps 1 to 4 and 6 of R560 on engines `es` and, for kinds up to COMPUTE, the rest of the compute die (and the anchor). -/
def State.applyReset (s : State) (kind : Nat) (es : List (Fin 8)) (hbm : Bool) : State :=
  let cov := covers kind es
  let s0 := ((s.dropReplayed es).restartCmds kind es).stopCmds es
  let s1 := es.foldl (fun (t : State) e => t.abortUnits e) s0
  let s2 := if kind ≤ 3 then s1.dieStop else s1
  let s3 := (s2.resetFab cov).resetRadio es
  let s4 := if kind ≤ 3 then (s3.resetRegs cov).dieClear hbm else s3
  es.foldl (fun (t : State) e => t.freshEng e (if kind ≤ 3 then s.powerOf e else if s.eng[e].power = .off then .off else .on)) s4

/-! ### Recovery (R404) -/

/-- Every record stands in the copies in service. -/
def Ledger.mirrored (l : Ledger) : Ledger := { l with recs := l.recs.map fun r => { r with in0 := l.copy0, in1 := l.copy1 } }

/-- The completion of a RESET command carries the number of commands re-run (R561). -/
def State.resetValue (s : State) (id : Option (Nat × Nat)) (n : Nat) : State :=
  { s with completions := s.completions.map fun c => if some (c.pair, c.seq) = id then { c with value := n } else c }

/-- Recovery after a reset: it ends with the RECOVERY record (kind, pairs restored, commands re-run). With the ledger path out of service it
waits (R458). -/
def State.recover (s : State) (r : Recovery) (es : List (Fin 8)) : State :=
  if s.ledger.up = false then s.modPower fun w => { w with recovery := some r }
  else
    let s1 := (s.modLedger Ledger.mirrored).endLeft es
    let s2 := ((s1.abortReplay es).resetValue r.cmd r.reruns).flushAll
    (s2.ledgerCommit 0x06 (toLE 1 r.kind ++ toLE 2 (if r.kind ≤ 2 then s2.validPairs.length else 0) ++ toLE 4 r.reruns)).modPower fun w => { w with recovery := none }

/-- The recovery that a reset of kind `kind` is to run: one that still waits is part of it. -/
def State.planRecovery (s : State) (kind n : Nat) (id : Option (Nat × Nat)) : Recovery :=
  match s.power.recovery with
  | some r => ⟨kind, r.reruns, r.cmd⟩
  | none => ⟨kind, n, id⟩

/-! ### Anchor-wide kinds -/

/-- Ledger copies out of service are tested (R457, R458); `bad` names those that fail. A passing copy takes the surviving one's records. -/
def Ledger.retest (l : Ledger) (bad : BitVec 2) : Ledger :=
  let ok := fun i => !(bit bad.toNat i)
  let c0 := if l.pathFault then ok 0 else l.copy0 || ok 0
  let c1 := if l.pathFault then ok 1 else l.copy1 || ok 1
  { l with copy0 := c0, copy1 := c1, pathFault := l.pathFault && !(c0 || c1), noLedger := !(c0 || c1) }

/-- The anchor after PIN or HOST_WARM (R372): pairs stand at ACC and CTAIL; records issued and not committed are lost. -/
def State.anchorClear (s : State) : State :=
  let s1 := s.validPairs.foldl (fun (t : State) p =>
    ((t.setRegN (qTail p) (t.regN (qAcc p))).setRegN (qChead p) (t.regN (qCtail p))).setRegN (qStatus p) 0) s
  (s1.modLedger fun l => { l with queue := [] }).modPower fun w =>
    { w with pendingCap := none, throttle := false, dIdle := false, dStandby := false, wakeq := [], hbmAwake := [] }

/-- Steps 5 and 7 of R560 (Table 20.3): self-tests, the cached image, and recovery; a failure leaves the device in SAFE. -/
def State.boot (s : State) (kind : Nat) (t : Tests) (r : Recovery) : State :=
  let s1 := s.selfTest kind t
  if (testRun t (testsOf kind)).2.isEmpty = false then (s1.enterSafe 2).modPower fun w => { w with recovery := some r }
  else match s1.cacheOk t.cache, s1.secure.image with
    | true, some i => (s1.runImage i).recover r allEngines
    | _, _ => ((s1.enterSafe 2).bootErr 9).modPower fun w => { w with recovery := some r }

/-- PIN and HOST_WARM (R558, R559): everything but the always-on domain. -/
def State.warmReset (s : State) (kind src : Nat) (t : Tests) (id : Option (Nat × Nat)) : State :=
  let n := s.reruns kind allEngines
  let s1 := ((s.rstMark kind src 0).applyReset kind allEngines s.power.dStandby).anchorClear
  let s2 := if kind = 2 then s1.modLedger fun l => l.retest t.led else s1
  (s2.resetClock 700000000 true).boot kind t (s.planRecovery kind n id)

/-- COMPUTE (R558): the compute die; anchor, ledger and PCIe run on. -/
def State.computeReset (s : State) (src : Nat) (t : Tests) (id : Option (Nat × Nat)) : State :=
  let n := s.reruns 3 allEngines
  let s1 := ((s.rstMark 3 src 0).applyReset 3 allEngines false).modPower fun w =>
    { w with pendingCap := none, dIdle := false, wakeq := [], hbmAwake := [] }
  (s1.resetClock 600000000 true).boot 3 t (s.planRecovery 3 n id)

/-- The compute die is held in reset from now on (R538, R564, R589). -/
def State.holdDie (s : State) : State :=
  (s.applyReset 3 allEngines false).modPower fun w =>
    { w with pendingCap := none, dIdle := false, wakeq := [], hbmAwake := [], recovery := some (s.planRecovery 3 (s.reruns 3 allEngines) none) }

/-- UCIE_RETRAIN_END (R448): the link runs again, or 15 µs have passed and the compute die is reset. -/
def execUcieRetrainEnd (ok : Bool) (tests : Tests) (s : State) : Out :=
  .next (if s.ucie.retraining = false then s
    else
      let s1 : State := { s with ucie := ⟨[], false⟩ }
      if ok ∨ s1.fullIf = false then s1 else s1.computeReset 3 tests none)

/-- A RESET command of the row's kind (R553, R561): reserved kinds and targets complete with BAD_PARAM; the COMMIT record precedes the reset. -/
def resetCmd (kind : Nat) (pair : BitVec 16) (k : Cmd → Nat → State → State) (s : State) : Out :=
  onCmd 0x48 pair (fun c t =>
    let kd := c.param 0 1
    let tg := c.param 1 1
    if kd < 2 ∨ 5 < kd ∨ (kd ≤ 3 ∧ tg ≠ 0) then c.ends BAD_PARAM 0 0 t
    else if kd ≠ kind then t
    else k c tg t) s

/-- HOST_WARM_RESET: by a RESET command (source 0), an anchor memory error (2), or a ledger path fault (4). -/
def execHostWarmReset (src : BitVec 4) (pair : BitVec 16) (tests : Tests) (s : State) : Out :=
  if src = 0 then resetCmd 2 pair (fun c _ t => (t.finish c.id OK 0 0).warmReset 2 0 tests (some c.id)) s
  else .next (if s.power.good && !s.power.dStandby && decide (s.devState ≠ 5) && (decide (src = 2) || (decide (src = 4) && s.ledger.pathFault)) then
      s.warmReset 2 src.toNat tests none
    else s)

/-- PIN_RESET: RST_N asserted for at least 10 µs, and released (R559). It leaves D-STANDBY and HALTED. -/
def execPinReset (tests : Tests) (s : State) : Out := .next (if s.power.good then s.warmReset 1 1 tests none else s)

/-- COMPUTE_RESET by a RESET command. -/
def execComputeReset (pair : BitVec 16) (tests : Tests) (s : State) : Out :=
  resetCmd 3 pair (fun c _ t => (t.finish c.id OK 0 0).computeReset 0 tests (some c.id)) s

/-! ### PARTITION and ENGINE -/

/-- The engines of a partition. -/
def Part.members (q : Part) : List (Fin 8) := (List.finRange 8).filter fun e => bit (q.engmask ||| q.borrow) e.val

/-- A partition's Facet queues are flushed (R558). -/
def State.flushShare (s : State) (p : Nat) : State :=
  (List.range 8).foldl (fun t f => (List.range 32).foldl (fun (t : State) k =>
    if (t.facetDesc f k).valid ∧ (t.facetDesc f k).part = p then t.fctFlush f k else t) t) s

/-- A partition's Pool share outside the weight areas is zero (R558). -/
def State.resetShare (s : State) (q : Part) : State :=
  let areas := inAreas s.weightAreas
  s.zeroMem (fun u => decide (u = 0x41)) fun a =>
    areas a || decide (a % 2 ^ 52 < q.poolBase) || decide (q.poolBase + q.poolSize ≤ a % 2 ^ 52)

/-- PARTITION_RESET (R558, R561): the queues stop before the engines' memories are zeroed, so that what a descriptor in progress would have
written there is zero too. -/
def execPartitionReset (pair : BitVec 16) (s : State) : Out :=
  resetCmd 4 pair (fun c n t =>
    if h : n < 8 then match t.parts[n] with
      | none => c.ends BAD_PARAM 0 0 t
      | some q =>
        let t1 := (t.finish c.id OK 0 0).rstMark 4 0 n
        (((((t1.flushShare n).applyReset 4 q.members false).resetShare q).resetClock 1000000 false)).recover ⟨4, t1.reruns 4 q.members, some c.id⟩ q.members
    else c.ends BAD_PARAM 0 0 t) s

/-- ENGINE_RESET (R558, R561). -/
def execEngineReset (pair : BitVec 16) (s : State) : Out :=
  resetCmd 5 pair (fun c n t =>
    if t.nEngines ≤ n then c.ends BAD_PARAM 0 0 t
    else match engOf n with
      | none => c.ends BAD_PARAM 0 0 t
      | some e =>
        if t.eng[e].power = .off then c.ends OK_EMPTY 0 0 t
        else
          let t1 := (t.finish c.id OK 0 0).rstMark 5 0 n
          ((t1.applyReset 5 [e] false).resetClock 200000 false).recover ⟨5, t1.reruns 5 [e], some c.id⟩ [e]) s

/-! ### POR, PWR_GOOD and THERMTRIP (R564, R589, R591) -/

/-- The state that a POR begins with: fuses, key store and what lies outside the device are kept, everything else (the test access port too,
R579) is as State.reset has it; the straps are sampled, and VID takes the strapped cap's code (R587). -/
def State.porState (s : State) (cap smb : Nat) (test : Bool) (t : Tests) : State :=
  let c := min cap 2
  let l := Ledger.formatted 0
  { State.reset with
    pending := s.pending
    fresh := s.fresh
    clock := s.clock
    host := s.host
    fuse := { s.fuse with strapCap := cap, strapSmb := smb, strapTest := b2n test }
    ledger := if test then l else { l with copy0 := !(bit t.led.toNat 0), copy1 := !(bit t.led.toNat 1), noLedger := decide (t.led = 3) }
    secure := { State.reset.secure with keys := s.secure.keys, custKeys := s.secure.custKeys }
    power := { State.reset.power with cap := c, vid := if test then 0x19 else capVid c, perst := s.power.perst, good := !test } }

/-- POR (R525, R558): the ledger is formatted, every test runs, and the device waits in SAFE; with STRAP_TEST high it stays in reset. -/
def execPor (cap : BitVec 2) (smb : BitVec 3) (test : Bool) (tests : Tests) (s : State) : Out :=
  let s1 := s.porState cap.toNat smb.toNat test tests
  .next (if test then s1 else (s1.selfTest 0 tests).enterSafe 2)

/-- PWR_GOOD_FALL (R589): the device is held in reset until the next POR. -/
def execPwrGoodFall (s : State) : Out :=
  let s1 := s.holdDie.modPower fun w => { w with good := false, dStandby := false }
  .next (({ s1 with secure := { s1.secure with alarmN := false } } : State).enterSafe 0)

/-- THERMTRIP: a junction sensor reads `mdeg` thousandths of a degree (R564). -/
def execThermtrip (mdeg : Int) (s : State) : Out :=
  .next (if mdeg ≤ (if s.fuse.xSuffix then 120000 else 115000) ∨ s.power.good = false then s
    else
      let s1 := (if s.power.tripped then s else s.holdDie).modPower fun w => { w with tripped := true }
      { s1 with secure := { s1.secure with thermN := true } })

end Sys2Proof.Machine
end

