-- ==== Sys2Proof/Machine/Boot.lean ====
section
/-! DEFINITION. Boot and security (20): LOAD through mailbox 0, FW_LOAD, attestation, alarms, and SMBus. -/
namespace Sys2Proof.Machine

/-! ### Delivering images (R531, R533) -/

/-- DATA word `i` of anchor mailbox 0. -/
def State.loadWord (s : State) (i : Nat) : Nat := s.regN (mbxKey 0x60 0 (4 * i))

/-- The device runs the cached image; a recovery that has waited for it runs (R532). -/
def State.startImage (s : State) : State :=
  match s.secure.image with
  | none => s
  | some i => match s.power.recovery with
    | none => s.runImage i
    | some r => (s.runImage i).recover r allEngines

/-- ROM_LOAD: a LOAD that stands in anchor mailbox 0 in SAFE is answered (R531). -/
def execRomLoad (s : State) : Out :=
  let a := s.loadWord 1 + 2 ^ 32 * s.loadWord 2
  let odd := decide (1 < s.loadWord 4) || decide (a % 64 ≠ 0) || (List.range 11).any fun i => decide (s.loadWord (5 + i) ≠ 0)
  .next (if s.devState ≠ 2 ∨ s.power.good = false ∨ s.fld (mbxKey 0x60 0 0x40) 0 0 = 0 then s
    else if decide (s.loadWord 0 ≠ 1) || odd then s.mbxAck 0x60 0 BAD_PARAM
    else if s.testsPass = false then s.mbxAck 0x60 0 NO_RESOURCE
    else
      let f := s.fetchImage a (s.loadWord 3)
      if f.2 ≠ 0 then (s.bootErr f.2).mbxAck 0x60 0 (causeCode f.2)
      else ((s.acceptImage f.1 (bit (s.loadWord 4) 0)).mbxAck 0x60 0 OK).startImage)

/-- FW_LOAD: in LOADED, an image that passes becomes the cached one, and the HOST_WARM sequence follows (R533). -/
def State.fwLoad (t : Tests) (c : Cmd) (s : State) : State :=
  let n := c.param 8 4
  let f := s.fetchImage (c.param 0 8) n
  if s.devState ≠ 3 then c.ends NO_RESOURCE 0 0 s
  else if n = 0 then c.ends OK_EMPTY 0 0 s
  else if f.2 ≠ 0 then c.ends (causeCode f.2) f.2 0 s
  else ((s.finish c.id OK 0 (fieldLE f.1 4 4) (slice c.pkt 16 13)).acceptImage f.1 (bit (c.param 12 1) 0)).warmReset 2 5 t none

/-- FW_LOAD (R533). -/
def execFwLoad (pair : BitVec 16) (tests : Tests) (s : State) : Out := onCmd 0x08 pair (State.fwLoad tests) s

/-! ### Attestation (R536) -/

/-- A SHA-384 value as its 48 bytes. -/
def shaBytes (n : Nat) : List Byte := (toLE 48 n).reverse

/-- A partition's entry of the attestation body. -/
def State.attestPart (s : State) (x : Fin 8 × Part) : List Byte :=
  let js := (List.range 8).filterMap fun i => s.jobAt x.1.val i
  toLE 1 x.1.val ++ toLE 1 x.2.cls ++ toLE 1 x.2.flags ++ toLE 1 js.length ++ List.replicate 12 0
    ++ shaBytes (Config.sha384 (js.flatMap fun j => shaBytes (s.jobDigest j)))

/-- The attestation body (Table 20.6). -/
def State.attestBody (s : State) (nonce : List Byte) : List Byte :=
  let ps := s.partList
  let i := (s.secure.image.map Image.bytes).getD []
  toLE 4 0x54415244 ++ toLE 4 (132 + 64 * ps.length) ++ nonce ++ toLE 8 s.fuse.serial.toNat ++ toLE 4 (s.view (key BAR0 0))
    ++ toLE 4 (s.view (key BAR0 4)) ++ toLE 1 s.fuse.svn ++ toLE 1 s.devState ++ toLE 2 0 ++ toLE 4 s.fwVersion ++ shaBytes (Config.sha384 i)
    ++ toLE 8 s.ptpNs ++ toLE 8 s.ledger.next ++ toLE 4 ps.length ++ ps.flatMap s.attestPart

/-- ATTEST. -/
def State.attest (c : Cmd) (s : State) : State :=
  let dest := c.param 32 8
  let body := s.attestBody (slice c.pkt 16 32)
  let k := s.fuse.serial.toNat
  let certs := if bit (c.param 44 1) 0 then Config.attestCerts k else []
  let n := body.length + 384 + 35664 + certs.length
  if dest % 64 ≠ 0 then c.ends BAD_PARAM 0 0 s
  else if c.param 40 4 < n then c.ends NO_RESOURCE 1 0 s
  else if s.secure.keys = false then c.ends NO_RESOURCE 2 0 s
  else if s.master = false then s
  else (s.finish c.id OK 0 n).hostWrite dest
    (body ++ (List.range 384).map (Config.attestRsa k body) ++ (List.range 35664).map (Config.attestSlh k body) ++ certs)

/-- ATTEST (R536). -/
def execAttest (pair : BitVec 16) (s : State) : Out := onCmd 0x09 pair State.attest s

/-! ### Alarms (R538 to R540) -/

/-- SEC_ALARM and SEC_ALARM_POL (Table 20.8). -/
def secAlarm : Nat := key BAR0 0x24
def secPol : Nat := key BAR0 0x28

/-- Policy of source `b`: 0 LOG, 1 HALT, 2 ERASE. -/
def State.alarmPol (s : State) (b : Nat) : Nat := s.fld secPol (2 * b + 1) (2 * b)

/-- ALARM_CFG; `holding`: sources whose condition holds now. -/
def State.alarmCfg (holding : Nat) (c : Cmd) (s : State) : State :=
  let pol := c.param 0 2 % 1024
  let clear := c.param 2 1
  let lock := bit (c.param 3 1) 0 || decide (s.fld secPol 10 10 = 1)
  if (decide (s.fld secPol 10 10 = 1) && decide (pol ≠ s.fld secPol 9 0)) || (List.range 5).any fun b => decide (bits pol (2 * b + 1) (2 * b) = 3) then
    c.ends BAD_PARAM 0 0 s
  else
    let v := maskOf ((List.range 5).filter fun b => bit (s.regN secAlarm) b && !(bit clear b && !(bit holding b)))
    let s1 := ((s.finish c.id OK 0 0 (slice c.pkt 16 4)).setRegN secPol (pol + 2 ^ 10 * b2n lock)).setRegN secAlarm v
    { s1 with secure := { s1.secure with alarmN := s1.secure.alarmN && decide (v ≠ 0) } }

/-- ALARM_CFG (R540). -/
def execAlarmCfg (pair : BitVec 16) (holding : BitVec 5) (s : State) : Out := onCmd 0x0A pair (State.alarmCfg holding.toNat) s

/-- HALT: the compute die is held in reset, and the device is HALTED. -/
def State.haltDev (s : State) : State := s.holdDie.setDev 5

/-- Registers that an erase leaves: those of the always-on domain and the PCIe endpoint's. -/
def eraseKeeps (a : Nat) : Bool :=
  (decide (a / 2 ^ 52 = BAR0) && (decide (a % 2 ^ 52 < 0x30) || (decide (0x40000 ≤ a % 2 ^ 52) && decide (a % 2 ^ 52 < 0x48100))))
    || decide (a ∈ [pwrKey 0x108, pwrKey 0x10C, pwrKey 0x110, pwrKey 0x114])

/-- ERASE: key store, ledger and image cache are empty; what firmware restores from the ledger's records is gone with them. -/
def State.erase (s : State) : State :=
  let s1 := s.haltDev
  let l := Ledger.formatted s.ledTime
  { s1 with
    secure := { s1.secure with keys := false, custKeys := [], image := none, cached0 := false, cached1 := false }
    ledger := { l with copy0 := s.ledger.copy0, copy1 := s.ledger.copy1, pathFault := s.ledger.pathFault, noLedger := s.ledger.noLedger }
    regs := Sparse.clear (fun a => !(eraseKeeps a)) s1.regs
    cmds := []
    completions := []
    queues := []
    parts := State.reset.parts
    jobs := []
    carriers := []
    rx := []
    ul := []
    dl := []
    lastUl := []
    stages := []
    harq := []
    published := []
    captures := []
    weights := []
    configured := []
    shadow := State.reset.shadow
    mirror := State.reset.mirror
    modem := State.reset.modem
    power := { s1.power with recovery := none } }

/-- ALARM: the sources of a mask trip together (R538, R539). While the device is in reset, ALARM_N stays released. -/
def execAlarm (sources : BitVec 5) (s : State) : Out :=
  let bs := (List.range 5).filter fun b => bit sources.toNat b
  let s1 := s.setRegN secAlarm (s.regN secAlarm ||| sources.toNat)
  let s2 : State := { s1 with secure := { s1.secure with alarmN := s1.secure.alarmN || (s.power.good && decide (sources ≠ 0)) } }
  let s3 := if s2.ledger.up then bs.foldl (fun (t : State) b => t.event (Config.eventStatus 4) 0x60 b) s2 else s2
  let pol := latest (bs.map s.alarmPol)
  .next (if pol = 2 then s3.erase else if pol = 1 then s3.haltDev else s3)

/-! ### SMBus (R534) -/

/-- SMBUS_BLOCK_READ with command code `code`: the 4 bytes of a BAR0 register; another code, or a device in reset or in D-STANDBY, is not
acknowledged. -/
def execSmbusBlockRead (code : BitVec 8) (s : State) : Out :=
  .next { s with readOut :=
    if code.toNat ≤ 10 ∧ s.power.good ∧ s.power.dStandby = false then toLE 4 (s.view (key BAR0 (4 * code.toNat))) else [] }

end Sys2Proof.Machine
end

