-- ==== Sys2Proof/Machine/Signal.lean ====
section
/-! DEFINITION. The signal lane (08): PROGRAM descriptors, address generators, accumulators, the Gold generator. -/
namespace Sys2Proof.Machine

/-! ### The Gold generator (R242; TS 38.211 clause 5.2.1) -/

/-- The two 31-bit shift registers and the amplitude. -/
structure Gold where
  x1 : Nat
  x2 : Nat
  amp : Nat
  deriving DecidableEq, Repr

/-- Advance by one bit. -/
def Gold.step (g : Gold) : Gold :=
  let b1 := bit g.x1 3 ^^ bit g.x1 0
  let b2 := bit g.x2 3 ^^ bit g.x2 2 ^^ bit g.x2 1 ^^ bit g.x2 0
  { g with x1 := g.x1 / 2 + 2 ^ 30 * b2n b1, x2 := g.x2 / 2 + 2 ^ 30 * b2n b2 }

/-- Advance by `n` bits. -/
def Gold.steps : Nat → Gold → Gold
  | 0, g => g
  | n + 1, g => Gold.steps n g.step

/-- The current bit c(n). -/
def Gold.bit (g : Gold) : Bool := (g.x1 + g.x2) % 2 = 1

/-- GINIT (R242). -/
def Gold.init (cinit skip amp : Nat) : Gold := Gold.steps (1600 + 64 * skip) ⟨1, cinit % 2 ^ 31, amp⟩

/-- The current symbol. -/
def Gold.sym (g : Gold) : Int × Int :=
  let p := fun (b : Bool) => if b then -(g.amp : Int) else (g.amp : Int)
  (p g.bit, p g.step.bit)

/-- The next `n` symbols, and the generator past them. -/
def Gold.take : Nat → Gold → List (Int × Int) × Gold
  | 0, g => ([], g)
  | n + 1, g =>
    let t := Gold.take n g.step.step
    (g.sym :: t.1, t.2)

/-! ### Descriptor and ops (Tables 8.1 to 8.4) -/

/-- An address generator block (Table 8.2). -/
structure AgD where
  base : Nat
  mode : Nat
  b : Nat
  lstr : Int
  len : Nat
  steps : List Int
  deriving DecidableEq, Repr

def AgD.parse (d : List Byte) (i : Nat) : AgD :=
  let w := fieldLE d i 4
  { base := bits w 16 0, mode := bits w 18 17, b := bits w 23 19, lstr := sext 8 (bits w 31 24)
    len := fieldLE d (i + 4) 4 % 2 ^ 18
    steps := (List.range 4).map fun k => sext 16 (fieldLE d (i + 8 + 2 * k) 2) }

/-- The MODE check of R238. -/
def AgD.ok (g : AgD) : Bool :=
  decide (g.mode ≠ 3) && decide (g.len ≠ 0) && decide (g.len ≤ 131072)
    && (decide (g.mode ≠ 2) || (decide (1 ≤ g.b) && decide (g.b ≤ 17)))

/-- The `b`-bit reversal of `x`. -/
def bitRev : (b : Nat) → (x : Nat) → Nat
  | 0, _ => 0
  | b + 1, x => x % 2 * 2 ^ b + bitRev b (x / 2)

/-- The sample index of lane `l` (R238); none outside the signal memory. -/
def AgD.index (g : AgD) (it : List Nat) (off : Int) (l : Nat) : Option Nat :=
  let x : Int := ((it.zip g.steps).map fun p => (p.1 : Int) * p.2).foldl (· + ·) 0 + (l : Int) * g.lstr + off
  let f : Int := match g.mode with
    | 0 => x
    | 1 => x % (g.len : Int)
    | _ => (bitRev g.b (x % ((2 ^ g.b : Nat) : Int)).toNat : Nat)
  let s := (g.base : Int) + f
  if 0 ≤ s ∧ s < 131072 then some s.toNat else none

/-- A loop level of Table 8.1. -/
structure LoopD where
  count : Nat
  start : Nat
  stop : Nat
  deriving DecidableEq, Repr

/-- An op (Table 8.3). -/
structure SigOp where
  raw : Nat
  deriving DecidableEq, Repr

def SigOp.opc (o : SigOp) : Nat := bits o.raw 63 58
def SigOp.conjd (o : SigOp) : Bool := bit o.raw 57
def SigOp.conjc (o : SigOp) : Bool := bit o.raw 56
def SigOp.bc (o : SigOp) : Bool := bit o.raw 55
def SigOp.csrc (o : SigOp) : Bool := bit o.raw 54
def SigOp.sat (o : SigOp) : Bool := bit o.raw 53
def SigOp.sh (o : SigOp) : Nat := bits o.raw 52 48
def SigOp.ags (o : SigOp) : Bool := bit o.raw 47
def SigOp.doff (o : SigOp) : Int := sext 18 (bits o.raw 35 18)
def SigOp.coff (o : SigOp) : Int := sext 18 (bits o.raw 17 0)

/-- The bits of an op that its kind uses (Table 8.4, R240). -/
def SigOp.used (opc : Nat) : Nat :=
  let doff := 2 ^ 36 - 2 ^ 18
  let coff := 2 ^ 18 - 1
  match opc with
  | 0x01 | 0x02 | 0x03 => 2 ^ 57 + 2 ^ 56 + 2 ^ 55 + 2 ^ 54 + doff + coff
  | 0x04 => 2 ^ 57 + doff
  | 0x06 => 2 ^ 53 + (2 ^ 53 - 2 ^ 48) + 2 ^ 47 + doff + coff
  | 0x07 => 2 ^ 58 - 2
  | 0x08 => 2 ^ 47 + doff + coff
  | _ => 0

/-- The PROG checks of one op (Table 8.5): reserved OPC, a nonzero unused field, BC with CSRC, AMP[15]. -/
def SigOp.ok (o : SigOp) : Bool :=
  decide (o.opc ≤ 8) && decide (o.raw % 2 ^ 58 &&& SigOp.used o.opc = o.raw % 2 ^ 58)
    && !(decide (o.opc ∈ [1, 2, 3]) && o.bc && o.csrc) && !(decide (o.opc = 7) && bit o.raw 16)

/-- A PROGRAM (Table 8.1) with its ops. -/
structure SigProg where
  accsat : Bool
  ops : List SigOp
  loops : List LoopD
  ag0 : AgD
  ag1 : AgD
  deriving DecidableEq, Repr

/-- The nesting rule of R243. -/
def loopsOk (nops : Nat) (ls : List LoopD) : Bool :=
  let en := ls.filter fun l => decide (l.count ≠ 0)
  (en.all fun l => decide (l.start ≤ l.stop) && decide (l.stop < nops))
    && (ls.zipIdx.all fun k => ls.zipIdx.all fun j =>
      decide (k.1.count = 0) || decide (j.1.count = 0) || decide (j.2 ≤ k.2)
        || (decide (j.1.start ≤ k.1.start) && decide (k.1.stop ≤ j.1.stop)))

/-! ### Running -/

/-- The lane while a descriptor runs: op index, iteration counters, accumulators, generator. -/
structure Lane where
  pc : Nat
  it : List Nat
  acc : List (Int × Int)
  gold : Gold
  deriving DecidableEq, Repr

/-- How the run stopped. -/
inductive SigStop where
  | ok
  | err (cause opidx : Nat)
  deriving DecidableEq, Repr

/-- SIG_STATUS (Table 8.6). -/
def sigStatus (e : Fin 8) : Nat := key e (CTU + 0x30000)

/-- Set a bit of SIG_STATUS. -/
def State.sigFlag (s : State) (e : Fin 8) (k : Nat) (c : Bool) : State := if c then s.setFld (sigStatus e) k k 1 else s

/-- Scratchpad offset of a sample (R232). -/
def sampleOff (s : Nat) : Nat := SIGBASE + 4 * s

/-- Narrow an exact sum to an accumulator part (R233): the value, and whether ACCOVF is set. -/
def accNarrow (sat : Bool) (x : Int) : Int × Bool :=
  let top : Int := (2 ^ 39 : Nat) - 1
  let bot : Int := -((2 ^ 39 : Nat) : Int)
  if bot ≤ x ∧ x ≤ top then (x, false)
  else (if sat then (if x < bot then bot else top) else sext 40 (wrapN 40 x), true)

/-- STORE of one part (R234): the 16-bit code, SAT, WRAP. -/
def storePart (sh : Nat) (sat : Bool) (v : Int) : Nat × Bool × Bool :=
  let d : Int := ((2 ^ sh : Nat) : Int)
  let q := v / d
  let r := v % d
  let q := if sh ≠ 0 ∧ (d < 2 * r ∨ (2 * r = d ∧ q % 2 = 1)) then q + 1 else q
  if -32768 ≤ q ∧ q ≤ 32767 then (wrapN 16 q, false, false)
  else if sat then (wrapN 16 (if q < 0 then -32768 else 32767), true, false)
  else (wrapN 16 q, false, true)

/-- Read samples at the given offsets. -/
def State.samples (s : State) (e : Fin 8) (offs : List Nat) : List (Int × Int) :=
  offs.map fun o =>
    let w := leNat (s.bytes (key e o) 4)
    (sext 16 (w % 2 ^ 16), sext 16 (w / 2 ^ 16))

/-- Conjugate when `c`. -/
def conjIf (c : Bool) (v : Int × Int) : Int × Int := if c then (v.1, -v.2) else v

/-- An accumulating op on one lane (Table 8.4): the exact new parts before narrowing. -/
def accOp (opc : Nat) (a d c : Int × Int) : Int × Int :=
  let p := (d.1 * c.1 - d.2 * c.2, d.1 * c.2 + d.2 * c.1)
  match opc with
  | 0x01 => p
  | 0x02 => (a.1 + p.1, a.2 + p.2)
  | 0x03 => (a.1 - p.1, a.2 - p.2)
  | 0x04 => (a.1 + (d.1 * d.1 + d.2 * d.2), a.2)
  | _ => (0, 0)

/-- The sample offsets of the lanes of a generator; none when one lies outside the signal memory. -/
def AgD.offs (g : AgD) (it : List Nat) (off : Int) (lanes : Nat) : Option (List Nat) :=
  ((List.range lanes).mapM fun l => g.index it off l).map fun l => l.map sampleOff

/-- Write samples in lane order; a sample that two lanes name with different values holds an undefined value. -/
def State.putSamples (s : State) (e : Fin 8) (xs : List (Nat × List Byte)) : State × Bool :=
  let clash := xs.filter fun x => xs.any fun y => decide (y.1 = x.1) && decide (y.2 ≠ x.2)
  match s.storeAll (mergeRuns (xs.map fun x => (key e x.1, x.2))) with
  | (s1, true) => (s1.undefAll (clash.map fun x => (key e x.1, 4)), true)
  | r => r

/-- One op (Table 8.4): state, lane, samples written, and the error that stopped it before its access. -/
def State.sigStep (s : State) (e : Fin 8) (p : SigProg) (ln : Lane) (o : SigOp) :
    State × Lane × List (Nat × Nat) × Option Nat :=
  match o.opc with
  | 0x00 => (s, ln, [], none)
  | 0x05 => (s, { ln with acc := List.replicate 32 (0, 0) }, [], none)
  | 0x07 => (s, { ln with gold := Gold.init (bits o.raw 57 27) (bits o.raw 26 17) (bits o.raw 16 1) }, [], none)
  | 0x06 | 0x08 =>
    match (if o.ags then p.ag1.offs ln.it o.coff 32 else p.ag0.offs ln.it o.doff 32) with
    | none => (s, ln, [], some 4)
    | some offs =>
      let g := ln.gold.take 32
      let parts := if o.opc = 6 then ln.acc.map fun a => (storePart o.sh o.sat a.1, storePart o.sh o.sat a.2)
        else g.1.map fun v => ((wrapN 16 v.1, false, false), (wrapN 16 v.2, false, false))
      let xs := offs.zip (parts.map fun q => toLE 2 q.1.1 ++ toLE 2 q.2.1)
      match s.putSamples e xs with
      | (s1, false) => (s1, ln, [], some 5)
      | (s1, true) =>
        let s2 := s1.sigFlag e 0 (parts.any fun q => q.1.2.1 || q.2.2.1)
        let s3 := s2.sigFlag e 1 (parts.any fun q => q.1.2.2 || q.2.2.2)
        (s3, if o.opc = 8 then { ln with gold := g.2 } else ln, offs.map fun a => (key e a, 4), none)
  | opc =>
    let coffs := if opc = 4 ∨ o.csrc then some [] else p.ag1.offs ln.it o.coff (if o.bc then 1 else 32)
    match p.ag0.offs ln.it o.doff 32, coffs with
    | some ds, some cs =>
      match s.checkLines e ds with
      | (s1, false) => (s1, ln, [], some 5)
      | (s1, true) =>
        match s1.checkLines e cs with
        | (s2, false) => (s2, ln, [], some 5)
        | (s2, true) =>
          let g := ln.gold.take 32
          let dv := (s2.samples e ds).map (conjIf o.conjd)
          let cv := (if o.csrc then g.1 else if o.bc then List.replicate 32 ((s2.samples e cs).headD (0, 0)) else s2.samples e cs).map
            (conjIf o.conjc)
          let ns := (List.range 32).map fun l =>
            let n := accOp opc (ln.acc.getD l (0, 0)) (dv.getD l (0, 0)) (cv.getD l (0, 0))
            (accNarrow p.accsat n.1, accNarrow p.accsat n.2)
          (s2.sigFlag e 2 (ns.any fun n => n.1.2 || n.2.2),
            { ln with acc := ns.map fun n => (n.1.1, n.2.1), gold := if o.csrc then g.2 else ln.gold }, [], none)
    | _, _ => (s, ln, [], some 4)

/-- Advance the loops after the op at `pc` (R243): the next op and the counters; level `k` is tried upwards. -/
def advance (ls : List LoopD) (pc : Nat) (it : List Nat) : (fuel : Nat) → (k : Nat) → Nat × List Nat
  | 0, _ => (pc + 1, it)
  | n + 1, k =>
    let l := ls.getD k ⟨0, 0, 0⟩
    if l.count ≠ 0 ∧ l.stop = pc then
      if it.getD k 0 + 1 < l.count then (l.start, it.set k (it.getD k 0 + 1))
      else advance ls pc (it.set k 0) n (k + 1)
    else advance ls pc it n (k + 1)

/-- Run ops until the program ends or stops. -/
def State.sigRun (s : State) (e : Fin 8) (p : SigProg) : (fuel : Nat) → Lane → List (Nat × Nat) → State × List (Nat × Nat) × SigStop
  | 0, _, w => (s, w, .ok)
  | n + 1, ln, w =>
    match p.ops[ln.pc]? with
    | none => (s, w, .ok)
    | some o =>
      match s.sigStep e p ln o with
      | (s1, _, _, some c) => (s1, w, .err c ln.pc)
      | (s1, l1, ws, none) =>
        let nx := advance p.loops ln.pc l1.it 4 0
        s1.sigRun e p n { l1 with pc := nx.1, it := nx.2 } (w ++ ws)

/-- A signal-lane descriptor ends in error (R247). -/
def State.sigError (s : State) (e : Fin 8) (d : Queued) (cause opidx : Nat) : State :=
  s.unitError e (key e (CTU + 0x30004)) (cause + 2 ^ 16 * opidx) (key e (CTU + 0x30008)) (d.origin % 2 ^ 26)
    (if cause = 5 then ECC_UNCORR else BAD_PARAM)

/-- Start the program: start checks in the order KIND, PROG of NOPS and loops, MODE, RANGE of the image, ECC, PROG of the ops
(R247), then its ops. -/
def State.startProgram (s : State) (e : Fin 8) (d : Queued) : State :=
  let b := d.desc
  let nops := fieldLE b 2 1 % 128
  let paddr := d26 b 4
  let loops := (List.range 4).map fun k =>
    let w := fieldLE b (8 + 4 * k) 4
    (⟨bits w 15 0, bits w 21 16, bits w 27 22⟩ : LoopD)
  let ag0 := AgD.parse b 24
  let ag1 := AgD.parse b 40
  if fieldLE b 0 1 % 16 ≠ 1 then s.sigError e d 1 0
  else if nops = 0 then s.addTok e.val d.tctr.toNat 1
  else if 64 < nops ∨ loopsOk nops loops = false then s.sigError e d 2 0
  else if ag0.ok = false ∨ ag1.ok = false then s.sigError e d 3 0
  else if inPad paddr (8 * nops) = false then s.sigError e d 4 0
  else match s.read (key e paddr) (8 * nops) with
    | (s1, none) => s1.sigError e d 5 0
    | (s1, some img) =>
      let ops := (chunks 8 img).map fun w => SigOp.mk (leNat w)
      if (ops.all SigOp.ok) = false then s1.sigError e d 2 0
      else
        let p : SigProg := ⟨bit (fieldLE b 1 1) 0, ops, loops, ag0, ag1⟩
        let fuel := nops * (loops.map fun l => max 1 l.count).foldl (· * ·) 1
        match s1.sigRun e p fuel ⟨0, [0, 0, 0, 0], List.replicate 32 (0, 0), Gold.init 0 0 0x5A82⟩ [] with
        | (s2, _, .err c i) => s2.sigError e d c i
        | (s2, w, .ok) => s2.startDesc e d w []

/-- The PROGRAM at the head of the signal-lane queue starts, once its operand tokens are present, and runs its ops
(R239 to R246). -/
def execProgram (e : Fin 8) (s : State) : Out :=
  match s.headOf e .signal with
  | none => .next s
  | some d => if s.tokensOk e d.desc = false then .next s else .next ((s.dequeue e d.id).startProgram e d)

/-- The last op of the oldest PROGRAM in progress has executed: its completion increment (R245). -/
def execProgramComplete (e : Fin 8) (s : State) : Out :=
  match s.startedOn e .signal 0 with
  | some d => .next (s.completeDesc e d)
  | none => .next s

end Sys2Proof.Machine
end

