-- ==== Sys2Proof/Machine/Dispatch.lean ====
section
/-! DEFINITION. exec: one arm per command of the block, each ONE direct call of its meaning. -/
namespace Sys2Proof.Machine

def exec (i : Instr) (s : State) : Host.Outcome State Fault Refusal :=
  match i with
  | .put h payload => Sys2Proof.Machine.execPut h payload s
  | .get h => Sys2Proof.Machine.execGet h s
  | .putSignal h payload => Sys2Proof.Machine.execPutSignal h payload s
  | .signal h => Sys2Proof.Machine.execSignal h s
  | .atomicAdd h payload => Sys2Proof.Machine.execAtomicAdd h payload s
  | .fetchAdd h payload => Sys2Proof.Machine.execFetchAdd h payload s
  | .cas h payload => Sys2Proof.Machine.execCas h payload s
  | .orderedFadd h payload => Sys2Proof.Machine.execOrderedFadd h payload s
  | .orderedFaddRelease unit stream => Sys2Proof.Machine.execOrderedFaddRelease unit stream s
  | .returnDelivery src dst stream => Sys2Proof.Machine.execReturnDelivery src dst stream s
  | .errorResponse unit far stream cause => Sys2Proof.Machine.execErrorResponse unit far stream cause s
  | .creditReturn unit stream => Sys2Proof.Machine.execCreditReturn unit stream s
  | .fabricOpIssue unit queue => Sys2Proof.Machine.execFabricOpIssue unit queue s
  | .stall unit queue => Sys2Proof.Machine.execStall unit queue s
  | .mcastSlow group => Sys2Proof.Machine.execMcastSlow group s
  | .priorityAging unit queue => Sys2Proof.Machine.execPriorityAging unit queue s
  | .fabCrdW0Write src unit k v => Sys2Proof.Machine.execFabCrdW0Write src unit k v s
  | .fabCrdW1Write src unit k v => Sys2Proof.Machine.execFabCrdW1Write src unit k v s
  | .clockWake unit st => Sys2Proof.Machine.execClockWake unit st s
  | .scAdd e f => Sys2Proof.Machine.execScAdd e f s
  | .scSub e f => Sys2Proof.Machine.execScSub e f s
  | .scAnd e f => Sys2Proof.Machine.execScAnd e f s
  | .scOr e f => Sys2Proof.Machine.execScOr e f s
  | .scXor e f => Sys2Proof.Machine.execScXor e f s
  | .scShl e f => Sys2Proof.Machine.execScShl e f s
  | .scShr e f => Sys2Proof.Machine.execScShr e f s
  | .scSra e f => Sys2Proof.Machine.execScSra e f s
  | .scMul e f => Sys2Proof.Machine.execScMul e f s
  | .scMovhi e f => Sys2Proof.Machine.execScMovhi e f s
  | .scSlt e f => Sys2Proof.Machine.execScSlt e f s
  | .scSltu e f => Sys2Proof.Machine.execScSltu e f s
  | .scSeq e f => Sys2Proof.Machine.execScSeq e f s
  | .scLd e f => Sys2Proof.Machine.execScLd e f s
  | .scSt e f => Sys2Proof.Machine.execScSt e f s
  | .scB e f => Sys2Proof.Machine.execScB e f s
  | .scBeq e f => Sys2Proof.Machine.execScBeq e f s
  | .scBne e f => Sys2Proof.Machine.execScBne e f s
  | .scBlt e f => Sys2Proof.Machine.execScBlt e f s
  | .scBge e f => Sys2Proof.Machine.execScBge e f s
  | .scMovsum e f => Sys2Proof.Machine.execScMovsum e f s
  | .scBsum e f => Sys2Proof.Machine.execScBsum e f s
  | .streamIssue e f => Sys2Proof.Machine.execStreamIssue e f s
  | .arrayIssue e f => Sys2Proof.Machine.execArrayIssue e f s
  | .vectorIssue e f => Sys2Proof.Machine.execVectorIssue e f s
  | .signalIssue e f => Sys2Proof.Machine.execSignalIssue e f s
  | .issueStallRelease e => Sys2Proof.Machine.execIssueStallRelease e s
  | .syWait e f => Sys2Proof.Machine.execSyWait e f s
  | .syWaitt e f => Sys2Proof.Machine.execSyWaitt e f s
  | .waitSatisfied e => Sys2Proof.Machine.execWaitSatisfied e s
  | .waittGiveUp e => Sys2Proof.Machine.execWaittGiveUp e s
  | .syFence e f => Sys2Proof.Machine.execSyFence e f s
  | .fenceRelease e => Sys2Proof.Machine.execFenceRelease e s
  | .sySig e f => Sys2Proof.Machine.execSySig e f s
  | .syWaitdb e f => Sys2Proof.Machine.execSyWaitdb e f s
  | .waitdbWake e => Sys2Proof.Machine.execWaitdbWake e s
  | .syNop e f => Sys2Proof.Machine.execSyNop e f s
  | .syEnd e f => Sys2Proof.Machine.execSyEnd e f s
  | .syTrap e f => Sys2Proof.Machine.execSyTrap e f s
  | .trapAbortEnd e => Sys2Proof.Machine.execTrapAbortEnd e s
  | .overblock e => Sys2Proof.Machine.execOverblock e s
  | .engRun src e => Sys2Proof.Machine.execEngRun src e s
  | .engHalt src e => Sys2Proof.Machine.execEngHalt src e s
  | .engKill src e => Sys2Proof.Machine.execEngKill src e s
  | .killComplete e => Sys2Proof.Machine.execKillComplete e s
  | .matmul e => Sys2Proof.Machine.execMatmul e s
  | .matmulComplete e k => Sys2Proof.Machine.execMatmulComplete e k s
  | .drain e => Sys2Proof.Machine.execDrain e s
  | .drainComplete e k => Sys2Proof.Machine.execDrainComplete e k s
  | .arrClrClamp src e all a => Sys2Proof.Machine.execArrClrClamp src e all a s
  | .arrClrFlags src e all a => Sys2Proof.Machine.execArrClrFlags src e all a s
  | .pairCtlWrite src e n v => Sys2Proof.Machine.execPairCtlWrite src e n v s
  | .vecQntClr src e => Sys2Proof.Machine.execVecQntClr src e s
  | .vecAdd e f => Sys2Proof.Machine.execVecAdd e f s
  | .vecSub e f => Sys2Proof.Machine.execVecSub e f s
  | .vecMul e f => Sys2Proof.Machine.execVecMul e f s
  | .vecFma e f => Sys2Proof.Machine.execVecFma e f s
  | .vecMin e f => Sys2Proof.Machine.execVecMin e f s
  | .vecMax e f => Sys2Proof.Machine.execVecMax e f s
  | .vecAbs e f => Sys2Proof.Machine.execVecAbs e f s
  | .vecNeg e f => Sys2Proof.Machine.execVecNeg e f s
  | .vecCeq e f => Sys2Proof.Machine.execVecCeq e f s
  | .vecClt e f => Sys2Proof.Machine.execVecClt e f s
  | .vecCle e f => Sys2Proof.Machine.execVecCle e f s
  | .vecSel e f => Sys2Proof.Machine.execVecSel e f s
  | .vecAnd e f => Sys2Proof.Machine.execVecAnd e f s
  | .vecOr e f => Sys2Proof.Machine.execVecOr e f s
  | .vecXor e f => Sys2Proof.Machine.execVecXor e f s
  | .vecShl e f => Sys2Proof.Machine.execVecShl e f s
  | .vecShr e f => Sys2Proof.Machine.execVecShr e f s
  | .cvt e f => Sys2Proof.Machine.execCvt e f s
  | .scalb e f => Sys2Proof.Machine.execScalb e f s
  | .recip e f => Sys2Proof.Machine.execRecip e f s
  | .rsqrt e f => Sys2Proof.Machine.execRsqrt e f s
  | .sqrt e f => Sys2Proof.Machine.execSqrt e f s
  | .exp e f => Sys2Proof.Machine.execExp e f s
  | .log e f => Sys2Proof.Machine.execLog e f s
  | .sin e f => Sys2Proof.Machine.execSin e f s
  | .cos e f => Sys2Proof.Machine.execCos e f s
  | .atan2 e f => Sys2Proof.Machine.execAtan2 e f s
  | .vbcast e f => Sys2Proof.Machine.execVbcast e f s
  | .vld e f => Sys2Proof.Machine.execVld e f s
  | .vst e f => Sys2Proof.Machine.execVst e f s
  | .vldt e f => Sys2Proof.Machine.execVldt e f s
  | .vstt e f => Sys2Proof.Machine.execVstt e f s
  | .vtget e f => Sys2Proof.Machine.execVtget e f s
  | .vtput e f => Sys2Proof.Machine.execVtput e f s
  | .vperm e f => Sys2Proof.Machine.execVperm e f s
  | .vgather e f => Sys2Proof.Machine.execVgather e f s
  | .vscatter e f => Sys2Proof.Machine.execVscatter e f s
  | .vredt e f => Sys2Proof.Machine.execVredt e f s
  | .vsumm e f => Sys2Proof.Machine.execVsumm e f s
  | .vsetvl e f => Sys2Proof.Machine.execVsetvl e f s
  | .vsetbnd e f => Sys2Proof.Machine.execVsetbnd e f s
  | .vsetsr e f => Sys2Proof.Machine.execVsetsr e f s
  | .directInstrComplete e k => Sys2Proof.Machine.execDirectInstrComplete e k s
  | .elementProgram e p => Sys2Proof.Machine.execElementProgram e p s
  | .reduce e p => Sys2Proof.Machine.execReduce e p s
  | .bquant e p => Sys2Proof.Machine.execBquant e p s
  | .cquant e p => Sys2Proof.Machine.execCquant e p s
  | .dequant e p => Sys2Proof.Machine.execDequant e p s
  | .qacc e p => Sys2Proof.Machine.execQacc e p s
  | .vectorDescComplete e p k => Sys2Proof.Machine.execVectorDescComplete e p k s
  | .crc e => Sys2Proof.Machine.execCrc e s
  | .sum64 e => Sys2Proof.Machine.execSum64 e s
  | .fill e => Sys2Proof.Machine.execFill e s
  | .compare e => Sys2Proof.Machine.execCompare e s
  | .collimatorComplete e k => Sys2Proof.Machine.execCollimatorComplete e k s
  | .vecCntClr src e => Sys2Proof.Machine.execVecCntClr src e s
  | .program e => Sys2Proof.Machine.execProgram e s
  | .programComplete e => Sys2Proof.Machine.execProgramComplete e s
  | .load e q => Sys2Proof.Machine.execLoad e q s
  | .store e q => Sys2Proof.Machine.execStore e q s
  | .pload e q => Sys2Proof.Machine.execPload e q s
  | .pstore e q => Sys2Proof.Machine.execPstore e q s
  | .rmo e q => Sys2Proof.Machine.execRmo e q s
  | .streamDescComplete e q => Sys2Proof.Machine.execStreamDescComplete e q s
  | .queueAging e q => Sys2Proof.Machine.execQueueAging e q s
  | .prismCntClr src e => Sys2Proof.Machine.execPrismCntClr src e s
  | .carrierCfg pair => Sys2Proof.Machine.execCarrierCfg pair s
  | .carrierSwitch c => Sys2Proof.Machine.execCarrierSwitch c s
  | .blockDelivery port => Sys2Proof.Machine.execBlockDelivery port s
  | .rxWindowClose c n sym => Sys2Proof.Machine.execRxWindowClose c n sym s
  | .ulSlot pair => Sys2Proof.Machine.execUlSlot pair s
  | .dlSlot pair => Sys2Proof.Machine.execDlSlot pair s
  | .est e => Sys2Proof.Machine.execEst e s
  | .eq e => Sys2Proof.Machine.execEq e s
  | .dec e => Sys2Proof.Machine.execDec e s
  | .stageRerun => Sys2Proof.Machine.execStageRerun s
  | .slotPublish e k => Sys2Proof.Machine.execSlotPublish e k s
  | .tx e => Sys2Proof.Machine.execTx e s
  | .cplaneSend c n => Sys2Proof.Machine.execCplaneSend c n s
  | .uplaneSend c n ant sym complete => Sys2Proof.Machine.execUplaneSend c n ant sym complete s
  | .dlSlotComplete c n => Sys2Proof.Machine.execDlSlotComplete c n s
  | .facetFetch f => Sys2Proof.Machine.execFacetFetch f s
  | .ldpcDec f => Sys2Proof.Machine.execLdpcDec f s
  | .ldpcEnc f => Sys2Proof.Machine.execLdpcEnc f s
  | .polarDec f => Sys2Proof.Machine.execPolarDec f s
  | .polarEnc f => Sys2Proof.Machine.execPolarEnc f s
  | .tbcrc f => Sys2Proof.Machine.execTbcrc f s
  | .facetStatusRecord f => Sys2Proof.Machine.execFacetStatusRecord f s
  | .facetAging f q => Sys2Proof.Machine.execFacetAging f q s
  | .fctFlush src f q => Sys2Proof.Machine.execFctFlush src f q s
  | .fctCntClr src f => Sys2Proof.Machine.execFctCntClr src f s
  | .loadWeights pair => Sys2Proof.Machine.execLoadWeights pair s
  | .weightsCommit p => Sys2Proof.Machine.execWeightsCommit p s
  | .shadowConfig pair => Sys2Proof.Machine.execShadowConfig pair s
  | .shadowCapWindow => Sys2Proof.Machine.execShadowCapWindow s
  | .netTrial pair => Sys2Proof.Machine.execNetTrial pair s
  | .trialDecide e => Sys2Proof.Machine.execTrialDecide e s
  | .trialTimeout e => Sys2Proof.Machine.execTrialTimeout e s
  | .netRollback pair => Sys2Proof.Machine.execNetRollback pair s
  | .qTailWrite pair v => Sys2Proof.Machine.execQTailWrite pair v s
  | .commandAccept pair => Sys2Proof.Machine.execCommandAccept pair s
  | .qCheadWrite pair v => Sys2Proof.Machine.execQCheadWrite pair v s
  | .resume pair => Sys2Proof.Machine.execResume pair s
  | .qAdmEnable en => Sys2Proof.Machine.execQAdmEnable en s
  | .completionWrite pair => Sys2Proof.Machine.execCompletionWrite pair s
  | .nop pair => Sys2Proof.Machine.execNop pair s
  | .queueConfig pair => Sys2Proof.Machine.execQueueConfig pair s
  | .windowOpen pair => Sys2Proof.Machine.execWindowOpen pair s
  | .windowClose pair => Sys2Proof.Machine.execWindowClose pair s
  | .windowRead o len => Sys2Proof.Machine.execWindowRead o len s
  | .windowWrite o data => Sys2Proof.Machine.execWindowWrite o data s
  | .mbxPost src unit n => Sys2Proof.Machine.execMbxPost src unit n s
  | .mbxAck src unit n v => Sys2Proof.Machine.execMbxAck src unit n v s
  | .dbSet src unit v => Sys2Proof.Machine.execDbSet src unit v s
  | .partCreate pair => Sys2Proof.Machine.execPartCreate pair s
  | .partDestroy pair => Sys2Proof.Machine.execPartDestroy pair s
  | .jobLoad pair => Sys2Proof.Machine.execJobLoad pair s
  | .jobCmd pair => Sys2Proof.Machine.execJobCmd pair s
  | .jobUnload pair => Sys2Proof.Machine.execJobUnload pair s
  | .jobAbort pair => Sys2Proof.Machine.execJobAbort pair s
  | .commandStart p => Sys2Proof.Machine.execCommandStart p s
  | .commandCommit p => Sys2Proof.Machine.execCommandCommit p s
  | .ledgerCommit ok0 ok1 => Sys2Proof.Machine.execLedgerCommit ok0 ok1 s
  | .ledgerRead pair => Sys2Proof.Machine.execLedgerRead pair s
  | .mirrorStart pair => Sys2Proof.Machine.execMirrorStart pair s
  | .mirrorStop pair => Sys2Proof.Machine.execMirrorStop pair s
  | .mirrorFull len => Sys2Proof.Machine.execMirrorFull len s
  | .gap => Sys2Proof.Machine.execGap s
  | .replayStart pair => Sys2Proof.Machine.execReplayStart pair s
  | .replayHold => Sys2Proof.Machine.execReplayHold s
  | .replayRelease pair => Sys2Proof.Machine.execReplayRelease pair s
  | .eccWriteback => Sys2Proof.Machine.execEccWriteback s
  | .scrubRead unit => Sys2Proof.Machine.execScrubRead unit s
  | .hbmRefresh st => Sys2Proof.Machine.execHbmRefresh st s
  | .eccInjArm src unit v => Sys2Proof.Machine.execEccInjArm src unit v s
  | .eccCntClr src unit => Sys2Proof.Machine.execEccCntClr src unit s
  | .ucieRetry ns => Sys2Proof.Machine.execUcieRetry ns s
  | .ucieRetrain => Sys2Proof.Machine.execUcieRetrain s
  | .ucieRetrainEnd ok tests => Sys2Proof.Machine.execUcieRetrainEnd ok tests s
  | .fhConfig pair => Sys2Proof.Machine.execFhConfig pair s
  | .ptpConfig pair => Sys2Proof.Machine.execPtpConfig pair s
  | .portLinkChange port up => Sys2Proof.Machine.execPortLinkChange port up s
  | .frameReceive port frame good t tx => Sys2Proof.Machine.execFrameReceive port frame good t tx s
  | .storedFrameSend port tx => Sys2Proof.Machine.execStoredFrameSend port tx s
  | .fhCntClr src port => Sys2Proof.Machine.execFhCntClr src port s
  | .ptpSecLatch => Sys2Proof.Machine.execPtpSecLatch s
  | .ptpAdj src v => Sys2Proof.Machine.execPtpAdj src v s
  | .slewEnd => Sys2Proof.Machine.execSlewEnd s
  | .ptpHold src hold => Sys2Proof.Machine.execPtpHold src hold s
  | .triggerFire time addr stream tinc => Sys2Proof.Machine.execTriggerFire time addr stream tinc s
  | .ppsOut => Sys2Proof.Machine.execPpsOut s
  | .todSend => Sys2Proof.Machine.execTodSend s
  | .ppsIn t => Sys2Proof.Machine.execPpsIn t s
  | .brvConfig pair => Sys2Proof.Machine.execBrvConfig pair s
  | .brvLinkUp port nbr size id major => Sys2Proof.Machine.execBrvLinkUp port nbr size id major s
  | .brvLinkTimeout port => Sys2Proof.Machine.execBrvLinkTimeout port s
  | .routeChange => Sys2Proof.Machine.execRouteChange s
  | .transit port vc op h payload => Sys2Proof.Machine.execTransit port vc op h payload s
  | .brvReplay port crc ns => Sys2Proof.Machine.execBrvReplay port crc ns s
  | .brvRetrain port => Sys2Proof.Machine.execBrvRetrain port s
  | .brvRetrainEnd port ok => Sys2Proof.Machine.execBrvRetrainEnd port ok s
  | .brvLinkDown port => Sys2Proof.Machine.execBrvLinkDown port s
  | .brvCntClr src port => Sys2Proof.Machine.execBrvCntClr src port s
  | .modConfig pair => Sys2Proof.Machine.execModConfig pair s
  | .jesdLinkLoss => Sys2Proof.Machine.execJesdLinkLoss s
  | .periscopeDetect c dets t blocks => Sys2Proof.Machine.execPeriscopeDetect c dets t blocks s
  | .syncFound c word t => Sys2Proof.Machine.execSyncFound c word t s
  | .syncTimeout c => Sys2Proof.Machine.execSyncTimeout c s
  | .rxRecord c frame rssi fofs blocks => Sys2Proof.Machine.execRxRecord c frame rssi fofs blocks s
  | .modTxFetch c => Sys2Proof.Machine.execModTxFetch c s
  | .txBurstStart c mask => Sys2Proof.Machine.execTxBurstStart c mask s
  | .txBurstComplete c t sat => Sys2Proof.Machine.execTxBurstComplete c t sat s
  | .modCntClr src => Sys2Proof.Machine.execModCntClr src s
  | .romLoad => Sys2Proof.Machine.execRomLoad s
  | .fwLoad pair tests => Sys2Proof.Machine.execFwLoad pair tests s
  | .attest pair => Sys2Proof.Machine.execAttest pair s
  | .alarmCfg pair holding => Sys2Proof.Machine.execAlarmCfg pair holding s
  | .alarm sources => Sys2Proof.Machine.execAlarm sources s
  | .smbusBlockRead code => Sys2Proof.Machine.execSmbusBlockRead code s
  | .por cap smb test tests => Sys2Proof.Machine.execPor cap smb test tests s
  | .pinReset tests => Sys2Proof.Machine.execPinReset tests s
  | .hostWarmReset src pair tests => Sys2Proof.Machine.execHostWarmReset src pair tests s
  | .computeReset pair tests => Sys2Proof.Machine.execComputeReset pair tests s
  | .partitionReset pair => Sys2Proof.Machine.execPartitionReset pair s
  | .engineReset pair => Sys2Proof.Machine.execEngineReset pair s
  | .perstAssert => Sys2Proof.Machine.execPerstAssert s
  | .perstRelease => Sys2Proof.Machine.execPerstRelease s
  | .pwrGoodFall => Sys2Proof.Machine.execPwrGoodFall s
  | .thermtrip mdeg => Sys2Proof.Machine.execThermtrip mdeg s
  | .powerCap pair => Sys2Proof.Machine.execPowerCap pair s
  | .capSwitch quiet => Sys2Proof.Machine.execCapSwitch quiet s
  | .powerWindow watts => Sys2Proof.Machine.execPowerWindow watts s
  | .eIdleEntry e => Sys2Proof.Machine.execEIdleEntry e s
  | .powerUpGrant => Sys2Proof.Machine.execPowerUpGrant s
  | .dIdleExit => Sys2Proof.Machine.execDIdleExit s
  | .perfProgram pair => Sys2Proof.Machine.execPerfProgram pair s
  | .perfClear pair => Sys2Proof.Machine.execPerfClear pair s
  | .perfFreeze pair => Sys2Proof.Machine.execPerfFreeze pair s
  | .perfRun pair => Sys2Proof.Machine.execPerfRun pair s
  | .perfSnapshot pair => Sys2Proof.Machine.execPerfSnapshot pair s
  | .pmcClr src unit n v => Sys2Proof.Machine.execPmcClr src unit n v s
  | .pmcLoLatch unit n k => Sys2Proof.Machine.execPmcLoLatch unit n k s
  | .loupeCfg pair => Sys2Proof.Machine.execLoupeCfg pair s
  | .loupeRecord e k issue ready start commit => Sys2Proof.Machine.execLoupeRecord e k issue ready start commit s
  | .tapReset => Sys2Proof.Machine.execTapReset s
  | .idcode => Sys2Proof.Machine.execIdcode s
  | .samplePreload balls cells => Sys2Proof.Machine.execSamplePreload balls cells s
  | .extest balls cells => Sys2Proof.Machine.execExtest balls cells s
  | .clamp => Sys2Proof.Machine.execClamp s
  | .highz => Sys2Proof.Machine.execHighz s
  | .debug => Sys2Proof.Machine.execDebug s
  | .bypass code => Sys2Proof.Machine.execBypass code s
  | .registerWrite src unit off v => Sys2Proof.Machine.execRegisterWrite src unit off v s
  | .jesdLinkAlign => Sys2Proof.Machine.execJesdLinkAlign s
  | .transmitLinkLoss => Sys2Proof.Machine.execTransmitLinkLoss s
  | .selfRefreshReturn st => Sys2Proof.Machine.execSelfRefreshReturn st s
  | .busMasterEnable => Sys2Proof.Machine.execBusMasterEnable s
  | .todReceive sentence => Sys2Proof.Machine.execTodReceive sentence s
  | .ptpEgress port frame t => Sys2Proof.Machine.execPtpEgress port frame t s
  | .counterOverflow unit n k => Sys2Proof.Machine.execCounterOverflow unit n k s
  | .facetShareWindow => Sys2Proof.Machine.execFacetShareWindow s
  | .replayRecord => Sys2Proof.Machine.execReplayRecord s

end Sys2Proof.Machine
end

