-- ==== Sys2Proof/Safety.lean ====
section
/-! DEFINITION. What a safe run is, and the terms in which the statements speak: when a sequencer's instruction issues, and what a
command leaves unchanged. -/
namespace Sys2Proof

/-- A state from which one step answers a next state. -/
def StepsOn (s : Machine.State) : Prop := ∃ t, Machine.step s = .next t

end Sys2Proof

namespace Sys2Proof.Machine

/-- The next instruction of engine `e` issues: its sequencer is RUNNING and the fetch passes (R88, Table 3.10). -/
def State.issues (s : State) (e : Fin 8) : Prop :=
  s.eng[e].state = .running ∧ s.pcOk e = true ∧ (s.check (key e s.eng[e].pc.toNat) 8).2 = true

/-- What the fetch of an instruction with code `code` leaves: a correction counted and queued for write-back, the instruction counted and
perhaps tagged. -/
def State.fetched (s : State) (e : Fin 8) (code : Nat) : State :=
  (s.check (key e s.eng[e].pc.toNat) 8).1.tagInstr e code

/-- From `s` to `t` no byte of any memory has changed as a read gives it. -/
def SameBytes (s t : State) : Prop := (∀ a, t.byte a = s.byte a) ∧ t.host = s.host

/-- No code block holds a bad bit and no unit has an armed injection (R432 to R434, R461): reads and writes of memory go through. -/
def State.clean (s : State) : Prop := s.ecc = [] ∧ ∀ u, s.fld (key u (CTL + 0x11C)) 3 3 = 0

/-- From `s` to `t` only engine `e` itself has changed, and of the registers only the error counts and records of R432 to R439 and Loupe's
count of missed tags: no byte of memory, no other engine, no operation of the fabric and no accepted command. -/
structure SeqFrame (s t : State) (e : Fin 8) : Prop where
  bytes : SameBytes s t
  others : ∀ j, j ≠ e → t.eng[j] = s.eng[j]
  reg : ∀ a, a % 2 ^ 52 < CTL + 0x100 ∨ CTL + 0x114 ≤ a % 2 ^ 52 → a ≠ loupeKey e 0x20 → t.reg a = s.reg a
  fab : t.fab = s.fab
  cmds : t.cmds = s.cmds
  clock : t.clock = s.clock
  fresh : t.fresh = s.fresh

/-- The engine's queues, descriptors, vector unit, tiles and power are the same: what a scalar instruction leaves of its own engine beside
registers, PC and state. -/
structure SameUnits (a b : Engine) : Prop where
  queue : b.queue = a.queue
  started : b.started = a.started
  vreg : b.vreg = a.vreg
  treg : b.treg = a.treg
  vl : b.vl = a.vl
  vbound : b.vbound = a.vbound
  srbase : b.srbase = a.srbase
  tiles : b.tiles = a.tiles
  ranks : b.ranks = a.ranks
  power : b.power = a.power
  cmd : b.cmd = a.cmd
  kill : b.kill = a.kill

/-- Registers, PC and all else that an instruction of engine `e` that writes `v` to X[xd] and runs on leaves (R87: X0 stays 0). -/
def SeqWrites (s : State) (o : Out) (e : Fin 8) (xd : BitVec 5) (v : Word) : Prop :=
  ∃ t, o = .next t ∧ SeqFrame s t e ∧ SameUnits s.eng[e] t.eng[e] ∧ t.eng[e].state = .running ∧ t.eng[e].wait = s.eng[e].wait
    ∧ t.eng[e].pc = s.eng[e].pc + 8 ∧ ∀ r, t.eng[e].rx r = if r = xd ∧ r ≠ 0 then v else s.eng[e].rx r

/-- The same of an instruction that leaves every register and moves the PC to `pc`. -/
def SeqMoves (s : State) (o : Out) (e : Fin 8) (pc : Word) : Prop :=
  ∃ t, o = .next t ∧ SeqFrame s t e ∧ SameUnits s.eng[e] t.eng[e] ∧ t.eng[e].state = .running ∧ t.eng[e].wait = s.eng[e].wait
    ∧ t.eng[e].pc = pc ∧ ∀ r, t.eng[e].rx r = s.eng[e].rx r

/-- The sequencer of engine `e` waits for `w` from now on, its registers and PC unchanged. -/
def SeqWaits (s : State) (o : Out) (e : Fin 8) (w : Wait) : Prop :=
  ∃ t, o = .next t ∧ SeqFrame s t e ∧ SameUnits s.eng[e] t.eng[e] ∧ t.eng[e].state = .waiting ∧ t.eng[e].wait = w
    ∧ t.eng[e].waitSince = s.clock.aclk ∧ t.eng[e].pc = s.eng[e].pc ∧ ∀ r, t.eng[e].rx r = s.eng[e].rx r

end Sys2Proof.Machine
end

