-- ==== Sys2Proof/Certificates/Slice0/Obligations.lean ====
section
/-! DEFINITION. The statements for the provers. -/

open Sys2Proof Sys2Proof.Machine


/-- For every state: with command c at the front of its queue, step is exec of c on the state whose queue is the rest; with an empty queue, step answers the same state. The queue and the idle step are the model's own (the block takes its commands from outside). [The block's command queue (NOTES.md, Scope)] -/
def Obligations.StepRunsTheFrontCommand : Prop :=
  (∀ (c : Instr) (rest : List Instr) (s : State), s.pending = c :: rest → step s = exec c { s with pending := rest }) ∧
  (∀ s : State, s.pending = [] → step s = .next s)

/-- In the state after reset every byte of memory reads 0; ENG_BLOCK_LIMIT, STRM_AGE, DB_MASK and the EBITS of every fill group of every engine, FCT_AGE of every decoder, FH_n_VLAN of every port, PLEN and MOD_c_TXAMP of every modem channel, FAB_DEVID, FAB_MCG_n_CFG, PWR_IDLE and the number of stages that ISTEP gives hold the tables' values; no command waits; and each sparse map has strictly rising keys and lists nothing equal to what an unlisted key reads as. The queue and the canonical form are the model's own. [Table 2.15; Table 2.16; Table 3.13; Table 9.7; Table 9.8; Table 11.12; Table 13.13; Table 17.6; Table 19.5; Table 21.7; Table 21.10] -/
def Obligations.ResetIsCanonical : Prop :=
  State.reset.canonical = true ∧ State.reset.pending = [] ∧ (∀ a, State.reset.byte a = 0) ∧
  (∀ e : Fin 8, State.reset.regN (key e.val (CTU + 0x24)) = 0xFFFFFFFF ∧ State.reset.regN (key e.val (CTU + 0x4000C)) = 0x1000 ∧
    State.reset.regN (key e.val (CTL + 0x301008)) = 0xFFFFFFFF ∧
    ∀ g : Fin 8, State.reset.regN (key e.val (CTU + 0x4010C + 16 * g.val)) = 2) ∧
  (∀ f : Fin 8, State.reset.regN (key (0x10 + f.val) (CTU + 8)) = 0x1000) ∧
  (∀ p : Fin 16, State.reset.regN (key (0x20 + p.val) (CTU + 0x20)) = 0x7000) ∧
  (∀ c : Fin 8, State.reset.fld (chKey c.val 0) 27 20 = 32 ∧ State.reset.regN (chKey c.val 0xC) = 0x4000) ∧
  State.reset.regN (key 0x60 (CTL + 0x1000)) = 0x10 ∧
  (∀ n : Fin 32, State.reset.regN (key 0x60 (CTL + 0x1104 + 16 * n.val)) = 0x04000000) ∧
  State.reset.powerStages = 3 ∧ State.reset.regN (pwrKey 0x10C) = 0x100

/-- For every state in canonical form, if step answers a next state then that state is in canonical form too: equal memories stay equal data whatever command runs. [Chapter 2 (address map); Chapter 16 (memory)] -/
def Obligations.EveryStepKeepsCanonicalForm : Prop :=
  ∀ s t : State, s.canonical = true → step s = .next t → t.canonical = true

/-- For every command and every state, exec answers a next state; in it the queue of waiting commands is the same, the fused grade, suffix, disabled-unit map and serial number are the same, and the anti-rollback counter has not fallen. [R3; R530; Table 21.7] -/
def Obligations.EveryCommandAnswersAndKeepsTheFuses : Prop :=
  ∀ (c : Instr) (s : State), ∃ t, exec c s = .next t ∧ t.pending = s.pending
    ∧ t.fuse.gradeA = s.fuse.gradeA ∧ t.fuse.xSuffix = s.fuse.xSuffix ∧ t.fuse.dismap = s.fuse.dismap
    ∧ t.fuse.serial = s.fuse.serial ∧ s.fuse.svn ≤ t.fuse.svn

/-- For every engine, every legal scalar instruction and every state in which the instruction issues: ADD, SUB, AND, OR, XOR, SHL, SHR, SRA, MUL, MOVHI, SLT, SLTU and SEQ answer a next state in which X[XD] holds the value of Table 3.5 (X0 stays 0), every other register is unchanged, the PC has moved on by 8, and no byte of memory, no other engine, no unit register but the error and Loupe counts of the fetch, and no operation of the fabric has changed. [R87; R93; Table 3.5] -/
def Obligations.ScalarOperationsWriteXd : Prop :=
  ∀ (e : Fin 8) (f : ScalarF) (s : State), s.issues e → f.rsv = 0 →
    let a := s.eng[e].rx f.xa
    let b := s.eng[e].rx f.xb
    let i := f.imm.signExtend 64
    let lb := if f.imm = 0 then b else i
    let n := (b + i).toNat % 64
    SeqWrites s (exec (.scAdd e f) s) e f.xd (a + b + i) ∧
    SeqWrites s (exec (.scSub e f) s) e f.xd (a - b) ∧
    SeqWrites s (exec (.scAnd e f) s) e f.xd (a &&& lb) ∧
    SeqWrites s (exec (.scOr e f) s) e f.xd (a ||| lb) ∧
    SeqWrites s (exec (.scXor e f) s) e f.xd (a ^^^ lb) ∧
    SeqWrites s (exec (.scShl e f) s) e f.xd (a <<< n) ∧
    SeqWrites s (exec (.scShr e f) s) e f.xd (a >>> n) ∧
    SeqWrites s (exec (.scSra e f) s) e f.xd (a.sshiftRight n) ∧
    SeqWrites s (exec (.scMul e f) s) e f.xd (a * b) ∧
    SeqWrites s (exec (.scMovhi e f) s) e f.xd (f.imm ++ (s.eng[e].rx f.xd).extractLsb' 0 32) ∧
    SeqWrites s (exec (.scSlt e f) s) e f.xd (if a.toInt < b.toInt then 1 else 0) ∧
    SeqWrites s (exec (.scSltu e f) s) e f.xd (if a.toNat < b.toNat then 1 else 0) ∧
    SeqWrites s (exec (.scSeq e f) s) e f.xd (if a = b then 1 else 0)

/-- For every engine, every legal branch and every state in which it issues: B, BEQ, BNE, BLT and BGE answer a next state whose PC is PC + 8 × IMM (sign-extended, modulo 2^64) when the named comparison of XA with XB holds (BLT and BGE signed) and PC + 8 otherwise; every register, every byte of memory and every other engine is unchanged. [R93; R95; Table 3.5] -/
def Obligations.ScalarBranchesMoveThePc : Prop :=
  ∀ (e : Fin 8) (f : ScalarF) (s : State), s.issues e → f.rsv = 0 →
    let a := s.eng[e].rx f.xa
    let b := s.eng[e].rx f.xb
    let target := fun (c : Bool) => if c then s.eng[e].pc + 8 * f.imm.signExtend 64 else s.eng[e].pc + 8
    SeqMoves s (exec (.scB e f) s) e (target true) ∧
    SeqMoves s (exec (.scBeq e f) s) e (target (decide (a = b))) ∧
    SeqMoves s (exec (.scBne e f) s) e (target (decide (a ≠ b))) ∧
    SeqMoves s (exec (.scBlt e f) s) e (target (decide (a.toInt < b.toInt))) ∧
    SeqMoves s (exec (.scBge e f) s) e (target (decide (b.toInt ≤ a.toInt)))

/-- For every engine, legal instruction and state in which it issues: MOVSUM writes to X[XD] field XB[2:0] of summary slot XA[2:0] (0 for fields 4 to 7), and BSUM moves the PC by 8 × IMM[23:0] (signed) when the condition IMM[31:24] holds on that slot, else by 8. That XA and XB stand for the registers' values is the model's reading (log 12). [R95; Table 3.5; Table 3.2] -/
def Obligations.SummaryReadsAndBranches : Prop :=
  ∀ (e : Fin 8) (f : ScalarF) (s : State), s.issues e → f.rsv = 0 →
    let k := (s.eng[e].rx f.xa).toNat % 8
    let j := (s.eng[e].rx f.xb).toNat % 8
    SeqWrites s (exec (.scMovsum e f) s) e f.xd (if j < 4 then (s.reg (sumKey e k + 4 * j)).setWidth 64 else 0) ∧
    (f.imm.toNat < 2 ^ 28 →
      SeqMoves s (exec (.scBsum e f) s) e
        (if bsumCond (s.summary e k) (f.imm.toNat / 2 ^ 24) ((s.eng[e].rx f.xb).toNat % 2 ^ 32)
          then s.eng[e].pc + 8 * (f.imm.extractLsb' 0 24).signExtend 64 else s.eng[e].pc + 8))

/-- For every engine, legal LD or ST and state in which it issues, with offset o = XA + IMM (64 bits): if o is a multiple of 8 inside the scratchpad and the 8 bytes' code blocks hold no bad bit, LD writes those bytes to X[XD], and ST leaves every byte of memory as a read gives it except bytes o to o + 7 of the engine's scratchpad, which hold XB least significant byte first; if o names a PRISM_FG register, ST writes XB[31:0] there and no byte of memory changes. Registers other than XD, other engines and host memory are unchanged and the PC advances by 8. [R94; R432; Table 3.5] -/
def Obligations.ScalarLoadsAndStores : Prop :=
  ∀ (e : Fin 8) (f : ScalarF) (s : State), s.issues e → f.rsv = 0 →
    let o := (s.eng[e].rx f.xa + f.imm.signExtend 64).toNat
    let v := s.eng[e].rx f.xb
    (o % 8 = 0 → o + 8 ≤ SPAD → s.dirtyBlocks (key e o) 8 = [] →
      SeqWrites s (exec (.scLd e f) s) e f.xd (BitVec.ofNat 64 (leNat (s.bytes (key e o) 8))) ∧
      ∃ t, exec (.scSt e f) s = .next t ∧ t.host = s.host ∧ t.eng[e].pc = s.eng[e].pc + 8
        ∧ (∀ c, t.byte c = if key e o ≤ c ∧ c < key e o + 8 then BitVec.ofNat 8 (v.toNat / 256 ^ (c - key e o)) else s.byte c)
        ∧ (∀ r, t.eng[e].rx r = s.eng[e].rx r) ∧ (∀ j, j ≠ e → t.eng[j] = s.eng[j])
        ∧ (∀ a, a % 2 ^ 52 < CTL + 0x100 ∨ CTL + 0x114 ≤ a % 2 ^ 52 → a ≠ loupeKey e 0x20 → t.reg a = s.reg a)) ∧
    (o % 4 = 0 → 0xFFFFFFF440100 ≤ o → o ≤ 0xFFFFFFF44017F →
      ∃ t, exec (.scSt e f) s = .next t ∧ SameBytes s t ∧ t.eng[e].pc = s.eng[e].pc + 8
        ∧ t.reg (key e o) = v.setWidth 32
        ∧ (∀ r, t.eng[e].rx r = s.eng[e].rx r) ∧ (∀ j, j ≠ e → t.eng[j] = s.eng[j])
        ∧ (∀ a, a % 2 ^ 52 < CTL + 0x100 ∨ CTL + 0x114 ≤ a % 2 ^ 52 → a ≠ loupeKey e 0x20 → a ≠ key e o → t.reg a = s.reg a))

/-- What an ISSUE of class `cls` that finds room leaves. -/
def Issued (s : State) (o : Out) (e : Fin 8) (cls : BitVec 3) (f : IssueF) : Prop :=
  ∃ t, o = .next t ∧ SeqFrame s t e ∧ t.eng[e].state = .running ∧ t.eng[e].wait = .none ∧ t.eng[e].pc = s.eng[e].pc + 8
    ∧ (∀ r, t.eng[e].rx r = s.eng[e].rx r) ∧ t.eng[e].started = s.eng[e].started
    ∧ t.eng[e].queue = s.eng[e].queue ++ [⟨issueQueue cls f.queue.toNat, s.eng[e].nextId, f.tctr,
        (descOff s.eng[e] f).toNat, s.bytes (key e (descOff s.eng[e] f).toNat) 64, none⟩]

/-- For every engine, class (stream, array, vector, signal), legal ISSUE and state in which it issues, whose descriptor offset o = XDESC + 64 × DOFF is a multiple of 64 inside the scratchpad with clean code blocks (and, for the stream class, whose queue the engine's partition may use): with room in the queue the next state has the descriptor's 64 bytes with TCTR and o at the end of the engine's queue, the PC 8 further and all else of the frame unchanged; without room the sequencer waits for that issue, and the release row does the same copy once there is room. [R96; R97; R98; Table 3.6] -/
def Obligations.IssueQueuesTheDescriptor : Prop :=
  ∀ (e : Fin 8) (f : IssueF) (s : State) (cls : BitVec 3) (c : Instr),
    (cls, c) ∈ [(1, .streamIssue e f), (2, .arrayIssue e f), (3, .vectorIssue e f), (4, .signalIssue e f)] →
    let o := (descOff s.eng[e] f).toNat
    issueLegal cls f = true → o % 64 = 0 → o + 64 ≤ SPAD → s.dirtyBlocks (key e o) 64 = [] →
    (cls = 1 → s.queueOk e f.queue.toNat = true) →
    (s.issues e → s.room e (issueQueue cls f.queue.toNat) = true → Issued s (exec c s) e cls f) ∧
    (s.issues e → s.room e (issueQueue cls f.queue.toNat) = false → SeqWaits s (exec c s) e (.issue cls f)) ∧
    (s.eng[e].state = .waiting → s.eng[e].wait = .issue cls f → s.room e (issueQueue cls f.queue.toNat) = true →
      Issued s (exec (.issueStallRelease e) s) e cls f)

/-- For every engine, sync instruction with XD 0 and state in which it issues: NOP moves the PC by 8; WAIT does when the counter minus the threshold (XA + IMM) mod 2^32 is below 2^31, else the sequencer waits for it; FENCE does when no descriptor of the engine is queued or in progress, else waits; END then makes the engine IDLE with the command ended, else waits. No register, byte of memory or other engine changes. [R101; R102; Table 3.9] -/
def Obligations.SyncInstructionsWaitOrProceed : Prop :=
  ∀ (e : Fin 8) (f : SyncF) (s : State), s.issues e → f.xd = 0 →
    let next := s.eng[e].pc + 8
    let thr := (s.eng[e].rx f.xa + f.imm.setWidth 64).setWidth 32
    let up := (s.tok e.val f.tctr.toNat - thr).toNat < 2 ^ 31
    let quiet := s.eng[e].queue = [] ∧ s.eng[e].started = []
    SeqMoves s (exec (.syNop e f) s) e next ∧
    (up → SeqMoves s (exec (.syWait e f) s) e next) ∧
    (¬ up → SeqWaits s (exec (.syWait e f) s) e (.token f.tctr thr)) ∧
    (quiet → SeqMoves s (exec (.syFence e f) s) e next) ∧
    (¬ quiet → SeqWaits s (exec (.syFence e f) s) e .fence) ∧
    (quiet → ∃ t, exec (.syEnd e f) s = .next t ∧ SeqFrame s t e ∧ t.eng[e].state = .idle ∧ t.eng[e].ended = true
      ∧ t.eng[e].pc = next ∧ t.eng[e].cmd = s.eng[e].cmd ∧ ∀ r, t.eng[e].rx r = s.eng[e].rx r) ∧
    (¬ quiet → SeqWaits s (exec (.syEnd e f) s) e .endCmd)

/-- For every engine, sync instruction and state in which it issues: SIG puts a SIGNAL with its counter, stream and increment at the end of the fabric's waiting operations; WAITDB returns the raised unmasked doorbell bits in XD and clears them, or waits while there are none; WAITT gives 0 in XD when its threshold is reached, 1 when X[XD] is 0 and it is not, else waits with X[XD] as its limit; TRAP stops the engine with cause SOFT and its 16-bit detail in ENG_TRAP when no trap is recorded there. [R101; R103; R104; R112; R381; Table 3.9; Table 3.10] -/
def Obligations.SyncInstructionsThatActOutside : Prop :=
  ∀ (e : Fin 8) (f : SyncF) (s : State), s.issues e →
    let next := s.eng[e].pc + 8
    let thr := (s.eng[e].rx f.xa + f.imm.setWidth 64).setWidth 32
    let up := (s.tok e.val f.tctr.toNat - thr).toNat < 2 ^ 31
    let n := s.eng[e].rx f.xd
    let db := s.reg (dbRaw e.val) &&& ~~~(s.reg (dbMask e.val))
    (f.xd = 0 → ∃ t x, exec (.sySig e f) s = .next t ∧ t.fab.waiting = s.fab.waiting ++ [x] ∧ x.op = .signal
      ∧ x.hdr.tctr = f.tctr ∧ x.hdr.stream = f.imm.extractLsb' 16 16 ∧ x.hdr.tinc = f.imm.extractLsb' 0 16 ∧ x.hdr.srcUnit.toNat = e.val
      ∧ t.eng[e].pc = next ∧ (∀ r, t.eng[e].rx r = s.eng[e].rx r) ∧ SameBytes s t) ∧
    (db = 0 → SeqWaits s (exec (.syWaitdb e f) s) e (.doorbell f.xd)) ∧
    (db ≠ 0 → ∃ t, exec (.syWaitdb e f) s = .next t ∧ t.eng[e].pc = next ∧ t.reg (dbRaw e.val) = s.reg (dbRaw e.val) &&& ~~~db
      ∧ (∀ r, t.eng[e].rx r = if r = f.xd ∧ r ≠ 0 then db.setWidth 64 else s.eng[e].rx r) ∧ SameBytes s t) ∧
    (up ∨ n = 0 → ∃ t, exec (.syWaitt e f) s = .next t ∧ t.eng[e].pc = next ∧ t.eng[e].state = .running
      ∧ ∀ r, t.eng[e].rx r = if r = f.xd ∧ r ≠ 0 then (if up then 0 else 1) else s.eng[e].rx r) ∧
    (¬ up → n ≠ 0 → SeqWaits s (exec (.syWaitt e f) s) e (.tokenLimit f.tctr thr f.xd n)) ∧
    (f.xd = 0 → s.fld (key e (CTU + 0x1C)) 8 8 = 0 →
      ∃ t, exec (.syTrap e f) s = .next t ∧ t.eng[e].state = .trapped
        ∧ t.regN (key e (CTU + 0x1C)) = 0x109 + f.imm.toNat % 2 ^ 16 * 2 ^ 16
        ∧ t.regN (key e (CTU + 0x20)) = s.eng[e].pc.toNat % 2 ^ 26)

/-- For every engine and waiting state: WAIT_SATISFIED ends a WAIT whose counter has reached its threshold (PC + 8), and a WAITT likewise with 0 in its register; WAITT_GIVE_UP ends a WAITT whose counter has not with 1 there; FENCE_RELEASE ends a FENCE, and an END by making the engine IDLE, once no descriptor is left; WAITDB_WAKE ends a WAITDB with the raised bits, which it clears. Each leaves the count of the waited cycles in ENG_BLOCK_CYC (or, for END, does not) and no byte of memory changed. [R101; R102; R103; R105] -/
def Obligations.WaitsEndWhenTheirConditionHolds : Prop :=
  ∀ (e : Fin 8) (s : State), s.eng[e].state = .waiting →
    let next := s.eng[e].pc + 8
    let up := fun (k : BitVec 12) (thr : BitVec 32) => (s.tok e.val k.toNat - thr).toNat < 2 ^ 31
    let quiet := s.eng[e].queue = [] ∧ s.eng[e].started = []
    let ends := fun (o : Out) (xd : BitVec 5) (v : Word) => ∃ t, o = .next t ∧ t.eng[e].state = .running ∧ t.eng[e].wait = .none
      ∧ t.eng[e].pc = next ∧ (∀ r, t.eng[e].rx r = if r = xd ∧ r ≠ 0 then v else s.eng[e].rx r) ∧ SameBytes s t
    let db := s.reg (dbRaw e.val) &&& ~~~(s.reg (dbMask e.val))
    (∀ k thr, s.eng[e].wait = .token k thr → up k thr → ends (exec (.waitSatisfied e) s) 0 0) ∧
    (∀ k thr xd n, s.eng[e].wait = .tokenLimit k thr xd n → up k thr → ends (exec (.waitSatisfied e) s) xd 0) ∧
    (∀ k thr xd n, s.eng[e].wait = .tokenLimit k thr xd n → ¬ up k thr → ends (exec (.waittGiveUp e) s) xd 1) ∧
    (s.eng[e].wait = .fence → quiet → ends (exec (.fenceRelease e) s) 0 0) ∧
    (s.eng[e].wait = .endCmd → quiet → ∃ t, exec (.fenceRelease e) s = .next t ∧ t.eng[e].state = .idle ∧ t.eng[e].ended = true) ∧
    (∀ xd, s.eng[e].wait = .doorbell xd → db ≠ 0 → ends (exec (.waitdbWake e) s) xd (db.setWidth 64))

/-- For every present engine that is not in E-OFF: a write of ENG_CTL.RUN by the anchor to an IDLE engine starts it at ENG_CODE_BASE + ENG_ENTRY with every scalar register 0, to a HALTED engine makes it RUNNING; HALT makes a RUNNING engine HALTED, its PC and registers as they were; KILL makes a RUNNING engine KILLING; and KILL_COMPLETE then makes it IDLE. A write by any other unit changes no engine's state: it comes back as an ACCESS failure. [R87; R106; R107; R109; R110; R111] -/
def Obligations.AnchorRunsHaltsAndKills : Prop :=
  ∀ (e : Fin 8) (s : State), s.engPresent e = true →
    (s.eng[e].state = .idle → ∃ t, exec (.engRun 0x60 e) s = .next t ∧ t.eng[e].state = .running ∧ (∀ r, t.eng[e].rx r = 0)
      ∧ t.eng[e].pc.toNat = s.fld (key e (CTU + 0xC)) 25 0 + s.fld (key e (CTU + 0x14)) 25 0 ∧ SameBytes s t) ∧
    (s.eng[e].state = .halted → ∃ t, exec (.engRun 0x60 e) s = .next t ∧ t.eng[e].state = .running ∧ t.eng[e].pc = s.eng[e].pc
      ∧ (∀ r, t.eng[e].rx r = s.eng[e].rx r) ∧ SameBytes s t) ∧
    (s.eng[e].state = .running → ∃ t, exec (.engHalt 0x60 e) s = .next t ∧ t.eng[e].state = .halted ∧ t.eng[e].pc = s.eng[e].pc
      ∧ (∀ r, t.eng[e].rx r = s.eng[e].rx r) ∧ SameBytes s t) ∧
    (s.eng[e].state = .running → ∃ t, exec (.engKill 0x60 e) s = .next t ∧ t.eng[e].state = .killing) ∧
    (s.eng[e].state = .killing → ∃ t, exec (.killComplete e) s = .next t ∧ t.eng[e].state = .idle) ∧
    (∀ src : BitVec 8, src ≠ 0x60 → ∀ c ∈ [Instr.engRun src e, .engHalt src e, .engKill src e],
      ∃ t x, exec c s = .next t ∧ t.eng[e].state = s.eng[e].state ∧ t.eng[e].x = s.eng[e].x ∧ t.eng[e].pc = s.eng[e].pc
        ∧ t.fab.errs = s.fab.errs ++ [x] ∧ x.unit = src.toNat ∧ x.cause = 7)

/-- For every engine: TRAP_ABORT_END on a TRAPPED engine whose abort is in progress ends the abort, and takes the engine to IDLE when a KILL was written meanwhile; OVERBLOCK in a WAIT whose limit is not 0xFFFFFFFF sets ENG_STATUS.OVERBLOCK, and changes no engine when that engine is REALTIME or runs no command. [R105; R112] -/
def Obligations.StopsOfAnEngineEnd : Prop :=
  ∀ (e : Fin 8) (s : State),
    (s.eng[e].state = .trapped → s.eng[e].aborting = true →
      ∃ t, exec (.trapAbortEnd e) s = .next t ∧ t.eng[e].aborting = false
        ∧ t.eng[e].state = if s.eng[e].killReq then .idle else .trapped) ∧
    (∀ k thr, s.eng[e].state = .waiting → s.eng[e].wait = .token k thr →
      (s.eng[e].cmd = none ∨ s.isRealtime (s.ownerPart e) = true) →
      s.regN (key e (CTU + 0x24)) ≠ 0xFFFFFFFF → s.fld (key e (CTU + 8)) 3 3 = 0 →
      ∃ t, exec (.overblock e) s = .next t ∧ t.fld (key e (CTU + 8)) 3 3 = 1 ∧ t.eng = s.eng ∧ SameBytes s t)

/-- The command answers a next state in which the registers `ks` read 0 and all other registers and memory are as before. -/
def ClearsOnly (s : State) (c : Instr) (ks : List Nat) : Prop :=
  ∃ t, exec c s = .next t ∧ (∀ k, t.regN k = if k ∈ ks then 0 else s.regN k) ∧ SameBytes s t

/-- For every state and every unit that answers the anchor: ARR_CLR.CLAMP, VEC_QNT_CLR, VEC_CNT_CLR, PRISM_CNT_CLR, FCT_CNT_CLR, FAB_ECC_STATUS.CNT_CLR, FH_n_CNT_CLR, BRV_n_CNT_CLR and MOD_CNT_CLR answer a next state in which the counts they name read 0, every other register and token counter is unchanged and so is every byte of memory. [R177; R204; R231; R280; R335; R461; R490; R507; R521] -/
def Obligations.CounterClearsZeroTheCountsAlone : Prop :=
  ∀ (s : State),
    (∀ e : Fin 8, s.engPresent e = true →
      (∀ all a, ClearsOnly s (.arrClrClamp 0x60 e all a)
        ((if all then List.range 64 else [a.val]).map fun k => key e (CTU + 0x10000 + 16 * k + 8))) ∧
      ClearsOnly s (.vecQntClr 0x60 e) ([0x240, 0x244, 0x248, 0x24C].map fun o => key e (CTU + o)) ∧
      ClearsOnly s (.vecCntClr 0x60 e) ([0x20010, 0x20014, 0x20018].map fun o => key e (CTU + o)) ∧
      ClearsOnly s (.prismCntClr 0x60 e) ([0x40010, 0x40014, 0x40018, 0x4001C].map fun o => key e (CTU + o))) ∧
    (∀ f : Fin 8, s.unitCause (0x10 + f.val) 0x60 = 0 →
      ClearsOnly s (.fctCntClr 0x60 f) ([0x20, 0x24, 0x28].map fun o => key (0x10 + f.val) (CTU + o))) ∧
    (∀ u : BitVec 8, s.unitCause u.toNat 0x60 = 0 → regRow (key u.toNat (CTL + 0x10C)) ≠ none →
      ClearsOnly s (.eccCntClr 0x60 u) [key u.toNat (CTL + 0x10C), key u.toNat (CTL + 0x110)]) ∧
    (∀ p : Fin 16, s.unitCause (0x20 + p.val) 0x60 = 0 →
      ClearsOnly s (.fhCntClr 0x60 p) ((List.range 16).map fun k => key (0x20 + p.val) (CTU + (0x40 + 4 * k)))) ∧
    (∀ p : Fin 2, s.unitCause (0x34 + p.val) 0x60 = 0 →
      ClearsOnly s (.brvCntClr 0x60 p) ([0xC, 0x10, 0x14].map fun o => key (0x34 + p.val) (CTU + o))) ∧
    (s.unitCause 0x31 0x60 = 0 →
      ClearsOnly s (.modCntClr 0x60) (key 0x31 (CTU + 8) :: (List.range 8).flatMap fun c => [chKey c 0x30, chKey c 0x34]))

/-- For every engine and every started descriptor: the completion rows of MATMUL, DRAIN, direct instructions, vector descriptors, Collimator (an item that stores nothing and found no mismatch), stream descriptors (with no operation outstanding and no error) and signal PROGRAMs write the descriptor's results, then add 1 to its token counter if it names one, change no other register and no byte of memory, and remove exactly it from what is in progress. [R89; R99; R165; R168; R216; R228; R245; R250; R252] -/
def Obligations.CompletionsApplyTheirIncrement : Prop :=
  ∀ (e : Fin 8) (k : BitVec 6) (p : Fin 4) (q : BitVec 10) (s : State) (d : Started) (c : Instr) (sel : Started → Bool) (i : Nat),
    (c, sel, i) ∈ [
      (.matmulComplete e k, (fun x => decide (x.q = .array) && decide (fieldLE x.desc 0 1 % 16 = 1)), k.toNat),
      (.drainComplete e k, (fun x => decide (x.q = .array) && decide (fieldLE x.desc 0 1 % 16 = 2)), k.toNat),
      (.directInstrComplete e k, (fun x => decide (x.q = .direct)), k.toNat),
      (.vectorDescComplete e p k, (fun x => decide (x.q = .pipe p.val)), k.toNat),
      (.collimatorComplete e k, (fun x => decide (x.q = .col)), k.toNat),
      (.streamDescComplete e q, (fun x => decide (x.q = .stream q.toNat)), 0),
      (.programComplete e, (fun x => decide (x.q = .signal)), 0)] →
    (s.eng[e].started.filter sel)[i]? = some d → d.stores = [] → (∀ r ∈ d.result, r.1 ≠ colMiss e) → d.ops = 0 → d.err = none →
    let r := d.result.foldl (fun t x => t.setReg x.1 x.2) s
    ∃ t, exec c s = .next t ∧ SameBytes s t
      ∧ t.eng[e].started = s.eng[e].started.filter (fun x => decide (x.id ≠ d.id))
      ∧ ∀ a, t.reg a = match d.tctr with
          | some n => if a = tokKey e.val n.toNat then r.reg a + 1 else r.reg a
          | none => r.reg a

/-- From `s` to `t` the descriptor `d` has left engine `e`'s queue and is in progress: it writes the byte ranges `w` and nothing else, and will
write the registers `result` and the bytes `stores` as it completes. -/
structure ItemStarted (s t : State) (e : Fin 8) (d : Queued) (w : List (Nat × Nat)) (result : List (Nat × Reg32))
    (stores : List (Nat × List Byte)) : Prop where
  queue : t.eng[e].queue = s.eng[e].queue.filter (fun x => decide (x.id ≠ d.id))
  started : t.eng[e].started = s.eng[e].started ++ [⟨d.q, d.id, some d.tctr, d.origin, d.desc, none, w, 0, result, stores⟩]
  bytes : ∀ a, (∀ r ∈ w, a < r.1 ∨ r.1 + r.2 ≤ a) → t.byte a = s.byte a
  others : ∀ j, j ≠ e → t.eng[j] = s.eng[j]
  host : t.host = s.host

/-- The bytes that a DRAIN writes. -/
def drainWrites (e : Fin 8) (x : DrainD) : List (Nat × Nat) :=
  (arraysOf x.amask).zipIdx.flatMap fun a => (List.range x.n).map fun r => (key e (x.daddr + a.2 * x.dstride + r * x.dpitch), x.rowBytes)

/-- For every engine whose array queue's head is a descriptor d with its operand tokens present, in a state with no bad code bit and no armed injection: a MATMUL or DRAIN with N = 0 or an empty array mask leaves the queue and applies its increment; a DRAIN that passes the checks of Table 5.5, and a MATMUL that passes them under a pairing without E2M1 operands (with or without direct drain), leave the queue, are in progress with exactly the byte ranges they write, and change no byte outside those ranges, no other engine and no byte of host memory. [R151; R164; R167; R168; R172; R175; Table 5.1; Table 5.4; Table 5.5] -/
def Obligations.MatmulsAndDrainsRunFromTheQueueHead : Prop :=
  ∀ (e : Fin 8) (s : State) (d : Queued), s.headOf e .array = some d → s.tokensOk e d.desc = true → s.clean →
    let m := MatD.parse d.desc
    let x := DrainD.parse d.desc
    let dt := if m.dt then some (DrainD.parse (s.bytes (key e m.qstride) 64)) else none
    (m.kind = 1 → m.n = 0 ∨ m.amask = 0 → exec (.matmul e) s = .next ((s.dequeue e d.id).addTok e d.tctr.toNat 1)) ∧
    (x.kind = 2 → x.n = 0 ∨ x.amask = 0 → exec (.drain e) s = .next ((s.dequeue e d.id).addTok e d.tctr.toNat 1)) ∧
    (m.kind = 1 → m.n ≠ 0 → m.amask ≠ 0 → m.pair ∉ [1, 2, 3] → s.matCheck e m dt = none →
      ∃ t, exec (.matmul e) s = .next t ∧ ItemStarted s t e d (m.writes e dt) [] []) ∧
    (x.kind = 2 → x.n ≠ 0 → x.amask ≠ 0 → drainCheck x = none → ∃ t, exec (.drain e) s = .next t ∧ ItemStarted s t e d (drainWrites e x) [] [])

/-- For every engine that is present and every write by the anchor: ARR_CLR with FLAGS clears NONFINITE and SAT and sets ARR_a_NF_POS to 0 for the named array, or for all of them, and changes no other register; PAIR_CTL_WRITE stores the value with HALTED (bit 19) clear, sets the ranks of the entry's two streams to 0, and changes no other register and no other rank. Neither changes a byte of memory. [R176; R184; R185; Table 5.8] -/
def Obligations.ArrayFlagClearsAndPairTableWrites : Prop :=
  ∀ (e : Fin 8) (s : State), s.engPresent e = true →
    (∀ (all : Bool) (a : Fin 64), ∃ t, exec (.arrClrFlags 0x60 e all a) s = .next t ∧ SameBytes s t
      ∧ ∀ b, t.regN b =
          if b ∈ (if all then List.range 64 else [a.val]).map (fun k => key e (CTU + 0x10000 + 16 * k + 4)) then 0
          else if b ∈ (if all then List.range 64 else [a.val]).map (fun k => key e (CTU + 0x10000 + 16 * k)) then s.regN b / 4 * 4
          else s.regN b) ∧
    (∀ (n : Fin 16) (v : Reg32), ∃ t, exec (.pairCtlWrite 0x60 e n v) s = .next t ∧ SameBytes s t
      ∧ (∀ b, t.reg b = if b = key e (CTU + 0x304 + 8 * n.val) then v &&& 0xFFF7FFFF else s.reg b)
      ∧ (∀ k, Sparse.get (fun _ => 0) t.eng[e].ranks k = if k = 2 * n.val ∨ k = 2 * n.val + 1 then 0 else Sparse.get (fun _ => 0) s.eng[e].ranks k)
      ∧ ∀ j, j ≠ e → t.eng[j] = s.eng[j])

/-- A direct instruction has run on engine `e`: it is in progress with the byte ranges `w` it wrote and the summary `m` it will write, the
PC is 8 further, and scalar registers, other engines, host memory and all registers but the error, Loupe and vector counts are unchanged. -/
structure DirectRan (s t : State) (e : Fin 8) (f : DirectF) (w : List (Nat × Nat)) (m : List (Nat × Reg32)) : Prop where
  pc : t.eng[e].pc = s.eng[e].pc + 8
  state : t.eng[e].state = .running
  rx : ∀ r, t.eng[e].rx r = s.eng[e].rx r
  started : t.eng[e].started = s.eng[e].started ++
    [⟨.direct, s.eng[e].nextId, if f.ten then some f.tctr else none, s.eng[e].pc.toNat, [], none, w, 0, m, []⟩]
  others : ∀ j, j ≠ e → t.eng[j] = s.eng[j]
  host : t.host = s.host
  reg : ∀ a, a % 2 ^ 52 < CTL + 0x100 ∨ CTL + 0x114 ≤ a % 2 ^ 52 → a ≠ loupeKey e 0x20 → (∀ k, k < 3 → a ≠ vecCnt e k) → t.reg a = s.reg a

/-- The first elements of VD are `codes`, `w` bits each; the rest of VD and the other vector registers are unchanged. -/
def VdHolds (s t : State) (e : Fin 8) (f : DirectF) (w : Nat) (codes : List Nat) : Prop :=
  t.eng[e].vr f.vd.toNat = packElems w (s.eng[e].vr f.vd.toNat) codes ∧ ∀ r, r ≠ f.vd.toNat → t.eng[e].vr r = s.eng[e].vr r

/-- The summary that a direct instruction with SUMEN writes at its completion (R214). -/
def sumRegs (e : Fin 8) (f : DirectF) (vf : VFmt) (codes : List Nat) : List (Nat × Reg32) :=
  if f.sumen then summaryRegs e f.slot.toNat (summaryOf vf 0 0 codes) else []

/-- For every engine and each of the 27 direct operations of Table 7.3 (ADD, SUB, MUL, FMA, MIN, MAX, ABS, NEG, CEQ, CLT, CLE, SEL, AND, OR, XOR, SHL, SHR, CVT, SCALB, RECIP, RSQRT, SQRT, EXP, LOG, SIN, COS, ATAN2): when its instruction issues with legal fields, an allowed format and nothing waiting on pipe 0, the next state has in VD, for each of the first n = min(VL, 4,096 / width) elements, the operation's result on those elements of VA, VB and the old VD, the rest of VD and every other vector register unchanged, the instruction in progress with its summary, the PC 8 further, and every scalar register, byte of memory, other register and other engine unchanged. [R207; R209; R210; R211; R214; R216; Table 7.3] -/
def Obligations.VectorArithmeticWritesVd : Prop :=
  ∀ (e : Fin 8) (f : DirectF) (s : State) (op : Nat) (c : Instr) (vf sf : VFmt),
    (op, c) ∈ [(0, .vecAdd e f), (1, .vecSub e f), (2, .vecMul e f), (3, .vecFma e f), (4, .vecMin e f), (5, .vecMax e f),
      (6, .vecAbs e f), (7, .vecNeg e f), (8, .vecCeq e f), (9, .vecClt e f), (10, .vecCle e f), (11, .vecSel e f),
      (12, .vecAnd e f), (13, .vecOr e f), (14, .vecXor e f), (15, .vecShl e f), (16, .vecShr e f), (17, .cvt e f),
      (18, .scalb e f), (19, .recip e f), (20, .rsqrt e f), (21, .sqrt e f), (22, .exp e f), (23, .log e f), (24, .sin e f),
      (25, .cos e f), (26, .atan2 e f)] →
    s.issues e → directLegal (op + 16) f = true → s.headOf e (.pipe 0) = none → opFmtOk op f.fmt.toNat (f.vb.toNat % 16) = true →
    vfmt f.fmt.toNat = some vf → vfmt (if op = 17 then f.vb.toNat % 16 else f.fmt.toNat) = some sf →
    let en := s.eng[e]
    let n := min en.vl.toNat (4096 / max vf.width sf.width)
    let codes := (List.range n).map fun l =>
      vecAlu op vf sf (s.rnd e f.rnd.toNat ((en.srbase.toNat + l) % 2 ^ 32)) f.sat (en.vr f.va.toNat / 2 ^ (sf.width * l) % 2 ^ sf.width)
        (en.vr f.vb.toNat / 2 ^ (vf.width * l) % 2 ^ vf.width) (en.vr f.vd.toNat / 2 ^ (vf.width * l) % 2 ^ vf.width)
    ∃ t, exec c s = .next t ∧ DirectRan s t e f [] (sumRegs e f vf codes) ∧ VdHolds s t e f vf.width codes ∧ (∀ a, t.byte a = s.byte a)

/-- For every engine and each direct move that issues with legal fields, an FMT of Table 7.2's plain formats and nothing waiting on pipe 0: VBCAST, VLD, VTGET, VPERM, VGATHER and VREDT write VD as R215 and R220 to R223 say; VTPUT writes a tile register; VST and VSCATTER write exactly their bytes, the highest lane winning; VSUMM writes nothing but its summary. Offsets are multiples of 64 inside the scratchpad, no code block is bad and no injection is armed. [R210; R215; R220; R221; R222; R223; R214; Table 7.5] -/
def Obligations.VectorMovesReadAndWriteWhatTheyName : Prop :=
  ∀ (e : Fin 8) (f : DirectF) (s : State) (vf : VFmt),
    s.issues e → s.clean → s.headOf e (.pipe 0) = none → vfmt f.fmt.toNat = some vf → f.fmt.toNat < 8 →
    let en := s.eng[e]
    let w := vf.width
    let n := min en.vl.toNat (4096 / w)
    let o := (en.rx f.xa + 64 * f.imm.setWidth 64).toNat
    let va := elems w n (en.vr f.va.toNat)
    let idx := elems 32 (min n 128) (en.vr f.vb.toNat)
    let bound := en.vbound.toNat
    let ran := fun (c : Instr) (wr : List (Nat × Nat)) (m : List (Nat × Reg32)) (P : State → Prop) =>
      ∃ t, exec c s = .next t ∧ DirectRan s t e f wr m ∧ P t
    let keep := fun (t : State) => ∀ a, t.byte a = s.byte a
    let toVd := fun (c : Instr) (codes : List Nat) =>
      ran c [] (sumRegs e f vf codes) fun t => VdHolds s t e f w codes ∧ keep t
    (directLegal 0x30 f = true → toVd (.vbcast e f) (List.replicate n ((en.rx f.xa).toNat % 2 ^ w))) ∧
    (directLegal 0x31 f = true → o % 64 = 0 → o + 512 ≤ SPAD → toVd (.vld e f) (elems w n (leNat (s.bytes (key e o) 512)))) ∧
    (directLegal 0x32 f = true → o % 64 = 0 → o + 512 ≤ SPAD → ran (.vst e f) [(key e o, n * w / 8)] [] fun t =>
      (∀ r, t.eng[e].vr r = en.vr r) ∧
      ∀ a, t.byte a = if key e o ≤ a ∧ a < key e o + n * w / 8 then (toLE (n * w / 8) (en.vr f.va.toNat)).getD (a - key e o) 0 else s.byte a) ∧
    (directLegal 0x35 f = true → toVd (.vtget e f) ((List.range (min 32 n)).map fun l => en.tr (f.va.toNat % 8) (tilePos f l) % 2 ^ w)) ∧
    (directLegal 0x36 f = true → ran (.vtput e f) [] [] fun t =>
      keep t ∧ (∀ r, t.eng[e].vr r = en.vr r) ∧
      ∀ l, l < min 32 n → t.eng[e].tr (f.vd.toNat % 8) (tilePos f l) = va.getD l 0) ∧
    (directLegal 0x37 f = true → toVd (.vperm e f)
      ((elems w n (en.vr f.vb.toNat)).map fun i => va.getD (min i (n - 1)) 0)) ∧
    (directLegal 0x38 f = true → o % 64 = 0 → bound ≠ 0 → (∀ i ∈ idx, o + min i (bound - 1) * (w / 8) + w / 8 ≤ SPAD) →
      toVd (.vgather e f) (idx.map fun i => leNat (s.bytes (key e (o + min i (bound - 1) * (w / 8))) (w / 8)))) ∧
    (directLegal 0x38 f = true → o % 64 = 0 → bound = 0 → toVd (.vgather e f) []) ∧
    (directLegal 0x39 f = true → o % 64 = 0 → (∀ i ∈ idx, i < bound → o + i * (w / 8) + w / 8 ≤ SPAD) →
      ran (.vscatter e f) (((idx.zip (elems w (min n 128) (en.vr f.va.toNat))).filter fun p => decide (p.1 < bound)).map fun p =>
          (key e (o + p.1 * (w / 8)), w / 8)) [] fun t =>
        (∀ l, l < idx.length → idx.getD l 0 < bound → (∀ k, l < k → k < idx.length → idx.getD k 0 ≠ idx.getD l 0) →
          t.bytes (key e (o + idx.getD l 0 * (w / 8))) (w / 8) = toLE (w / 8) (va.getD l 0)) ∧
        (∀ a, (∀ i ∈ idx, i < bound → a < key e (o + i * (w / 8)) ∨ key e (o + i * (w / 8)) + w / 8 ≤ a) → t.byte a = s.byte a)) ∧
    (directLegal 0x3A f = true →
      let rs := (List.range (min 32 en.vl.toNat)).map fun i =>
        redResult (f.vb.toNat % 8) vf.fmt.isFloat (redTree (f.vb.toNat % 8) vf.fmt.isFloat
          (redLine (bit f.vb.toNat 3) 32 32 i (fun r c => vf.value (en.tr (f.va.toNat % 8) (32 * r + c) % 2 ^ w)) 0))
      ∃ m, ran (.vredt e f) [] m fun t => VdHolds s t e f 32 (rs.map (·.1)) ∧ keep t) ∧
    (directLegal 0x3B f = true →
      ran (.vsumm e f) [] (summaryRegs e f.slot.toNat (summaryOf vf (f.vb.toNat % 8) ((en.rx f.xa).toNat % 2 ^ 32) va)) fun t =>
        keep t ∧ ∀ r, t.eng[e].vr r = en.vr r)

/-- For every engine and state in which the instruction issues with legal fields and nothing waits on pipe 0: VSETVL, VSETBND and VSETSR set VL, the bound or the stochastic-rounding base to (X[XA] + IMM) modulo 2^32, whatever FMT holds, and change no other of the three, no vector register, no scalar register and no byte of memory. VLDT and VSTT, at an offset that is a multiple of 64 with 4,096 bytes inside the scratchpad, with no bad code bit and no armed injection, copy 4,096 bytes to or from tile register VD mod 8 or VA mod 8, and nothing when VL is 0. [R210; R215; R221; Table 7.5] -/
def Obligations.VectorSettingsAndTileMoves : Prop :=
  ∀ (e : Fin 8) (f : DirectF) (s : State), s.issues e → s.headOf e (.pipe 0) = none →
    let en := s.eng[e]
    let v : Reg32 := BitVec.ofNat 32 ((en.rx f.xa).toNat + f.imm.toNat)
    let o := (en.rx f.xa + 64 * f.imm.setWidth 64).toNat
    let ran := fun (c : Instr) (vl bound base : Reg32) =>
      ∃ t, exec c s = .next t ∧ DirectRan s t e f [] [] ∧ t.eng[e].vl = vl ∧ t.eng[e].vbound = bound ∧ t.eng[e].srbase = base
        ∧ t.eng[e].vreg = en.vreg ∧ t.eng[e].treg = en.treg ∧ SameBytes s t
    (directLegal 0x3C f = true → ran (.vsetvl e f) v en.vbound en.srbase) ∧
    (directLegal 0x3D f = true → ran (.vsetbnd e f) en.vl v en.srbase) ∧
    (directLegal 0x3E f = true → ran (.vsetsr e f) en.vl en.vbound v) ∧
    (directLegal 0x33 f = true → s.clean → o % 64 = 0 → o + 4096 ≤ SPAD →
      ∃ t, exec (.vldt e f) s = .next t ∧ DirectRan s t e f [] [] ∧ (∀ a, t.byte a = s.byte a) ∧
        ∀ k, k < 32768 → Sparse.get memZero t.eng[e].treg k =
          if k / 4096 = f.vd.toNat % 8 ∧ en.vl ≠ 0 then s.byte (key e o + k % 4096) else Sparse.get memZero en.treg k) ∧
    (directLegal 0x34 f = true → s.clean → o % 64 = 0 → o + 4096 ≤ SPAD →
      ∃ t, exec (.vstt e f) s = .next t ∧ DirectRan s t e f (if en.vl = 0 then [] else [(key e o, 4096)]) [] ∧ t.eng[e].treg = en.treg ∧
        ∀ a, t.byte a = if key e o ≤ a ∧ a < key e o + 4096 ∧ en.vl ≠ 0 then Sparse.get memZero en.treg (4096 * (f.va.toNat % 8) + (a - key e o))
          else s.byte a)

/-- The program of descriptor bytes `b` on engine `e`, as Tables 7.6 and 7.9 lay it out. -/
def progOf (s : State) (e : Fin 8) (b : List Byte) : Prog :=
  let h := s.bytes (key e (d26 b 8)) 64
  let ob := s.bytes (key e (d26 b 8 + 64)) (4 * fieldLE h 0 1)
  let lane := 32 / 2 ^ (fieldLE h 1 1 % 4)
  { lane := lane
    sat := bit (fieldLE h 2 1) 0
    ops := (List.range (fieldLE h 0 1)).map fun i => EpOp.parse (fieldLE ob (4 * i) 4)
    consts := (List.range 8).map fun i => fieldLE h (8 + 4 * i) 4 % 2 ^ lane
    fin := (List.range (min (fieldLE b 1 1 % 8) 4)).map fun i => fieldLE b 2 2 / 16 ^ i % 16
    fout := (List.range (min (fieldLE b 1 1 / 8 % 4) 2)).map fun i => fieldLE b 4 1 / 16 ^ i % 16
    ins := (List.range (fieldLE b 1 1 % 8)).map fun i => d26 b (16 + 4 * i)
    outs := (List.range (fieldLE b 1 1 / 8 % 4)).map fun i => d26 b (32 + 4 * i)
    count := d26 b 12
    srbase := fieldLE b 44 4 }

/-- The checks of R218 and Table 7.13 on descriptor bytes `b`. -/
def progFits (s : State) (e : Fin 8) (b : List Byte) : Prop :=
  let h := s.bytes (key e (d26 b 8)) 64
  let p := progOf s e b
  (p.fin ++ p.fout).contains 0xF = false ∧ (bit (fieldLE b 5 1) 3 = true → plainFmt (fieldLE b 4 1 % 16) = true) ∧
  1 ≤ fieldLE h 0 1 ∧ fieldLE h 0 1 ≤ 48 ∧ fieldLE h 1 1 < 3 ∧ fieldLE b 1 1 % 8 ≤ 4 ∧ fieldLE b 1 1 / 8 % 4 ≠ 3 ∧
  inPad (d26 b 8) (64 + 4 * fieldLE h 0 1) = true ∧ (∀ o ∈ p.ops, o.ok p.lane = true ∧ opFmtOk o.opc o.fmt o.sb = true) ∧
  (∀ f ∈ p.fin ++ p.fout, tooWide p.lane f = false) ∧
  ∀ x ∈ p.ins.zip p.fin ++ p.outs.zip p.fout, inPad x.1 (tensorBytes p.count x.2) = true

/-- For every engine and pipe whose queue's head is an element program d with its operand tokens present, in a state with no bad code bit, no armed injection and no direct instruction queued on the engine: if the descriptor's formats, the program's place and size, its operations and its tensors pass the checks of R218, the program starts, and no byte outside its output tensors, no other engine and no byte of host memory changes. [R206; R209; R217; R218; Table 7.6; Table 7.13] -/
def Obligations.ElementProgramsRunOverTheirTensors : Prop :=
  ∀ (e : Fin 8) (p : Fin 4) (s : State) (d : Queued), s.headOf e (.pipe p.val) = some d → d.dir = none → s.tokensOk e d.desc = true →
    s.clean → (∀ x ∈ s.eng[e].queue, x.dir = none) → fieldLE d.desc 0 1 % 16 = 1 → progFits s e d.desc →
    ∃ t m, exec (.elementProgram e p) s = .next t ∧
      ItemStarted s t e d (((progOf s e d.desc).outs.zip (progOf s e d.desc).fout).map fun x => (key e x.1, tensorBytes (progOf s e d.desc).count x.2)) m []

/-- The results of a REDUCE with descriptor bytes `b` (R225): 32 of them, or one under FULL. -/
def reduceResults (s : State) (e : Fin 8) (b : List Byte) (vf : VFmt) : List (Nat × Bool) :=
  let b1 := fieldLE b 1 1
  let line := fun (t i : Nat) => redTree (b1 % 8) vf.fmt.isFloat (redLine (bit b1 3) (fieldLE b 2 1 % 64) (fieldLE b 3 1 % 64) i
    (fun r c => vf.value (s.redElem e (d26 b 8) vf t r c)) (32 * t))
  let acc := (List.range (fieldLE b 6 2)).foldl (fun a t => (a.zip ((List.range 32).map (line t))).map fun x =>
    redNode (b1 % 8) vf.fmt.isFloat x.1 x.2) (List.replicate 32 none)
  (if bit b1 4 then [redTree (b1 % 8) vf.fmt.isFloat acc] else acc).map (redResult (b1 % 8) vf.fmt.isFloat)

/-- For every engine whose pipe or Collimator queue's head is a REDUCE d of NT > 0 tiles with its tokens present and its format and ranges allowed, in a state with no bad code bit, no armed injection and no direct instruction queued: the next state holds at the destination the reduction of the tiles in ascending order, 32 results of 4 bytes, or their one reduction under FULL, and no byte outside them, no other engine and no byte of host memory changes; the descriptor is in progress. [R223; R224; R225; R228; Table 7.10] -/
def Obligations.ReductionsWriteTheirResults : Prop :=
  ∀ (e : Fin 8) (p : Fin 5) (s : State) (d : Queued) (vf : VFmt),
    s.headOf e (if p.val = 4 then .col else .pipe p.val) = some d → d.dir = none → s.tokensOk e d.desc = true → s.clean →
    (∀ x ∈ s.eng[e].queue, x.dir = none) →
    let b := d.desc
    let b1 := fieldLE b 1 1
    let n := if bit b1 4 then 4 else 128
    fieldLE b 0 1 % 16 = 2 → vfmt (fieldLE b 0 1 / 16) = some vf → fieldLE b 0 1 / 16 < 8 → b1 % 8 ≤ 4 → fieldLE b 6 2 ≠ 0 →
    fieldLE b 2 1 % 64 ≤ 32 → fieldLE b 3 1 % 64 ≤ 32 → inPad (d26 b 8) (fieldLE b 6 2 * 1024 * (vf.width / 8)) = true → inPad (d26 b 12) n = true →
    ∃ t m, exec (.reduce e p) s = .next t ∧ ItemStarted s t e d [(key e (d26 b 12), n)] m []
      ∧ t.bytes (key e (d26 b 12)) n = (reduceResults s e b vf).flatMap fun r => toLE 4 r.1

/-- For every engine and pipe whose queue's head is a BQUANT, CQUANT, DEQUANT or QACC d with its tokens present and allowed formats and tensors that do not overlap, in a state with no bad code bit, no armed injection and no direct instruction queued, where under DEQUANT and QACC every scale record passes its check: the descriptor starts; BQUANT, CQUANT and QACC write only the data and scale tensors, DEQUANT only the wide tensor, and no other engine and no byte of host memory changes. [R187; R189; R193; R227; R230; Table 7.11] -/
def Obligations.QuantisersWriteTheirTensors : Prop :=
  ∀ (e : Fin 8) (p : Fin 4) (s : State) (d : Queued) (k : Nat) (c : Instr),
    (k, c) ∈ [(3, .bquant e p), (4, .cquant e p), (5, .dequant e p), (6, .qacc e p)] →
    s.headOf e (.pipe p.val) = some d → d.dir = none → s.tokensOk e d.desc = true → s.clean → (∀ x ∈ s.eng[e].queue, x.dir = none) →
    let q := QntD.parse d.desc
    q.kind = k → q.formatOk = true → (∀ x ∈ q.spans, inPad x.1 x.2 = true) →
    q.spans.Pairwise (fun x y => x.1 + x.2 ≤ y.1 ∨ y.1 + y.2 ≤ x.1) →
    (5 ≤ k → ∀ b, b < q.blocks →
      recOk (s.bytes (key e (q.dscale + b * recBytes q.skind)) (recBytes q.skind)) ((q.base + b) % 2 ^ 16) q.skind q.efmt = true) →
    ∃ t, exec c s = .next t ∧ ItemStarted s t e d ((if k = 5 then q.spans.take 1 else q.spans.drop 1).map fun x => (key e x.1, x.2)) [] []

/-- For every engine whose Collimator queue's head is a CRC, SUM64, FILL or COMPARE d with its tokens present and LEN, addresses and ranges allowed, in a state with no bad code bit, no armed injection and no direct instruction queued: CRC holds the CRC-32C of the LEN bytes (0 when LEN is 0), SUM64 their sum as 64-bit words modulo 2^64, COMPARE the number of differing words and the place of the first, for VEC_COL_LO and HI and the 8 bytes at RADDR; FILL writes word i as its pattern, the pattern XOR i, or that complemented. Nothing else changes in memory, in another engine or in host memory. [R228; Table 7.12] -/
def Obligations.CollimatorChecksAndFills : Prop :=
  ∀ (e : Fin 8) (s : State) (d : Queued), s.headOf e .col = some d → d.dir = none → s.tokensOk e d.desc = true → s.clean →
    (∀ x ∈ s.eng[e].queue, x.dir = none) →
    let b := d.desc
    let len := fieldLE b 4 4
    let a1 := fieldLE b 8 4
    let a2 := fieldLE b 12 4
    let ra := fieldLE b 24 4
    let pm := fieldLE b 1 1 % 4
    let x := s.bytes (key e a1) len
    let y := s.bytes (key e a2) len
    let held := fun (c : Instr) (v : Nat) (miss : List (Nat × Reg32)) => ∃ t, exec c s = .next t ∧
      ItemStarted s t e d [(key e ra, 8)] ([(colLo e, BitVec.ofNat 32 v), (colLo e + 4, BitVec.ofNat 32 (v / 2 ^ 32))] ++ miss) [(key e ra, toLE 8 v)]
      ∧ ∀ a, t.byte a = s.byte a
    len % 64 = 0 → a1 % 64 = 0 → ra % 8 = 0 → (len ≠ 0 → colRange a1 len = true) →
    (fieldLE b 0 1 % 16 = 8 → colRange ra 8 = true → held (.crc e) (if len = 0 then 0 else crc32c x) []) ∧
    (fieldLE b 0 1 % 16 = 9 → colRange ra 8 = true → held (.sum64 e) ((words64 x).sum % 2 ^ 64) []) ∧
    (fieldLE b 0 1 % 16 = 11 → colRange ra 8 = true → a2 % 64 = 0 → (len ≠ 0 → colRange a2 len = true) →
      let diff := (List.range (len / 8)).filter fun i => decide (leNat (s.bytes (key e (a1 + 8 * i)) 8) ≠ leNat (s.bytes (key e (a2 + 8 * i)) 8))
      held (.compare e) diff.length (match diff with
        | i :: _ => [(colMiss e, BitVec.ofNat 32 (8 * i % 2 ^ 29))]
        | [] => [])) ∧
    (fieldLE b 0 1 % 16 = 10 → pm ≠ 3 → ∃ t, exec (.fill e) s = .next t ∧ ItemStarted s t e d [(key e a1, len)] [] [] ∧
      ∀ i, i < len / 8 → leNat (t.bytes (key e (a1 + 8 * i)) 8) =
        if pm = 0 then fieldLE b 16 8 else if pm = 1 then fieldLE b 16 8 ^^^ i else 2 ^ 64 - 1 - (fieldLE b 16 8 ^^^ i))

/-- Every sample that op `o` may name lies in signal memory, whatever the loop counters are (R238, R243). -/
def samplesFit (p : SigProg) (o : SigOp) : Prop :=
  ∀ it : List Nat, it.length = 4 → (∀ k, k < 4 → it.getD k 0 < max 1 (p.loops.getD k ⟨0, 0, 0⟩).count) →
    (o.opc ∈ [1, 2, 3, 4] → (p.ag0.offs it o.doff 32).isSome = true ∧
      (o.opc ≠ 4 → o.csrc = false → (p.ag1.offs it o.coff (if o.bc then 1 else 32)).isSome = true)) ∧
    (o.opc ∈ [6, 8] → (if o.ags then p.ag1.offs it o.coff 32 else p.ag0.offs it o.doff 32).isSome = true)

/-- For every engine whose signal-lane queue's head is a PROGRAM d with its tokens present, in a state with no bad code bit and no armed injection: with NOPS 0 it leaves the queue and applies its increment; otherwise, if NOPS, the loops, the address generators, the image's place and the ops pass the checks and every sample that any op may name lies in signal memory, the program leaves the queue, runs, and is in progress, and no byte but the samples it writes, no other engine and no byte of host memory has changed. [R238; R239; R243; R245; R247; Table 8.1; Table 8.5] -/
def Obligations.SignalProgramsRunTheirOps : Prop :=
  ∀ (e : Fin 8) (s : State) (d : Queued), s.headOf e .signal = some d → s.tokensOk e d.desc = true → s.clean →
    let b := d.desc
    let n := fieldLE b 2 1 % 128
    let loops := (List.range 4).map fun k =>
      (⟨bits (fieldLE b (8 + 4 * k) 4) 15 0, bits (fieldLE b (8 + 4 * k) 4) 21 16, bits (fieldLE b (8 + 4 * k) 4) 27 22⟩ : LoopD)
    let ops := (List.range n).map fun i => SigOp.mk (leNat (s.bytes (key e (d26 b 4 + 8 * i)) 8))
    let p : SigProg := ⟨bit (fieldLE b 1 1) 0, ops, loops, AgD.parse b 24, AgD.parse b 40⟩
    fieldLE b 0 1 % 16 = 1 →
    (n = 0 → exec (.program e) s = .next ((s.dequeue e d.id).addTok e.val d.tctr.toNat 1)) ∧
    (n ≠ 0 → n ≤ 64 → loopsOk n loops = true → p.ag0.ok = true → p.ag1.ok = true → inPad (d26 b 4) (8 * n) = true →
      (∀ o ∈ ops, o.ok = true ∧ samplesFit p o) →
      ∃ t w, exec (.program e) s = .next t ∧ ItemStarted s t e d w [] [] ∧
        ∀ r ∈ w, key e SIGBASE ≤ r.1 ∧ r.1 + r.2 ≤ key e SIGBASE + 4 * 131072)

/-- The head `d` of stream queue `q` of engine `e` may start (R250, R254, R278). -/
def mayStart (s : State) (e : Fin 8) (q : Nat) (d : Queued) (kind : Nat) : Prop :=
  s.headOf e (.stream q) = some d ∧ s.tokensOk e d.desc = true ∧ s.strmHeld e q < 16 ∧ q ∉ s.eng[e].eccHalt ∧ s.clean
    ∧ fieldLE d.desc 0 1 % 16 = kind

/-- `d` has left its queue and is in progress with `ops` operations outstanding. -/
def StrmStarted (s t : State) (e : Fin 8) (d : Queued) (w : List (Nat × Nat)) (ops : Nat) : Prop :=
  t.eng[e].queue = s.eng[e].queue.filter (fun x => decide (x.id ≠ d.id)) ∧
  t.eng[e].started = s.eng[e].started ++ [⟨d.q, d.id, some d.tctr, d.origin, d.desc, none, w, ops, [], []⟩] ∧ t.host = s.host

/-- The operations `items` of descriptor `d` wait in its stream queue and nothing else has changed in memory or in other engines. -/
def Sent (s t : State) (e : Fin 8) (q : Nat) (d : Queued) (w : List (Nat × Nat)) (items : List FabItem) : Prop :=
  StrmStarted s t e d w items.length ∧ t.fab.waiting = s.fab.waiting ++ items ∧ SameBytes s t ∧ (∀ j, j ≠ e → t.eng[j] = s.eng[j]) ∧
  ∀ i ∈ items, i.owner = .desc e d.id ∧ i.queue = streamQueue e q ∧ i.hdr.srcUnit = BitVec.ofNat 8 e.val

/-- For every engine and stream queue whose head is a LOAD or STORE d that may start (tokens present, fewer than 16 held by the streamer, queue not halted), with its shape record inside the scratchpad, in a state with no bad code bit and no armed injection: an empty LOAD and an empty STORE without signal are in progress with nothing to do; an empty STORE with signal sends one PUT_SIGNAL of no bytes; a LOAD that passes its checks, from its own scratchpad or from a source that answers on a stream no pair entry checks, is in progress with nothing outstanding and has changed only the bytes that an abort would leave undefined; a STORE that passes its checks is in progress with as many operations outstanding as it has queued, each on its stream and of at most 64 bytes, and has changed no byte. [R250; R252; R255; R275; R276; R277; Table 9.1] -/
def Obligations.LoadsAndStoresMoveTensors : Prop :=
  ∀ (e : Fin 8) (q : BitVec 10) (s : State) (d : Queued),
    let x := StrmD.parse d.desc
    let g := Shape.parse (s.bytes (key e x.shape) 64)
    let side := s.sideOf e x.raddr
    let idx := if x.gather then (List.range g.w1).map fun i => sext 32 (fieldLE (s.bytes (key e g.gidx) (4 * g.w1)) (4 * i) 4) else
      (List.range g.w1).map fun _ => (0 : Int)
    let t0 : Xfer := ⟨x, g, idx, if x.fgen then some (s.fillG e x.fg) else none, side, (offOf x.raddr : Nat), (x.laddr : Nat)⟩
    x.shape % 64 = 0 → x.shape + 64 ≤ SPAD →
    (mayStart s e q.toNat d 1 →
      (g.empty = true → ∃ t, exec (.load e q) s = .next t ∧ StrmStarted s t e d [] 0 ∧ SameBytes s t) ∧
      (g.empty = false → x.check g (s.fillG e x.fg) (decide (side = .own)) = 0 →
        (side = .own ∨ (s.sideCause e side x.stream x.raddr = none ∧ s.pairOf e x.stream = none ∧
          ∀ u, side = .unit u → ∀ j ∈ t0.rows, ∀ r ∈ t0.ranges ((List.range (x.cols g)).map fun j0 => x.source g idx j.1 j.2.1 j.2.2 j0),
            s.winOk u r.1 r.2 = true)) →
        ∃ t w, exec (.load e q) s = .next t ∧ StrmStarted s t e d w 0 ∧ ∀ a, (∀ r ∈ w, a < r.1 ∨ r.1 + r.2 ≤ a) → t.byte a = s.byte a)) ∧
    (mayStart s e q.toNat d 2 →
      (g.empty = true → x.sigmode ∉ [1, 2] → ∃ t, exec (.store e q) s = .next t ∧ Sent s t e q.toNat d [] []) ∧
      (g.empty = true → x.sigmode ∈ [1, 2] → ∃ t i, exec (.store e q) s = .next t ∧ Sent s t e q.toNat d [] [i] ∧ i.op = .putSignal ∧ i.payload = []
        ∧ i.hdr.tctr = BitVec.ofNat 12 x.rtctr ∧ i.hdr.tinc = BitVec.ofNat 16 x.rtinc) ∧
      (g.empty = false → x.check g (s.fillG e x.fg) false = 0 →
        ∃ t items, exec (.store e q) s = .next t ∧ Sent s t e q.toNat d [] items ∧
          ∀ i ∈ items, i.op ∈ [.put, .putSignal] ∧ i.hdr.stream = BitVec.ofNat 16 x.stream ∧ i.payload.length ≤ 64))

/-- For every engine and stream queue whose head is a PLOAD or PSTORE d that may start and passes its checks, in a state with no bad code bit and no armed injection: with NBLK 0 a PLOAD is in progress with nothing to do; a PLOAD between ranges of its own scratchpad that do not overlap, whose records carry their sequences, has copied NBLK blocks and NBLK records and changed no other byte; a PSTORE whose records carry their sequences has queued, for each pair in order, the block on its data stream and then the record on its scale stream, each with the pair's sequence, and changed no byte. [R267; R268; R187; Table 9.1] -/
def Obligations.PairedTransfersMoveBlocksWithRecords : Prop :=
  ∀ (e : Fin 8) (q : BitVec 10) (s : State) (d : Queued),
    let x := StrmD.parse d.desc
    let nb := x.nblk * x.blockB
    let nr := x.nblk * x.recB
    (mayStart s e q.toNat d 3 →
      (x.nblk = 0 → ∃ t, exec (.pload e q) s = .next t ∧ StrmStarted s t e d [] 0 ∧ SameBytes s t) ∧
      (x.nblk ≠ 0 → s.sideOf e x.raddr = .own → s.sideOf e x.sraddr = .own → x.pairedCheck true true = 0 →
        [(x.laddr, nb), (x.sladdr, nr), (offOf x.raddr, nb)].Pairwise (fun a b => a.1 + a.2 ≤ b.1 ∨ b.1 + b.2 ≤ a.1) →
        [(x.laddr, nb), (x.sladdr, nr), (offOf x.sraddr, nr)].Pairwise (fun a b => a.1 + a.2 ≤ b.1 ∨ b.1 + b.2 ≤ a.1) →
        x.raddr % 2 ^ 52 + nb < 2 ^ 52 → x.sraddr % 2 ^ 52 + nr < 2 ^ 52 →
        (∀ i, i < x.nblk → x.recCheck i (s.bytes (key e (offOf x.sraddr + i * x.recB)) x.recB) = none) →
        ∃ t, exec (.pload e q) s = .next t ∧ StrmStarted s t e d [(key e x.laddr, nb), (key e x.sladdr, nr)] 0 ∧
          (∀ a, t.byte a =
            if key e x.laddr ≤ a ∧ a < key e x.laddr + nb then s.byte (key e (offOf x.raddr) + (a - key e x.laddr))
            else if key e x.sladdr ≤ a ∧ a < key e x.sladdr + nr then s.byte (key e (offOf x.sraddr) + (a - key e x.sladdr))
            else s.byte a))) ∧
    (mayStart s e q.toNat d 4 → x.nblk ≠ 0 → x.pairedCheck false false = 0 →
      (∀ i, i < x.nblk → x.recCheck i (s.bytes (key e (x.sladdr + i * x.recB)) x.recB) = none) →
      ∃ t items, exec (.pstore e q) s = .next t ∧ Sent s t e q.toNat d [] items ∧ items.length = 2 * x.nblk ∧
        ∀ i, i < x.nblk → ∃ a b, items[2 * i]? = some a ∧ items[2 * i + 1]? = some b ∧
          a.hdr.stream = BitVec.ofNat 16 x.stream ∧ a.payload = s.bytes (key e (x.laddr + i * x.blockB)) x.blockB ∧
          b.hdr.stream = BitVec.ofNat 16 x.sstream ∧ b.payload = s.bytes (key e (x.sladdr + i * x.recB)) x.recB ∧
          a.hdr.seq = BitVec.ofNat 16 (x.baseseq + i) ∧ b.hdr.seq = BitVec.ofNat 16 (x.baseseq + i))

/-- For every engine and stream queue: when its head is an RMO d that may start, names an operation of Table 2.5 and passes its alignment and range checks, the next state has exactly one operation queued with the descriptor's operation, length, stream, sequence, counter and increment, and no byte of memory changed; when the queue has base level 0 to 5, INTERVAL is not 0, its effective level is below 6 and it holds an operation, aging raises its effective level by 1 and changes nothing else of memory or registers. [R269; R270; R273; Table 9.4] -/
def Obligations.RemoteOperationsAreQueuedAndQueuesAge : Prop :=
  ∀ (e : Fin 8) (q : BitVec 10) (s : State),
    (∀ (d : Queued) (op : FabOp), mayStart s e q.toNat d 5 → FabOp.ofCode (fieldLE d.desc 0 1 / 16) = some op →
      let b := d.desc
      let len := fieldLE b 2 2 % 2 ^ 13
      let pay := op ≠ .get ∧ op ≠ .signal
      (pay → d26 b 12 % 8 = 0 ∧ d26 b 12 + len ≤ SPAD) → (op.returns = true → d26 b 16 % 8 = 0 ∧ d26 b 16 + op.retLen len ≤ SPAD) →
      ∃ t i, exec (.rmo e q) s = .next t ∧ Sent s t e q.toNat d (if op.returns then [(key e (d26 b 16), op.retLen len)] else []) [i] ∧ i.op = op
        ∧ i.hdr.len = BitVec.ofNat 13 len ∧ i.hdr.stream = BitVec.ofNat 16 (fieldLE b 20 2) ∧ i.hdr.seq = BitVec.ofNat 16 (fieldLE b 26 2)
        ∧ i.hdr.tctr = BitVec.ofNat 12 (fieldLE b 22 2 % 4096) ∧ i.hdr.tinc = BitVec.ofNat 16 (fieldLE b 24 2)
        ∧ i.hdr.addr = s.translate (BitVec.ofNat 64 (fieldLE b 4 8))) ∧
    ((s.queueDesc (streamQueue e q.toNat)).level ≤ 5 → s.fld (key e (CTU + 0x4000C)) 15 0 ≠ 0 → s.effLevel e q.toNat < 6 →
      (∃ i ∈ s.fab.waiting, i.queue = streamQueue e q.toNat) →
      ∃ t, exec (.queueAging e q) s = .next t ∧ t.effLevel e q.toNat = s.effLevel e q.toNat + 1 ∧ (∀ a, t.reg a = s.reg a) ∧ SameBytes s t)

/-- The ring command `c` is the next of its pair, has opcode `op`, and the anchor may execute it (R370). -/
structure Ready (s : State) (pair : BitVec 16) (op : Nat) (c : Cmd) : Prop where
  next : s.nextCmd pair.toNat = some c
  op : c.op = op
  barrier : s.barrierOk c = true
  full : s.fullIf = true
  up : s.ledger.up = true
  self : s.cmdOf c.id = some c
  live : c.replay = false

/-- From `s` to `t` the command `c` got its outcome: one completion with this status, DETAIL and VALUE, and a committed record (R370, R403). -/
structure Ends (s t : State) (c : Cmd) (status detail value : Nat) : Prop where
  one : t.completions = s.completions ++ [⟨c.pair, c.seq, status, detail, value, bit (fieldLE c.pkt 1 1) 1⟩]
  done : (t.cmdOf c.id).map (·.phase) = some .done
  lseq : s.ledger.next < t.ledger.next

/-- For every ring command that is next in its pair and may execute: NOP completes OK; QUEUE_CONFIG of another pair with legal parameters and no open command builds both rings with pointers 0 and NEXTSEQ at SEQBASE, or on DELETE leaves them not valid, and completes OK with the pair as VALUE; a WINDOW_OPEN with legal fields of a range its partition owns sets the window's base and configuration and completes OK; WINDOW_CLOSE of an open window clears EN and completes OK, of a closed one completes OK_EMPTY and leaves every register. [R357; R359; R363; R370; R375; R376; Table 13.7; Table 13.10] -/
def Obligations.RingCommandsCompleteWithTheirStatus : Prop :=
  ∀ (pair : BitVec 16) (s : State) (c : Cmd),
    (Ready s pair 0x00 c → ∃ t, exec (.nop pair) s = .next t ∧ Ends s t c 0 0 0 ∧ SameBytes s t ∧ ∀ a, t.reg a = s.reg a) ∧
    (Ready s pair 0x01 c →
      let b := c.pkt.drop 16
      let p := fieldLE b 0 2
      let part := fieldLE b 3 1
      p ≠ 0 → p ≤ 2047 → p ≠ c.pair → part ≤ 7 ∨ part = 0xFF → s.openCmds p = [] →
      (bit (fieldLE b 2 1) 0 = false → pairOk b = true → ∃ t, exec (.queueConfig pair) s = .next t ∧ Ends s t c 0 0 p ∧
        t.queueDesc (2 * p) = ⟨fieldLE b 8 8, fieldLE b 4 1, part, 0, true, 0, 0, 0xFFFF, fieldLE b 24 8⟩ ∧
        t.queueDesc (2 * p + 1) = ⟨fieldLE b 16 8, fieldLE b 5 1, part, 0, true, 1, 0, fieldLE b 6 2, 0⟩ ∧
        t.reg64 (qNextseq p) = fieldLE b 24 8 ∧ ∀ a ∈ [qTail p, qAcc p, qCtail p, qChead p, qStatus p], t.regN a = 0) ∧
      (bit (fieldLE b 2 1) 0 = true → fieldLE b 8 8 % 64 = 0 → fieldLE b 16 8 % 64 = 0 →
        ∃ t, exec (.queueConfig pair) s = .next t ∧ Ends s t c 0 0 p ∧ t.pairValid p = false ∧ (t.queueDesc (2 * p + 1)).valid = false ∧
          ∀ a, t.reg a = s.reg a)) ∧
    (Ready s pair 0x02 c →
      let w := c.param 0 1
      let n := c.param 1 1
      let base := c.param 8 8
      w ≤ 15 → 12 ≤ n → n ≤ 32 → base / 2 ^ 60 = 0xF → base % 2 ^ n = 0 →
      (∀ p, c.partNo = some p → s.ownsRange p (unitOf base) (offOf base) (2 ^ n) = true) →
      ∃ t, exec (.windowOpen pair) s = .next t ∧ Ends s t c 0 0 0 ∧ t.reg64 (winKey w) = base ∧
        t.regN (winKey w + 8) = 1 + 2 * (c.param 2 1 % 2) + 4 * (n % 32)) ∧
    (Ready s pair 0x03 c → c.param 0 1 ≤ 15 →
      (s.fld (winKey (c.param 0 1) + 8) 0 0 = 1 → ∃ t, exec (.windowClose pair) s = .next t ∧ Ends s t c 0 0 0 ∧
        t.fld (winKey (c.param 0 1) + 8) 0 0 = 0 ∧ ∀ a, a ≠ winKey (c.param 0 1) + 8 → t.reg a = s.reg a) ∧
      (s.fld (winKey (c.param 0 1) + 8) 0 0 = 0 → ∃ t, exec (.windowClose pair) s = .next t ∧ Ends s t c 1 0 0 ∧ ∀ a, t.reg a = s.reg a))

/-- For every state in which the host reaches the interface: a write of Q_p_TAIL that does not overrun the ring of a configured pair stores the value, one that does only sets OVERRUN; a write of Q_p_CHEAD within CHEAD to CTAIL stores it, any other changes nothing; with no open command on pair 0, Q_ADM_CTL.EN = 1 with legal parameters builds pair 0 for every partition and sets EN, and EN = 0 leaves pair 0 not valid and EN 0. No other register named here, and no byte of memory, changes. [R366] -/
def Obligations.HostWritesOfRingPointers : Prop :=
  ∀ (p : BitVec 11) (v : Reg32) (s : State), s.hostUp = true → s.fullIf = true →
    let n := p.toNat
    let only := fun (c : Instr) (a : Nat) (x : Reg32) => ∃ t, exec c s = .next t ∧ SameBytes s t ∧ t.cmds = s.cmds ∧
      ∀ b, t.reg b = if b = a then x else s.reg b
    (s.pairValid n = true →
      (ringDist v.toNat (s.regN (qAcc n)) ≤ 2 ^ (s.queueDesc (2 * n)).log2size → only (.qTailWrite p v) (qTail n) v) ∧
      (2 ^ (s.queueDesc (2 * n)).log2size < ringDist v.toNat (s.regN (qAcc n)) → only (.qTailWrite p v) (qStatus n) (s.reg (qStatus n) ||| 2)) ∧
      (ringDist v.toNat (s.regN (qChead n)) ≤ ringDist (s.regN (qCtail n)) (s.regN (qChead n)) → only (.qCheadWrite p v) (qChead n) v) ∧
      (ringDist (s.regN (qCtail n)) (s.regN (qChead n)) < ringDist v.toNat (s.regN (qChead n)) →
        ∃ t, exec (.qCheadWrite p v) s = .next t ∧ SameBytes s t ∧ ∀ b, t.reg b = s.reg b)) ∧
    (s.openCmds 0 = [] →
      (pairOk s.admBytes = true → fieldLE s.admBytes 0 2 = 0 → ∃ t, exec (.qAdmEnable true) s = .next t ∧ SameBytes s t ∧
        t.pairValid 0 = true ∧ (t.queueDesc 0).part = 0xFF ∧ (t.queueDesc 0).ring = fieldLE s.admBytes 8 8 ∧
        (t.queueDesc 1).ring = fieldLE s.admBytes 16 8 ∧ t.fld (key BAR0 0x1040) 0 0 = 1 ∧ t.reg64 (qNextseq 0) = fieldLE s.admBytes 24 8) ∧
      ∃ t, exec (.qAdmEnable false) s = .next t ∧ SameBytes s t ∧ t.pairValid 0 = false ∧ t.fld (key BAR0 0x1040) 0 0 = 0)

/-- Pair `p` accepted packet `pkt` (R364, R367). -/
def Accepted (s t : State) (p : Nat) (pkt : List Byte) : Prop :=
  let seq := fieldLE pkt 8 8
  let d := vet (s.queueDesc (2 * p)).part pkt
  t.regN (qAcc p) = (s.regN (qAcc p) + 1) % 2 ^ 32 ∧ t.reg64 (qNextseq p) = (seq + 1) % 2 ^ 64 ∧ t.fld (qStatus p) 0 0 = 0 ∧
  t.cmds = s.cmds ++ [⟨p, seq, pkt, if d = 0 then .accepted else .done, 0, 0, s.orderNo, 0, 0, false, [], []⟩] ∧
  t.completions = s.completions ++ (if d = 0 then [] else [⟨p, seq, BAD_PARAM, d, 0, bit (fieldLE pkt 1 1) 1⟩])

/-- For every pair whose next entry may be accepted: if its SEQ equals NEXTSEQ the command joins the accepted commands with ACC and NEXTSEQ one further, and a packet that fails its check at once completes BAD_PARAM with its DETAIL; if not, SEQERR is set and nothing is accepted. RESUME clears SEQERR and reads the entry again. For every finished completion whose ring has room: 16 bytes with its PHASE stand at CTAIL in host memory, CTAIL is one further, the command is gone, and a vector it asked for is pending when masked and else has sent its message. [R363; R364; R365; R367; R371; Table 13.5; Table 13.6] -/
def Obligations.AcceptanceAndCompletionOfRingEntries : Prop :=
  ∀ (pair : BitVec 11) (s : State), s.fullIf = true → s.master = true → s.pairValid pair.toNat = true → s.ledger.up = true →
    let p := pair.toNat
    let pkt := s.entryAt p
    (s.regN (qAcc p) ≠ s.regN (qTail p) → s.ledgerReserve < s.ledger.free → s.cmdOf (p, fieldLE pkt 8 8) = none →
      (fieldLE pkt 8 8 = s.reg64 (qNextseq p) → s.fld (qStatus p) 0 0 = 0 → ∃ t, exec (.commandAccept pair) s = .next t ∧ Accepted s t p pkt) ∧
      (fieldLE pkt 8 8 ≠ s.reg64 (qNextseq p) → s.fld (qStatus p) 0 0 = 0 →
        ∃ t, exec (.commandAccept pair) s = .next t ∧ t.fld (qStatus p) 0 0 = 1 ∧ t.cmds = s.cmds ∧ SameBytes s t) ∧
      (fieldLE pkt 8 8 = s.reg64 (qNextseq p) → ∃ t, exec (.resume pair) s = .next t ∧ Accepted s t p pkt)) ∧
    (s.regN (qAcc p) = s.regN (qTail p) → ∃ t, exec (.resume pair) s = .next t ∧ t.fld (qStatus p) 0 0 = 0 ∧ t.cmds = s.cmds ∧ SameBytes s t) ∧
    (∀ c : Completion, s.completions.find? (fun c => decide (c.pair = p)) = some c → s.ringFull p = false →
      let d := s.queueDesc (2 * p + 1)
      let n := s.regN (qCtail p)
      ∃ t, exec (.completionWrite pair) s = .next t ∧ t.regN (qCtail p) = (n + 1) % 2 ^ 32 ∧ t.cmdOf (p, c.seq) = none ∧
        t.completions.length + 1 = s.completions.length ∧
        (c.cirq = false ∨ 2047 < d.msix → t.hostBytes (d.ring + n % 2 ^ d.log2size * 16) 16 = completionBytes c (phaseOf d.log2size n)) ∧
        (c.cirq = true → d.msix ≤ 2047 →
          (s.fld (msixEntry d.msix + 0xC) 0 0 = 1 → t.fld (msixPba d.msix) (d.msix % 32) (d.msix % 32) = 1) ∧
          (s.fld (msixEntry d.msix + 0xC) 0 0 = 0 → t.hostBytes (s.reg64 (msixEntry d.msix)) 4 = toLE 4 (s.regN (msixEntry d.msix + 8)))))

/-- For every state in which the host reaches the full interface and the link does not retrain, and every access of 1 to 4,096 bytes within one 4 KiB page: a read that hits an open window on memory of the own device that answers unit 0x62, with no bad code bit, returns those bytes; a read that hits no open window returns zeros and sets the miss flag; a write through a writable window to memory that no pair entry watches writes those bytes and no others; a write through a window without WE only sets WERR. [R356; R357; R358; Table 13.1] -/
def Obligations.HostAccessesThroughWindows : Prop :=
  ∀ (o : BitVec 64) (len : BitVec 13) (data : List Byte) (s : State), s.hostUp = true → s.fullIf = true → s.ucie.retraining = false →
    let n := len.toNat
    (0 < n → o.toNat % 4096 + n ≤ 4096 →
      (∀ w a, s.winAt o.toNat = some (w, a) → devOf a = s.ownChain → s.landCause (s.winItem .get a n []) (unitOf a) = 0 → offOf a < CTL → s.clean →
        ∃ t, exec (.windowRead o len) s = .next t ∧ t.readOut = s.bytes (key (unitOf a) (offOf a)) n ∧ SameBytes s t) ∧
      (s.winAt o.toNat = none →
        ∃ t, exec (.windowRead o len) s = .next t ∧ t.readOut = List.replicate n 0 ∧ t.fld winStatus 0 0 = 1 ∧ SameBytes s t)) ∧
    (data ≠ [] → o.toNat % 4096 + data.length ≤ 4096 → ∀ w a, s.winAt o.toNat = some (w, a) →
      (s.fld (winKey w + 8) 1 1 = 0 → ∃ t, exec (.windowWrite o data) s = .next t ∧ t.fld winStatus 1 1 = 1 ∧ SameBytes s t) ∧
      (s.fld (winKey w + 8) 1 1 = 1 → devOf a = s.ownChain → s.landCause (s.winItem .put a data.length data) (unitOf a) = 0 → s.clean →
        offOf a + data.length ≤ CTL → (∀ e, engOf (unitOf a) = some e → s.pairOf e 0xFFFD = none ∧ offOf a + data.length ≤ SPAD) →
        ∃ t, exec (.windowWrite o data) s = .next t ∧ ∀ c, t.byte c =
          if key (unitOf a) (offOf a) ≤ c ∧ c < key (unitOf a) (offOf a) + data.length then data.getD (c - key (unitOf a) (offOf a)) 0 else s.byte c))

/-- Unit `src` may write the mailbox register at offset `o` of unit `u` (R379, R381). -/
def Answers (s : State) (src : BitVec 8) (u o : Nat) : Prop :=
  s.unitCause u src.toNat = 0 ∧ s.regDenied (s.ownChain * 256 + src.toNat) u o = false ∧ (regRow (key u o)).isSome = true
    ∧ (src = 0x62 ∧ u = 0x60 → s.hostUp = true)

/-- For every unit and mailbox that answers the writer: posting an empty mailbox sets GO, stores the writer and raises bit n of the unit's doorbell, posting a full one only sets its busy error; acknowledging a full one stores the value, clears GO, and sends the notification SIGNAL when NTF.EN is set; DB_SET raises the bits written and clears none. No byte of the device's memory changes. [R379; R380; R381; Table 13.13] -/
def Obligations.MailboxesAndDoorbells : Prop :=
  ∀ (src unit : BitVec 8) (n : Fin 32) (v : Reg32) (s : State),
    let u := unit.toNat
    let m := CTM + 0x80 * n.val
    (Answers s src u (m + 0x40) →
      (s.fld (key u (m + 0x40)) 0 0 = 0 → ∃ t, exec (.mbxPost src unit n) s = .next t ∧ (∀ a, t.byte a = s.byte a) ∧ t.fld (key u (m + 0x40)) 0 0 = 1 ∧
        t.fld (key u (m + 0x40)) 23 16 = src.toNat ∧ t.reg (dbRaw u) = s.reg (dbRaw u) ||| BitVec.ofNat 32 (2 ^ n.val)) ∧
      (s.fld (key u (m + 0x40)) 0 0 = 1 → ∃ t, exec (.mbxPost src unit n) s = .next t ∧ SameBytes s t ∧ t.fld (key u (m + 0x40)) 1 1 = 1 ∧
        t.fld (key u (m + 0x40)) 0 0 = 1 ∧ t.reg (dbRaw u) = s.reg (dbRaw u))) ∧
    (Answers s src u (m + 0x44) → s.fld (key u (m + 0x40)) 0 0 = 1 →
      ∃ t, exec (.mbxAck src unit n v) s = .next t ∧ SameBytes s t ∧ t.fld (key u (m + 0x40)) 0 0 = 0 ∧ t.reg (key u (m + 0x44)) = v ∧
        (s.fld (key u (m + 0x48)) 31 31 = 0 → t.fab.waiting = s.fab.waiting) ∧
        (s.fld (key u (m + 0x48)) 31 31 = 1 → ∃ i, t.fab.waiting = s.fab.waiting ++ [i] ∧ i.op = .signal ∧ i.hdr.tinc = 1 ∧
          i.hdr.tctr = BitVec.ofNat 12 (s.fld (key u (m + 0x48)) 11 0))) ∧
    (Answers s src u (CTM + 0x1004) →
      ∃ t, exec (.dbSet src unit v) s = .next t ∧ (∀ a, t.byte a = s.byte a) ∧ t.reg (dbRaw u) = s.reg (dbRaw u) ||| v)

/-- For a PART_CREATE that may execute, with legal parameters and free resources: with every engine that it names powered, the partition of Table 14.1 exists, its DYN_CHOICES is 0, the device state is RUNNING and the command completes OK; with an engine in E-OFF the command waits and the power-ups are requested. For a PART_DESTROY of a partition without jobs, carriers, host pairs or lent engines: the partition is gone, the others are unchanged, the command completes OK with the number as VALUE, and the device state is LOADED when no partition is left. [R382; R384; R425; R554; Table 14.1] -/
def Obligations.PartitionsAreCreatedAndDestroyed : Prop :=
  ∀ (pair : BitVec 16) (s : State) (c : Cmd),
    (Ready s pair 0x10 c → ∀ n : Fin 8, fieldLE (c.pkt.drop 16) 0 1 = n.val →
      let q := Part.parse (c.pkt.drop 16)
      let asleep := fun (e : Fin 8) => bit (q.engmask ||| q.borrow) e.val = true ∧ s.eng[e].power = .off
      s.partBad c n.val q = false → s.partBusy n.val q = false →
      ((∀ e, ¬ asleep e) → ∃ t, exec (.partCreate pair) s = .next t ∧ Ends s t c 0 0 0 ∧ t.parts[n] = some q ∧
        (∀ k, k ≠ n → t.parts[k] = s.parts[k]) ∧ t.reg64 (dynKey n.val) = 0 ∧ t.devState = 4) ∧
      ((∃ e, asleep e) → ∃ t, exec (.partCreate pair) s = .next t ∧ t.parts = s.parts ∧ (t.cmdOf c.id).map (·.phase) = some .waiting ∧
        ∀ e, asleep e → e.val ∈ t.power.wakeq)) ∧
    (Ready s pair 0x11 c → ∀ (n : Fin 8) (q : Part), c.param 0 1 = n.val → s.parts[n] = some q →
      (∀ j ∈ s.jobs, j.part ≠ n.val) → s.partCarriers n.val = [] →
      (∀ x ∈ s.queues, x.2.valid = true → x.1 < 4096 → x.2.part ≠ n.val) →
      (q.lends = true → ∀ e : Fin 8, bit q.engmask e.val = true → s.borrowPart e.val = none) →
      ∃ t, exec (.partDestroy pair) s = .next t ∧ Ends s t c 0 0 n.val ∧ t.parts[n] = none ∧ (∀ k, k ≠ n → t.parts[k] = s.parts[k]) ∧
        ((∀ k, k ≠ n → s.parts[k] = none) → t.devState = 3))

/-- For ring commands that may execute: a JOB_LOAD of a sound, signed image in its partition's HBM with a free slot and, in a REALTIME partition, admission, adds the resident job of its fields and completes OK; a JOB_CMD that passes its check waits; one that fails completes with the check's status; a JOB_UNLOAD of a job without open commands and carriers removes it and completes OK; a JOB_ABORT of a job that is not REALTIME ends every open command of it that does not run with KILLED and then completes OK, and every engine on which one runs is being killed. [R386; R387; R388; R398; Table 14.2] -/
def Obligations.JobsAreLoadedUnloadedAndAborted : Prop :=
  ∀ (pair : BitVec 16) (s : State) (c : Cmd),
    (Ready s pair 0x12 c → ∀ (p : Fin 8) (q : Part) (s1 : State), c.partNo = some p → s.parts[p] = some q → s.clean →
      let len := c.param 4 4
      let img := s.bytes (key 0x40 (c.param 8 8)) len
      let j := Job.ofImage p.val (c.param 0 1) (c.param 1 1) (c.param 8 8) len (c.param 16 8) ((List.range 4).map fun i => c.param (24 + 4 * i) 4) img
      c.param 0 1 ≤ 7 → c.param 1 1 ≤ 7 → len ≠ 0 → q.inHbm (c.param 8 8) len = true →
      Config.jobSigOk ((s.secure.image.map Image.bytes).getD []) s.secure.custKeys img = true → s.imageOk q img = true →
      s.jobAt p.val (c.param 0 1) = none → s.registerAll (Config.jobStreams img) = some s1 →
      (q.cls = 0 → ({ s1 with jobs := s1.jobs ++ [j] } : State).admits s.power.cap = true) →
      ∃ t, exec (.jobLoad pair) s = .next t ∧ Ends s t c 0 0 0 ∧ t.jobs = s.jobs ++ [j]) ∧
    (Ready s pair 0x13 c →
      (s.jobCmdCheck c = none → ∃ t, exec (.jobCmd pair) s = .next t ∧ (t.cmdOf c.id).map (·.phase) = some .waiting ∧ t.completions = s.completions) ∧
      (∀ st, s.jobCmdCheck c = some st → ∃ t, exec (.jobCmd pair) s = .next t ∧ Ends s t c st 0 0)) ∧
    (Ready s pair 0x14 c → ∀ j, s.jobAt c.part (c.param 0 1) = some j → s.jobCmds j.part j.slot = [] → s.servesCarrier j.part j.slot = false →
      ∃ t, exec (.jobUnload pair) s = .next t ∧ Ends s t c 0 0 0 ∧ t.jobAt j.part j.slot = none ∧ ∀ x ∈ t.jobs, x ∈ s.jobs) ∧
    (Ready s pair 0x15 c → ∀ j, s.jobAt c.part (c.param 0 1) = some j → s.isRealtime c.partNo = false → (s.cmds.map Cmd.id).Nodup →
      let cs := s.jobCmds j.part j.slot
      cs ≠ [] → (∀ x ∈ cs, x.replay = false) →
      ∃ t, exec (.jobAbort pair) s = .next t ∧
        t.completions = s.completions ++ (cs.filter fun x => decide (x.phase ≠ .running)).map (fun x =>
          ⟨x.pair, x.seq, KILLED, 0, x.reruns2 % 2 ^ 32, bit (fieldLE x.pkt 1 1) 1⟩) ++ [⟨c.pair, c.seq, 0, 0, 0, bit (fieldLE c.pkt 1 1) 1⟩] ∧
        ∀ x ∈ cs, x.phase = .running → ∀ e : Fin 8, s.eng[e].cmd = some x.id → s.eng[e].state = .running ∨ s.eng[e].state = .waiting →
          t.eng[e].state = .killing ∧ t.eng[e].kill = some ⟨.final, KILLED, 0⟩)

/-- For every partition without a running job whose next job and command are picked and may start, on the full interface: the command runs, each engine that its entry names is RUNNING with it from CODE_BASE + ENTRY, and every other engine is unchanged. For every running job command, not a replayed one and not held, that has ended first in its partition, with the ledger path up: it completes OK, or NONFINITE_FLAG when an engine shows a non-finite result, with its re-run count as VALUE; its job's step counter rises by 1 and its selectors flip by the entry's mask, and its engines are free. [R106; R389; R391; R392; R412; Table 13.8] -/
def Obligations.JobCommandsStartAndCommit : Prop :=
  ∀ (p : Fin 8) (s : State),
    (∀ (q : Part) (j : Job) (c : Cmd) (dyn : Bool), s.runningJob p.val = none → s.parts[p] = some q → s.pickJob p.val = some j → s.pickCmd q j = some (c, dyn) →
      s.cmdOf c.id = some c → s.mayStart q (q.startEngines (s.entryOf c)) (s.entryOf c) = true → s.fullIf = true →
      ∃ t, exec (.commandStart p) s = .next t ∧ (t.cmdOf c.id).map (·.phase) = some .running ∧
        (∀ e ∈ q.startEngines (s.entryOf c), t.eng[e].cmd = some c.id ∧ t.eng[e].state = .running ∧
          t.eng[e].pc = BitVec.ofNat 64 (Config.codeBase (s.entryOf c) * 64 % 2 ^ 26 + Config.codeEntry (s.entryOf c) * 8 % 2 ^ 26)) ∧
        ∀ e : Fin 8, e ∉ q.startEngines (s.entryOf c) → t.eng[e] = s.eng[e]) ∧
    (∀ (j : Job) (c : Cmd), s.cmds.find? (fun c => decide (c.op = 0x13) && decide (c.part = p.val) && s.cmdEnded c && !(s.mustHold c)) = some c →
      s.jobOf c = some j → s.cmdOf c.id = some c → c.replay = false → s.ledger.up = true →
      ∃ t, exec (.commandCommit p) s = .next t ∧ Ends s t c (if s.nonfinite (s.cmdEngines c.id) then 5 else 0) 0 (c.reruns2 % 2 ^ 32) ∧
        (t.jobAt j.part j.slot).map (fun x => (x.step, x.sel)) = some ((j.step + 1) % 2 ^ 64, j.sel ^^^ fieldLE (s.entryOf c) 4 4) ∧
        ∀ e : Fin 8, s.eng[e].cmd = some c.id → t.eng[e].cmd = none)

/-- For every state whose ledger path is up with a record issued: when it is an EVENT that would leave less than the reserve it is dropped and counted; when a copy in service passes its check the record is committed at the next LSEQ and leaves the queue, and a copy that failed is out of service; when none passes the path is at fault and the record waits. A LEDGER_READ whose parameters are legal writes the records that match and fit to the host address, and completes OK with their count and bytes; one that asks for nothing, or from beyond the last record, completes OK_EMPTY. [R451; R452; R453; R456; R457; R460; Table 16.5] -/
def Obligations.LedgerRecordsAreCommittedAndRead : Prop :=
  ∀ (s : State), s.ledger.up = true →
    (∀ (ok0 ok1 : Bool) (r : Nat × List Byte) (rest : List (Nat × List Byte)), s.ledger.queue = r :: rest →
      (s.dropsEvent r.1 r.2 = true → ∃ t, exec (.ledgerCommit ok0 ok1) s = .next t ∧ t.ledger.queue = rest ∧ t.ledger.recs = s.ledger.recs ∧
        t.ledger.drop = min 0xFFFFFFFF (s.ledger.drop + 1)) ∧
      (s.dropsEvent r.1 r.2 = false → s.ledger.copy0 = true ∧ ok0 = true ∨ s.ledger.copy1 = true ∧ ok1 = true →
        ∃ t, exec (.ledgerCommit ok0 ok1) s = .next t ∧ t.ledger.queue.take rest.length = rest ∧ s.ledger.next < t.ledger.next ∧
          t.ledger.copy0 = (s.ledger.copy0 && ok0) ∧ t.ledger.copy1 = (s.ledger.copy1 && ok1) ∧ t.ledger.pathFault = false ∧ SameBytes s t) ∧
      (s.dropsEvent r.1 r.2 = false → (s.ledger.copy0 && ok0) = false → (s.ledger.copy1 && ok1) = false →
        ∃ t, exec (.ledgerCommit ok0 ok1) s = .next t ∧ t.ledger.pathFault = true ∧ t.ledger.queue = s.ledger.queue ∧ t.ledger.recs = s.ledger.recs)) ∧
    (∀ (pair : BitVec 16) (c : Cmd), Ready s pair 0x58 c →
      let out := takeFit (c.param 16 4) (s.ledger.recs.filter fun r => decide (c.param 0 8 ≤ r.lseq) && bit (c.param 20 4) r.type)
      (c.param 16 4 = 0 ∨ s.ledger.next ≤ c.param 0 8 → ∃ t, exec (.ledgerRead pair) s = .next t ∧ Ends s t c 1 0 0 ∧ SameBytes s t) ∧
      (c.param 16 4 ≠ 0 → c.param 0 8 < s.ledger.next → s.ledger.oldest ≤ c.param 0 8 → c.param 8 8 % 64 = 0 → s.master = true → out ≠ [] →
        ∃ t, exec (.ledgerRead pair) s = .next t ∧ Ends s t c 0 (min 0xFFFF out.length) ((out.flatMap LedRec.bytes).length % 2 ^ 32) ∧
          t.hostBytes (c.param 8 8) (out.flatMap LedRec.bytes).length = out.flatMap LedRec.bytes))

/-- For a MIRROR_START with a legal, free region and idle Mirror: recording is on with 0 records lost and the region and selections in place, a first record written where Mirror's ingress has room for START, and it completes OK; a MIRROR_STOP while recording ends the journal and completes OK with the number of records, while not recording it completes OK_EMPTY; MIRROR_FULL of a recording journal without room sets FULL and stops recording; GAP with lost records and room clears the number of those not yet reported. Each change of recording shows in MIR_STATUS. [R415; R416; R417; R418; Table 15.5] -/
def Obligations.MirrorRecordsAndStops : Prop :=
  ∀ (pair : BitVec 16) (s : State),
    (∀ c, Ready s pair 0x40 c → c.param 0 1 = 0 →
      let base := c.param 8 8
      let size := c.param 16 8
      base % 0x200000 = 0 → size % 0x200000 = 0 → size ≠ 0 → size ≤ 0x400000000 → base + size ≤ s.hbmBytes →
      (∀ x ∈ s.partList, overlaps (x.2.hbmBase, x.2.hbmSize) (base, size) = false) → s.mirrorInUse = false →
      ∃ t, exec (.mirrorStart pair) s = .next t ∧ Ends s t c 0 0 0 ∧ t.mirror.base = base ∧ t.mirror.size = size ∧ t.mirror.parts = c.param 28 1 ∧
        t.mirror.carriers = c.param 24 4 % 2 ^ 24 ∧ t.mirror.src = c.param 29 1 % 64 ∧
        (s.mirrorNoRoom (s.startPayload (c.param 28 1)).length = false → 1 ≤ t.mirror.jseq)) ∧
    (∀ c, Ready s pair 0x40 c → c.param 0 1 = 1 →
      (s.recording = true → ∃ t, exec (.mirrorStop pair) s = .next t ∧ Ends s t c 0 0 ((s.mirror.jseq + 1) % 2 ^ 32) ∧ t.recording = false) ∧
      (s.recording = false → ∃ t, exec (.mirrorStop pair) s = .next t ∧ Ends s t c 1 0 0 ∧ SameBytes s t)) ∧
    (∀ len : BitVec 32, s.recording = true → s.journalFull len.toNat = true → s.computeUp = true →
      ∃ t, exec (.mirrorFull len) s = .next t ∧ t.recording = false ∧ t.fld (key 0x48 CTU) 2 2 = 1 ∧ t.mirror.jseq = s.mirror.jseq + 1) ∧
    (s.recording = true → s.mirror.gap ≠ 0 → s.mirrorNoRoom 4 = false → s.computeUp = true →
      ∃ t, exec .gap s = .next t ∧ t.mirror.gap = 0 ∧ t.mirror.jseq = s.mirror.jseq + 1)

/-- For a REPLAY_START on idle Mirror with partitions that agree with the journal's START record and own no carrier and no host pair: the replay stands after that record, MIR_STATUS shows it, and the command waits. A replay delivers its next record and moves past it, or ends at an END record, an empty place or the journal's end, and its command completes OK. A replayed command that must be held and has ended is held and ends the replay; REPLAY_RELEASE ends it with its engines freed and completes OK, and OK_EMPTY when none is held. [R419; R420; R421; R422; R423; Table 15.5] -/
def Obligations.ReplaysRunHoldAndRelease : Prop :=
  ∀ (pair : BitVec 16) (s : State),
    (∀ c, Ready s pair 0x41 c → c.param 0 1 = 0 →
      let base := c.param 8 8
      let len := s.hbmN (base + 4) 4
      let b := s.hbm (base + 32) len
      let mine := (List.finRange 8).filter fun p => bit (c.param 2 1) p.val
      s.hbmN base 1 = 1 → fieldLE b 2 2 = s.fwVersion / 2 ^ 16 → (∀ p ∈ mine, s.startAgrees b p = true) → s.mirrorInUse = false →
      (∀ p ∈ mine, s.partCarriers p.val = [] ∧ ∀ x ∈ s.queues, x.2.valid = true → x.1 < 4096 → x.2.part ≠ p.val) →
      ∃ t r, exec (.replayStart pair) s = .next t ∧ t.mirror.replay = some r ∧ r.id = c.id ∧ r.parts = c.param 2 1 ∧ r.pos = journalSize len ∧
        t.fld (key 0x48 CTU) 1 1 = 1 ∧ (t.cmdOf c.id).map (·.phase) = some .waiting) ∧
    (∀ r, s.mirror.replay = some r → s.computeUp = true → r.pace = true ∨ s.replayBusy r = false →
      let kind := s.hbmN (r.base + r.pos) 1
      (r.size < r.pos + 32 ∨ kind = 0 ∨ kind = 2 → ∃ t, exec .replayRecord s = .next t ∧ t.mirror.replay = none ∧ t.fld (key 0x48 CTU) 1 1 = 0) ∧
      (r.pos + 32 ≤ r.size → kind ∈ [1, 0x11, 0x12, 0x30, 0x40] → ∃ t x, exec .replayRecord s = .next t ∧ t.mirror.replay = some x ∧
        x.pos = r.pos + journalSize (s.hbmN (r.base + r.pos + 4) 4) ∧ SameBytes s t ∧ t.cmds = s.cmds)) ∧
    (∀ r c, s.mirror.replay = some r → s.cmds.find? (fun c => decide (c.op = 0x13) && c.replay && s.cmdEnded c && s.mustHold c) = some c →
      ∃ t, exec .replayHold s = .next t ∧ t.mirror.held = some c.id ∧ t.mirror.replay = none) ∧
    (∀ c, Ready s pair 0x41 c → c.param 0 1 = 1 →
      (s.mirror.held = none → ∃ t, exec (.replayRelease pair) s = .next t ∧ Ends s t c 1 0 0) ∧
      (∀ id, s.mirror.held = some id → id ≠ c.id → ∃ t, exec (.replayRelease pair) s = .next t ∧ t.mirror.held = none ∧
        (t.cmdOf c.id).map (·.phase) = some .done ∧ ∀ e : Fin 8, s.eng[e].cmd = some id → t.eng[e].cmd = none))

/-- The command by which operation `x` arrives. -/
def rowOf (x : FabItem) : Instr :=
  match x.op with
  | .put => .put x.hdr x.payload
  | .get => .get x.hdr
  | .putSignal => .putSignal x.hdr x.payload
  | .signal => .signal x.hdr
  | .atomicAdd => .atomicAdd x.hdr x.payload
  | .fetchAdd => .fetchAdd x.hdr x.payload
  | .cas => .cas x.hdr x.payload
  | .orderedFadd => .orderedFadd x.hdr x.payload

/-- Operation `x` is the oldest of its flow in flight, for unit `u` of this device alone, which answers with cause `c` (0: it accepts). -/
structure Arrives (s : State) (x : FabItem) (u c : Nat) : Prop where
  here : ∃ i, s.fab.flight.findIdx? (fun y => decide (y.op = x.op) && decide (y.hdr = x.hdr) && decide (y.payload = x.payload)) = some i
    ∧ s.fab.flight[i]? = some x ∧ ∀ y ∈ s.fab.flight.take i, y.sameFlow x = false
  bare : x.op = .get ∨ x.op = .signal → x.payload = []
  one : x.tgts = [s.ownChain * 256 + u]
  unit : u < 256
  link : s.ucie.retraining = false
  cause : s.landCause x u = c
  clean : s.clean

/-- Of the device's memory exactly the bytes from `a` on have changed, to `b`. -/
def Wrote (s t : State) (a : Nat) (b : List Byte) : Prop :=
  t.host = s.host ∧ ∀ c, t.byte c = if a ≤ c ∧ c < a + b.length then b.getD (c - a) 0 else s.byte c

/-- A return that carries `data` to counter RCTR of the unit of RADDR is on its way. -/
def Returns (s t : State) (x : FabItem) (data : List Byte) : Prop :=
  ∃ r, t.fab.rets = s.fab.rets ++ [r] ∧ r.item.payload = data ∧ r.item.hdr.addr = x.hdr.raddr ∧ r.item.hdr.tctr = x.hdr.rctr ∧ r.item.hdr.tinc = 1
    ∧ r.item.tgts = [s.ownChain * 256 + unitOf x.hdr.raddr.toNat] ∧ r.reqUnit = x.hdr.srcUnit.toNat

/-- Token counter `k` of unit `u` has risen by `n`, and every other register but `a` is the same. -/
def Signalled (s t : State) (u : Nat) (k : BitVec 12) (n : BitVec 16) (a : Option Nat) : Prop :=
  ∀ b, some b ≠ a → t.reg b = if b = tokKey u k.toNat then s.reg b + BitVec.ofNat 32 n.toNat else s.reg b

/-- For every operation in flight, the oldest of its flow, for one unit of this device, in a state with no bad code bit, no armed injection and the UCIe link up: one that the target refuses changes no byte and no register, and its error response with the cause is on its way; in memory, PUT and PUT_SIGNAL (where no pair entry checks the stream) write their payload and no other byte, ATOMIC_ADD and FETCH_ADD the sum, CAS the new value where the compare value stands, and ORDERED_FADD with the expected sequence the FP32 sums, moving NEXT_SEQ on; PUT_SIGNAL, SIGNAL and ORDERED_FADD add TINC to their counter; GET, FETCH_ADD and CAS send the old bytes back; an ORDERED_FADD ahead of its turn inside the window is held, and one outside the window or repeated fails with ORDER. [R44; R45; R46; R47; R53; R68; R79] -/
def Obligations.OperationsTakeEffectAtTheirTargets : Prop :=
  ∀ (x : FabItem) (u : Nat) (s : State),
    let off := offOf x.hdr.addr.toNat
    let a := key u off
    let n := x.hdr.len.toNat
    let p := x.payload
    let same := fun t : State => ∀ b, t.reg b = s.reg b
    (∀ c, Arrives s x u c → c ≠ 0 → s.fromHere x.hdr = true →
      ∃ t, exec (rowOf x) s = .next t ∧ SameBytes s t ∧ same t ∧
        t.fab.errs = s.fab.errs ++ [⟨x.hdr.srcUnit.toNat, c, x.op.code, x.hdr.stream.toNat, x.hdr.addr.toNat, x.owner⟩]) ∧
    (Arrives s x u 0 → x.op = .signal → ∃ t, exec (rowOf x) s = .next t ∧ SameBytes s t ∧ Signalled s t u x.hdr.tctr x.hdr.tinc none) ∧
    (Arrives s x u 0 → off + n ≤ CTL → (∀ e : Fin 8, engOf u = some e → s.pairOf e x.hdr.stream.toNat = none ∧ (off + n ≤ SPAD ∨ ∀ d ∈ s.eng[e].started, d.q ≠ .array)) →
      (x.op = .put → ∃ t, exec (rowOf x) s = .next t ∧ Wrote s t a p ∧ same t) ∧
      (x.op = .putSignal → ∃ t, exec (rowOf x) s = .next t ∧ Wrote s t a p ∧ Signalled s t u x.hdr.tctr x.hdr.tinc none) ∧
      (x.op = .atomicAdd → ∃ t, exec (rowOf x) s = .next t ∧ Wrote s t a (toLE n (leNat (s.bytes a n) + leNat p)) ∧ same t) ∧
      (devOf x.hdr.raddr.toNat = s.ownChain →
        (x.op = .get → ∃ t, exec (rowOf x) s = .next t ∧ SameBytes s t ∧ same t ∧ Returns s t x (s.bytes a n)) ∧
        (x.op = .fetchAdd → ∃ t, exec (rowOf x) s = .next t ∧ Wrote s t a (toLE n (leNat (s.bytes a n) + leNat p)) ∧ same t ∧ Returns s t x (s.bytes a n)) ∧
        (x.op = .cas → ∃ t, exec (rowOf x) s = .next t ∧ same t ∧ Returns s t x (s.bytes a (n / 2)) ∧
          Wrote s t a (if s.bytes a (n / 2) = p.take (n / 2) then p.drop (n / 2) else []))) ∧
      (∀ k, x.op = .orderedFadd → x.hdr.unord = false → s.streamEntry u x.hdr.stream.toNat = some k →
        let d := (x.hdr.seq.toNat + 2 ^ 16 - s.nextSeq u k) % 2 ^ 16
        let fresh := s.holdsSeq u x.hdr.stream.toNat x.hdr.seq.toNat = false
        (d < s.crdWin u k → fresh → d = 0 → ∃ t, exec (rowOf x) s = .next t ∧ Signalled s t u x.hdr.tctr x.hdr.tinc (some (crdW0 u k)) ∧
          t.nextSeq u k = (x.hdr.seq.toNat + 1) % 2 ^ 16 ∧
          Wrote s t a ((List.range (n / 4)).flatMap fun i => toLE 4 (f32Add (fieldLE (s.bytes a n) (4 * i) 4) (fieldLE p (4 * i) 4)))) ∧
        (d < s.crdWin u k → fresh → d ≠ 0 → ∃ t, exec (rowOf x) s = .next t ∧ SameBytes s t ∧ same t ∧ t.fab.held = s.fab.held ++ [(u, x)]) ∧
        (s.crdWin u k ≤ d ∨ ¬ fresh → s.fromHere x.hdr = true → ∃ t, exec (rowOf x) s = .next t ∧ SameBytes s t ∧ same t ∧
          t.fab.errs = s.fab.errs ++ [⟨x.hdr.srcUnit.toNat, 8, 8, x.hdr.stream.toNat, x.hdr.addr.toNat, x.owner⟩])))

/-- For every state: the oldest return that a unit accepts into memory writes its bytes and no others, adds 1 to its counter and leaves the list; the first error response to reach a unit without a recorded error is recorded with cause, opcode, stream and address, a later one only sets the overflow flag, and a descriptor that waited for it is in progress no more; a drained operation's credits leave the ingress buffer and change no byte; the held ORDERED_FADD whose sequence is NEXT_SEQ is applied in memory, NEXT_SEQ moves on and its counter rises. [R47; R54; R68; R79; R80; Table 2.8] -/
def Obligations.AnswersCreditsAndReleases : Prop :=
  ∀ s : State,
    let du := fun u : Nat => s.ownChain * 256 + u
    (∀ (src : BitVec 12) (dst : BitVec 8) (stream : BitVec 16) (r : RetItem) (rest : List RetItem),
      takeFirst (fun (r : RetItem) => decide (hdrSrc r.item.hdr = src.toNat) && decide (du dst.toNat ∈ r.item.tgts) && decide (r.item.hdr.stream = stream))
        s.fab.rets = some (r, rest) →
      let off := offOf r.item.hdr.addr.toNat
      r.item.op = .putSignal → s.clean → s.ucie.retraining = false → s.landCause { r.item with owner := .none } dst.toNat = 0 →
      off + r.item.payload.length ≤ CTL → (dst.toNat < 8 → off + r.item.payload.length ≤ SPAD) →
      (∀ e, engOf dst.toNat = some e → s.pairOf e stream.toNat = none) → s.ownerGone r.item.owner = false →
      ∃ t, exec (.returnDelivery src dst stream) s = .next t ∧ Wrote s t (key dst.toNat off) r.item.payload ∧ t.fab.rets = rest ∧
        Signalled s t dst.toNat r.item.hdr.tctr r.item.hdr.tinc none) ∧
    (∀ (unit : BitVec 8) (stream : BitVec 16) (cause : BitVec 4) (r : ErrItem) (rest : List ErrItem),
      takeFirst (fun (r : ErrItem) => decide (r.unit = unit.toNat)) s.fab.errs = some (r, rest) →
      let b := key unit.toNat CTL
      (r.owner = .none → s.fld b 0 0 = 0 → ∃ t, exec (.errorResponse unit false stream cause) s = .next t ∧ t.fab.errs = rest ∧ SameBytes s t ∧
        t.fld b 0 0 = 1 ∧ t.regN (b + 4) = (r.cause + 256 * r.opcode + 2 ^ 16 * r.stream) % 2 ^ 32 ∧ t.reg64 (b + 8) = r.addr % 2 ^ 64 ∧
        ∀ a, a < b ∨ b + 12 < a → t.reg a = s.reg a) ∧
      (r.owner = .none → s.fld b 0 0 = 1 → ∃ t, exec (.errorResponse unit false stream cause) s = .next t ∧ t.fab.errs = rest ∧ SameBytes s t ∧
        t.fld b 1 1 = 1 ∧ ∀ a, a ≠ b → t.reg a = s.reg a) ∧
      (∀ e id, r.owner = .desc e id → ∃ t, exec (.errorResponse unit false stream cause) s = .next t ∧ ∀ d ∈ t.eng[e].started, d.id ≠ id)) ∧
    (∀ (u : BitVec 8) (stream : BitVec 16) (i : Ingress) (rest : List Ingress),
      takeFirst (fun (i : Ingress) => decide (i.unit = du u.toNat) && decide (i.stream = stream.toNat) && i.arrived) s.fab.ingress = some (i, rest) →
      ∃ t, exec (.creditReturn (BitVec.ofNat 12 (du u.toNat)) stream) s = .next t ∧ t.fab.ingress = rest ∧ SameBytes s t ∧ (∀ a, t.reg a = s.reg a) ∧
        ∀ e id, i.owner = .desc e id → t.eng[e].started = s.eng[e].started.map fun d => if d.id = id then { d with ops := d.ops - 1 } else d) ∧
    (∀ (unit : BitVec 8) (stream : BitVec 16) (k : Nat) (h : Nat × FabItem) (rest : List (Nat × FabItem)),
      let u := unit.toNat
      s.streamEntry u stream.toNat = some k →
      takeFirst (fun h => decide (h.1 = u) && decide (h.2.hdr.stream = stream) && decide (h.2.hdr.seq.toNat = s.nextSeq u k)) s.fab.held = some (h, rest) →
      let x := h.2
      let a := key u (offOf x.hdr.addr.toNat)
      s.unitCause u (s.srcOf x.hdr) = 0 → s.clean → offOf x.hdr.addr.toNat + x.payload.length ≤ CTL → (u < 8 → offOf x.hdr.addr.toNat + x.payload.length ≤ SPAD) →
      ∃ t, exec (.orderedFaddRelease unit stream) s = .next t ∧ t.fab.held = rest ∧ t.nextSeq u k = (x.hdr.seq.toNat + 1) % 2 ^ 16 ∧
        Signalled s t u x.hdr.tctr x.hdr.tinc (some (crdW0 u k)) ∧ Wrote s t a (faddBytes (s.bytes a x.payload.length) x.payload))

/-- For every state and the head x of an issuing queue that is no remote operation of a descriptor and is not merged: when another operation goes first nothing changes; when it wins, its targets answer and their credits are granted, it is in flight to them at the fabric priority of its queue's effective level, the credits are held, and no byte changes; when its header is refused at the source it leaves the queue and its error response with the cause is on its way. A waiting operation below priority 14 gains one level; a group whose operation waits for credits sets its bit in FAB_MCG_STATUS; an access wakes an engine in E-IDLE. [R43; R54; R72; R73; R76; R77; R82; R548] -/
def Obligations.QueuesIssueAndAge : Prop :=
  ∀ (unit : BitVec 8) (queue : BitVec 14) (s : State),
    (∀ (x : FabItem) (rest : List FabItem), takeFirst (fun (x : FabItem) => decide (x.hdr.srcUnit.toNat = unit.toNat) && decide (x.queue = queue.toNat)) s.fab.waiting = some (x, rest) →
      (s.wins unit.toNat x = false → exec (.fabricOpIssue unit queue) s = .next s) ∧
      (s.wins unit.toNat x = true → s.rmoOf x = none → (mergeRun x rest).2.2 = 0 → (∀ e id d, x.owner = .desc e id → s.liveDesc e id = some d → d.err = none) →
        (∀ ts s3, s.targets x.op x.hdr = .inr ts → ts ≠ [] → (∀ t ∈ ts, s.sourceCause x t = 0) → s.creditsFor x ts = some s3 →
          ∃ t y, exec (.fabricOpIssue unit queue) s = .next t ∧ t.fab.flight = s.fab.flight ++ [y] ∧ y.tgts = ts ∧ y.op = x.op ∧ y.payload = x.payload ∧
            y.hdr = { x.hdr with prio := BitVec.ofNat 4 (s.issuePrio x) } ∧ t.fab.ingress = s3.fab.ingress ∧ t.fab.waiting.length = rest.length ∧ SameBytes s t) ∧
        (∀ c, s.targets x.op x.hdr = .inl c → x.owner = .none → ∃ t, exec (.fabricOpIssue unit queue) s = .next t ∧ t.fab.flight = s.fab.flight ∧
          t.fab.errs = s.fab.errs ++ [⟨unit.toNat, c, x.op.code, x.hdr.stream.toNat, x.hdr.addr.toNat, .none⟩] ∧ SameBytes s t))) ∧
    (∀ x, s.headItem unit.toNat queue.toNat = some x → s.effPrio x < 14 →
      ∃ t y, exec (.priorityAging unit queue) s = .next t ∧ t.headItem unit.toNat queue.toNat = some y ∧ y = { x with level := x.level + 1 } ∧ SameBytes s t ∧
        ∀ a, t.reg a = s.reg a) ∧
    (∀ (g : Fin 32) (x : FabItem), s.fab.waiting.find? (fun x => x.hdr.mc && decide (unitOf x.hdr.addr.toNat = g.val)
        && decide ((s.headItem x.hdr.srcUnit.toNat x.queue) = some x) && s.waitsCredits x) = some x →
      ∃ t, exec (.mcastSlow g) s = .next t ∧ t.fld (key 0x60 (CTL + 0x1004)) g.val g.val = 1 ∧ t.fab.waiting = s.fab.waiting ∧
        ∀ a, a ≠ key 0x60 (CTL + 0x1004) → t.reg a = s.reg a) ∧
    (∀ (e : Fin 8) (st : Fin 4), unit.toNat = e.val → s.computeUp = true → s.eng[e].power = .idle →
      ∃ t, exec (.clockWake unit st) s = .next t ∧ t.eng[e].power = .on ∧ SameBytes s t ∧ ∀ j, j ≠ e → t.eng[j] = s.eng[j])

/-- For every unit, queue and state whose head operation waits for credits and has not raised STALL: the wait has reached 65,536 NCLK cycles, STALL is set in FAB_STATUS, FAB_STALL_INFO holds its stream, an EVENT record for the unit is issued, the operation still waits, and commands, completions, engines and memory are the same. [R63] -/
def Obligations.StallIsRaisedAndTheOperationKeepsWaiting : Prop :=
  ∀ (unit : BitVec 8) (queue : BitVec 14) (s : State) (x : FabItem),
    s.headItem unit.toNat queue.toNat = some x → x.stalled = false → s.waitsCredits x = true →
    ∃ t, exec (.stall unit queue) s = .next t ∧ x.since + 65536 ≤ t.clock.nclk ∧ t.fld (key unit.toNat CTL) 2 2 = 1 ∧
      t.fld (key unit.toNat (CTL + 0x10)) 15 0 = x.hdr.stream.toNat ∧ (∃ r, t.ledger.queue = s.ledger.queue ++ [(0x05, r)] ∧ fieldLE r 1 1 = unit.toNat ∧
        fieldLE r 2 8 = x.hdr.stream.toNat) ∧
      t.headItem unit.toNat queue.toNat = some { x with stalled := true } ∧ t.fab.waiting.length = s.fab.waiting.length ∧ t.cmds = s.cmds ∧
      t.completions = s.completions ∧ t.eng = s.eng ∧ SameBytes s t ∧
      ∀ a, a ≠ key unit.toNat CTL → a ≠ key unit.toNat (CTL + 0x10) → t.reg a = s.reg a

/-- The offset `o` of unit `u` holds no register with an effect of its own. -/
def Plain (s : State) (u o v : Nat) : Prop :=
  s.unitRegWrite u o v = none ∧ s.pmcRegWrite u o v = none ∧ ¬ (CTC ≤ o ∧ o < CTC + 0x2000) ∧ ¬ (CTM ≤ o ∧ o < CTM + 0x10000) ∧ o ≠ CTL + 0x100 ∧
    o ≠ CTL + 0x11C ∧ ¬ (u = 0x31 ∧ CTU + 0x100 ≤ o ∧ o < CTU + 0x500)

/-- For every unit that answers the writer: a word-aligned write of a plain register that the source may write leaves in it the merge of old and new value by its fields' access codes and changes no other register; a write where no register is changes no register; one that the source may not write changes none and its error response carries ACCESS; a misaligned one changes nothing. While VALID is 1 a write of FAB_CRD_k_W0 has no effect and one of W1 only when it clears VALID, which stores it and fails the held operations with NO_STREAM; otherwise the anchor's writes are stored. [R7; R8; R10; R57; R58; Table 0.4] -/
def Obligations.RegisterWritesFollowTheirAccessCodes : Prop :=
  ∀ (src : BitVec 8) (s : State),
    (∀ (unit : BitVec 9) (off : BitVec 52) (v : Reg32),
      let u := unit.toNat
      let o := off.toNat
      let denied := s.regDenied (s.ownChain * 256 + src.toNat) u o
      u ≠ BAR0 → CTL ≤ o → s.unitCause u src.toNat = 0 →
      (o % 4 ≠ 0 → exec (.registerWrite src unit off v) s = .next s) ∧
      (o % 4 = 0 → denied = true → ∃ t, exec (.registerWrite src unit off v) s = .next t ∧ SameBytes s t ∧ (∀ a, t.reg a = s.reg a) ∧
        t.fab.errs = s.fab.errs ++ [⟨src.toNat, 7, 1, 0, key u o, .none⟩]) ∧
      (o % 4 = 0 → denied = false → Plain (s.reach u) u o v.toNat →
        (∀ r, regRow (key u o) = some r → ∃ t, exec (.registerWrite src unit off v) s = .next t ∧ SameBytes s t ∧
          t.regN (key u o) = r.merge (s.regN (key u o)) v.toNat % 2 ^ 32 ∧ ∀ a, a ≠ key u o → t.reg a = s.reg a) ∧
        (regRow (key u o) = none → ∃ t, exec (.registerWrite src unit off v) s = .next t ∧ SameBytes s t ∧ ∀ a, t.reg a = s.reg a))) ∧
    (∀ (unit : BitVec 8) (k : BitVec 10) (v : Reg32),
      let u := unit.toNat
      let w0 := crdW0 u k.toNat
      let w1 := crdW1 u k.toNat
      let only := fun (t : State) (b : Nat) => SameBytes s t ∧ t.reg b = v ∧ ∀ a, a ≠ b → t.reg a = s.reg a
      s.unitCause u 0x60 = 0 → k.toNat < creditEntries (unitClass u) →
      (s.fld w1 31 31 = 1 → ∃ t, exec (.fabCrdW0Write 0x60 unit k v) s = .next t ∧ SameBytes s t ∧ ∀ a, t.reg a = s.reg a) ∧
      (s.fld w1 31 31 = 0 → (∃ t, exec (.fabCrdW0Write 0x60 unit k v) s = .next t ∧ only t w0) ∧
        ∃ t, exec (.fabCrdW1Write 0x60 unit k v) s = .next t ∧ only t w1) ∧
      (s.fld w1 31 31 = 1 → v.getLsbD 31 = true → ∃ t, exec (.fabCrdW1Write 0x60 unit k v) s = .next t ∧ SameBytes s t ∧ ∀ a, t.reg a = s.reg a) ∧
      (s.fld w1 31 31 = 1 → v.getLsbD 31 = false → ∃ t, exec (.fabCrdW1Write 0x60 unit k v) s = .next t ∧ only t w1 ∧
        t.fab.held = s.fab.held.filter (fun h => !(decide (h.1 = u) && decide (h.2.hdr.stream.toNat = s.fld w0 15 0))) ∧
        (∀ h ∈ s.fab.held, h.1 = u → h.2.hdr.stream.toNat = s.fld w0 15 0 → s.fromHere h.2.hdr = true →
          ⟨h.2.hdr.srcUnit.toNat, 6, h.2.op.code, h.2.hdr.stream.toNat, h.2.hdr.addr.toNat, h.2.owner⟩ ∈ t.fab.errs)))

/-- `s` with configuration `nx` waiting on carrier `id`, which comes to exist when it does not. -/
def withNext (s : State) (id p : Nat) (d m : List Byte) (nx : (Nat × Nat) × Nat × List Byte × List Byte) : State :=
  match s.carriers.find? fun x => decide (x.id = id) with
  | some _ => s.modCarrier id fun x => { x with next := some nx }
  | none => { s with carriers := s.carriers ++ [⟨id, p, d, m, none, some nx, none⟩] }

/-- For a CARRIER_CFG that may execute, in the REALTIME partition that owns the descriptor's engine, in a state with no bad code bit: with NPRB 0 it waits when the carrier is active and completes BAD_PARAM when not; with a descriptor, map and group in range, room and admission, the streams of its map are registered, the carrier's next configuration is this one, and the command waits; a descriptor out of range completes BAD_PARAM. At the boundary of a carrier without requests in flight and without a trial, NPRB 0 removes the carrier, any other descriptor is its descriptor from then on, and the command completes OK with the carrier number. [R282; R283; R377; Table 10.2; Table 10.3] -/
def Obligations.CarriersWaitForTheirBoundary : Prop :=
  ∀ (s : State) (c : Cmd),
    (∀ (pair : BitVec 16) (p : Fin 8) (q : Part), Ready s pair 0x20 c → c.partNo = some p → s.parts[p] = some q → s.clean →
      let o := c.param 8 8
      let d := s.bytes (key 0x40 o) 64
      let m := s.bytes (key 0x40 (cEaxc d)) (16 * (cUl d + cDl d))
      let id := c.param 0 1
      let old := s.carriers.find? fun x => decide (x.id = id)
      let others := s.carriers.filter fun x => decide (x.id ≠ id) && decide (cEng x.desc = cEng d)
      let ok := carrierOk d = true ∧ mapOk d m = true ∧ ∀ x ∈ others, cMu x.desc = cMu d ∧ cEcp x.desc = cEcp d ∧ cNetset x.desc = cNetset d
      let waits := fun t : State => (t.cmdOf c.id).map (·.phase) = some .waiting ∧ t.completions = s.completions ∧
        ∃ x ∈ t.carriers, x.id = id ∧ x.next = some (c.id, p.val, d, m)
      q.inHbm o 64 = true → q.cls = 0 → bit q.engmask (cEng d) = true → id = fieldLE d 0 1 % 32 → id < 24 →
      (cNprb d = 0 → (old.bind (·.base)).isSome = true → ∃ t, exec (.carrierCfg pair) s = .next t ∧ waits t) ∧
      (cNprb d = 0 → (old.bind (·.base)).isSome = false → ∃ t, exec (.carrierCfg pair) s = .next t ∧ Ends s t c 0x0C 0 0) ∧
      (cNprb d ≠ 0 → ¬ ok → ∃ t, exec (.carrierCfg pair) s = .next t ∧ Ends s t c 0x0C 0 0) ∧
      (∀ s1, cNprb d ≠ 0 → ok → carrierLimits d = true → (old.isSome = true ∨ s.carriers.length < s.nCarriers) → others.length ≤ 3 →
        buffersFit d m (if q.lends then q.lendBase else SPAD) = true → s.registerMap d m = some s1 →
        (withNext s1 id p.val d m (c.id, p.val, d, m)).admits s.power.cap = true →
        ∃ t, exec (.carrierCfg pair) s = .next t ∧ waits t ∧ ∀ a, t.reg a = s1.reg a)) ∧
    (∀ (n : Fin 24) (x : Carrier) (id : Nat × Nat) (p : Nat) (d m : List Byte), s.carriers.find? (fun x => decide (x.id = n.val)) = some x →
      x.next = some (id, p, d, m) → (∀ u ∈ s.ul, u.carrier ≠ x.id) → (∀ u ∈ s.dl, u.carrier ≠ x.id) → s.ledger.up = true →
      (∀ g ∈ s.shadow.groups, g.trial = none) → s.cmdOf id = some c → c.replay = false → c.phase ≠ .done →
      ∃ t, exec (.carrierSwitch n) s = .next t ∧ Ends s t c 0 0 n.val ∧
        (cNprb d = 0 → ∀ y ∈ t.carriers, y.id ≠ n.val) ∧
        (cNprb d ≠ 0 → ∃ y ∈ t.carriers, y.id = n.val ∧ y.part = p ∧ y.desc = d ∧ y.map = m ∧ y.base.isSome = true ∧ y.next = none))

/-- For a UL_SLOT or DL_SLOT that may execute in a state with no bad code bit: one whose carrier, block, records, options or limits fail completes with the status of that check; an uplink request whose slot counter does not rise above the pair's latest completes BAD_PARAM; a sound request whose trigger has passed completes DEADLINE_MISS with DETAIL 32; any other waits, and its slot holds the request block as read. [R293; R304; R369; R378; Table 13.12] -/
def Obligations.SlotRequestsAreAcceptedOrEnd : Prop :=
  ∀ (pair : BitVec 16) (s : State) (c : Cmd), s.clean →
    let n := c.param 8 8
    let order := ∀ m, s.prevUl c.pair = some m → m < n
    (Ready s pair 0x21 c →
      (¬ order → ∃ t, exec (.ulSlot pair) s = .next t ∧ Ends s t c 0x0C 0 0) ∧
      (∀ st, order → (s.slotReq c false).2 = .inl st → ∃ t, exec (.ulSlot pair) s = .next t ∧ Ends s t c st 0 0) ∧
      (∀ x b, order → (s.slotReq c false).2 = .inr (x, n, b) →
        (cResSize x.desc < resultBytes b → ∃ t, exec (.ulSlot pair) s = .next t ∧ Ends s t c 0x0D 0 0) ∧
        (resultBytes b ≤ cResSize x.desc → s.estTrigger x.desc (x.abs n) ≤ s.timeFor x.part →
          ∃ t, exec (.ulSlot pair) s = .next t ∧ Ends s t c 0x08 32 0) ∧
        (resultBytes b ≤ cResSize x.desc → s.timeFor x.part < s.estTrigger x.desc (x.abs n) →
          ∃ t, exec (.ulSlot pair) s = .next t ∧ (t.cmdOf c.id).map (·.phase) = some .waiting ∧ t.completions = s.completions ∧ SameBytes s t ∧
            t.prevUl c.pair = some n ∧ t.ul = s.ul ++ [⟨x.id, n, c.id, b, none, false, false, false, false⟩]))) ∧
    (Ready s pair 0x22 c →
      (∀ st, (s.slotReq c true).2 = .inl st → ∃ t, exec (.dlSlot pair) s = .next t ∧ Ends s t c st 0 0) ∧
      (∀ x b, (s.slotReq c true).2 = .inr (x, n, b) →
        (s.txTrigger (cEng x.desc) x.desc (x.abs n) ≤ s.timeFor x.part → ∃ t, exec (.dlSlot pair) s = .next t ∧ Ends s t c 0x08 32 0) ∧
        (s.timeFor x.part < s.txTrigger (cEng x.desc) x.desc (x.abs n) →
          ∃ t, exec (.dlSlot pair) s = .next t ∧ (t.cmdOf c.id).map (·.phase) = some .waiting ∧ t.completions = s.completions ∧ SameBytes s t ∧
            t.dl = s.dl ++ [⟨x.id, n, c.id, b, false, [], false, false⟩])))

/-- The row of a stage kind. -/
def stageRow (e : Fin 8) (kind : Nat) : Instr := if kind = 0 then .est e else if kind = 30 then .tx e else .eq e

/-- For every engine whose group's next stage command, by trigger time, is of the row's kind, in a state that holds no ended stage command: with the engine free, the stage is running for the slot and its carriers and the engine is RUNNING with it; with a command that is neither a stage command nor REALTIME on it, that command is being killed. DEC begins the earliest slot's decoding. A killed stage command leaves the list of stages, so that it is due again, and the slots that it serves carry RERUN when the kill was for a fault or counted. [R295; R296; R297; R304; R306; R307] -/
def Obligations.StagesRunAtTheirTriggers : Prop :=
  ∀ (e : Fin 8) (s : State), s.collectStages = s →
    (∀ k kind c j, s.nextStage e.val = some (k, kind) → kind ≤ 30 → (s.group e.val).head? = some c → s.radioJob c.part = some j →
      (kind = 30 → s.dlOf e.val k ≠ [] ∧ ∀ x ∈ s.dlOf e.val k, Config.srsSlot x.2.req = 0) →
      (s.eng[e].cmd = none → s.engFree e = true → ∃ t, exec (stageRow e kind) s = .next t ∧
        t.eng[e].cmd = some (stageId e.val kind k) ∧ t.eng[e].state = .running ∧
        t.stages = s.stages ++ [⟨e.val, kind, k, s.stageCarriers e.val kind k, true, false, false⟩] ∧ ∀ i : Fin 8, i ≠ e → t.eng[i] = s.eng[i]) ∧
      (∀ id, s.eng[e].cmd = some id → isStage id = false → s.isRealtime (s.ownerPart e) = false → s.eng[e].state ∈ [.running, .waiting, .halted] →
        ∃ t, exec (stageRow e kind) s = .next t ∧ t.eng[e].state = .killing ∧ t.eng[e].kill = some ⟨.uncounted, KILLED, 0⟩ ∧ t.stages = s.stages)) ∧
    (∀ k, (((s.group e.val).flatMap fun c => (s.ul.filter fun u => decide (u.carrier = c.id) && !u.aborted).map fun u => c.abs u.n).filter fun k =>
        !(s.stages.any fun g => decide (g.eng = e.val) && decide (g.slot = k) && decide (g.kind = 31))).min? = some k →
      ∃ t, exec (.dec e) s = .next t ∧ t.eng = s.eng ∧ SameBytes s t ∧
        t.stages = s.stages ++ [⟨e.val, 31, k, s.stageCarriers e.val 31 k, true, false, false⟩]) ∧
    (∀ id k rest, s.stageKills = (id, k) :: rest → (id.1 - 0x10000) % 32 < 30 →
      ∃ t, exec .stageRerun s = .next t ∧ t.stageKills = rest ∧ t.eng = s.eng ∧ (∀ g ∈ t.stages, stageId g.eng g.kind g.slot ≠ id) ∧ SameBytes s t ∧
        ∀ u ∈ s.ul, ∀ x, s.carrier u.carrier = some x → cEng x.desc = (id.1 - 0x10000) / 32 → x.abs u.n = id.2 → k.why ≠ .uncounted →
          { u with rerun := true } ∈ t.ul)

/-- For the one request of a group's slot whose stages have ended, whose decoders are idle, whose group has no shadow configuration and whose carrier is known by its number: SLOT_PUBLISH writes a result whose first 8 bytes are the slot counter (while Mirror records nothing, whose journal the memory also holds), publishes the slot, removes the request and completes its command with OK, OK_EMPTY, NONFINITE_FLAG or DEADLINE_MISS and the result's place as VALUE. A ready block for a carrier whose older slots hold no buffer leaves as one PUT_SIGNAL with the stream, counter and sequence of its eAxC. The close of a symbol's window marks every block not delivered as missing and delivered. A downlink request of which every symbol has been sent or dropped completes OK, or DEADLINE_MISS when one was dropped. [R286; R287; R288; R296; R300; R305; R307; Table 10.5] -/
def Obligations.SlotsArePublishedOnce : Prop :=
  ∀ (s : State),
    (∀ (e : Fin 8) (k : BitVec 64) (c : Carrier) (u : UlSlot) (cc : Cmd), s.collectStages = s → s.ledger.up = true → s.fullIf = true → s.clean →
      s.ulOf e.val k.toNat = [(c, u)] → (∀ x ∈ s.ul, x.aborted = false) → s.slotEnded e.val k.toNat = true → s.decodersIdle c.part = true →
      s.carriers.find? (fun y => decide (y.id = c.id)) = some c → s.shGroup e.val = none → s.captures = [] →
      s.cmdOf u.cmd = some cc → cc.replay = false → cc.phase ≠ .done →
      ∃ t st detail, exec (.slotPublish e k) s = .next t ∧ st ∈ [0, 1, 5, 8] ∧ t.published = s.published ++ [(c.id, u.n)] ∧
        (∀ x ∈ t.ul, ¬ (x.carrier = c.id ∧ x.n = u.n)) ∧ (t.cmdOf u.cmd).map (·.phase) = some .done ∧
        t.completions = s.completions ++ [⟨u.cmd.1, u.cmd.2, st, detail, u.n % cResCount c.desc, bit (fieldLE cc.pkt 1 1) 1⟩] ∧
        (64 ≤ cResSize c.desc → s.recording = false → t.bytes (key 0x40 (cResBase c.desc + u.n % cResCount c.desc * cResSize c.desc)) 8 = toLE 8 u.n)) ∧
    (∀ (port : Fin 16) (b : ReadyBlk) (rest : List ReadyBlk) (c : Carrier), takeFirst (fun b => decide (b.port = port.val)) s.front.ready = some (b, rest) →
      s.carrier b.carrier = some c → s.heldSlots c.id b.n = [] →
      let x := mapEntry c.map (b.blk / 112)
      ∃ t i, exec (.blockDelivery port) s = .next t ∧ t.front.ready = rest ∧ t.fab.waiting = s.fab.waiting ++ [i] ∧ SameBytes s t ∧ i.op = .putSignal ∧
        i.payload = b.bytes ∧ i.hdr.stream = BitVec.ofNat 16 (mStream x) ∧ i.hdr.tctr = BitVec.ofNat 12 (mTctr x) ∧ i.hdr.tinc = 1 ∧
        i.hdr.seq = BitVec.ofNat 16 (256 * (b.n % 256) + 16 * (b.blk / 8 % 14) + b.blk % 8)) ∧
    (∀ (c : Fin 24) (n : BitVec 64) (sym : Fin 14) (x : Carrier), s.carrier c.val = some x → sym.val < cNsym x.desc →
      (c.val, n.toNat) ∉ s.published → s.replayOf x.part = none → (∀ r, s.rxOf c.val n.toNat = some r → sym.val ∉ r.closed) →
      let before := ((s.rxOf c.val n.toNat).map (·.done)).getD []
      ∃ t r, exec (.rxWindowClose c n sym) s = .next t ∧ t.rxOf c.val n.toNat = some r ∧ sym.val ∈ r.closed ∧
        ∀ i k, i < cUl x.desc → k < cNblk x.desc → (i * 14 + sym.val) * 8 + k ∈ r.done ∧
          ((i * 14 + sym.val) * 8 + k ∉ before → (i * 14 + sym.val) * 8 + k ∈ r.missing)) ∧
    (∀ (c : Fin 24) (n : BitVec 64) (x : Carrier) (u : DlSlot) (cc : Cmd), s.collectStages = s → s.carrier c.val = some x →
      s.dl.find? (fun u => decide (u.carrier = c.val) && decide (u.n = n.toNat)) = some u → u.cplane = true → s.ledger.up = true →
      (∀ i y, i < cDl x.desc → y < cNsym x.desc → i * 14 + y ∈ u.done) → s.cmdOf u.cmd = some cc → cc.replay = false → cc.phase ≠ .done →
      ∃ t, exec (.dlSlotComplete c n) s = .next t ∧ Ends s t cc (if u.missed then 8 else 0) 0 0 ∧
        ∀ v ∈ t.dl, ¬ (v.carrier = c.val ∧ v.n = n.toNat))

/-- For a request of an active carrier of no replay, and a symbol and stream of it not yet sent: complete and not later than its window's close, its blocks leave its port as one frame each, counted there, and the symbol is done; incomplete or late, it is done, the request is marked missed, and no frame leaves. CPLANE_SEND marks the slot's requests as having their C-plane messages sent, and counts their frames at each eAxC's port. No byte of memory changes. [R305; R472; R473; Table 17.8] -/
def Obligations.DownlinkFramesLeaveInTheirWindow : Prop :=
  ∀ (c : Fin 24) (n : BitVec 64) (s : State) (x : Carrier), s.carrier c.val = some x → s.replayOf x.part = none →
    (∀ (i : Fin 16) (sym : Fin 14) (complete : Bool) (u : DlSlot), s.dl.find? (fun u => decide (u.carrier = c.val) && decide (u.n = n.toNat)) = some u →
      i.val < cDl x.desc → sym.val < cNsym x.desc → i.val * 14 + sym.val ∉ u.done →
      let late := s.airTime x.desc (x.abs u.n) sym.val - nsT (cTxClose x.desc) < s.ptp
      let sent := fhKey (mPort (mapEntry x.map (cUl x.desc + i.val))) 0x74
      (complete = true → ¬ late → ∃ t, exec (.uplaneSend c n i sym complete) s = .next t ∧ SameBytes s t ∧
        { u with done := u.done ++ [i.val * 14 + sym.val], left := true } ∈ t.dl ∧
        t.regN sent = min 0xFFFFFFFF (s.regN sent + cNblk x.desc) ∧ ∀ a, a ≠ sent → t.reg a = s.reg a) ∧
      (complete = false ∨ late → ∃ t, exec (.uplaneSend c n i sym complete) s = .next t ∧ SameBytes s t ∧ t.front = s.front ∧ (∀ a, t.reg a = s.reg a) ∧
        { u with done := u.done ++ [i.val * 14 + sym.val], missed := true } ∈ t.dl)) ∧
    (s.recording = false → ∃ t, exec (.cplaneSend c n) s = .next t ∧ SameBytes s t ∧
      (∀ u ∈ t.ul, u.carrier = c.val → u.n = n.toNat → u.cplane = true) ∧
      (∀ u ∈ t.dl, u.carrier = c.val → u.n = n.toNat → u.cplane = true))

/-- A read of `n` bytes at `addr` by unit `u` on a stream gives the bytes `b` of memory of this device. -/
def ReadsAs (s : State) (u stream addr n : Nat) (b : List Byte) : Prop :=
  let a := (s.translate (BitVec.ofNat 64 addr)).toNat
  b = s.bytes (key (unitOf a) (offOf a)) n ∧ s.clean ∧
    (n = 0 ∨ (devOf a = s.ownChain ∧ s.reachCause u stream a n = 0 ∧ (s.streamEntry u stream).isSome = true ∧ offOf a + n ≤ CTL))

/-- Decoder `f` has descriptor `w`, of kind `k`, in progress and has not run it. -/
def Working (s : State) (f : Fin 8) (w : FctWork) (k : Nat) : Prop :=
  s.facet.length = 8 ∧ (s.fct f.val).cur = some w ∧ w.ran = false ∧ fctKind w.desc = k ∧ s.computeUp = true

/-- It has run and gave `o`: its results stand, its outputs wait. -/
def RanTo (s t : State) (f : Fin 8) (w : FctWork) (o : FctOut) : Prop :=
  ∃ items, t.fab.waiting = s.fab.waiting ++ items ∧ SameBytes s t ∧
    (t.fct f.val).cur = some { w with ran := true, flags := o.flags, iter := o.iter, metric := o.metric, wgen := o.wgen, ops := items.length } ∧
    items.flatMap (·.payload) = o.puts.flatMap (·.2) ∧ ∀ i ∈ items, i.op = .put ∧ i.owner = .facet f ∧ i.payload.length ≤ 4096

/-- For every decoder whose queue's next descriptor stands in readable memory: it becomes the descriptor in progress with its index and the cause, if any, with which it is refused, and the count of descriptors taken rises. A descriptor in progress whose inputs are readable runs under its kind's row: its flags, iterations and metric are those of the kind's computation on the bytes read, and its outputs wait as PUTs of the decoder; one whose input fails stops with that cause. A descriptor that has ended with nothing outstanding writes its status record and adds 1 to its counter. Aging raises a ready queue's level by 1, FLUSH takes the queue's count to its token counter and drops its descriptor, and a window of 1 ms starts metering again. [R308; R309; R310; R311; R313; R314; R331; R333; R334; Table 11.4] -/
def Obligations.FacetDecodersWorkThroughTheirDescriptors : Prop :=
  ∀ (f : Fin 8) (s : State),
    (∀ q b, s.facet.length = 8 → s.computeUp = true → f.val < s.nEngines → (s.fct f.val).cur = none → s.fctNext f.val = some q →
      let d := s.facetDesc f.val q
      let i := s.fctTaken f.val q
      ReadsAs s (0x10 + f.val) d.stream (d.ring + 64 * (i % 2 ^ d.log2size)) 64 b →
      ∃ t w, exec (.facetFetch f) s = .next t ∧ (t.fct f.val).cur = some w ∧ w.queue = q ∧ w.seq = i ∧ w.desc = b ∧
        w.cause = s.fctRefuse f.val d.level b ∧ w.ran = (decide (w.cause ≠ 0) || dEmpty b) ∧ t.fctTaken f.val q = (i + 1) % 2 ^ 32) ∧
    (∀ w, let d := w.desc
      let st := (s.facetDesc f.val w.queue).stream
      let free := Config.freeWord s.fresh
      (∀ gen ws ls hin, Working s f w 1 → (s.weightSet f.val st d).2 = .inr (gen, ws) → ReadsAs s (0x10 + f.val) st (dIn d) (dE d) ls →
        ReadsAs s (0x10 + f.val) st (dHin d) (if dHcomb d then dNcb d else 0) hin →
        ∃ t, exec (.ldpcDec f) s = .next t ∧ RanTo s t f w (ldpcRun d gen ws ls hin free)) ∧
      (∀ b, Working s f w 2 → ReadsAs s (0x10 + f.val) st (dIn d) (ceilDiv (dKp d - (if dCrc d = 1 then 24 else 0)) 8) b →
        ∃ t, exec (.ldpcEnc f) s = .next t ∧ RanTo s t f w (ldpcEncRun d b free)) ∧
      (∀ b, Working s f w 3 → ReadsAs s (0x10 + f.val) st (dIn d) (dLong d) b →
        ∃ t, exec (.polarDec f) s = .next t ∧ RanTo s t f w (polarDecRun d b free)) ∧
      (∀ b, Working s f w 4 → ReadsAs s (0x10 + f.val) st (dIn d) (ceilDiv (dK d) 8) b →
        ∃ t, exec (.polarEnc f) s = .next t ∧ RanTo s t f w (polarEncRun d b free)) ∧
      (∀ b, Working s f w 5 → ReadsAs s (0x10 + f.val) st (dIn d) (ceilDiv (dLong d + (if dFlag6 d then 0 else (cbCrc (dCrc d)).1)) 8) b →
        ∃ t, exec (.tbcrc f) s = .next t ∧ RanTo s t f w (tbCrcRun d b free)) ∧
      (∀ c, Working s f w 3 → w.cause = 0 → (s.fctRead f.val st (dIn d) (dLong d)).2 = .inl c →
        ∃ t x, exec (.polarDec f) s = .next t ∧ (t.fct f.val).cur = some x ∧ x.ran = true ∧ x.cause = c.1 ∧ x.fcause = c.2) ∧
      (s.facet.length = 8 → s.computeUp = true → (s.fct f.val).cur = some w → w.ran = true → w.ops = 0 →
        ∃ t i, exec (.facetStatusRecord f) s = .next t ∧ t.fab.waiting = s.fab.waiting ++ [i] ∧ (t.fct f.val).cur = none ∧ SameBytes s t ∧
          i.op = .putSignal ∧ i.payload = w.record ∧ i.hdr.tctr = BitVec.ofNat 12 (dRtctr d) ∧ i.hdr.tinc = 1 ∧
          i.hdr.addr = s.translate (BitVec.ofNat 64 (dSt d)))) ∧
    (∀ q : BitVec 5, s.facet.length = 8 → (s.facetDesc f.val q.toNat).valid = true → s.fctReady f.val q.toNat = true →
      (s.facetDesc f.val q.toNat).level ≤ 5 → s.fld (fctReg f.val 8) 15 0 ≠ 0 → s.fctLevel f.val q.toNat < 6 →
      ∃ t, exec (.facetAging f q) s = .next t ∧ t.fctLevel f.val q.toNat = s.fctLevel f.val q.toNat + 1 ∧ SameBytes s t ∧ ∀ a, t.reg a = s.reg a) ∧
    (∀ q : BitVec 5, s.facet.length = 8 → s.unitCause (0x10 + f.val) 0x60 = 0 →
      ∃ t, exec (.fctFlush 0x60 f q) s = .next t ∧ t.fctTaken f.val q.toNat = (s.tok (0x10 + f.val) q.toNat).toNat ∧
        (∀ w, (s.fct f.val).cur = some w → w.queue = q.toNat → (t.fct f.val).cur = none ∧ ∀ x ∈ t.fab.waiting, x.owner ≠ .facet f) ∧
        (∀ w, (s.fct f.val).cur = some w → w.queue ≠ q.toNat → (t.fct f.val).cur = some w ∧ SameBytes s t)) ∧
    (∃ t, exec .facetShareWindow s = .next t ∧ (∀ x ∈ t.facet, x.metered = []) ∧ SameBytes s t ∧ t.eng = s.eng)

/-- Command `c` awaits its outcome. -/
def Awaits (s : State) (c : Cmd) : Prop := s.cmdOf c.id = some c ∧ c.replay = false ∧ c.phase ≠ .done ∧ s.ledger.up = true

/-- For ring commands that may execute in a state with no bad code bit: LOAD_WEIGHTS of a sound image waits, of an unsound one completes BAD_PARAM, and REVERT makes the previous collection current with the next GEN as VALUE; the commit writes the directory with that GEN in the other half and makes it current. SHADOW_CONFIG with legal values sets the group's figures and CAP. NET_TRIAL of a sound candidate starts a trial of no slots and waits; a trial with GUARD evaluated slots that passes both comparisons makes the candidate current with the next GEN, clears itself and completes OK, one that fails either completes ROLLBACK with that DETAIL; at TMAX slots without GUARD evaluated it completes ROLLBACK with DETAIL 4; NET_ROLLBACK exchanges CUR and PREV and completes OK with the GEN restored. The end of a window carries the excess of array cycles over. [R327; R328; R341; R343; R345; R347; R348; R349; R350; Table 12.4; Table 12.5] -/
def Obligations.LearnedParametersAreLoadedTriedAndRolledBack : Prop :=
  ∀ (s : State) (c : Cmd), s.clean →
    (∀ (pair : BitVec 16) (p : Fin 8) (q : Part), Ready s pair 0x28 c → c.partNo = some p → s.parts[p] = some q →
      let src := c.param 0 8
      let len := c.param 8 4
      let b := s.bytes (key 0x40 src) len
      let w := s.weightsNow p.val
      (slice c.pkt 29 35).all (fun x => decide (x = 0)) = true →
      (c.param 12 1 = 0 → len = 0 → ∃ t, exec (.loadWeights pair) s = .next t ∧ Ends s t c 1 0 (w.gen % 2 ^ 32)) ∧
      (c.param 12 1 = 0 → len ≠ 0 → src % 64 = 0 → q.inHbm src len = true →
        (imageSets b = none → ∃ t, exec (.loadWeights pair) s = .next t ∧ Ends s t c 0x0C 0 0) ∧
        (∀ ps, imageSets b = some ps → 2 * (DIRSIZE + ps.foldl (fun a i => a + setRoom b i) 0) ≤ q.poolSize →
          ∃ t, exec (.loadWeights pair) s = .next t ∧ (t.cmdOf c.id).map (·.phase) = some .waiting ∧ t.completions = s.completions ∧ SameBytes s t)) ∧
      (c.param 12 1 = 1 → len = 0 → src = 0 →
        (w.old = none → ∃ t, exec (.loadWeights pair) s = .next t ∧ Ends s t c 0x0C 0 0) ∧
        (∀ d, w.old = some d → ∃ t n, exec (.loadWeights pair) s = .next t ∧ Ends s t c 0 0 ((w.gen + 1) % 2 ^ 32) ∧ t.weightsOf w.part = some n ∧
          n.gen = (w.gen + 1) % 2 ^ 32 ∧ n.half = 1 - w.half ∧ n.digest = d ∧ n.old = some w.digest))) ∧
    (∀ (p : Fin 8) (ps : List Nat), s.cmds.find? (fun c => decide (c.op = 0x28) && decide (c.part = p.val) && decide (c.phase = .waiting)) = some c →
      Awaits s c → s.computeUp = true →
      let w := s.weightsNow p.val
      let base := weightBase p.val (1 - w.half)
      let len := c.param 8 4
      let b := s.bytes (key 0x40 (c.param 0 8)) len
      s.oldSlots w = false → s.namesDir p.val base (DIRSIZE + len) = false → imageSets b = some ps →
      ∃ t n, exec (.weightsCommit p) s = .next t ∧ Ends s t c 0 0 ((w.gen + 1) % 2 ^ 32) ∧ t.weightsOf p.val = some n ∧ n.gen = (w.gen + 1) % 2 ^ 32 ∧
        n.half = 1 - w.half ∧ n.digest = Config.sha384 b ∧ t.bytes (key 0x41 base) 4 = toLE 4 ((w.gen + 1) % 2 ^ 32) ∧
        t.bytes (key 0x41 (base + DIRSIZE)) (len - 64) = b.drop 64) ∧
    (∀ (pair : BitVec 16) (p : Fin 8) (q : Part), Ready s pair 0x30 c → c.partNo = some p → s.parts[p] = some q →
      let e := c.param 0 1
      let cap := c.param 1 1
      let ring := c.param 16 8
      let rsize := c.param 24 8
      q.cls = 1 → e < s.nEngines → (cap ≤ 70 ∧ cap + s.rtShare ≤ 100 ∨ cap = 0xFF) → 100 ≤ c.param 4 4 → c.param 4 4 ≤ 65535 → c.param 4 4 ≤ c.param 8 4 →
      c.param 12 2 ≤ 10000 → ring % 4096 = 0 → rsize % 4096 = 0 → 0 < rsize → q.inHbm ring rsize = true →
      ∃ t g, exec (.shadowConfig pair) s = .next t ∧ Ends s t c 0 0 (((s.shGroup e).map (·.capdrop)).getD 0 % 2 ^ 32) ∧ t.shGroup e = some g ∧
        g.cstride = c.param 2 2 ∧ g.guard = c.param 4 4 ∧ g.tmax = c.param 8 4 ∧ g.mcrc = c.param 12 2 ∧ g.mllr = c.param 14 2 ∧ g.ring = ring ∧
        g.rsize = rsize ∧ g.trial = (s.shGroup e).bind (·.trial) ∧ t.shadow.cap = if cap = 0xFF then s.shadow.cap else cap) ∧
    (∃ t, exec .shadowCapWindow s = .next t ∧ t.shadow.used = s.shadow.used - s.shadowBudget ∧ SameBytes s t ∧ t.eng = s.eng ∧ ∀ a, t.reg a = s.reg a) ∧
    (∀ (pair : BitVec 16) (g : Group) (x : Carrier) (xs : List Carrier), Ready s pair 0x31 c → bit (c.param 1 1) 0 = false →
      let e := c.param 0 1
      let a := cNetset x.desc
      let cand := c.param 8 8
      s.shGroup e = some g → s.group e = x :: xs → g.trial = none → s.candOk cand (s.hbmN (a + 24) 4) = true → s.candSize cand ≤ Config.netRoom e →
      ∃ t r, exec (.netTrial pair) s = .next t ∧ (t.cmdOf c.id).map (·.phase) = some .waiting ∧ (t.shGroup e).bind (·.trial) = some r ∧ r.cmd = c.id ∧
        r.seen = 0 ∧ r.evald = 0 ∧ t.completions = s.completions) ∧
    (∀ (e : Fin 8) (g : Group) (r : Trial) (a : Nat), s.shGroup e.val = some g → g.trial = some r → c.id = r.cmd → Awaits s c → s.netBlock e.val = some a →
      let gen := s.hbmN (a + 16) 4
      (g.guard ≤ r.evald → r.crcOk g.mcrc = true → r.llrOk g.mllr = true →
        ∃ t, exec (.trialDecide e) s = .next t ∧ Ends s t c 0 0 ((gen + 1) % 2 ^ 32) ∧ (t.shGroup e.val).bind (·.trial) = none ∧
          t.hbmN a 8 = r.cand % 2 ^ 64 ∧ t.hbmN (a + 8) 8 = s.hbmN a 8 ∧ t.hbmN (a + 16) 4 = (gen + 1) % 2 ^ 32 ∧ t.hbmN (a + 20) 4 = gen ∧
          t.hbmN (a + 28) 1 = 0) ∧
      (g.guard ≤ r.evald → r.crcOk g.mcrc = false ∨ r.llrOk g.mllr = false →
        ∃ t, exec (.trialDecide e) s = .next t ∧ Ends s t c 0x0B (b2n (!(r.crcOk g.mcrc)) + 2 * b2n (!(r.llrOk g.mllr))) gen ∧
          (t.shGroup e.val).bind (·.trial) = none ∧ t.hbmN a 8 = s.hbmN a 8) ∧
      (r.evald < g.guard → ∃ t, exec (.trialTimeout e) s = .next t ∧ Ends s t c 0x0B 4 gen ∧ (t.shGroup e.val).bind (·.trial) = none ∧
        t.hbmN a 8 = s.hbmN a 8)) ∧
    (∀ (pair : BitVec 16) (a : Nat), Ready s pair 0x32 c →
      let e := c.param 0 1
      s.netBlock e = some a → (s.shGroup e).bind (·.trial) = none →
      (s.hbmN (a + 8) 8 = 0 → ∃ t, exec (.netRollback pair) s = .next t ∧ Ends s t c 0x0C 0 0) ∧
      (s.hbmN (a + 8) 8 ≠ 0 → ∃ t, exec (.netRollback pair) s = .next t ∧ Ends s t c 0 0 (s.hbmN (a + 20) 4) ∧ t.hbmN a 8 = s.hbmN (a + 8) 8 ∧
        t.hbmN (a + 8) 8 = s.hbmN a 8 ∧ t.hbmN (a + 16) 4 = s.hbmN (a + 20) 4))

/-- For every state: the write-back of the oldest correction leaves its block clean and every byte as it read; a scrub of a unit's next block moves on to the next, adds a pass at the wrap, counts and queues a correction, and changes no byte; a refresh slot patrols one line further; an armed injection holds the written pattern and memory; a retry is remembered for 10 µs; more than 8 of them start a retrain with an EVENT, fewer none; a retrain that ends well leaves the link running and all else the same. [R432; R435; R444; R445; R447; R448; R461; Table 16.7] -/
def Obligations.IntegrityEnginesCorrectAndCount : Prop :=
  ∀ s : State,
    (∀ b rest, s.writeback = b :: rest → s.blockOf b = b → (∀ k m, (s.eccAt b).verdict = .fix k m → k < s.blockSize b) →
      ∃ t, exec .eccWriteback s = .next t ∧ t.eccAt b = .clean ∧ SameBytes s t ∧ b ∉ t.writeback ∧ ∀ a, t.reg a = s.reg a) ∧
    (∀ unit : BitVec 8,
      let u := unit.toNat
      let pass := key u (CTL + 0x118)
      let o := Sparse.get (fun _ => 0) s.scrub u
      s.fld (key u (CTL + 0x114)) 15 0 ≠ 0 → s.unitCause u 0x60 = 0 → (regRow (key u (CTL + 0x114))).isSome = true →
      (sramRanges u ≠ [] → s.eccAt (key u o) = .clean → ∃ t, exec (.scrubRead unit) s = .next t ∧ SameBytes s t ∧
        Sparse.get (fun _ => 0) t.scrub u = (scrubNext u o).1 ∧ (∀ a, a ≠ pass → t.reg a = s.reg a) ∧
        t.regN pass = if (scrubNext u o).2 then (s.regN pass + 1) % 2 ^ 32 else s.regN pass) ∧
      (sramRanges u ≠ [] → o < 2 ^ 52 → (s.eccAt (key u o)).verdict = .check ∨ (∃ k m, (s.eccAt (key u o)).verdict = .fix k m) →
        ∃ t, exec (.scrubRead unit) s = .next t ∧ SameBytes s t ∧ key u o ∈ t.writeback ∧
          t.regN (key u (CTL + 0x10C)) = min 0xFFFFFFFF (s.regN (key u (CTL + 0x10C)) + 1)) ∧
      (sramRanges u = [] → ∃ t, exec (.scrubRead unit) s = .next t ∧ SameBytes s t ∧ (∀ a, a ≠ pass → t.reg a = s.reg a) ∧
        (t.regN pass = s.regN pass ∨ t.regN pass = (s.regN pass + 1) % 2 ^ 32))) ∧
    (∀ st : Fin 4, s.fuse.gradeA = true ∨ st.val < 2 → s.computeUp = true → s.power.dIdle = false → s.clean →
      ∃ t, exec (.hbmRefresh st) s = .next t ∧ SameBytes s t ∧ (∀ a, t.reg a = s.reg a) ∧
        Sparse.get (fun _ => 0) t.patrol st.val = (Sparse.get (fun _ => 0) s.patrol st.val + 1) % 3145728) ∧
    (∀ (unit : BitVec 8) (v : Reg32),
      let u := unit.toNat
      let k := key u (CTL + 0x11C)
      (regRow k).isSome = true → s.unitCause u 0x60 = 0 → s.unitRuns u = false → bits v.toNat 15 8 ∈ memsOf u →
      ∃ t, exec (.eccInjArm 0x60 unit v) s = .next t ∧ t.fld k 3 3 = 1 ∧ t.fld k 2 0 = bits v.toNat 2 0 ∧ t.fld k 15 8 = bits v.toNat 15 8 ∧
        SameBytes s t ∧ ∀ a, a ≠ k → t.reg a = s.reg a) ∧
    (∀ ns : BitVec 16, ∃ t, exec (.ucieRetry ns) s = .next t ∧ t.clock.nclk = s.clock.nclk + ns.toNat * 16 / 10 ∧ t.ucie.retraining = s.ucie.retraining ∧
      t.ucie.retries = (s.ucie.retries.filter fun x => decide (t.clock.nclk < x + 16000)) ++ [t.clock.nclk]) ∧
    (s.ucie.retraining = false → 8 < s.ucie.retries.length → ∃ t r, exec .ucieRetrain s = .next t ∧ t.ucie = ⟨[], true⟩ ∧ SameBytes s t ∧
      t.ledger.queue = s.ledger.queue ++ [(0x05, r)]) ∧
    (s.ucie.retraining = true ∨ s.ucie.retries.length ≤ 8 → exec .ucieRetrain s = .next s) ∧
    (∀ tests, s.ucie.retraining = true → exec (.ucieRetrainEnd true tests) s = .next { s with ucie := ⟨[], false⟩ })

/-- Count `k` of port `p` has risen by 1, and no other register outside `more` has changed. -/
def CountsOne (s t : State) (p k : Nat) (more : List Nat) : Prop :=
  (fhKey p (0x40 + 4 * k) ∉ more → t.regN (fhKey p (0x40 + 4 * k)) = min 0xFFFFFFFF (s.regN (fhKey p (0x40 + 4 * k)) + 1)) ∧
  ∀ a, a ≠ fhKey p (0x40 + 4 * k) → a ∉ more → t.reg a = s.reg a

/-- For an FH_CONFIG with legal parameters the port's registers hold them, the unit answers and the command completes OK with the port; a port of another mode with an active carrier completes NO_RESOURCE, an illegal port or mode BAD_PARAM. A port that is on takes its link state from the link. On a port that is up a frame is counted as good or bad; one too short or too long is counted as such; a good PTP frame of a port that is no transparent clock goes to the PTP firmware with its stamp; a good frame that a forwarding entry sends to a port without cut-through waits there; one that nothing takes is counted. A stored frame that waits first leaves when its port sends, and a PTP message of the firmware leaves with its origin stamp. No byte of memory changes. [R462; R463; R464; R474; R475; R489; Table 17.2; Table 17.8] -/
def Obligations.PortsClassifyForwardAndSendFrames : Prop :=
  ∀ (s : State),
    (∀ (pair : BitVec 16) (c : Cmd), Ready s pair 0x38 c →
      let p := c.param 0 1
      let mode := c.param 1 1
      let b2 := c.param 2 1
      let free := ¬ (mode = 4 ∧ p % 2 = 1) ∧ ¬ (p % 2 = 1 ∧ s.fhMode (p - 1) = 4) ∧ ¬ (mode = 4 ∧ s.fhMode (p + 1) ≠ 0)
      (15 < p ∨ 4 < mode → ∃ t, exec (.fhConfig pair) s = .next t ∧ Ends s t c 0x0C 0 0) ∧
      (p ≤ 15 → mode ≤ 4 → c.param 3 1 % 16 ≤ 5 → c.param 3 1 / 16 ≤ 5 → c.param 4 1 ≤ 15 → c.param 5 1 ≤ 5 → free →
        (mode ≠ s.fhMode p → s.portInUse p = true → ∃ t, exec (.fhConfig pair) s = .next t ∧ Ends s t c 0x0D 0 0) ∧
        (mode = s.fhMode p ∨ s.portInUse p = false → ∃ t, exec (.fhConfig pair) s = .next t ∧ Ends s t c 0 0 p ∧ 0x20 + p ∈ t.configured ∧
          t.fhMode p = mode ∧ t.regN (fhKey p 0) = mode + 8 * bits b2 0 0 + 16 * bits b2 1 1 + 32 * bits b2 3 2 + 128 * bits b2 4 4 ∧
          t.fhMac p = beAt c.pkt 24 6 ∧ SameBytes s t))) ∧
    (∀ (port : Fin 16) (up : Bool), s.fhMode port.val ≠ 0 → s.computeUp = true →
      ∃ t, exec (.portLinkChange port up) s = .next t ∧ t.regN (fhKey port.val 4) = (if up then 3 else 0) ∧ SameBytes s t ∧
        ∀ a, a ≠ fhKey port.val 4 → t.reg a = s.reg a) ∧
    (∀ (port : Fin 16) (f : List Byte) (good : Bool) (time tx : BitVec 96),
      let p := port.val
      let legal := 60 ≤ f.length ∧ f.length ≤ 9596
      (s.fhUp p = false → exec (.frameReceive port f good time tx) s = .next s) ∧
      (s.fhUp p = true →
        (¬ legal → ∃ t, exec (.frameReceive port f good time tx) s = .next t ∧ CountsOne s t p (if good then 0 else 1) [fhKey p 0x48] ∧
          t.regN (fhKey p 0x48) = min 0xFFFFFFFF (s.regN (fhKey p 0x48) + 1) ∧ SameBytes s t) ∧
        (legal → isPtp f = true → s.fhRole p ≠ 3 → good = true → s.recording = false →
          ∃ t, exec (.frameReceive port f good time tx) s = .next t ∧ CountsOne s t p 0 [] ∧ SameBytes s t ∧
            t.front.ptpIn = s.front.ptpIn ++ [(p, (time.toNat : Int) - s.asym p 0x28, f)]) ∧
        (legal → isPtp f = false → isEsmc f = false → s.isEcpri p f = false →
          (∀ g, s.fwdPort p f = some g → s.fld (fhKey p 0) 7 7 = 0 → good = true → s.storedBytes g + f.length + 4 ≤ 524288 →
            ∃ t, exec (.frameReceive port f good time tx) s = .next t ∧ CountsOne s t p 0 [] ∧ SameBytes s t ∧
              t.front.stored = s.front.stored ++ [⟨g, f, none⟩]) ∧
          (s.fwdPort p f = none → good = true → ∃ t, exec (.frameReceive port f good time tx) s = .next t ∧ CountsOne s t p 0 [fhKey p 0x4C] ∧
            t.regN (fhKey p 0x4C) = min 0xFFFFFFFF (s.regN (fhKey p 0x4C) + 1) ∧ SameBytes s t ∧ t.front = s.front) ∧
          (s.fwdPort p f = none → good = false → ∃ t, exec (.frameReceive port f good time tx) s = .next t ∧ CountsOne s t p 1 [] ∧ SameBytes s t ∧
            t.front = s.front)))) ∧
    (∀ (port : Fin 16) (tx : BitVec 96) (x : StoredFrame) (rest : List StoredFrame), s.fhUp port.val = true →
      takeFirst (fun x => decide (x.egress = port.val)) s.front.stored = some (x, rest) → x.stamp = none →
      ∃ t, exec (.storedFrameSend port tx) s = .next t ∧ t.front.stored = rest ∧ Sparse.get (fun _ => []) t.front.out port.val = x.bytes ∧
        CountsOne s t port.val 13 [] ∧ SameBytes s t) ∧
    (∀ (port : Fin 16) (f : List Byte) (time : BitVec 96), s.fhUp port.val = true → s.recording = false →
      ∃ t, exec (.ptpEgress port f time) s = .next t ∧ CountsOne s t port.val 13 [] ∧ SameBytes s t ∧
        Sparse.get (fun _ => []) t.front.out port.val = stampSync f ((time.toNat : Int) + s.asym port.val 0x2C))

/-- For every state with the compute die up: a read of PTP_SEC_LO latches seconds, nanoseconds and fraction of one moment; an offset written by the anchor steps the clock when it is not enabled or no carrier is active, slews it otherwise, is ignored under HOLD, and is held for acceptance beyond the threshold in GUARD mode; the end of a slew applies what it held; HOLD and HOLDOVER follow the anchor; PTP_CONFIG stores legal parameters, and accepts a held offset when there is one; a trigger sends its SIGNAL at its time; the pulse rises at the offset of a second, its sentence follows, a pulse received latches the clock, and a sentence received is kept. [R477; R482; R483; R484; R486; R487; R489; Table 17.7] -/
def Obligations.TheClockIsReadCorrectedAndHeard : Prop :=
  ∀ (s : State), s.computeUp = true →
    (∃ t, exec .ptpSecLatch s = .next t ∧ t.ptp = s.ptp ∧ SameBytes s t ∧ t.reg64 (ptpKey 8) = s.ptp / (2 ^ 44 * 10 ^ 9) % 2 ^ 64 ∧
      t.regN (ptpKey 0x10) = s.ptp / 2 ^ 44 % 10 ^ 9 ∧ t.regN (ptpKey 0x14) = s.ptp / 2 ^ 28 % 2 ^ 16) ∧
    (∀ v : Reg32,
      let off := sext 64 (s.regN (ptpKey 0x1C) + 2 ^ 32 * v.toNat)
      let moved := (((s.ptp : Int) + off * 2 ^ 28) % (PTPTURN : Int)).toNat
      (s.ptpEn = false → ∃ t, exec (.ptpAdj 0x60 v) s = .next t ∧ t.ptp = moved ∧ SameBytes s t) ∧
      (s.ptpEn = true → s.ptpHeld = true → ∃ t, exec (.ptpAdj 0x60 v) s = .next t ∧ t.ptp = s.ptp ∧ t.front = s.front ∧ SameBytes s t) ∧
      (s.ptpEn = true → s.ptpHeld = false → s.ptpGuard = true → s.regN (ptpKey 0x24) * 2 ^ 16 < off.natAbs →
        ∃ t, exec (.ptpAdj 0x60 v) s = .next t ∧ t.ptp = s.ptp ∧ t.front.held = some off ∧ t.fld (ptpKey 4) 1 1 = 1 ∧ SameBytes s t) ∧
      (s.ptpEn = true → s.ptpHeld = false → s.ptpGuard = false ∨ off.natAbs ≤ s.regN (ptpKey 0x24) * 2 ^ 16 →
        (s.anyActive = false → ∃ t, exec (.ptpAdj 0x60 v) s = .next t ∧ t.ptp = moved ∧ SameBytes s t) ∧
        (s.anyActive = true → ∃ t, exec (.ptpAdj 0x60 v) s = .next t ∧ t.ptp = s.ptp ∧ t.front.slew = off ∧
          t.fld (ptpKey 4) 2 2 = b2n (decide (off ≠ 0)) ∧ SameBytes s t))) ∧
    (s.fld (ptpKey 4) 2 2 = 1 → ∃ t, exec .slewEnd s = .next t ∧ t.ptp = (((s.ptp : Int) + s.front.slew * 2 ^ 28) % (PTPTURN : Int)).toNat ∧
      t.front.slew = 0 ∧ t.fld (ptpKey 4) 2 2 = 0 ∧ SameBytes s t) ∧
    (∀ hold : Bool, ∃ t, exec (.ptpHold 0x60 hold) s = .next t ∧ t.fld (ptpKey 0) 2 2 = b2n hold ∧ t.fld (ptpKey 4) 0 0 = b2n hold ∧ t.ptp = s.ptp ∧
      t.fld (ptpKey 0) 1 0 = s.fld (ptpKey 0) 1 0 ∧ t.fld (ptpKey 0) 31 3 = s.fld (ptpKey 0) 31 3 ∧ SameBytes s t) ∧
    (∀ (pair : BitVec 16) (c : Cmd), Ready s pair 0x39 c →
      let b := c.param 0 1
      (ptpBad c = true → ∃ t, exec (.ptpConfig pair) s = .next t ∧ Ends s t c 0x0C 0 0) ∧
      (ptpBad c = false → (bit b 4 = false → ∃ t, exec (.ptpConfig pair) s = .next t ∧ Ends s t c 0 0 0 ∧ t.ptp = s.ptp ∧ t.fld (ptpKey 0) 1 0 = b % 4 ∧
          t.fld (ptpKey 0) 4 3 = b / 4 % 4 ∧ t.regN (ptpKey 0x24) = c.param 4 4 ∧ t.regN (ptpKey 0x28) = c.param 8 4 ∧
          t.regN (ptpKey 0x34) = c.param 12 4 ∧ t.front.held = s.front.held) ∧
        (bit b 4 = true → s.front.held = none → ∃ t, exec (.ptpConfig pair) s = .next t ∧ Ends s t c 1 0 0 ∧ t.ptp = s.ptp) ∧
        (∀ off, bit b 4 = true → s.front.held = some off → s.anyActive = false → ∃ t, exec (.ptpConfig pair) s = .next t ∧ Ends s t c 0 0 0 ∧
          t.front.held = none ∧ t.ptp = (((s.ptp : Int) + off * 2 ^ 28) % (PTPTURN : Int)).toNat))) ∧
    (∀ (time addr : Word) (stream tinc : BitVec 16), s.ptpEn = true → ∃ t i, exec (.triggerFire time addr stream tinc) s = .next t ∧
      t.fab.waiting = s.fab.waiting ++ [i] ∧ i.op = .signal ∧ i.hdr.stream = stream ∧ i.hdr.tinc = tinc ∧ i.hdr.addr = s.translate addr ∧
      t.ptp = max s.ptp (time.toNat * 2 ^ 44) ∧ SameBytes s t) ∧
    (s.ptpEn = true → s.ppsEn = true → s.regN (ptpKey 0x38) < 10 ^ 9 → ∃ t, exec .ppsOut s = .next t ∧ s.ptp ≤ t.ptp ∧
      t.ptp % (10 ^ 9 * 2 ^ 44) = s.regN (ptpKey 0x38) * 2 ^ 44 ∧ t.front.pps = true ∧ t.front.todDue = some (t.ptp / (10 ^ 9 * 2 ^ 44)) ∧ SameBytes s t) ∧
    (∀ sec, s.front.todDue = some sec → ∃ t, exec .todSend s = .next t ∧ t.front.todOut = zda (sec - s.front.utc) ∧ t.front.pps = false ∧
      t.front.todDue = none ∧ SameBytes s t) ∧
    (∀ time : BitVec 96, ∃ t, exec (.ppsIn time) s = .next t ∧ t.ptp = max s.ptp (time.toNat * 2 ^ 28) ∧ t.regN (ptpKey 0x40) = t.ptp / 2 ^ 44 % 10 ^ 9 ∧
      t.regN (ptpKey 0x44) = t.ptp / 2 ^ 28 % 2 ^ 16 ∧ t.fld (ptpKey 4) 3 3 = 1 ∧ SameBytes s t) ∧
    (∀ b : List Byte, ∃ t, exec (.todReceive b) s = .next t ∧ t.front.todIn = b ∧ t.ptp = s.ptp ∧ SameBytes s t ∧ ∀ a, t.reg a = s.reg a)

/-- Port `p` has gone down: DOWN_EVT is set, an enabled port trains again, and what was in flight through it has failed with RESET. -/
def WentDown (s t : State) (p : Nat) : Prop :=
  t.brvState p = b2n (s.brvEn p) ∧ t.fld (brvKey p 4) 3 3 = 1 ∧ SameBytes s t ∧ (∀ x ∈ t.fab.flight, s.viaPort p x = false) ∧
  ∀ x ∈ s.fab.flight, s.viaPort p x = true →
    ⟨x.hdr.srcUnit.toNat, 0xA, x.op.code, x.hdr.stream.toNat, x.hdr.addr.toNat, x.owner⟩ ∈ t.fab.errs

/-- For a BRV_CONFIG that may execute: bad parameters complete BAD_PARAM, a change of routes alone waits, EN on a port that is DOWN takes it to TRAINING and waits, on one that is UP completes OK with the neighbour, and EN clear takes the port DOWN and completes OK or OK_EMPTY. A training port whose neighbour matches is UP and completes its command OK, one whose neighbour differs completes it NO_RESOURCE with DETAIL 2, and 500 ms without a link with DETAIL 1. A route change takes effect when nothing to the devices concerned is unanswered. A transit operation leaves by its route with its virtual channel, and without a route or at priority 15 is discarded with its error. Replays and retrains are counted; a link that goes down fails the operations in flight through it with RESET. [R494; R495; R497; R498; R501; R502; R503; R505; R506; Table 18.5] -/
def Obligations.BrivelLinksTrainCarryAndFail : Prop :=
  ∀ (s : State),
    (∀ (pair : BitVec 16) (c : Cmd), Ready s pair 0x3A c →
      let fl := c.param 1 1
      let p := c.param 0 1
      (s.brvBad c = true → ∃ t, exec (.brvConfig pair) s = .next t ∧ Ends s t c 0x0C 0 0) ∧
      (s.brvBad c = false →
        (fl % 16 = 8 → ∃ t, exec (.brvConfig pair) s = .next t ∧ (t.cmdOf c.id).map (·.phase) = some .waiting ∧ t.brivel.route = some (c.param 4 4) ∧
          ∀ a, t.reg a = s.reg a) ∧
        (bit fl 0 = true → s.brvState p = 0 → ∃ t, exec (.brvConfig pair) s = .next t ∧ (t.cmdOf c.id).map (·.phase) = some .waiting ∧
          t.brvState p = 1 ∧ t.brvEn p = true) ∧
        (bit fl 0 = true → s.brvState p ∈ [2, 3] → ∃ t, exec (.brvConfig pair) s = .next t ∧ Ends s t c 0 0 (s.fld (brvKey p 8) 3 0) ∧
          t.brvState p = s.brvState p) ∧
        (bit fl 0 = false → fl % 16 ≠ 8 → ∃ t, exec (.brvConfig pair) s = .next t ∧
          Ends s t c (if s.brvState p ∈ [2, 3] then 0 else 1) 0 0 ∧ t.brvState p = 0 ∧ t.brvEn p = false))) ∧
    (∀ (port : Fin 2) (nbr : BitVec 4) (size : BitVec 5) (id : Word) (major : BitVec 16) (c : Cmd), s.brvWaits port.val = [c] → Awaits s c →
      let p := port.val
      let same := size.toNat = s.chainSize ∧ id.toNat = s.reg64 (brvKey 0 0x28) ∧ major.toNat = s.fld (key BAR0 0x1C) 31 16 ∧ nbr.toNat ≠ s.ownChain
      (s.brvState p = 1 → s.computeUp = true → same → ∃ t, exec (.brvLinkUp port nbr size id major) s = .next t ∧ Ends s t c 0 0 nbr.toNat ∧
        t.brvState p = 2 ∧ t.fld (brvKey p 8) 3 0 = nbr.toNat ∧ SameBytes s t) ∧
      (s.brvState p = 1 → s.computeUp = true → ¬ same → ∃ t, exec (.brvLinkUp port nbr size id major) s = .next t ∧ Ends s t c 0x0D 2 0 ∧
        t.brvState p = 1 ∧ t.fld (brvKey p 4) 2 2 = 1 ∧ SameBytes s t) ∧
      (∃ t, exec (.brvLinkTimeout port) s = .next t ∧ Ends s t c 0x0D 1 0 ∧ t.brvState p = s.brvState p ∧ SameBytes s t)) ∧
    (∀ r, s.brivel.route = some r → s.computeUp = true →
      (s.unanswered (s.routeDiff r) = true → exec .routeChange s = .next s) ∧
      (s.unanswered (s.routeDiff r) = false → ∃ t, exec .routeChange s = .next t ∧ t.regN (brvKey 0 0x20) = r % 2 ^ 32 ∧ t.brivel.route = none ∧
        SameBytes s t)) ∧
    (∀ (port : Fin 2) (vc : BitVec 2) (op : FabOp) (h : Hdr) (payload : List Byte), s.computeUp = true → s.brvState port.val ∈ [2, 3] →
      devOf h.addr.toNat ≠ s.ownChain →
      let p := port.val
      let row := Instr.transit port vc (BitVec.ofNat 8 op.code) h payload
      let lost := fun k : Nat => ∃ t, exec row s = .next t ∧ (p, hdrSrc h, k) ∈ t.brivel.errs ∧ t.brivel.sent = s.brivel.sent ∧ SameBytes s t ∧ t.fab = s.fab
      (h.prio = 15 → lost 4) ∧
      (h.prio ≠ 15 → s.routePort (devOf h.addr.toNat) = none ∨ s.routePort (devOf h.addr.toNat) = some p → lost 2) ∧
      (∀ q, h.prio ≠ 15 → s.routePort (devOf h.addr.toNat) = some q → q ≠ p → ∃ t x, exec row s = .next t ∧ SameBytes s t ∧ t.fab = s.fab ∧
        (q, (if s.dateline q ∧ vc.toNat % 2 = 0 then vc.toNat + 1 else vc.toNat), x) ∈ t.brivel.sent ∧ x.op = op ∧ x.hdr = h ∧ x.payload = payload)) ∧
    (∀ (port : Fin 2),
      let p := port.val
      (∀ (crc : Bool) (ns : BitVec 16), s.brvState p = 2 → ∃ t, exec (.brvReplay port crc ns) s = .next t ∧
        t.regN (brvKey p 0xC) = min 0xFFFFFFFF (s.regN (brvKey p 0xC) + 1) ∧
        t.regN (brvKey p 0x14) = (if crc then min 0xFFFFFFFF (s.regN (brvKey p 0x14) + 1) else s.regN (brvKey p 0x14)) ∧ SameBytes s t ∧
        (p, t.clock.nclk) ∈ t.brivel.replays ∧ t.brvState p = 2) ∧
      (s.brvState p = 2 → 4 < (s.brivel.replays.filter fun x => decide (x.1 = p)).length → ∃ t, exec (.brvRetrain port) s = .next t ∧ t.brvState p = 3 ∧
        t.regN (brvKey p 0x10) = min 0xFFFFFFFF (s.regN (brvKey p 0x10) + 1) ∧ SameBytes s t ∧ t.ledger.queue.length = s.ledger.queue.length + 1) ∧
      ((s.brivel.replays.filter fun x => decide (x.1 = p)).length ≤ 4 → exec (.brvRetrain port) s = .next s) ∧
      (s.brvState p = 3 → (∃ t, exec (.brvRetrainEnd port true) s = .next t ∧ t.brvState p = 2 ∧ SameBytes s t ∧ t.fab = s.fab) ∧
        ∃ t, exec (.brvRetrainEnd port false) s = .next t ∧ WentDown s t p) ∧
      (s.brvState p ∈ [2, 3] → ∃ t, exec (.brvLinkDown port) s = .next t ∧ WentDown s t p))

/-- For a MOD_CONFIG that may execute: an illegal channel completes BAD_PARAM, an enabled channel NO_RESOURCE, and a sound block is loaded and completes OK with the channel. On a running modem: link loss abandons every frame and clears LINKUP, alignment sets it, loss of the transmit link ends every burst with RESET_ABORT and cause LINK. On a channel that searches, the winning detection starts a frame, or counts a loss when one is in reception or a burst was sent within 100 µs; a sync word close enough fixes its time, its absence counts a loss; a frame that has ended leaves as a record in the ring, or counts a loss without room. A transmit descriptor is taken and checked, its burst starts, or ends KILLED at a mask failure, and its status record and increment follow. [R509; R510; R513; R514; R515; R516; R518; R519; R520; Table 19.2; Table 19.5] -/
def Obligations.TheModemReceivesAndTransmits : Prop :=
  ∀ (s : State), s.modem.ch.length = 8 →
    (∀ (pair : BitVec 16) (c : Cmd), Ready s pair 0x3B c → s.clean →
      let n := c.param 0 1
      let b := s.bytes (key 0x40 (c.param 8 8)) 60
      (7 < n → n ≠ 0xFF → ∃ t, exec (.modConfig pair) s = .next t ∧ Ends s t c 0x0C 0 0) ∧
      (n ≤ 7 → c.param 8 8 + 60 ≤ s.hbmBytes →
        (s.chEn n = true → ∃ t, exec (.modConfig pair) s = .next t ∧ Ends s t c 0x0D 0 0) ∧
        (s.chEn n = false → modBad false b = true → ∃ t, exec (.modConfig pair) s = .next t ∧ Ends s t c 0x0C 0 0) ∧
        (s.chEn n = false → modBad false b = false → ∃ t, exec (.modConfig pair) s = .next t ∧ Ends s t c 0 0 n ∧ 0x31 ∈ t.configured ∧
          t.regN (chKey n 0) = fieldLE b 0 4 ∧ (t.modCh n).base = c.param 16 8 ∧ (t.modCh n).size = c.param 24 8 ∧ (t.modCh n).rx = none ∧
          (t.modCh n).burst = none ∧ SameBytes s t))) ∧
    (s.modOn = true →
      (∃ t, exec .jesdLinkLoss s = .next t ∧ t.modem.rxUp = false ∧ t.fld (modKey 4) 0 0 = 0 ∧ t.fld (modKey 4) 1 1 = 1 ∧ SameBytes s t ∧
        (∀ c : Fin 8, (t.modCh c.val).rx = none ∧ t.regN (chKey c.val 0x34) = if (s.modCh c.val).rx.isSome then
          min 0xFFFFFFFF (s.regN (chKey c.val 0x34) + 1) else s.regN (chKey c.val 0x34))) ∧
      (∃ t, exec .jesdLinkAlign s = .next t ∧ t.modem.rxUp = true ∧ t.modem.txUp = true ∧ t.fld (modKey 4) 0 0 = 1 ∧ t.modem.ch = s.modem.ch ∧ SameBytes s t) ∧
      ∃ t, exec .transmitLinkLoss s = .next t ∧ t.modem.txUp = false ∧ t.fld (modKey 4) 0 0 = 0 ∧ SameBytes s t ∧
        ∀ (c : Fin 8) b, (s.modCh c.val).burst = some b → b.status ≠ 0x0C →
          (t.modCh c.val).burst = some { b with status := 7, cause := 2, ended := true }) ∧
    (∀ c : Fin 8,
      let n := c.val
      let x := s.modCh n
      let lost := chKey n 0x34
      let more := fun (t : State) => t.regN lost = min 0xFFFFFFFF (s.regN lost + 1)
      (∀ dets time blocks w, s.modOn = true → s.modem.rxUp = true → s.chEn n = true → s.recording = false → winner (s.detections n dets) = some w →
        let sent := x.lastTx.any (fun y => decide (y ≤ (time : Word).toNat) && decide (time.toNat < y + 100000))
        (x.rx = none → sent = false → ∃ t, exec (.periscopeDetect c dets time blocks) s = .next t ∧ (t.modCh n).rx = some ⟨w.1, w.2, none⟩ ∧ SameBytes s t ∧
          t.regN (chKey n 0x30) = min 0xFFFFFFFF (s.regN (chKey n 0x30) + (s.detections n dets).length)) ∧
        (x.rx ≠ none ∨ sent = true → ∃ t, exec (.periscopeDetect c dets time blocks) s = .next t ∧ t.modCh n = x ∧ more t ∧ SameBytes s t)) ∧
      (∀ r, x.rx = some r → r.sync = none →
        (∀ (word : BitVec 32) (time : Word), syncErrors (s.chFour n) word.toNat (s.regN (chKey n 8)) ≤ (if s.chFour n then 1 else 2) →
          ∃ t, exec (.syncFound c word time) s = .next t ∧ (t.modCh n).rx = some { r with sync := some time.toNat } ∧ SameBytes s t) ∧
        ∃ t, exec (.syncTimeout c) s = .next t ∧ (t.modCh n).rx = none ∧ more t ∧ SameBytes s t) ∧
      (∀ r frame rssi fofs blocks, x.rx = some r → r.sync ≠ none → s.recording = false →
        let len := (frame.getD 0 0).toNat
        let body := frame.take (1 + len)
        let ok := !(s.chCrc n) || decide (modCrc body = (frame.getD (1 + len) 0).toNat * 256 + (frame.getD (2 + len) 0).toNat)
        let b := modRecord n r ok (body.drop 1) (rssi : BitVec 16).toNat (fofs : BitVec 32).toNat
        let used := (x.wptr + 2 ^ 32 - s.regN (chKey n 0x38)) % 2 ^ 32
        frame.length = 1 + len + (if s.chCrc n then 2 else 0) →
        (used + b.length ≤ x.size → ∃ t items, exec (.rxRecord c frame rssi fofs blocks) s = .next t ∧ t.fab.waiting = s.fab.waiting ++ items ∧
          items.flatMap (·.payload) = b ∧ (t.modCh n).rx = none ∧ (t.modCh n).wptr = (x.wptr + b.length) % 2 ^ 32 ∧ SameBytes s t) ∧
        (x.size < used + b.length → ∃ t, exec (.rxRecord c frame rssi fofs blocks) s = .next t ∧ more t ∧ (t.modCh n).rx = none ∧
          t.fab.waiting = s.fab.waiting)) ∧
      (∀ d, s.modOn = true → s.modem.txUp = true → x.burst = none → (s.tok 0x31 n - BitVec.ofNat 32 (x.taken + 1)).toNat < 2 ^ 31 →
        let st := Config.modStream n % 2 ^ 16
        ReadsAs s 0x31 st (Config.modRing n % 2 ^ 58 * 64 + 64 * (x.taken % 2 ^ (4 + Config.modLog2 n % 17))) 64 d →
        (s.burstBad n d = true → ∃ t, exec (.modTxFetch c) s = .next t ∧ (t.modCh n).burst = some ⟨d, 0x0C, 0, false, true⟩ ∧
          (t.modCh n).taken = (x.taken + 1) % 2 ^ 32) ∧
        (∀ b, s.burstBad n d = false → ReadsAs s 0x31 st (fieldLE d 12 8) (fieldLE d 2 1) b → fieldLE d 3 1 % 2 = 0 →
          ∃ t, exec (.modTxFetch c) s = .next t ∧ (t.modCh n).burst = some ⟨d, 0, 0, false, false⟩ ∧ (t.modCh n).taken = (x.taken + 1) % 2 ^ 32)) ∧
      (∀ b, x.burst = some b →
        (b.started = false → b.ended = false → s.modOn = true → s.modem.txUp = true →
          (∃ t, exec (.txBurstStart c false) s = .next t ∧ (t.modCh n).burst = some { b with started := true } ∧ SameBytes s t ∧ ∀ a, t.reg a = s.reg a) ∧
          (s.masked = true → ∃ t, exec (.txBurstStart c true) s = .next t ∧ t.fld (modKey 4) 2 2 = 1 ∧ SameBytes s t ∧
            (t.modCh n).burst = some { b with started := true, status := 2, cause := 1 })) ∧
        (∀ (time : Word) (sat : BitVec 16), s.computeUp = true → b.started = true ∨ b.ended = true → ∃ t i, exec (.txBurstComplete c time sat) s = .next t ∧
          t.fab.waiting = s.fab.waiting ++ [i] ∧ i.op = .putSignal ∧ i.payload = toLE 1 b.status ++ toLE 1 b.cause ++ toLE 6 0 ∧ i.hdr.tinc = 1 ∧
          (t.modCh n).burst = none ∧ SameBytes s t)))

/-- For every state: a LOAD in SAFE of the wrong form, before the self-tests passed, of an unreadable image or of one that fails a check is answered with its status and leaves the device in SAFE with SEC_BOOT_ERR for a failed check; one that passes becomes the cached image, the device is LOADED, or RUNNING with partitions, and the version register holds its version. FW_LOAD in RUNNING completes NO_RESOURCE, of length 0 OK_EMPTY, of a failing image with the check's status and number, and of a passing one caches it and resets the device as HOST_WARM by source 5. ATTEST with a usable destination and keys writes the body of Table 20.6 and completes with the number of bytes. ALARM_CFG sets and locks policies and clears bits whose source no longer holds. An alarm sets its bits and ALARM_N, and by policy only logs, halts the device, or erases keys, image, ledger, partitions and jobs. An SMBus block read gives the BAR0 register of its code. What the checks of a signature answer is a free function of the image. [R531; R532; R533; R534; R536; R538; R539; R540; Table 20.5] -/
def Obligations.ImagesAreLoadedAttestedAndAlarmsActed : Prop :=
  ∀ (s : State),
    (s.devState = 2 → s.power.good = true → s.fld (mbxKey 0x60 0 0x40) 0 0 = 1 →
      let a := s.loadWord 1 + 2 ^ 32 * s.loadWord 2
      let img := s.hostBytes a (s.loadWord 3)
      let bad := s.imageCause img
      let legal := s.loadWord 0 = 1 ∧ s.loadWord 4 ≤ 1 ∧ a % 64 = 0 ∧ ∀ i, i < 11 → s.loadWord (5 + i) = 0
      let answered := fun (v dev : Nat) (p : State → Prop) => ∃ t, exec .romLoad s = .next t ∧ t.regN (mbxKey 0x60 0 0x44) = v ∧
        t.fld (mbxKey 0x60 0 0x40) 0 0 = 0 ∧ t.devState = dev ∧ p t
      (¬ legal → answered 0x0C 2 fun t => SameBytes s t) ∧
      (legal → s.testsPass = false → answered 0x0D 2 fun t => SameBytes s t) ∧
      (legal → s.testsPass = true → s.master = false → answered 0x0C 2 fun t => t.regN (key BAR0 0x18) = 0x80C) ∧
      (legal → s.testsPass = true → s.master = true → bad ≠ 0 → answered (causeCode bad) 2 fun t =>
        t.regN (key BAR0 0x18) = causeCode bad + 2 ^ 8 * bad ∧ t.secure.image = s.secure.image) ∧
      (legal → s.testsPass = true → s.master = true → bad = 0 → s.power.recovery = none →
        answered 0 (if s.partList = [] then 3 else 4) fun t => t.regN (key BAR0 0x1C) = fieldLE img 4 4 ∧
          t.secure.image = some ⟨fieldLE img 4 4, imgSvn img, fieldLE img 9 1, imgKeyset img, img⟩ ∧
          t.fuse.svn = if s.loadWord 4 = 1 then max s.fuse.svn (imgSvn img) else s.fuse.svn)) ∧
    (∀ (pair : BitVec 16) (tests : Tests) (c : Cmd), Ready s pair 0x08 c →
      let img := s.hostBytes (c.param 0 8) (c.param 8 4)
      let bad := s.imageCause img
      (s.devState = 4 → ∃ t, exec (.fwLoad pair tests) s = .next t ∧ Ends s t c 0x0D 0 0) ∧
      (s.devState = 3 → c.param 8 4 = 0 → ∃ t, exec (.fwLoad pair tests) s = .next t ∧ Ends s t c 1 0 0) ∧
      (s.devState = 3 → c.param 8 4 ≠ 0 → s.master = false → ∃ t, exec (.fwLoad pair tests) s = .next t ∧ Ends s t c 0x0C 8 0) ∧
      (s.devState = 3 → c.param 8 4 ≠ 0 → s.master = true → bad ≠ 0 → ∃ t, exec (.fwLoad pair tests) s = .next t ∧ Ends s t c (causeCode bad) bad 0) ∧
      (s.devState = 3 → c.param 8 4 ≠ 0 → s.master = true → bad = 0 → ∃ t, exec (.fwLoad pair tests) s = .next t ∧
        t.secure.image = some ⟨fieldLE img 4 4, imgSvn img, fieldLE img 9 1, imgKeyset img, img⟩ ∧ t.regN (pwrKey 0x110) = 0x502)) ∧
    (∀ (pair : BitVec 16) (c : Cmd), Ready s pair 0x09 c →
      let body := s.attestBody (slice c.pkt 16 32)
      let n := body.length + 36048 + (if bit (c.param 44 1) 0 then (Config.attestCerts s.fuse.serial.toNat).length else 0)
      (c.param 32 8 % 64 ≠ 0 → ∃ t, exec (.attest pair) s = .next t ∧ Ends s t c 0x0C 0 0) ∧
      (c.param 32 8 % 64 = 0 → c.param 40 4 < n → ∃ t, exec (.attest pair) s = .next t ∧ Ends s t c 0x0D 1 0) ∧
      (c.param 32 8 % 64 = 0 → n ≤ c.param 40 4 → s.secure.keys = false → ∃ t, exec (.attest pair) s = .next t ∧ Ends s t c 0x0D 2 0) ∧
      (c.param 32 8 % 64 = 0 → n ≤ c.param 40 4 → s.secure.keys = true → s.master = true → ∃ t, exec (.attest pair) s = .next t ∧ Ends s t c 0 0 n ∧
        t.hostBytes (c.param 32 8) body.length = body ∧ ∀ a, t.byte a = s.byte a)) ∧
    (∀ (pair : BitVec 16) (holding : BitVec 5) (c : Cmd), Ready s pair 0x0A c →
      let pol := c.param 0 2 % 1024
      let locked := s.fld secPol 10 10 = 1
      let bad := (locked ∧ pol ≠ s.fld secPol 9 0) ∨ ∃ b, b < 5 ∧ bits pol (2 * b + 1) (2 * b) = 3
      (bad → ∃ t, exec (.alarmCfg pair holding) s = .next t ∧ Ends s t c 0x0C 0 0) ∧
      (¬ bad → ∃ t, exec (.alarmCfg pair holding) s = .next t ∧ Ends s t c 0 0 0 ∧ t.fld secPol 9 0 = pol ∧
        (t.fld secPol 10 10 = 1 ↔ locked ∨ bit (c.param 3 1) 0 = true) ∧
        ∀ b, b < 5 → bit (t.regN secAlarm) b = (bit (s.regN secAlarm) b && !(bit (c.param 2 1) b && !(bit holding.toNat b))))) ∧
    (∀ src : BitVec 5, src ≠ 0 → s.power.good = true →
      let trips := fun (b : Nat) => b < 5 ∧ bit src.toNat b = true
      ((∀ b, trips b → s.alarmPol b = 0) → ∃ t, exec (.alarm src) s = .next t ∧ t.regN secAlarm = s.regN secAlarm ||| src.toNat ∧
        t.secure.alarmN = true ∧ t.devState = s.devState ∧ SameBytes s t ∧ t.eng = s.eng ∧
        (s.ledger.up = true → s.ledger.queue.length < t.ledger.queue.length)) ∧
      ((∀ b, trips b → s.alarmPol b ≤ 1) → (∃ b, trips b ∧ s.alarmPol b = 1) → ∃ t, exec (.alarm src) s = .next t ∧ t.devState = 5 ∧
        t.regN secAlarm = s.regN secAlarm ||| src.toNat ∧ t.secure.alarmN = true) ∧
      ((∀ b, trips b → s.alarmPol b ≤ 2) → (∃ b, trips b ∧ s.alarmPol b = 2) → ∃ t, exec (.alarm src) s = .next t ∧ t.devState = 5 ∧
        t.secure.alarmN = true ∧ t.secure.keys = false ∧ t.secure.custKeys = [] ∧ t.secure.image = none ∧ (∀ r ∈ t.ledger.recs, r.type = 8) ∧ t.cmds = [] ∧
        t.jobs = [] ∧ t.partList = [])) ∧
    (∀ code : BitVec 8, exec (.smbusBlockRead code) s = .next { s with readOut :=
      if code.toNat ≤ 10 ∧ s.power.good = true ∧ s.power.dStandby = false then toLE 4 (s.view (key BAR0 (4 * code.toNat))) else [] })

/-- A reset of this kind, source and target has been recorded (R568); partitions and fuses are kept. -/
def Marked (s t : State) (kind src target : Nat) : Prop :=
  t.regN (pwrKey 0x110) = kind + 2 ^ 8 * src + 2 ^ 16 * target ∧ t.regN (pwrKey 0x114) = min 0xFFFFFFFF (s.regN (pwrKey 0x114) + 1) ∧
  t.parts = s.parts ∧ t.fuse = s.fuse

/-- Engine `e` stands as after a reset: IDLE, no command, registers and memories zero (R557). -/
def Fresh (t : State) (e : Fin 8) : Prop :=
  t.eng[e].state = .idle ∧ t.eng[e].cmd = none ∧ t.eng[e].queue = [] ∧ t.eng[e].started = [] ∧ (∀ r, t.eng[e].rx r = 0) ∧
  ∀ o, o < 2 ^ 52 → t.byte (key e.val o) = 0

/-- After a reset of every engine: the image runs again when the tests pass and its cached copy is good (R532), else the device is in SAFE. -/
def Rebooted (s t : State) (tests : Tests) : Prop :=
  (∀ e, Fresh t e) ∧
  (∀ i, s.secure.image = some i → s.secure.cached0 = true → s.imageKeys i.bytes = 0 → tests.fail = 0 → tests.cache = 0 →
    t.devState = (if s.partList = [] then 3 else 4) ∧ t.regN (key BAR0 0x1C) = i.version % 2 ^ 32) ∧
  (bit tests.fail.toNat 4 = true → tests.fail.toNat % 16 = 0 → t.devState = 2)

/-- For every state: a POR whose self-tests pass leaves no command, partition or record, zero memory, engines off, the strapped cap and its VID, and the device in SAFE, and with STRAP_TEST high the device stays in reset. PIN, HOST_WARM and COMPUTE resets record kind and source, count up, keep partitions and fuses, and leave every engine IDLE with zero memory; with passing tests and a good cached image the image runs again, with a failing compute-die test the device is in SAFE. PARTITION and ENGINE resets do so for their engines, and a bad kind or target completes BAD_PARAM, an engine in E-OFF OK_EMPTY. PERST resets the MSI-X table and bus mastering alone; loss of PWR_GOOD and THERMTRIP hold the device or its compute die in reset. POWER_CAP completes or waits as its parameters say, the switch takes the cap and VID at a quiet instant or gives up, the window's average throttles, idle engines stop and power-ups are granted in order with zero memory, and D-IDLE and self-refresh end and return. That a reset with its recovery is one step is the model's choice (log 60). [R551; R553; R554; R555; R556; R558; R560; R563; R564; R568; R587; R589] -/
def Obligations.ResetsAndPowerChangesDoWhatTheirKindSays : Prop :=
  ∀ (s : State),
    (∀ (cap : BitVec 2) (smb : BitVec 3) (tests : Tests),
      (tests.fail = 0 → tests.led = 0 → ∃ t, exec (.por cap smb false tests) s = .next t ∧ t.devState = 2 ∧ t.cmds = [] ∧ t.partList = [] ∧
        t.ledger = Ledger.formatted 0 ∧ t.mem = [] ∧ (∀ e : Fin 8, t.eng[e].power = .off) ∧ t.power.cap = min cap.toNat 2 ∧
        t.power.vid = capVid (min cap.toNat 2) ∧ t.regN (key BAR0 0x14) = 0xFF00FF ∧ t.fuse.strapCap = cap.toNat ∧ t.fuse.strapSmb = smb.toNat) ∧
      ∃ t, exec (.por cap smb true tests) s = .next t ∧ t.devState = 0 ∧ t.power.good = false ∧ t.power.vid = 0x19) ∧
    (∀ tests : Tests,
      (s.power.good = true → ∃ t, exec (.pinReset tests) s = .next t ∧ Marked s t 1 1 0 ∧ Rebooted s t tests) ∧
      (s.power.good = false → exec (.pinReset tests) s = .next s) ∧
      (∀ pair : BitVec 16, s.power.good = true → s.power.dStandby = false → s.devState ≠ 5 → s.ledger.pathFault = true →
        ∃ t, exec (.hostWarmReset 4 pair tests) s = .next t ∧ Marked s t 2 4 0 ∧ Rebooted s t tests) ∧
      (∀ (pair : BitVec 16) (c : Cmd), Ready s pair 0x48 c →
        let n := c.param 1 1
        ((c.param 0 1 < 2 ∨ 5 < c.param 0 1 ∨ (c.param 0 1 ≤ 3 ∧ n ≠ 0)) →
          ∀ i ∈ [Instr.hostWarmReset 0 pair tests, .computeReset pair tests, .partitionReset pair, .engineReset pair],
            ∃ t, exec i s = .next t ∧ Ends s t c 0x0C 0 0) ∧
        (c.param 0 1 = 2 → n = 0 → ∃ t, exec (.hostWarmReset 0 pair tests) s = .next t ∧ Marked s t 2 0 0 ∧ Rebooted s t tests) ∧
        (c.param 0 1 = 3 → n = 0 → ∃ t, exec (.computeReset pair tests) s = .next t ∧ Marked s t 3 0 0 ∧ Rebooted s t tests) ∧
        (c.param 0 1 = 4 → 8 ≤ n → ∃ t, exec (.partitionReset pair) s = .next t ∧ Ends s t c 0x0C 0 0) ∧
        (∀ (k : Fin 8) (q : Part), c.param 0 1 = 4 → n = k.val → s.parts[k] = some q →
          ∃ t, exec (.partitionReset pair) s = .next t ∧ Marked s t 4 0 n ∧ ∀ e ∈ q.members, Fresh t e) ∧
        (c.param 0 1 = 5 → s.nEngines ≤ n → ∃ t, exec (.engineReset pair) s = .next t ∧ Ends s t c 0x0C 0 0) ∧
        (∀ e : Fin 8, c.param 0 1 = 5 → n = e.val → n < s.nEngines →
          (s.eng[e].power = .off → ∃ t, exec (.engineReset pair) s = .next t ∧ Ends s t c 1 0 0) ∧
          (s.eng[e].power ≠ .off → ∃ t, exec (.engineReset pair) s = .next t ∧ Marked s t 5 0 n ∧ Fresh t e)))) ∧
    (∃ t, exec .perstAssert s = .next t ∧ t.power = { s.power with perst := true, busMaster := false } ∧ t.cmds = s.cmds ∧ t.eng = s.eng ∧
      SameBytes s t ∧ ∀ a, t.reg a = if key BAR0 0x40000 ≤ a ∧ a < key BAR0 0x48000 then regReset a else s.reg a) ∧
    exec .perstRelease s = .next { s with power := { s.power with perst := false } } ∧
    (∃ t, exec .pwrGoodFall s = .next t ∧ t.power.good = false ∧ t.devState = 0 ∧ t.secure.alarmN = false ∧ t.parts = s.parts) ∧
    (∀ mdeg : Int, let limit : Int := if s.fuse.xSuffix then 120000 else 115000
      (mdeg ≤ limit ∨ s.power.good = false → exec (.thermtrip mdeg) s = .next s) ∧
      (limit < mdeg → s.power.good = true → ∃ t, exec (.thermtrip mdeg) s = .next t ∧ t.power.tripped = true ∧ t.secure.thermN = true ∧ t.computeUp = false)) ∧
    (∀ (pair : BitVec 16) (c : Cmd), Ready s pair 0x49 c → s.power.cap ≤ 2 →
      let cap := c.param 0 1
      let st := c.param 1 1
      let step := c.param 2 1
      let idle := c.param 4 2
      let legal := (cap ≤ 2 ∨ cap = 0xFF) ∧ (st ≤ 2 ∨ st = 0xFF) ∧ step ≤ 12 ∧ c.param 3 1 = 0
      let done := fun (status : Nat) (p : State → Prop) => ∃ t, exec (.powerCap pair) s = .next t ∧ Ends s t c status 0 s.power.cap ∧ p t
      (¬ legal → ∃ t, exec (.powerCap pair) s = .next t ∧ Ends s t c 0x0C 0 0) ∧
      (cap = 0xFF → st = 0xFF → step = 0 → c.param 3 1 = 0 → idle = 0xFFFF → done 1 fun t => t.power = s.power) ∧
      (legal → cap ≤ 2 → cap ≠ s.power.cap → s.admits cap = false → done 9 fun t => t.power = s.power) ∧
      (legal → cap ≤ 2 → cap ≠ s.power.cap → s.admits cap = true → s.stateBlocked c = false → ∃ t, exec (.powerCap pair) s = .next t ∧
        t.power.pendingCap = some (c.pair, c.seq, cap, s.clock.tclk) ∧ t.power.cap = s.power.cap ∧ (t.cmdOf c.id).map (·.phase) = some .waiting) ∧
      (legal → cap = 0xFF → st = 1 → s.stateBlocked c = true → done 0x0D fun t => t.power = s.power) ∧
      (legal → cap = 0xFF → st = 1 → s.stateBlocked c = false → done 0 fun t => t.power.dIdle = true ∧ ∀ e : Fin 8, t.eng[e].power = .off) ∧
      (legal → cap = 0xFF → st = 0xFF → step ≠ 0 → done 0 fun t => t.fld (pwrKey 0x108) 3 0 = step ∧
        t.fld (pwrKey 0x10C) 15 0 = (if idle = 0xFFFF then s.fld (pwrKey 0x10C) 15 0 else idle) ∧ SameBytes s t)) ∧
    (∀ p q cap t0 c, s.power.pendingCap = some (p, q, cap, t0) → s.cmdOf (p, q) = some c → c.phase ≠ .done → c.replay = false →
      s.ledger.up = true → s.fullIf = true → s.power.cap ≤ 2 → cap ≤ 2 →
      (∃ t, exec (.capSwitch false) s = .next t ∧ Ends s t c 0x0D 0 s.power.cap ∧ t.power.pendingCap = none ∧ t.power.cap = s.power.cap) ∧
      (s.quiet = true → s.stateBlocked c = false → c.param 1 1 ≠ 2 → ∃ t, exec (.capSwitch true) s = .next t ∧ Ends s t c 0 0 cap ∧
        t.power.pendingCap = none ∧ t.power.cap = cap ∧ t.power.vid = capVid cap) ∧
      (s.quiet = false → exec (.capSwitch true) s = .next s)) ∧
    (∀ watts : BitVec 16, s.fullIf = true → ∃ t, exec (.powerWindow watts) s = .next t ∧ t.fld (pwrKey 0x104) 15 0 = watts.toNat ∧
      t.power.throttle = decide (16 * capWatts s.power.cap < watts.toNat) ∧ t.eng = s.eng ∧ SameBytes s t) ∧
    (∀ e : Fin 8,
      (s.computeUp = true → s.eng[e].power = .on → s.eng[e].state = .idle → s.eng[e].queue = [] → s.eng[e].started = [] →
        s.fld (pwrKey 0x10C) 15 0 ≠ 0 → s.isRealtime (s.homePart e.val) = false →
        ∃ t, exec (.eIdleEntry e) s = .next t ∧ t.eng[e].power = .idle ∧ s.eng[e].idleSince + s.fld (pwrKey 0x10C) 15 0 ≤ t.clock.aclk ∧
          SameBytes s t ∧ (∀ j, j ≠ e → t.eng[j] = s.eng[j]) ∧ ∀ a, t.reg a = s.reg a) ∧
      (∀ rest, s.power.wakeq = e.val :: rest → s.computeUp = true → (∀ c ∈ s.cmds, c.op ≠ 0x10) →
        ∃ t, exec .powerUpGrant s = .next t ∧ Fresh t e ∧ t.eng[e].power = .on ∧ t.power.wakeq = rest ∧ (∀ j, j ≠ e → t.eng[j] = s.eng[j]) ∧
          t.power.grant = some (s.grantTime, s.grantTime + 1000 * s.powerStages))) ∧
    (∀ c ∈ s.cmds, c.phase ≠ .done → s.power.dIdle = true → ∃ t, exec .dIdleExit s = .next t ∧ t.power.dIdle = false ∧ SameBytes s t ∧
      ∀ e : Fin 8, bit s.partEngines e.val = true → s.eng[e].power = .off → e.val ∈ t.power.wakeq) ∧
    (∀ st : Fin 4, s.power.dIdle = true → (∃ x ∈ s.power.hbmAwake, x.1 = st.val) → ∃ t, exec (.selfRefreshReturn st) s = .next t ∧
      (∀ x, x ∈ t.power.hbmAwake ↔ x ∈ s.power.hbmAwake ∧ x.1 ≠ st.val) ∧ SameBytes s t ∧ t.eng = s.eng) ∧
    (s.hostUp = true → s.completions = [] → s.pendingVectors = [] →
      exec .busMasterEnable s = .next { s with power := { s.power with busMaster := true } })

/-- For every PERF_CFG that may execute: a block that is absent completes BAD_PARAM, an engine in E-OFF NO_RESOURCE, PROGRAM with MASK 0 OK_EMPTY; PROGRAM stores the SEL words of its mask and the engine's QSEL, CLEAR sets every counter and OVF to 0, FREEZE stops the block's counters, RUN sets EN and clears FREEZE, and SNAPSHOT writes every counter as 64-bit words. A write of CLR clears the block; a read of LO latches HI; an overflowing counter wraps and carries into a chained counter or sets its OVF bit. LOUPE_CFG stores its settings and starts an empty ring, or is refused; a tagged instruction that commits writes its record and moves WPTR on, or is dropped when the ring is full. Each test access port instruction is loaded with its register, EXTEST, CLAMP, HIGHZ and DEBUG acting as BYPASS where Table 22.5 says. No other state changes. [R571; R572; R573; R576; R577; R579; R580; Table 22.2; Table 22.5] -/
def Obligations.CountersLoupeAndTheTestPortObserve : Prop :=
  ∀ (s : State),
    (∀ (pair : BitVec 16) (c : Cmd) (i : Instr), Ready s pair 0x50 c →
      (c.param 2 1, i) ∈ [(0, Instr.perfProgram pair), (1, .perfClear pair), (2, .perfFreeze pair), (3, .perfRun pair), (4, .perfSnapshot pair)] →
      (s.pmcBlock (c.param 0 1) (c.param 1 1) = none → ∃ t, exec i s = .next t ∧ Ends s t c 0x0C 0 0) ∧
      (∀ u n, s.pmcBlock (c.param 0 1) (c.param 1 1) = some (u, n) →
        let b := pmcBase u n
        let count := fun (t : State) (k : Nat) => t.pmcCount u b k
        let off := ∃ e, engOf u = some e ∧ s.eng[e].power = .off
        (c.param 2 1 ∈ [1, 2, 3] → off → ∃ t, exec i s = .next t ∧ Ends s t c 0x0D 0 0) ∧
        (c.param 2 1 = 1 → ¬ off → ∃ t, exec i s = .next t ∧ Ends s t c 0 0 0 ∧ (∀ k, k < pmcSize u → count t k = 0) ∧ t.regN (key u (b + 4)) = 0) ∧
        (c.param 2 1 = 2 → ¬ off → ∃ t, exec i s = .next t ∧ Ends s t c 0 0 0 ∧ t.fld (key u b) 1 1 = 1 ∧ t.fld (key u b) 0 0 = s.fld (key u b) 0 0 ∧
          ∀ k, s.pmcRuns u b k = false → count t k = count s k) ∧
        (c.param 2 1 = 3 → ¬ off → ∃ t, exec i s = .next t ∧ Ends s t c 0 0 0 ∧ t.fld (key u b) 1 0 = 1) ∧
        (c.param 2 1 = 0 → ¬ off → c.param 4 2 = 0 → c.param 6 2 ≤ 1023 → ∃ t, exec i s = .next t ∧ Ends s t c 1 0 0) ∧
        (c.param 2 1 = 0 → ¬ off → c.param 4 2 ≠ 0 → c.param 4 2 < 2 ^ pmcSize u → c.param 6 2 ≤ 1023 → c.param 8 8 + 4 * pmcSize u ≤ s.hbmBytes →
          s.clean →
          let w := s.bytes (key 0x40 (c.param 8 8)) (4 * pmcSize u)
          selsOk (c.param 4 2) w = true → ∃ t, exec i s = .next t ∧ Ends s t c 0 0 0 ∧
            (∀ k, k < pmcSize u → t.regN (key u (b + 0x10 + 16 * k)) =
              if bit (c.param 4 2) k then fieldLE w (4 * k) 4 else s.regN (key u (b + 0x10 + 16 * k))) ∧
            (u < 8 → t.regN (key u (b + 8)) = c.param 6 2)) ∧
        (c.param 2 1 = 4 → ¬ off → c.param 16 8 % 64 = 0 → s.master = true → (∀ k, s.pmcRuns u b k = false) →
          ∃ t, exec i s = .next t ∧ Ends s t c 0 0 (8 * pmcSize u) ∧
            t.hostBytes (c.param 16 8) (8 * pmcSize u) = (List.range (pmcSize u)).flatMap fun k => toLE 8 (count s k)))) ∧
    (∀ (unit : BitVec 8) (n k : Fin 16),
      let u := unit.toNat
      let b := pmcBase u n.val
      let count := fun (t : State) (k : Nat) => t.pmcCount u b k
      k.val < pmcSize u → s.unitCause u 0x60 = 0 →
      (∀ v : Reg32, ∃ t, exec (.pmcClr 0x60 unit n v) s = .next t ∧ count t k.val = 0 ∧ t.regN (key u (b + 4)) = 0 ∧
        t.fld (key u b) 1 0 = bits v.toNat 1 0 ∧ SameBytes s t) ∧
      (s.pmcRuns u b k.val = false → ∃ t, exec (.pmcLoLatch unit n k) s = .next t ∧ SameBytes s t ∧
        ∀ a, t.regN a = if a = key u (b + 0x18 + 16 * k.val) then count s k.val / 2 ^ 32 % 2 ^ 32 else s.regN a) ∧
      (s.pmcRuns u b k.val = true →
        let chained := k.val + 1 < pmcSize u ∧ s.fld (key u (b + 0x10 + 16 * (k.val + 1))) 9 8 = 3
        (¬ chained → ∃ t, exec (.counterOverflow unit n k) s = .next t ∧ count t k.val = 0 ∧ t.fld (key u (b + 4)) k.val k.val = 1 ∧ SameBytes s t) ∧
        (chained → count s (k.val + 1) < 2 ^ 48 - 1 → ∃ t, exec (.counterOverflow unit n k) s = .next t ∧ count t k.val = 0 ∧
          count t (k.val + 1) = count s (k.val + 1) + 1 ∧ t.regN (key u (b + 4)) = s.regN (key u (b + 4)) ∧ SameBytes s t))) ∧
    (∀ (pair : BitVec 16) (c : Cmd) (e : Fin 8), Ready s pair 0x51 c → c.param 0 1 = e.val → e.val < s.nEngines → c.param 2 1 ≤ 16 →
      let en := bit (c.param 1 1) 0 = true
      let base := c.param 8 8
      let size := c.param 16 8
      let fits := base % 4096 = 0 ∧ size % 4096 = 0 ∧ 4096 ≤ size ∧ size < 2 ^ 32 ∧ base + size ≤ s.hbmBytes ∧ s.loupeMeets base size = false
      let slow := 8 ≤ c.param 2 1 ∨ s.isRealtime (s.homePart e.val) = false
      (en → ¬ fits → ∃ t, exec (.loupeCfg pair) s = .next t ∧ Ends s t c 0x0C 0 0) ∧
      (en → fits → ¬ slow → ∃ t, exec (.loupeCfg pair) s = .next t ∧ Ends s t c 9 0 0) ∧
      (en → fits → slow → ∃ t, exec (.loupeCfg pair) s = .next t ∧ Ends s t c 0 0 0 ∧ t.regN (loupeKey e 0) = 1 + 2 * c.param 2 1 ∧
        t.regN (loupeKey e 4) = c.param 4 4 ∧ t.reg64 (loupeKey e 8) = base ∧ t.regN (loupeKey e 0x10) = size ∧
        t.regN (loupeKey e 0x14) = 0 ∧ t.regN (loupeKey e 0x18) = 0)) ∧
    (∀ (e : Fin 8) (k : Fin 16) (g : Tag) (issue ready start commit : Word), s.eng[e].tags[k.val]? = some g →
      let w := s.regN (loupeKey e 0x14)
      let fits := ringDist (w + 32) (s.regN (loupeKey e 0x18)) ≤ s.regN (loupeKey e 0x10)
      let c := Instr.loupeRecord e k issue (some ready) (some start) (some commit)
      (fits → ∃ t x, exec c s = .next t ∧ t.eng[e].tags = s.eng[e].tags.eraseIdx k.val ∧ t.regN (loupeKey e 0x14) = (w + 32) % 2 ^ 32 ∧
        t.fab.waiting = s.fab.waiting ++ [x] ∧ x.op = .put ∧ x.payload = g.record issue (some ready) (some start) (some commit) ∧
        x.payload.length = 32 ∧ SameBytes s t) ∧
      (¬ fits → ∃ t, exec c s = .next t ∧ t.eng[e].tags = s.eng[e].tags.eraseIdx k.val ∧ t.fab = s.fab ∧
        t.regN (loupeKey e 0x1C) = min 0xFFFFFFFF (s.regN (loupeKey e 0x1C) + 1) ∧ ∀ a, a ≠ loupeKey e 0x1C → t.reg a = s.reg a)) ∧
    (∀ (balls cells : BitVec 412) (code : BitVec 8),
      let board := s.devState = 0 ∨ s.devState = 2 ∨ s.devState = 5
      let tap := fun (i : Instr) (ir : BitVec 8) (p : State → Prop) => ∃ t, exec i s = .next t ∧ t.jtag.ir = ir ∧ { t with jtag := s.jtag } = s ∧ p t
      tap .tapReset 1 (fun t => t.jtag.dr = 0x500C85AF ∧ t.tapDrive = .device) ∧
      tap .idcode 1 (fun t => t.jtag.dr = 0x500C85AF ∧ t.tapDrive = .device) ∧
      tap (.samplePreload balls cells) 2 (fun t => t.jtag.dr = balls ∧ t.jtag.boundary = cells ∧ t.tapDrive = .device) ∧
      (board → tap (.extest balls cells) 3 fun t => t.jtag.dr = balls ∧ t.tapDrive = .cells cells) ∧
      (¬ board → tap (.extest balls cells) 3 fun t => t.tapInstr = .bypass ∧ t.tapDrive = .device ∧ t.jtag.boundary = s.jtag.boundary) ∧
      tap .clamp 4 (fun t => t.jtag.boundary = s.jtag.boundary ∧ t.tapDrive = if board then .cells s.jtag.boundary else .device) ∧
      tap .highz 5 (fun t => t.jtag.boundary = s.jtag.boundary ∧ t.tapDrive = if board then .released else .device) ∧
      tap .debug 0x80 (fun t => t.tapInstr = (if s.secure.keys then .bypass else .debug) ∧ t.tapDrive = .device) ∧
      ∃ t, exec (.bypass code) s = .next t ∧ t.tapInstr = .bypass ∧ t.tapDrive = .device ∧ { t with jtag := s.jtag } = s)
end

