-- ==== Sys2Proof/Laws/Sparse.lean ====
section
/-! SUPPORT. Laws of sparse maps: reading after writing, and that every operation keeps the canonical form. -/
namespace Sys2Proof.Machine

variable {α : Type}

theorem Sparse.get_drop_ne (d : Nat → α) (m : List (Nat × α)) (k j : Nat) (h : j ≠ k) :
    Sparse.get d (Sparse.drop k m) j = Sparse.get d m j := by
  induction m with
  | nil => rfl
  | cons e r ih =>
    simp only [Sparse.drop, Sparse.get]
    split
    · next he =>
      subst he
      rw [ih, if_neg (fun x => h x.symm)]
    · simp only [Sparse.get, ih]

theorem Sparse.get_drop_eq (d : Nat → α) (m : List (Nat × α)) (k : Nat) : Sparse.get d (Sparse.drop k m) k = d k := by
  induction m with
  | nil => rfl
  | cons e r ih =>
    simp only [Sparse.drop]
    split
    · exact ih
    · next he => simp only [Sparse.get, if_neg he, ih]

theorem Sparse.get_ins (d : Nat → α) (m : List (Nat × α)) (k : Nat) (v : α) (j : Nat) :
    Sparse.get d (Sparse.ins k v (Sparse.drop k m)) j = if j = k then v else Sparse.get d m j := by
  induction m with
  | nil =>
    simp only [Sparse.drop, Sparse.ins, Sparse.get]
    by_cases h : j = k
    · simp [h]
    · have h2 : k ≠ j := fun x => h x.symm
      simp [h, h2]
  | cons e r ih =>
    simp only [Sparse.drop]
    split
    · next he =>
      rw [ih]
      by_cases h : j = k
      · simp [h]
      · simp only [if_neg h, Sparse.get]
        rw [if_neg (fun x => h (by omega))]
    · next he =>
      simp only [Sparse.ins]
      by_cases hk : k < e.1
      · rw [if_pos hk]
        by_cases h : j = k
        · simp [Sparse.get, h]
        · have hkj : k ≠ j := fun x => h x.symm
          by_cases h2 : e.1 = j
          · simp [Sparse.get, h, hkj, h2]
          · simp [Sparse.get, h, hkj, h2, Sparse.get_drop_ne d r k j h]
      · rw [if_neg hk]
        simp only [Sparse.get, ih]
        by_cases h2 : e.1 = j
        · have : j ≠ k := by omega
          simp [h2, this]
        · simp [h2]

/-- Reading after writing. -/
theorem Sparse.get_set [DecidableEq α] (d : Nat → α) (m : List (Nat × α)) (k : Nat) (v : α) (j : Nat) :
    Sparse.get d (Sparse.set d m k v) j = if j = k then v else Sparse.get d m j := by
  unfold Sparse.set
  split
  · next hv =>
    by_cases h : j = k
    · subst h
      rw [Sparse.get_drop_eq, if_pos rfl, hv]
    · rw [Sparse.get_drop_ne d m k j h, if_neg h]
  · exact Sparse.get_ins d m k v j

@[simp] theorem Sparse.get_set_eq [DecidableEq α] (d : Nat → α) (m : List (Nat × α)) (k : Nat) (v : α) :
    Sparse.get d (Sparse.set d m k v) k = v := by rw [Sparse.get_set, if_pos rfl]

theorem Sparse.get_set_ne [DecidableEq α] (d : Nat → α) (m : List (Nat × α)) (k : Nat) (v : α) (j : Nat) (h : j ≠ k) :
    Sparse.get d (Sparse.set d m k v) j = Sparse.get d m j := by rw [Sparse.get_set, if_neg h]

theorem Sparse.all_drop (p : Nat × α → Bool) (k : Nat) (m : List (Nat × α)) (h : m.all p = true) : (Sparse.drop k m).all p = true := by
  induction m with
  | nil => rfl
  | cons e r ih =>
    simp only [List.all_cons, Bool.and_eq_true] at h
    simp only [Sparse.drop]
    split
    · exact ih h.2
    · simp [h.1, ih h.2]

theorem Sparse.all_ins (p : Nat × α → Bool) (k : Nat) (v : α) (m : List (Nat × α)) (hk : p (k, v) = true) (h : m.all p = true) :
    (Sparse.ins k v m).all p = true := by
  induction m with
  | nil => simp [Sparse.ins, hk]
  | cons e r ih =>
    simp only [List.all_cons, Bool.and_eq_true] at h
    simp only [Sparse.ins]
    split
    · simp [hk, h.1, h.2]
    · simp [h.1, ih h.2]

theorem Sparse.all_clear (p : Nat × α → Bool) (q : Nat → Bool) (m : List (Nat × α)) (h : m.all p = true) :
    (Sparse.clear q m).all p = true := by
  induction m with
  | nil => rfl
  | cons e r ih =>
    simp only [List.all_cons, Bool.and_eq_true] at h
    simp only [Sparse.clear]
    split
    · exact ih h.2
    · simp [h.1, ih h.2]

variable [DecidableEq α]

theorem Sparse.wf_drop (d : Nat → α) (k : Nat) (m : List (Nat × α)) (h : Sparse.wf d m = true) : Sparse.wf d (Sparse.drop k m) = true := by
  induction m with
  | nil => rfl
  | cons e r ih =>
    simp only [Sparse.wf, Bool.and_eq_true] at h
    simp only [Sparse.drop]
    split
    · exact ih h.2
    · simp only [Sparse.wf, Bool.and_eq_true]
      exact ⟨⟨h.1.1, Sparse.all_drop _ k r h.1.2⟩, ih h.2⟩

theorem Sparse.wf_ins (d : Nat → α) (k : Nat) (v : α) (m : List (Nat × α)) (hv : v ≠ d k) (hk : m.all (fun x => decide (x.1 ≠ k)) = true)
    (h : Sparse.wf d m = true) : Sparse.wf d (Sparse.ins k v m) = true := by
  induction m with
  | nil => simp [Sparse.ins, Sparse.wf, hv]
  | cons e r ih =>
    have h' := h
    simp only [Sparse.wf, Bool.and_eq_true] at h
    simp only [List.all_cons, Bool.and_eq_true, decide_eq_true_eq] at hk
    simp only [Sparse.ins]
    split
    · next hlt =>
      simp only [Sparse.wf, Bool.and_eq_true, decide_eq_true_eq, List.all_cons]
      refine ⟨⟨hv, hlt, ?_⟩, ⟨by simpa using h.1.1, h.1.2⟩, h.2⟩
      have := h.1.2
      simp only [List.all_eq_true, decide_eq_true_eq] at this ⊢
      intro x hx
      exact Nat.lt_trans hlt (this x hx)
    · next hge =>
      simp only [Sparse.wf, Bool.and_eq_true]
      exact ⟨⟨h.1.1, Sparse.all_ins _ k v r (by simp; omega) h.1.2⟩, ih hk.2 h.2⟩

omit [DecidableEq α] in
theorem Sparse.drop_ne (k : Nat) (m : List (Nat × α)) : (Sparse.drop k m).all (fun x => decide (x.1 ≠ k)) = true := by
  induction m with
  | nil => rfl
  | cons e r ih =>
    simp only [Sparse.drop]
    split
    · exact ih
    · next he => simp [he]; simpa using ih

/-- A write keeps the canonical form. -/
theorem Sparse.wf_set (d : Nat → α) (m : List (Nat × α)) (k : Nat) (v : α) (h : Sparse.wf d m = true) :
    Sparse.wf d (Sparse.set d m k v) = true := by
  unfold Sparse.set
  split
  · exact Sparse.wf_drop d k m h
  · next hv => exact Sparse.wf_ins d k v _ hv (Sparse.drop_ne k m) (Sparse.wf_drop d k m h)

/-- Clearing keeps the canonical form. -/
theorem Sparse.wf_clear (d : Nat → α) (p : Nat → Bool) (m : List (Nat × α)) (h : Sparse.wf d m = true) :
    Sparse.wf d (Sparse.clear p m) = true := by
  induction m with
  | nil => rfl
  | cons e r ih =>
    simp only [Sparse.wf, Bool.and_eq_true] at h
    simp only [Sparse.clear]
    split
    · exact ih h.2
    · simp only [Sparse.wf, Bool.and_eq_true]
      exact ⟨⟨h.1.1, Sparse.all_clear _ p r h.1.2⟩, ih h.2⟩

omit [DecidableEq α] in
theorem Sparse.get_clear (d : Nat → α) (p : Nat → Bool) (m : List (Nat × α)) (k : Nat) :
    Sparse.get d (Sparse.clear p m) k = if p k then d k else Sparse.get d m k := by
  induction m with
  | nil => simp [Sparse.clear, Sparse.get]
  | cons e r ih =>
    simp only [Sparse.clear]
    split
    · next he =>
      rw [ih]
      by_cases h : e.1 = k
      · subst h; simp [he]
      · simp [Sparse.get, h]
    · next he =>
      simp only [Sparse.get, ih]
      by_cases h : e.1 = k
      · subst h; simp [he]
      · simp [h]

end Sys2Proof.Machine
end

