-- ==== Sys2Proof/Laws/State.lean ====
section
/-! SUPPORT. What each update of the state leaves in each field: one lemma per field per update. -/
namespace Sys2Proof.Machine

variable (s : State)

@[simp] theorem State.setReg_pending (a : Nat) (v : Reg32) : (s.setReg a v).pending = s.pending := rfl
@[simp] theorem State.setReg_fresh (a : Nat) (v : Reg32) : (s.setReg a v).fresh = s.fresh := rfl
@[simp] theorem State.setReg_clock (a : Nat) (v : Reg32) : (s.setReg a v).clock = s.clock := rfl
@[simp] theorem State.setReg_mem (a : Nat) (v : Reg32) : (s.setReg a v).mem = s.mem := rfl
@[simp] theorem State.setReg_host (a : Nat) (v : Reg32) : (s.setReg a v).host = s.host := rfl
@[simp] theorem State.setReg_ecc (a : Nat) (v : Reg32) : (s.setReg a v).ecc = s.ecc := rfl
@[simp] theorem State.setReg_writeback (a : Nat) (v : Reg32) : (s.setReg a v).writeback = s.writeback := rfl
@[simp] theorem State.setReg_fab (a : Nat) (v : Reg32) : (s.setReg a v).fab = s.fab := rfl
@[simp] theorem State.setReg_eng (a : Nat) (v : Reg32) : (s.setReg a v).eng = s.eng := rfl
@[simp] theorem State.setReg_published (a : Nat) (v : Reg32) : (s.setReg a v).published = s.published := rfl
@[simp] theorem State.setReg_carriers (a : Nat) (v : Reg32) : (s.setReg a v).carriers = s.carriers := rfl
@[simp] theorem State.setReg_rx (a : Nat) (v : Reg32) : (s.setReg a v).rx = s.rx := rfl
@[simp] theorem State.setReg_ul (a : Nat) (v : Reg32) : (s.setReg a v).ul = s.ul := rfl
@[simp] theorem State.setReg_dl (a : Nat) (v : Reg32) : (s.setReg a v).dl = s.dl := rfl
@[simp] theorem State.setReg_lastUl (a : Nat) (v : Reg32) : (s.setReg a v).lastUl = s.lastUl := rfl
@[simp] theorem State.setReg_stages (a : Nat) (v : Reg32) : (s.setReg a v).stages = s.stages := rfl
@[simp] theorem State.setReg_harq (a : Nat) (v : Reg32) : (s.setReg a v).harq = s.harq := rfl
@[simp] theorem State.setReg_captures (a : Nat) (v : Reg32) : (s.setReg a v).captures = s.captures := rfl
@[simp] theorem State.setReg_shadow (a : Nat) (v : Reg32) : (s.setReg a v).shadow = s.shadow := rfl
@[simp] theorem State.setReg_weights (a : Nat) (v : Reg32) : (s.setReg a v).weights = s.weights := rfl
@[simp] theorem State.setReg_facet (a : Nat) (v : Reg32) : (s.setReg a v).facet = s.facet := rfl
@[simp] theorem State.setReg_pmcHi (a : Nat) (v : Reg32) : (s.setReg a v).pmcHi = s.pmcHi := rfl
@[simp] theorem State.setReg_fuse (a : Nat) (v : Reg32) : (s.setReg a v).fuse = s.fuse := rfl
@[simp] theorem State.setReg_queues (a : Nat) (v : Reg32) : (s.setReg a v).queues = s.queues := rfl
@[simp] theorem State.setReg_cmds (a : Nat) (v : Reg32) : (s.setReg a v).cmds = s.cmds := rfl
@[simp] theorem State.setReg_completions (a : Nat) (v : Reg32) : (s.setReg a v).completions = s.completions := rfl
@[simp] theorem State.setReg_orderNo (a : Nat) (v : Reg32) : (s.setReg a v).orderNo = s.orderNo := rfl
@[simp] theorem State.setReg_parts (a : Nat) (v : Reg32) : (s.setReg a v).parts = s.parts := rfl
@[simp] theorem State.setReg_jobs (a : Nat) (v : Reg32) : (s.setReg a v).jobs = s.jobs := rfl
@[simp] theorem State.setReg_stageKills (a : Nat) (v : Reg32) : (s.setReg a v).stageKills = s.stageKills := rfl
@[simp] theorem State.setReg_ledger (a : Nat) (v : Reg32) : (s.setReg a v).ledger = s.ledger := rfl
@[simp] theorem State.setReg_power (a : Nat) (v : Reg32) : (s.setReg a v).power = s.power := rfl
@[simp] theorem State.setReg_ptp (a : Nat) (v : Reg32) : (s.setReg a v).ptp = s.ptp := rfl
@[simp] theorem State.setReg_configured (a : Nat) (v : Reg32) : (s.setReg a v).configured = s.configured := rfl
@[simp] theorem State.setReg_readOut (a : Nat) (v : Reg32) : (s.setReg a v).readOut = s.readOut := rfl
@[simp] theorem State.setReg_mirror (a : Nat) (v : Reg32) : (s.setReg a v).mirror = s.mirror := rfl
@[simp] theorem State.setReg_scrub (a : Nat) (v : Reg32) : (s.setReg a v).scrub = s.scrub := rfl
@[simp] theorem State.setReg_patrol (a : Nat) (v : Reg32) : (s.setReg a v).patrol = s.patrol := rfl
@[simp] theorem State.setReg_ucie (a : Nat) (v : Reg32) : (s.setReg a v).ucie = s.ucie := rfl
@[simp] theorem State.setReg_front (a : Nat) (v : Reg32) : (s.setReg a v).front = s.front := rfl
@[simp] theorem State.setReg_brivel (a : Nat) (v : Reg32) : (s.setReg a v).brivel = s.brivel := rfl
@[simp] theorem State.setReg_modem (a : Nat) (v : Reg32) : (s.setReg a v).modem = s.modem := rfl
@[simp] theorem State.setReg_secure (a : Nat) (v : Reg32) : (s.setReg a v).secure = s.secure := rfl
@[simp] theorem State.setReg_jtag (a : Nat) (v : Reg32) : (s.setReg a v).jtag = s.jtag := rfl

@[simp] theorem State.setRegN_pending (a v : Nat) : (s.setRegN a v).pending = s.pending := rfl
@[simp] theorem State.setRegN_fresh (a v : Nat) : (s.setRegN a v).fresh = s.fresh := rfl
@[simp] theorem State.setRegN_clock (a v : Nat) : (s.setRegN a v).clock = s.clock := rfl
@[simp] theorem State.setRegN_mem (a v : Nat) : (s.setRegN a v).mem = s.mem := rfl
@[simp] theorem State.setRegN_host (a v : Nat) : (s.setRegN a v).host = s.host := rfl
@[simp] theorem State.setRegN_ecc (a v : Nat) : (s.setRegN a v).ecc = s.ecc := rfl
@[simp] theorem State.setRegN_writeback (a v : Nat) : (s.setRegN a v).writeback = s.writeback := rfl
@[simp] theorem State.setRegN_fab (a v : Nat) : (s.setRegN a v).fab = s.fab := rfl
@[simp] theorem State.setRegN_eng (a v : Nat) : (s.setRegN a v).eng = s.eng := rfl
@[simp] theorem State.setRegN_published (a v : Nat) : (s.setRegN a v).published = s.published := rfl
@[simp] theorem State.setRegN_carriers (a v : Nat) : (s.setRegN a v).carriers = s.carriers := rfl
@[simp] theorem State.setRegN_rx (a v : Nat) : (s.setRegN a v).rx = s.rx := rfl
@[simp] theorem State.setRegN_ul (a v : Nat) : (s.setRegN a v).ul = s.ul := rfl
@[simp] theorem State.setRegN_dl (a v : Nat) : (s.setRegN a v).dl = s.dl := rfl
@[simp] theorem State.setRegN_lastUl (a v : Nat) : (s.setRegN a v).lastUl = s.lastUl := rfl
@[simp] theorem State.setRegN_stages (a v : Nat) : (s.setRegN a v).stages = s.stages := rfl
@[simp] theorem State.setRegN_harq (a v : Nat) : (s.setRegN a v).harq = s.harq := rfl
@[simp] theorem State.setRegN_captures (a v : Nat) : (s.setRegN a v).captures = s.captures := rfl
@[simp] theorem State.setRegN_shadow (a v : Nat) : (s.setRegN a v).shadow = s.shadow := rfl
@[simp] theorem State.setRegN_weights (a v : Nat) : (s.setRegN a v).weights = s.weights := rfl
@[simp] theorem State.setRegN_facet (a v : Nat) : (s.setRegN a v).facet = s.facet := rfl
@[simp] theorem State.setRegN_pmcHi (a v : Nat) : (s.setRegN a v).pmcHi = s.pmcHi := rfl
@[simp] theorem State.setRegN_fuse (a v : Nat) : (s.setRegN a v).fuse = s.fuse := rfl
@[simp] theorem State.setRegN_queues (a v : Nat) : (s.setRegN a v).queues = s.queues := rfl
@[simp] theorem State.setRegN_cmds (a v : Nat) : (s.setRegN a v).cmds = s.cmds := rfl
@[simp] theorem State.setRegN_completions (a v : Nat) : (s.setRegN a v).completions = s.completions := rfl
@[simp] theorem State.setRegN_orderNo (a v : Nat) : (s.setRegN a v).orderNo = s.orderNo := rfl
@[simp] theorem State.setRegN_parts (a v : Nat) : (s.setRegN a v).parts = s.parts := rfl
@[simp] theorem State.setRegN_jobs (a v : Nat) : (s.setRegN a v).jobs = s.jobs := rfl
@[simp] theorem State.setRegN_stageKills (a v : Nat) : (s.setRegN a v).stageKills = s.stageKills := rfl
@[simp] theorem State.setRegN_ledger (a v : Nat) : (s.setRegN a v).ledger = s.ledger := rfl
@[simp] theorem State.setRegN_power (a v : Nat) : (s.setRegN a v).power = s.power := rfl
@[simp] theorem State.setRegN_ptp (a v : Nat) : (s.setRegN a v).ptp = s.ptp := rfl
@[simp] theorem State.setRegN_configured (a v : Nat) : (s.setRegN a v).configured = s.configured := rfl
@[simp] theorem State.setRegN_readOut (a v : Nat) : (s.setRegN a v).readOut = s.readOut := rfl
@[simp] theorem State.setRegN_mirror (a v : Nat) : (s.setRegN a v).mirror = s.mirror := rfl
@[simp] theorem State.setRegN_scrub (a v : Nat) : (s.setRegN a v).scrub = s.scrub := rfl
@[simp] theorem State.setRegN_patrol (a v : Nat) : (s.setRegN a v).patrol = s.patrol := rfl
@[simp] theorem State.setRegN_ucie (a v : Nat) : (s.setRegN a v).ucie = s.ucie := rfl
@[simp] theorem State.setRegN_front (a v : Nat) : (s.setRegN a v).front = s.front := rfl
@[simp] theorem State.setRegN_brivel (a v : Nat) : (s.setRegN a v).brivel = s.brivel := rfl
@[simp] theorem State.setRegN_modem (a v : Nat) : (s.setRegN a v).modem = s.modem := rfl
@[simp] theorem State.setRegN_secure (a v : Nat) : (s.setRegN a v).secure = s.secure := rfl
@[simp] theorem State.setRegN_jtag (a v : Nat) : (s.setRegN a v).jtag = s.jtag := rfl

@[simp] theorem State.setFld_pending (a hi lo v : Nat) : (s.setFld a hi lo v).pending = s.pending := rfl
@[simp] theorem State.setFld_fresh (a hi lo v : Nat) : (s.setFld a hi lo v).fresh = s.fresh := rfl
@[simp] theorem State.setFld_clock (a hi lo v : Nat) : (s.setFld a hi lo v).clock = s.clock := rfl
@[simp] theorem State.setFld_mem (a hi lo v : Nat) : (s.setFld a hi lo v).mem = s.mem := rfl
@[simp] theorem State.setFld_host (a hi lo v : Nat) : (s.setFld a hi lo v).host = s.host := rfl
@[simp] theorem State.setFld_ecc (a hi lo v : Nat) : (s.setFld a hi lo v).ecc = s.ecc := rfl
@[simp] theorem State.setFld_writeback (a hi lo v : Nat) : (s.setFld a hi lo v).writeback = s.writeback := rfl
@[simp] theorem State.setFld_fab (a hi lo v : Nat) : (s.setFld a hi lo v).fab = s.fab := rfl
@[simp] theorem State.setFld_eng (a hi lo v : Nat) : (s.setFld a hi lo v).eng = s.eng := rfl
@[simp] theorem State.setFld_published (a hi lo v : Nat) : (s.setFld a hi lo v).published = s.published := rfl
@[simp] theorem State.setFld_carriers (a hi lo v : Nat) : (s.setFld a hi lo v).carriers = s.carriers := rfl
@[simp] theorem State.setFld_rx (a hi lo v : Nat) : (s.setFld a hi lo v).rx = s.rx := rfl
@[simp] theorem State.setFld_ul (a hi lo v : Nat) : (s.setFld a hi lo v).ul = s.ul := rfl
@[simp] theorem State.setFld_dl (a hi lo v : Nat) : (s.setFld a hi lo v).dl = s.dl := rfl
@[simp] theorem State.setFld_lastUl (a hi lo v : Nat) : (s.setFld a hi lo v).lastUl = s.lastUl := rfl
@[simp] theorem State.setFld_stages (a hi lo v : Nat) : (s.setFld a hi lo v).stages = s.stages := rfl
@[simp] theorem State.setFld_harq (a hi lo v : Nat) : (s.setFld a hi lo v).harq = s.harq := rfl
@[simp] theorem State.setFld_captures (a hi lo v : Nat) : (s.setFld a hi lo v).captures = s.captures := rfl
@[simp] theorem State.setFld_shadow (a hi lo v : Nat) : (s.setFld a hi lo v).shadow = s.shadow := rfl
@[simp] theorem State.setFld_weights (a hi lo v : Nat) : (s.setFld a hi lo v).weights = s.weights := rfl
@[simp] theorem State.setFld_facet (a hi lo v : Nat) : (s.setFld a hi lo v).facet = s.facet := rfl
@[simp] theorem State.setFld_pmcHi (a hi lo v : Nat) : (s.setFld a hi lo v).pmcHi = s.pmcHi := rfl
@[simp] theorem State.setFld_fuse (a hi lo v : Nat) : (s.setFld a hi lo v).fuse = s.fuse := rfl
@[simp] theorem State.setFld_queues (a hi lo v : Nat) : (s.setFld a hi lo v).queues = s.queues := rfl
@[simp] theorem State.setFld_cmds (a hi lo v : Nat) : (s.setFld a hi lo v).cmds = s.cmds := rfl
@[simp] theorem State.setFld_completions (a hi lo v : Nat) : (s.setFld a hi lo v).completions = s.completions := rfl
@[simp] theorem State.setFld_orderNo (a hi lo v : Nat) : (s.setFld a hi lo v).orderNo = s.orderNo := rfl
@[simp] theorem State.setFld_parts (a hi lo v : Nat) : (s.setFld a hi lo v).parts = s.parts := rfl
@[simp] theorem State.setFld_jobs (a hi lo v : Nat) : (s.setFld a hi lo v).jobs = s.jobs := rfl
@[simp] theorem State.setFld_stageKills (a hi lo v : Nat) : (s.setFld a hi lo v).stageKills = s.stageKills := rfl
@[simp] theorem State.setFld_ledger (a hi lo v : Nat) : (s.setFld a hi lo v).ledger = s.ledger := rfl
@[simp] theorem State.setFld_power (a hi lo v : Nat) : (s.setFld a hi lo v).power = s.power := rfl
@[simp] theorem State.setFld_ptp (a hi lo v : Nat) : (s.setFld a hi lo v).ptp = s.ptp := rfl
@[simp] theorem State.setFld_configured (a hi lo v : Nat) : (s.setFld a hi lo v).configured = s.configured := rfl
@[simp] theorem State.setFld_readOut (a hi lo v : Nat) : (s.setFld a hi lo v).readOut = s.readOut := rfl
@[simp] theorem State.setFld_mirror (a hi lo v : Nat) : (s.setFld a hi lo v).mirror = s.mirror := rfl
@[simp] theorem State.setFld_scrub (a hi lo v : Nat) : (s.setFld a hi lo v).scrub = s.scrub := rfl
@[simp] theorem State.setFld_patrol (a hi lo v : Nat) : (s.setFld a hi lo v).patrol = s.patrol := rfl
@[simp] theorem State.setFld_ucie (a hi lo v : Nat) : (s.setFld a hi lo v).ucie = s.ucie := rfl
@[simp] theorem State.setFld_front (a hi lo v : Nat) : (s.setFld a hi lo v).front = s.front := rfl
@[simp] theorem State.setFld_brivel (a hi lo v : Nat) : (s.setFld a hi lo v).brivel = s.brivel := rfl
@[simp] theorem State.setFld_modem (a hi lo v : Nat) : (s.setFld a hi lo v).modem = s.modem := rfl
@[simp] theorem State.setFld_secure (a hi lo v : Nat) : (s.setFld a hi lo v).secure = s.secure := rfl
@[simp] theorem State.setFld_jtag (a hi lo v : Nat) : (s.setFld a hi lo v).jtag = s.jtag := rfl

@[simp] theorem State.countUp_pending (a n : Nat) : (s.countUp a n).pending = s.pending := rfl
@[simp] theorem State.countUp_fresh (a n : Nat) : (s.countUp a n).fresh = s.fresh := rfl
@[simp] theorem State.countUp_clock (a n : Nat) : (s.countUp a n).clock = s.clock := rfl
@[simp] theorem State.countUp_mem (a n : Nat) : (s.countUp a n).mem = s.mem := rfl
@[simp] theorem State.countUp_host (a n : Nat) : (s.countUp a n).host = s.host := rfl
@[simp] theorem State.countUp_ecc (a n : Nat) : (s.countUp a n).ecc = s.ecc := rfl
@[simp] theorem State.countUp_writeback (a n : Nat) : (s.countUp a n).writeback = s.writeback := rfl
@[simp] theorem State.countUp_fab (a n : Nat) : (s.countUp a n).fab = s.fab := rfl
@[simp] theorem State.countUp_eng (a n : Nat) : (s.countUp a n).eng = s.eng := rfl
@[simp] theorem State.countUp_published (a n : Nat) : (s.countUp a n).published = s.published := rfl
@[simp] theorem State.countUp_carriers (a n : Nat) : (s.countUp a n).carriers = s.carriers := rfl
@[simp] theorem State.countUp_rx (a n : Nat) : (s.countUp a n).rx = s.rx := rfl
@[simp] theorem State.countUp_ul (a n : Nat) : (s.countUp a n).ul = s.ul := rfl
@[simp] theorem State.countUp_dl (a n : Nat) : (s.countUp a n).dl = s.dl := rfl
@[simp] theorem State.countUp_lastUl (a n : Nat) : (s.countUp a n).lastUl = s.lastUl := rfl
@[simp] theorem State.countUp_stages (a n : Nat) : (s.countUp a n).stages = s.stages := rfl
@[simp] theorem State.countUp_harq (a n : Nat) : (s.countUp a n).harq = s.harq := rfl
@[simp] theorem State.countUp_captures (a n : Nat) : (s.countUp a n).captures = s.captures := rfl
@[simp] theorem State.countUp_shadow (a n : Nat) : (s.countUp a n).shadow = s.shadow := rfl
@[simp] theorem State.countUp_weights (a n : Nat) : (s.countUp a n).weights = s.weights := rfl
@[simp] theorem State.countUp_facet (a n : Nat) : (s.countUp a n).facet = s.facet := rfl
@[simp] theorem State.countUp_pmcHi (a n : Nat) : (s.countUp a n).pmcHi = s.pmcHi := rfl
@[simp] theorem State.countUp_fuse (a n : Nat) : (s.countUp a n).fuse = s.fuse := rfl
@[simp] theorem State.countUp_queues (a n : Nat) : (s.countUp a n).queues = s.queues := rfl
@[simp] theorem State.countUp_cmds (a n : Nat) : (s.countUp a n).cmds = s.cmds := rfl
@[simp] theorem State.countUp_completions (a n : Nat) : (s.countUp a n).completions = s.completions := rfl
@[simp] theorem State.countUp_orderNo (a n : Nat) : (s.countUp a n).orderNo = s.orderNo := rfl
@[simp] theorem State.countUp_parts (a n : Nat) : (s.countUp a n).parts = s.parts := rfl
@[simp] theorem State.countUp_jobs (a n : Nat) : (s.countUp a n).jobs = s.jobs := rfl
@[simp] theorem State.countUp_stageKills (a n : Nat) : (s.countUp a n).stageKills = s.stageKills := rfl
@[simp] theorem State.countUp_ledger (a n : Nat) : (s.countUp a n).ledger = s.ledger := rfl
@[simp] theorem State.countUp_power (a n : Nat) : (s.countUp a n).power = s.power := rfl
@[simp] theorem State.countUp_ptp (a n : Nat) : (s.countUp a n).ptp = s.ptp := rfl
@[simp] theorem State.countUp_configured (a n : Nat) : (s.countUp a n).configured = s.configured := rfl
@[simp] theorem State.countUp_readOut (a n : Nat) : (s.countUp a n).readOut = s.readOut := rfl
@[simp] theorem State.countUp_mirror (a n : Nat) : (s.countUp a n).mirror = s.mirror := rfl
@[simp] theorem State.countUp_scrub (a n : Nat) : (s.countUp a n).scrub = s.scrub := rfl
@[simp] theorem State.countUp_patrol (a n : Nat) : (s.countUp a n).patrol = s.patrol := rfl
@[simp] theorem State.countUp_ucie (a n : Nat) : (s.countUp a n).ucie = s.ucie := rfl
@[simp] theorem State.countUp_front (a n : Nat) : (s.countUp a n).front = s.front := rfl
@[simp] theorem State.countUp_brivel (a n : Nat) : (s.countUp a n).brivel = s.brivel := rfl
@[simp] theorem State.countUp_modem (a n : Nat) : (s.countUp a n).modem = s.modem := rfl
@[simp] theorem State.countUp_secure (a n : Nat) : (s.countUp a n).secure = s.secure := rfl
@[simp] theorem State.countUp_jtag (a n : Nat) : (s.countUp a n).jtag = s.jtag := rfl

@[simp] theorem State.setReg64_pending (a v : Nat) : (s.setReg64 a v).pending = s.pending := rfl
@[simp] theorem State.setReg64_fresh (a v : Nat) : (s.setReg64 a v).fresh = s.fresh := rfl
@[simp] theorem State.setReg64_clock (a v : Nat) : (s.setReg64 a v).clock = s.clock := rfl
@[simp] theorem State.setReg64_mem (a v : Nat) : (s.setReg64 a v).mem = s.mem := rfl
@[simp] theorem State.setReg64_host (a v : Nat) : (s.setReg64 a v).host = s.host := rfl
@[simp] theorem State.setReg64_ecc (a v : Nat) : (s.setReg64 a v).ecc = s.ecc := rfl
@[simp] theorem State.setReg64_writeback (a v : Nat) : (s.setReg64 a v).writeback = s.writeback := rfl
@[simp] theorem State.setReg64_fab (a v : Nat) : (s.setReg64 a v).fab = s.fab := rfl
@[simp] theorem State.setReg64_eng (a v : Nat) : (s.setReg64 a v).eng = s.eng := rfl
@[simp] theorem State.setReg64_published (a v : Nat) : (s.setReg64 a v).published = s.published := rfl
@[simp] theorem State.setReg64_carriers (a v : Nat) : (s.setReg64 a v).carriers = s.carriers := rfl
@[simp] theorem State.setReg64_rx (a v : Nat) : (s.setReg64 a v).rx = s.rx := rfl
@[simp] theorem State.setReg64_ul (a v : Nat) : (s.setReg64 a v).ul = s.ul := rfl
@[simp] theorem State.setReg64_dl (a v : Nat) : (s.setReg64 a v).dl = s.dl := rfl
@[simp] theorem State.setReg64_lastUl (a v : Nat) : (s.setReg64 a v).lastUl = s.lastUl := rfl
@[simp] theorem State.setReg64_stages (a v : Nat) : (s.setReg64 a v).stages = s.stages := rfl
@[simp] theorem State.setReg64_harq (a v : Nat) : (s.setReg64 a v).harq = s.harq := rfl
@[simp] theorem State.setReg64_captures (a v : Nat) : (s.setReg64 a v).captures = s.captures := rfl
@[simp] theorem State.setReg64_shadow (a v : Nat) : (s.setReg64 a v).shadow = s.shadow := rfl
@[simp] theorem State.setReg64_weights (a v : Nat) : (s.setReg64 a v).weights = s.weights := rfl
@[simp] theorem State.setReg64_facet (a v : Nat) : (s.setReg64 a v).facet = s.facet := rfl
@[simp] theorem State.setReg64_pmcHi (a v : Nat) : (s.setReg64 a v).pmcHi = s.pmcHi := rfl
@[simp] theorem State.setReg64_fuse (a v : Nat) : (s.setReg64 a v).fuse = s.fuse := rfl
@[simp] theorem State.setReg64_queues (a v : Nat) : (s.setReg64 a v).queues = s.queues := rfl
@[simp] theorem State.setReg64_cmds (a v : Nat) : (s.setReg64 a v).cmds = s.cmds := rfl
@[simp] theorem State.setReg64_completions (a v : Nat) : (s.setReg64 a v).completions = s.completions := rfl
@[simp] theorem State.setReg64_orderNo (a v : Nat) : (s.setReg64 a v).orderNo = s.orderNo := rfl
@[simp] theorem State.setReg64_parts (a v : Nat) : (s.setReg64 a v).parts = s.parts := rfl
@[simp] theorem State.setReg64_jobs (a v : Nat) : (s.setReg64 a v).jobs = s.jobs := rfl
@[simp] theorem State.setReg64_stageKills (a v : Nat) : (s.setReg64 a v).stageKills = s.stageKills := rfl
@[simp] theorem State.setReg64_ledger (a v : Nat) : (s.setReg64 a v).ledger = s.ledger := rfl
@[simp] theorem State.setReg64_power (a v : Nat) : (s.setReg64 a v).power = s.power := rfl
@[simp] theorem State.setReg64_ptp (a v : Nat) : (s.setReg64 a v).ptp = s.ptp := rfl
@[simp] theorem State.setReg64_configured (a v : Nat) : (s.setReg64 a v).configured = s.configured := rfl
@[simp] theorem State.setReg64_readOut (a v : Nat) : (s.setReg64 a v).readOut = s.readOut := rfl
@[simp] theorem State.setReg64_mirror (a v : Nat) : (s.setReg64 a v).mirror = s.mirror := rfl
@[simp] theorem State.setReg64_scrub (a v : Nat) : (s.setReg64 a v).scrub = s.scrub := rfl
@[simp] theorem State.setReg64_patrol (a v : Nat) : (s.setReg64 a v).patrol = s.patrol := rfl
@[simp] theorem State.setReg64_ucie (a v : Nat) : (s.setReg64 a v).ucie = s.ucie := rfl
@[simp] theorem State.setReg64_front (a v : Nat) : (s.setReg64 a v).front = s.front := rfl
@[simp] theorem State.setReg64_brivel (a v : Nat) : (s.setReg64 a v).brivel = s.brivel := rfl
@[simp] theorem State.setReg64_modem (a v : Nat) : (s.setReg64 a v).modem = s.modem := rfl
@[simp] theorem State.setReg64_secure (a v : Nat) : (s.setReg64 a v).secure = s.secure := rfl
@[simp] theorem State.setReg64_jtag (a v : Nat) : (s.setReg64 a v).jtag = s.jtag := rfl

@[simp] theorem State.setEng_pending (e : Fin 8) (x : Engine) : (s.setEng e x).pending = s.pending := rfl
@[simp] theorem State.setEng_fresh (e : Fin 8) (x : Engine) : (s.setEng e x).fresh = s.fresh := rfl
@[simp] theorem State.setEng_clock (e : Fin 8) (x : Engine) : (s.setEng e x).clock = s.clock := rfl
@[simp] theorem State.setEng_mem (e : Fin 8) (x : Engine) : (s.setEng e x).mem = s.mem := rfl
@[simp] theorem State.setEng_host (e : Fin 8) (x : Engine) : (s.setEng e x).host = s.host := rfl
@[simp] theorem State.setEng_regs (e : Fin 8) (x : Engine) : (s.setEng e x).regs = s.regs := rfl
@[simp] theorem State.setEng_ecc (e : Fin 8) (x : Engine) : (s.setEng e x).ecc = s.ecc := rfl
@[simp] theorem State.setEng_writeback (e : Fin 8) (x : Engine) : (s.setEng e x).writeback = s.writeback := rfl
@[simp] theorem State.setEng_fab (e : Fin 8) (x : Engine) : (s.setEng e x).fab = s.fab := rfl
@[simp] theorem State.setEng_published (e : Fin 8) (x : Engine) : (s.setEng e x).published = s.published := rfl
@[simp] theorem State.setEng_carriers (e : Fin 8) (x : Engine) : (s.setEng e x).carriers = s.carriers := rfl
@[simp] theorem State.setEng_rx (e : Fin 8) (x : Engine) : (s.setEng e x).rx = s.rx := rfl
@[simp] theorem State.setEng_ul (e : Fin 8) (x : Engine) : (s.setEng e x).ul = s.ul := rfl
@[simp] theorem State.setEng_dl (e : Fin 8) (x : Engine) : (s.setEng e x).dl = s.dl := rfl
@[simp] theorem State.setEng_lastUl (e : Fin 8) (x : Engine) : (s.setEng e x).lastUl = s.lastUl := rfl
@[simp] theorem State.setEng_stages (e : Fin 8) (x : Engine) : (s.setEng e x).stages = s.stages := rfl
@[simp] theorem State.setEng_harq (e : Fin 8) (x : Engine) : (s.setEng e x).harq = s.harq := rfl
@[simp] theorem State.setEng_captures (e : Fin 8) (x : Engine) : (s.setEng e x).captures = s.captures := rfl
@[simp] theorem State.setEng_shadow (e : Fin 8) (x : Engine) : (s.setEng e x).shadow = s.shadow := rfl
@[simp] theorem State.setEng_weights (e : Fin 8) (x : Engine) : (s.setEng e x).weights = s.weights := rfl
@[simp] theorem State.setEng_facet (e : Fin 8) (x : Engine) : (s.setEng e x).facet = s.facet := rfl
@[simp] theorem State.setEng_pmcHi (e : Fin 8) (x : Engine) : (s.setEng e x).pmcHi = s.pmcHi := rfl
@[simp] theorem State.setEng_fuse (e : Fin 8) (x : Engine) : (s.setEng e x).fuse = s.fuse := rfl
@[simp] theorem State.setEng_queues (e : Fin 8) (x : Engine) : (s.setEng e x).queues = s.queues := rfl
@[simp] theorem State.setEng_cmds (e : Fin 8) (x : Engine) : (s.setEng e x).cmds = s.cmds := rfl
@[simp] theorem State.setEng_completions (e : Fin 8) (x : Engine) : (s.setEng e x).completions = s.completions := rfl
@[simp] theorem State.setEng_orderNo (e : Fin 8) (x : Engine) : (s.setEng e x).orderNo = s.orderNo := rfl
@[simp] theorem State.setEng_parts (e : Fin 8) (x : Engine) : (s.setEng e x).parts = s.parts := rfl
@[simp] theorem State.setEng_jobs (e : Fin 8) (x : Engine) : (s.setEng e x).jobs = s.jobs := rfl
@[simp] theorem State.setEng_stageKills (e : Fin 8) (x : Engine) : (s.setEng e x).stageKills = s.stageKills := rfl
@[simp] theorem State.setEng_ledger (e : Fin 8) (x : Engine) : (s.setEng e x).ledger = s.ledger := rfl
@[simp] theorem State.setEng_power (e : Fin 8) (x : Engine) : (s.setEng e x).power = s.power := rfl
@[simp] theorem State.setEng_ptp (e : Fin 8) (x : Engine) : (s.setEng e x).ptp = s.ptp := rfl
@[simp] theorem State.setEng_configured (e : Fin 8) (x : Engine) : (s.setEng e x).configured = s.configured := rfl
@[simp] theorem State.setEng_readOut (e : Fin 8) (x : Engine) : (s.setEng e x).readOut = s.readOut := rfl
@[simp] theorem State.setEng_mirror (e : Fin 8) (x : Engine) : (s.setEng e x).mirror = s.mirror := rfl
@[simp] theorem State.setEng_scrub (e : Fin 8) (x : Engine) : (s.setEng e x).scrub = s.scrub := rfl
@[simp] theorem State.setEng_patrol (e : Fin 8) (x : Engine) : (s.setEng e x).patrol = s.patrol := rfl
@[simp] theorem State.setEng_ucie (e : Fin 8) (x : Engine) : (s.setEng e x).ucie = s.ucie := rfl
@[simp] theorem State.setEng_front (e : Fin 8) (x : Engine) : (s.setEng e x).front = s.front := rfl
@[simp] theorem State.setEng_brivel (e : Fin 8) (x : Engine) : (s.setEng e x).brivel = s.brivel := rfl
@[simp] theorem State.setEng_modem (e : Fin 8) (x : Engine) : (s.setEng e x).modem = s.modem := rfl
@[simp] theorem State.setEng_secure (e : Fin 8) (x : Engine) : (s.setEng e x).secure = s.secure := rfl
@[simp] theorem State.setEng_jtag (e : Fin 8) (x : Engine) : (s.setEng e x).jtag = s.jtag := rfl

@[simp] theorem State.modEng_pending (e : Fin 8) (f : Engine → Engine) : (s.modEng e f).pending = s.pending := rfl
@[simp] theorem State.modEng_fresh (e : Fin 8) (f : Engine → Engine) : (s.modEng e f).fresh = s.fresh := rfl
@[simp] theorem State.modEng_clock (e : Fin 8) (f : Engine → Engine) : (s.modEng e f).clock = s.clock := rfl
@[simp] theorem State.modEng_mem (e : Fin 8) (f : Engine → Engine) : (s.modEng e f).mem = s.mem := rfl
@[simp] theorem State.modEng_host (e : Fin 8) (f : Engine → Engine) : (s.modEng e f).host = s.host := rfl
@[simp] theorem State.modEng_regs (e : Fin 8) (f : Engine → Engine) : (s.modEng e f).regs = s.regs := rfl
@[simp] theorem State.modEng_ecc (e : Fin 8) (f : Engine → Engine) : (s.modEng e f).ecc = s.ecc := rfl
@[simp] theorem State.modEng_writeback (e : Fin 8) (f : Engine → Engine) : (s.modEng e f).writeback = s.writeback := rfl
@[simp] theorem State.modEng_fab (e : Fin 8) (f : Engine → Engine) : (s.modEng e f).fab = s.fab := rfl
@[simp] theorem State.modEng_published (e : Fin 8) (f : Engine → Engine) : (s.modEng e f).published = s.published := rfl
@[simp] theorem State.modEng_carriers (e : Fin 8) (f : Engine → Engine) : (s.modEng e f).carriers = s.carriers := rfl
@[simp] theorem State.modEng_rx (e : Fin 8) (f : Engine → Engine) : (s.modEng e f).rx = s.rx := rfl
@[simp] theorem State.modEng_ul (e : Fin 8) (f : Engine → Engine) : (s.modEng e f).ul = s.ul := rfl
@[simp] theorem State.modEng_dl (e : Fin 8) (f : Engine → Engine) : (s.modEng e f).dl = s.dl := rfl
@[simp] theorem State.modEng_lastUl (e : Fin 8) (f : Engine → Engine) : (s.modEng e f).lastUl = s.lastUl := rfl
@[simp] theorem State.modEng_stages (e : Fin 8) (f : Engine → Engine) : (s.modEng e f).stages = s.stages := rfl
@[simp] theorem State.modEng_harq (e : Fin 8) (f : Engine → Engine) : (s.modEng e f).harq = s.harq := rfl
@[simp] theorem State.modEng_captures (e : Fin 8) (f : Engine → Engine) : (s.modEng e f).captures = s.captures := rfl
@[simp] theorem State.modEng_shadow (e : Fin 8) (f : Engine → Engine) : (s.modEng e f).shadow = s.shadow := rfl
@[simp] theorem State.modEng_weights (e : Fin 8) (f : Engine → Engine) : (s.modEng e f).weights = s.weights := rfl
@[simp] theorem State.modEng_facet (e : Fin 8) (f : Engine → Engine) : (s.modEng e f).facet = s.facet := rfl
@[simp] theorem State.modEng_pmcHi (e : Fin 8) (f : Engine → Engine) : (s.modEng e f).pmcHi = s.pmcHi := rfl
@[simp] theorem State.modEng_fuse (e : Fin 8) (f : Engine → Engine) : (s.modEng e f).fuse = s.fuse := rfl
@[simp] theorem State.modEng_queues (e : Fin 8) (f : Engine → Engine) : (s.modEng e f).queues = s.queues := rfl
@[simp] theorem State.modEng_cmds (e : Fin 8) (f : Engine → Engine) : (s.modEng e f).cmds = s.cmds := rfl
@[simp] theorem State.modEng_completions (e : Fin 8) (f : Engine → Engine) : (s.modEng e f).completions = s.completions := rfl
@[simp] theorem State.modEng_orderNo (e : Fin 8) (f : Engine → Engine) : (s.modEng e f).orderNo = s.orderNo := rfl
@[simp] theorem State.modEng_parts (e : Fin 8) (f : Engine → Engine) : (s.modEng e f).parts = s.parts := rfl
@[simp] theorem State.modEng_jobs (e : Fin 8) (f : Engine → Engine) : (s.modEng e f).jobs = s.jobs := rfl
@[simp] theorem State.modEng_stageKills (e : Fin 8) (f : Engine → Engine) : (s.modEng e f).stageKills = s.stageKills := rfl
@[simp] theorem State.modEng_ledger (e : Fin 8) (f : Engine → Engine) : (s.modEng e f).ledger = s.ledger := rfl
@[simp] theorem State.modEng_power (e : Fin 8) (f : Engine → Engine) : (s.modEng e f).power = s.power := rfl
@[simp] theorem State.modEng_ptp (e : Fin 8) (f : Engine → Engine) : (s.modEng e f).ptp = s.ptp := rfl
@[simp] theorem State.modEng_configured (e : Fin 8) (f : Engine → Engine) : (s.modEng e f).configured = s.configured := rfl
@[simp] theorem State.modEng_readOut (e : Fin 8) (f : Engine → Engine) : (s.modEng e f).readOut = s.readOut := rfl
@[simp] theorem State.modEng_mirror (e : Fin 8) (f : Engine → Engine) : (s.modEng e f).mirror = s.mirror := rfl
@[simp] theorem State.modEng_scrub (e : Fin 8) (f : Engine → Engine) : (s.modEng e f).scrub = s.scrub := rfl
@[simp] theorem State.modEng_patrol (e : Fin 8) (f : Engine → Engine) : (s.modEng e f).patrol = s.patrol := rfl
@[simp] theorem State.modEng_ucie (e : Fin 8) (f : Engine → Engine) : (s.modEng e f).ucie = s.ucie := rfl
@[simp] theorem State.modEng_front (e : Fin 8) (f : Engine → Engine) : (s.modEng e f).front = s.front := rfl
@[simp] theorem State.modEng_brivel (e : Fin 8) (f : Engine → Engine) : (s.modEng e f).brivel = s.brivel := rfl
@[simp] theorem State.modEng_modem (e : Fin 8) (f : Engine → Engine) : (s.modEng e f).modem = s.modem := rfl
@[simp] theorem State.modEng_secure (e : Fin 8) (f : Engine → Engine) : (s.modEng e f).secure = s.secure := rfl
@[simp] theorem State.modEng_jtag (e : Fin 8) (f : Engine → Engine) : (s.modEng e f).jtag = s.jtag := rfl

@[simp] theorem State.putByte_pending (a : Nat) (b : Byte) : (s.putByte a b).pending = s.pending := rfl
@[simp] theorem State.putByte_fresh (a : Nat) (b : Byte) : (s.putByte a b).fresh = s.fresh := rfl
@[simp] theorem State.putByte_clock (a : Nat) (b : Byte) : (s.putByte a b).clock = s.clock := rfl
@[simp] theorem State.putByte_host (a : Nat) (b : Byte) : (s.putByte a b).host = s.host := rfl
@[simp] theorem State.putByte_regs (a : Nat) (b : Byte) : (s.putByte a b).regs = s.regs := rfl
@[simp] theorem State.putByte_ecc (a : Nat) (b : Byte) : (s.putByte a b).ecc = s.ecc := rfl
@[simp] theorem State.putByte_writeback (a : Nat) (b : Byte) : (s.putByte a b).writeback = s.writeback := rfl
@[simp] theorem State.putByte_fab (a : Nat) (b : Byte) : (s.putByte a b).fab = s.fab := rfl
@[simp] theorem State.putByte_eng (a : Nat) (b : Byte) : (s.putByte a b).eng = s.eng := rfl
@[simp] theorem State.putByte_published (a : Nat) (b : Byte) : (s.putByte a b).published = s.published := rfl
@[simp] theorem State.putByte_carriers (a : Nat) (b : Byte) : (s.putByte a b).carriers = s.carriers := rfl
@[simp] theorem State.putByte_rx (a : Nat) (b : Byte) : (s.putByte a b).rx = s.rx := rfl
@[simp] theorem State.putByte_ul (a : Nat) (b : Byte) : (s.putByte a b).ul = s.ul := rfl
@[simp] theorem State.putByte_dl (a : Nat) (b : Byte) : (s.putByte a b).dl = s.dl := rfl
@[simp] theorem State.putByte_lastUl (a : Nat) (b : Byte) : (s.putByte a b).lastUl = s.lastUl := rfl
@[simp] theorem State.putByte_stages (a : Nat) (b : Byte) : (s.putByte a b).stages = s.stages := rfl
@[simp] theorem State.putByte_harq (a : Nat) (b : Byte) : (s.putByte a b).harq = s.harq := rfl
@[simp] theorem State.putByte_captures (a : Nat) (b : Byte) : (s.putByte a b).captures = s.captures := rfl
@[simp] theorem State.putByte_shadow (a : Nat) (b : Byte) : (s.putByte a b).shadow = s.shadow := rfl
@[simp] theorem State.putByte_weights (a : Nat) (b : Byte) : (s.putByte a b).weights = s.weights := rfl
@[simp] theorem State.putByte_facet (a : Nat) (b : Byte) : (s.putByte a b).facet = s.facet := rfl
@[simp] theorem State.putByte_pmcHi (a : Nat) (b : Byte) : (s.putByte a b).pmcHi = s.pmcHi := rfl
@[simp] theorem State.putByte_fuse (a : Nat) (b : Byte) : (s.putByte a b).fuse = s.fuse := rfl
@[simp] theorem State.putByte_queues (a : Nat) (b : Byte) : (s.putByte a b).queues = s.queues := rfl
@[simp] theorem State.putByte_cmds (a : Nat) (b : Byte) : (s.putByte a b).cmds = s.cmds := rfl
@[simp] theorem State.putByte_completions (a : Nat) (b : Byte) : (s.putByte a b).completions = s.completions := rfl
@[simp] theorem State.putByte_orderNo (a : Nat) (b : Byte) : (s.putByte a b).orderNo = s.orderNo := rfl
@[simp] theorem State.putByte_parts (a : Nat) (b : Byte) : (s.putByte a b).parts = s.parts := rfl
@[simp] theorem State.putByte_jobs (a : Nat) (b : Byte) : (s.putByte a b).jobs = s.jobs := rfl
@[simp] theorem State.putByte_stageKills (a : Nat) (b : Byte) : (s.putByte a b).stageKills = s.stageKills := rfl
@[simp] theorem State.putByte_ledger (a : Nat) (b : Byte) : (s.putByte a b).ledger = s.ledger := rfl
@[simp] theorem State.putByte_power (a : Nat) (b : Byte) : (s.putByte a b).power = s.power := rfl
@[simp] theorem State.putByte_ptp (a : Nat) (b : Byte) : (s.putByte a b).ptp = s.ptp := rfl
@[simp] theorem State.putByte_configured (a : Nat) (b : Byte) : (s.putByte a b).configured = s.configured := rfl
@[simp] theorem State.putByte_readOut (a : Nat) (b : Byte) : (s.putByte a b).readOut = s.readOut := rfl
@[simp] theorem State.putByte_mirror (a : Nat) (b : Byte) : (s.putByte a b).mirror = s.mirror := rfl
@[simp] theorem State.putByte_scrub (a : Nat) (b : Byte) : (s.putByte a b).scrub = s.scrub := rfl
@[simp] theorem State.putByte_patrol (a : Nat) (b : Byte) : (s.putByte a b).patrol = s.patrol := rfl
@[simp] theorem State.putByte_ucie (a : Nat) (b : Byte) : (s.putByte a b).ucie = s.ucie := rfl
@[simp] theorem State.putByte_front (a : Nat) (b : Byte) : (s.putByte a b).front = s.front := rfl
@[simp] theorem State.putByte_brivel (a : Nat) (b : Byte) : (s.putByte a b).brivel = s.brivel := rfl
@[simp] theorem State.putByte_modem (a : Nat) (b : Byte) : (s.putByte a b).modem = s.modem := rfl
@[simp] theorem State.putByte_secure (a : Nat) (b : Byte) : (s.putByte a b).secure = s.secure := rfl
@[simp] theorem State.putByte_jtag (a : Nat) (b : Byte) : (s.putByte a b).jtag = s.jtag := rfl

@[simp] theorem State.setEcc_pending (b : Nat) (x : Ecc) : (s.setEcc b x).pending = s.pending := rfl
@[simp] theorem State.setEcc_fresh (b : Nat) (x : Ecc) : (s.setEcc b x).fresh = s.fresh := rfl
@[simp] theorem State.setEcc_clock (b : Nat) (x : Ecc) : (s.setEcc b x).clock = s.clock := rfl
@[simp] theorem State.setEcc_mem (b : Nat) (x : Ecc) : (s.setEcc b x).mem = s.mem := rfl
@[simp] theorem State.setEcc_host (b : Nat) (x : Ecc) : (s.setEcc b x).host = s.host := rfl
@[simp] theorem State.setEcc_regs (b : Nat) (x : Ecc) : (s.setEcc b x).regs = s.regs := rfl
@[simp] theorem State.setEcc_writeback (b : Nat) (x : Ecc) : (s.setEcc b x).writeback = s.writeback := rfl
@[simp] theorem State.setEcc_fab (b : Nat) (x : Ecc) : (s.setEcc b x).fab = s.fab := rfl
@[simp] theorem State.setEcc_eng (b : Nat) (x : Ecc) : (s.setEcc b x).eng = s.eng := rfl
@[simp] theorem State.setEcc_published (b : Nat) (x : Ecc) : (s.setEcc b x).published = s.published := rfl
@[simp] theorem State.setEcc_carriers (b : Nat) (x : Ecc) : (s.setEcc b x).carriers = s.carriers := rfl
@[simp] theorem State.setEcc_rx (b : Nat) (x : Ecc) : (s.setEcc b x).rx = s.rx := rfl
@[simp] theorem State.setEcc_ul (b : Nat) (x : Ecc) : (s.setEcc b x).ul = s.ul := rfl
@[simp] theorem State.setEcc_dl (b : Nat) (x : Ecc) : (s.setEcc b x).dl = s.dl := rfl
@[simp] theorem State.setEcc_lastUl (b : Nat) (x : Ecc) : (s.setEcc b x).lastUl = s.lastUl := rfl
@[simp] theorem State.setEcc_stages (b : Nat) (x : Ecc) : (s.setEcc b x).stages = s.stages := rfl
@[simp] theorem State.setEcc_harq (b : Nat) (x : Ecc) : (s.setEcc b x).harq = s.harq := rfl
@[simp] theorem State.setEcc_captures (b : Nat) (x : Ecc) : (s.setEcc b x).captures = s.captures := rfl
@[simp] theorem State.setEcc_shadow (b : Nat) (x : Ecc) : (s.setEcc b x).shadow = s.shadow := rfl
@[simp] theorem State.setEcc_weights (b : Nat) (x : Ecc) : (s.setEcc b x).weights = s.weights := rfl
@[simp] theorem State.setEcc_facet (b : Nat) (x : Ecc) : (s.setEcc b x).facet = s.facet := rfl
@[simp] theorem State.setEcc_pmcHi (b : Nat) (x : Ecc) : (s.setEcc b x).pmcHi = s.pmcHi := rfl
@[simp] theorem State.setEcc_fuse (b : Nat) (x : Ecc) : (s.setEcc b x).fuse = s.fuse := rfl
@[simp] theorem State.setEcc_queues (b : Nat) (x : Ecc) : (s.setEcc b x).queues = s.queues := rfl
@[simp] theorem State.setEcc_cmds (b : Nat) (x : Ecc) : (s.setEcc b x).cmds = s.cmds := rfl
@[simp] theorem State.setEcc_completions (b : Nat) (x : Ecc) : (s.setEcc b x).completions = s.completions := rfl
@[simp] theorem State.setEcc_orderNo (b : Nat) (x : Ecc) : (s.setEcc b x).orderNo = s.orderNo := rfl
@[simp] theorem State.setEcc_parts (b : Nat) (x : Ecc) : (s.setEcc b x).parts = s.parts := rfl
@[simp] theorem State.setEcc_jobs (b : Nat) (x : Ecc) : (s.setEcc b x).jobs = s.jobs := rfl
@[simp] theorem State.setEcc_stageKills (b : Nat) (x : Ecc) : (s.setEcc b x).stageKills = s.stageKills := rfl
@[simp] theorem State.setEcc_ledger (b : Nat) (x : Ecc) : (s.setEcc b x).ledger = s.ledger := rfl
@[simp] theorem State.setEcc_power (b : Nat) (x : Ecc) : (s.setEcc b x).power = s.power := rfl
@[simp] theorem State.setEcc_ptp (b : Nat) (x : Ecc) : (s.setEcc b x).ptp = s.ptp := rfl
@[simp] theorem State.setEcc_configured (b : Nat) (x : Ecc) : (s.setEcc b x).configured = s.configured := rfl
@[simp] theorem State.setEcc_readOut (b : Nat) (x : Ecc) : (s.setEcc b x).readOut = s.readOut := rfl
@[simp] theorem State.setEcc_mirror (b : Nat) (x : Ecc) : (s.setEcc b x).mirror = s.mirror := rfl
@[simp] theorem State.setEcc_scrub (b : Nat) (x : Ecc) : (s.setEcc b x).scrub = s.scrub := rfl
@[simp] theorem State.setEcc_patrol (b : Nat) (x : Ecc) : (s.setEcc b x).patrol = s.patrol := rfl
@[simp] theorem State.setEcc_ucie (b : Nat) (x : Ecc) : (s.setEcc b x).ucie = s.ucie := rfl
@[simp] theorem State.setEcc_front (b : Nat) (x : Ecc) : (s.setEcc b x).front = s.front := rfl
@[simp] theorem State.setEcc_brivel (b : Nat) (x : Ecc) : (s.setEcc b x).brivel = s.brivel := rfl
@[simp] theorem State.setEcc_modem (b : Nat) (x : Ecc) : (s.setEcc b x).modem = s.modem := rfl
@[simp] theorem State.setEcc_secure (b : Nat) (x : Ecc) : (s.setEcc b x).secure = s.secure := rfl
@[simp] theorem State.setEcc_jtag (b : Nat) (x : Ecc) : (s.setEcc b x).jtag = s.jtag := rfl

@[simp] theorem State.ledgerIssue_pending (k : Nat) (p : List Byte) : (s.ledgerIssue k p).pending = s.pending := rfl
@[simp] theorem State.ledgerIssue_fresh (k : Nat) (p : List Byte) : (s.ledgerIssue k p).fresh = s.fresh := rfl
@[simp] theorem State.ledgerIssue_clock (k : Nat) (p : List Byte) : (s.ledgerIssue k p).clock = s.clock := rfl
@[simp] theorem State.ledgerIssue_mem (k : Nat) (p : List Byte) : (s.ledgerIssue k p).mem = s.mem := rfl
@[simp] theorem State.ledgerIssue_host (k : Nat) (p : List Byte) : (s.ledgerIssue k p).host = s.host := rfl
@[simp] theorem State.ledgerIssue_regs (k : Nat) (p : List Byte) : (s.ledgerIssue k p).regs = s.regs := rfl
@[simp] theorem State.ledgerIssue_ecc (k : Nat) (p : List Byte) : (s.ledgerIssue k p).ecc = s.ecc := rfl
@[simp] theorem State.ledgerIssue_writeback (k : Nat) (p : List Byte) : (s.ledgerIssue k p).writeback = s.writeback := rfl
@[simp] theorem State.ledgerIssue_fab (k : Nat) (p : List Byte) : (s.ledgerIssue k p).fab = s.fab := rfl
@[simp] theorem State.ledgerIssue_eng (k : Nat) (p : List Byte) : (s.ledgerIssue k p).eng = s.eng := rfl
@[simp] theorem State.ledgerIssue_published (k : Nat) (p : List Byte) : (s.ledgerIssue k p).published = s.published := rfl
@[simp] theorem State.ledgerIssue_carriers (k : Nat) (p : List Byte) : (s.ledgerIssue k p).carriers = s.carriers := rfl
@[simp] theorem State.ledgerIssue_rx (k : Nat) (p : List Byte) : (s.ledgerIssue k p).rx = s.rx := rfl
@[simp] theorem State.ledgerIssue_ul (k : Nat) (p : List Byte) : (s.ledgerIssue k p).ul = s.ul := rfl
@[simp] theorem State.ledgerIssue_dl (k : Nat) (p : List Byte) : (s.ledgerIssue k p).dl = s.dl := rfl
@[simp] theorem State.ledgerIssue_lastUl (k : Nat) (p : List Byte) : (s.ledgerIssue k p).lastUl = s.lastUl := rfl
@[simp] theorem State.ledgerIssue_stages (k : Nat) (p : List Byte) : (s.ledgerIssue k p).stages = s.stages := rfl
@[simp] theorem State.ledgerIssue_harq (k : Nat) (p : List Byte) : (s.ledgerIssue k p).harq = s.harq := rfl
@[simp] theorem State.ledgerIssue_captures (k : Nat) (p : List Byte) : (s.ledgerIssue k p).captures = s.captures := rfl
@[simp] theorem State.ledgerIssue_shadow (k : Nat) (p : List Byte) : (s.ledgerIssue k p).shadow = s.shadow := rfl
@[simp] theorem State.ledgerIssue_weights (k : Nat) (p : List Byte) : (s.ledgerIssue k p).weights = s.weights := rfl
@[simp] theorem State.ledgerIssue_facet (k : Nat) (p : List Byte) : (s.ledgerIssue k p).facet = s.facet := rfl
@[simp] theorem State.ledgerIssue_pmcHi (k : Nat) (p : List Byte) : (s.ledgerIssue k p).pmcHi = s.pmcHi := rfl
@[simp] theorem State.ledgerIssue_fuse (k : Nat) (p : List Byte) : (s.ledgerIssue k p).fuse = s.fuse := rfl
@[simp] theorem State.ledgerIssue_queues (k : Nat) (p : List Byte) : (s.ledgerIssue k p).queues = s.queues := rfl
@[simp] theorem State.ledgerIssue_cmds (k : Nat) (p : List Byte) : (s.ledgerIssue k p).cmds = s.cmds := rfl
@[simp] theorem State.ledgerIssue_completions (k : Nat) (p : List Byte) : (s.ledgerIssue k p).completions = s.completions := rfl
@[simp] theorem State.ledgerIssue_orderNo (k : Nat) (p : List Byte) : (s.ledgerIssue k p).orderNo = s.orderNo := rfl
@[simp] theorem State.ledgerIssue_parts (k : Nat) (p : List Byte) : (s.ledgerIssue k p).parts = s.parts := rfl
@[simp] theorem State.ledgerIssue_jobs (k : Nat) (p : List Byte) : (s.ledgerIssue k p).jobs = s.jobs := rfl
@[simp] theorem State.ledgerIssue_stageKills (k : Nat) (p : List Byte) : (s.ledgerIssue k p).stageKills = s.stageKills := rfl
@[simp] theorem State.ledgerIssue_power (k : Nat) (p : List Byte) : (s.ledgerIssue k p).power = s.power := rfl
@[simp] theorem State.ledgerIssue_ptp (k : Nat) (p : List Byte) : (s.ledgerIssue k p).ptp = s.ptp := rfl
@[simp] theorem State.ledgerIssue_configured (k : Nat) (p : List Byte) : (s.ledgerIssue k p).configured = s.configured := rfl
@[simp] theorem State.ledgerIssue_readOut (k : Nat) (p : List Byte) : (s.ledgerIssue k p).readOut = s.readOut := rfl
@[simp] theorem State.ledgerIssue_mirror (k : Nat) (p : List Byte) : (s.ledgerIssue k p).mirror = s.mirror := rfl
@[simp] theorem State.ledgerIssue_scrub (k : Nat) (p : List Byte) : (s.ledgerIssue k p).scrub = s.scrub := rfl
@[simp] theorem State.ledgerIssue_patrol (k : Nat) (p : List Byte) : (s.ledgerIssue k p).patrol = s.patrol := rfl
@[simp] theorem State.ledgerIssue_ucie (k : Nat) (p : List Byte) : (s.ledgerIssue k p).ucie = s.ucie := rfl
@[simp] theorem State.ledgerIssue_front (k : Nat) (p : List Byte) : (s.ledgerIssue k p).front = s.front := rfl
@[simp] theorem State.ledgerIssue_brivel (k : Nat) (p : List Byte) : (s.ledgerIssue k p).brivel = s.brivel := rfl
@[simp] theorem State.ledgerIssue_modem (k : Nat) (p : List Byte) : (s.ledgerIssue k p).modem = s.modem := rfl
@[simp] theorem State.ledgerIssue_secure (k : Nat) (p : List Byte) : (s.ledgerIssue k p).secure = s.secure := rfl
@[simp] theorem State.ledgerIssue_jtag (k : Nat) (p : List Byte) : (s.ledgerIssue k p).jtag = s.jtag := rfl

@[simp] theorem State.event_pending (a b c : Nat) : (s.event a b c).pending = s.pending := rfl
@[simp] theorem State.event_fresh (a b c : Nat) : (s.event a b c).fresh = s.fresh := rfl
@[simp] theorem State.event_clock (a b c : Nat) : (s.event a b c).clock = s.clock := rfl
@[simp] theorem State.event_mem (a b c : Nat) : (s.event a b c).mem = s.mem := rfl
@[simp] theorem State.event_host (a b c : Nat) : (s.event a b c).host = s.host := rfl
@[simp] theorem State.event_regs (a b c : Nat) : (s.event a b c).regs = s.regs := rfl
@[simp] theorem State.event_ecc (a b c : Nat) : (s.event a b c).ecc = s.ecc := rfl
@[simp] theorem State.event_writeback (a b c : Nat) : (s.event a b c).writeback = s.writeback := rfl
@[simp] theorem State.event_fab (a b c : Nat) : (s.event a b c).fab = s.fab := rfl
@[simp] theorem State.event_eng (a b c : Nat) : (s.event a b c).eng = s.eng := rfl
@[simp] theorem State.event_published (a b c : Nat) : (s.event a b c).published = s.published := rfl
@[simp] theorem State.event_carriers (a b c : Nat) : (s.event a b c).carriers = s.carriers := rfl
@[simp] theorem State.event_rx (a b c : Nat) : (s.event a b c).rx = s.rx := rfl
@[simp] theorem State.event_ul (a b c : Nat) : (s.event a b c).ul = s.ul := rfl
@[simp] theorem State.event_dl (a b c : Nat) : (s.event a b c).dl = s.dl := rfl
@[simp] theorem State.event_lastUl (a b c : Nat) : (s.event a b c).lastUl = s.lastUl := rfl
@[simp] theorem State.event_stages (a b c : Nat) : (s.event a b c).stages = s.stages := rfl
@[simp] theorem State.event_harq (a b c : Nat) : (s.event a b c).harq = s.harq := rfl
@[simp] theorem State.event_captures (a b c : Nat) : (s.event a b c).captures = s.captures := rfl
@[simp] theorem State.event_shadow (a b c : Nat) : (s.event a b c).shadow = s.shadow := rfl
@[simp] theorem State.event_weights (a b c : Nat) : (s.event a b c).weights = s.weights := rfl
@[simp] theorem State.event_facet (a b c : Nat) : (s.event a b c).facet = s.facet := rfl
@[simp] theorem State.event_pmcHi (a b c : Nat) : (s.event a b c).pmcHi = s.pmcHi := rfl
@[simp] theorem State.event_fuse (a b c : Nat) : (s.event a b c).fuse = s.fuse := rfl
@[simp] theorem State.event_queues (a b c : Nat) : (s.event a b c).queues = s.queues := rfl
@[simp] theorem State.event_cmds (a b c : Nat) : (s.event a b c).cmds = s.cmds := rfl
@[simp] theorem State.event_completions (a b c : Nat) : (s.event a b c).completions = s.completions := rfl
@[simp] theorem State.event_orderNo (a b c : Nat) : (s.event a b c).orderNo = s.orderNo := rfl
@[simp] theorem State.event_parts (a b c : Nat) : (s.event a b c).parts = s.parts := rfl
@[simp] theorem State.event_jobs (a b c : Nat) : (s.event a b c).jobs = s.jobs := rfl
@[simp] theorem State.event_stageKills (a b c : Nat) : (s.event a b c).stageKills = s.stageKills := rfl
@[simp] theorem State.event_power (a b c : Nat) : (s.event a b c).power = s.power := rfl
@[simp] theorem State.event_ptp (a b c : Nat) : (s.event a b c).ptp = s.ptp := rfl
@[simp] theorem State.event_configured (a b c : Nat) : (s.event a b c).configured = s.configured := rfl
@[simp] theorem State.event_readOut (a b c : Nat) : (s.event a b c).readOut = s.readOut := rfl
@[simp] theorem State.event_mirror (a b c : Nat) : (s.event a b c).mirror = s.mirror := rfl
@[simp] theorem State.event_scrub (a b c : Nat) : (s.event a b c).scrub = s.scrub := rfl
@[simp] theorem State.event_patrol (a b c : Nat) : (s.event a b c).patrol = s.patrol := rfl
@[simp] theorem State.event_ucie (a b c : Nat) : (s.event a b c).ucie = s.ucie := rfl
@[simp] theorem State.event_front (a b c : Nat) : (s.event a b c).front = s.front := rfl
@[simp] theorem State.event_brivel (a b c : Nat) : (s.event a b c).brivel = s.brivel := rfl
@[simp] theorem State.event_modem (a b c : Nat) : (s.event a b c).modem = s.modem := rfl
@[simp] theorem State.event_secure (a b c : Nat) : (s.event a b c).secure = s.secure := rfl
@[simp] theorem State.event_jtag (a b c : Nat) : (s.event a b c).jtag = s.jtag := rfl

@[simp] theorem State.undef_pending (a n : Nat) : (s.undef a n).pending = s.pending := rfl
@[simp] theorem State.undef_clock (a n : Nat) : (s.undef a n).clock = s.clock := rfl
@[simp] theorem State.undef_host (a n : Nat) : (s.undef a n).host = s.host := rfl
@[simp] theorem State.undef_regs (a n : Nat) : (s.undef a n).regs = s.regs := rfl
@[simp] theorem State.undef_ecc (a n : Nat) : (s.undef a n).ecc = s.ecc := rfl
@[simp] theorem State.undef_writeback (a n : Nat) : (s.undef a n).writeback = s.writeback := rfl
@[simp] theorem State.undef_fab (a n : Nat) : (s.undef a n).fab = s.fab := rfl
@[simp] theorem State.undef_eng (a n : Nat) : (s.undef a n).eng = s.eng := rfl
@[simp] theorem State.undef_published (a n : Nat) : (s.undef a n).published = s.published := rfl
@[simp] theorem State.undef_carriers (a n : Nat) : (s.undef a n).carriers = s.carriers := rfl
@[simp] theorem State.undef_rx (a n : Nat) : (s.undef a n).rx = s.rx := rfl
@[simp] theorem State.undef_ul (a n : Nat) : (s.undef a n).ul = s.ul := rfl
@[simp] theorem State.undef_dl (a n : Nat) : (s.undef a n).dl = s.dl := rfl
@[simp] theorem State.undef_lastUl (a n : Nat) : (s.undef a n).lastUl = s.lastUl := rfl
@[simp] theorem State.undef_stages (a n : Nat) : (s.undef a n).stages = s.stages := rfl
@[simp] theorem State.undef_harq (a n : Nat) : (s.undef a n).harq = s.harq := rfl
@[simp] theorem State.undef_captures (a n : Nat) : (s.undef a n).captures = s.captures := rfl
@[simp] theorem State.undef_shadow (a n : Nat) : (s.undef a n).shadow = s.shadow := rfl
@[simp] theorem State.undef_weights (a n : Nat) : (s.undef a n).weights = s.weights := rfl
@[simp] theorem State.undef_facet (a n : Nat) : (s.undef a n).facet = s.facet := rfl
@[simp] theorem State.undef_pmcHi (a n : Nat) : (s.undef a n).pmcHi = s.pmcHi := rfl
@[simp] theorem State.undef_fuse (a n : Nat) : (s.undef a n).fuse = s.fuse := rfl
@[simp] theorem State.undef_queues (a n : Nat) : (s.undef a n).queues = s.queues := rfl
@[simp] theorem State.undef_cmds (a n : Nat) : (s.undef a n).cmds = s.cmds := rfl
@[simp] theorem State.undef_completions (a n : Nat) : (s.undef a n).completions = s.completions := rfl
@[simp] theorem State.undef_orderNo (a n : Nat) : (s.undef a n).orderNo = s.orderNo := rfl
@[simp] theorem State.undef_parts (a n : Nat) : (s.undef a n).parts = s.parts := rfl
@[simp] theorem State.undef_jobs (a n : Nat) : (s.undef a n).jobs = s.jobs := rfl
@[simp] theorem State.undef_stageKills (a n : Nat) : (s.undef a n).stageKills = s.stageKills := rfl
@[simp] theorem State.undef_ledger (a n : Nat) : (s.undef a n).ledger = s.ledger := rfl
@[simp] theorem State.undef_power (a n : Nat) : (s.undef a n).power = s.power := rfl
@[simp] theorem State.undef_ptp (a n : Nat) : (s.undef a n).ptp = s.ptp := rfl
@[simp] theorem State.undef_configured (a n : Nat) : (s.undef a n).configured = s.configured := rfl
@[simp] theorem State.undef_readOut (a n : Nat) : (s.undef a n).readOut = s.readOut := rfl
@[simp] theorem State.undef_mirror (a n : Nat) : (s.undef a n).mirror = s.mirror := rfl
@[simp] theorem State.undef_scrub (a n : Nat) : (s.undef a n).scrub = s.scrub := rfl
@[simp] theorem State.undef_patrol (a n : Nat) : (s.undef a n).patrol = s.patrol := rfl
@[simp] theorem State.undef_ucie (a n : Nat) : (s.undef a n).ucie = s.ucie := rfl
@[simp] theorem State.undef_front (a n : Nat) : (s.undef a n).front = s.front := rfl
@[simp] theorem State.undef_brivel (a n : Nat) : (s.undef a n).brivel = s.brivel := rfl
@[simp] theorem State.undef_modem (a n : Nat) : (s.undef a n).modem = s.modem := rfl
@[simp] theorem State.undef_secure (a n : Nat) : (s.undef a n).secure = s.secure := rfl
@[simp] theorem State.undef_jtag (a n : Nat) : (s.undef a n).jtag = s.jtag := rfl

@[simp] theorem State.hostWrite_pending (a : Nat) (b : List Byte) : (s.hostWrite a b).pending = s.pending := rfl
@[simp] theorem State.hostWrite_fresh (a : Nat) (b : List Byte) : (s.hostWrite a b).fresh = s.fresh := rfl
@[simp] theorem State.hostWrite_clock (a : Nat) (b : List Byte) : (s.hostWrite a b).clock = s.clock := rfl
@[simp] theorem State.hostWrite_mem (a : Nat) (b : List Byte) : (s.hostWrite a b).mem = s.mem := rfl
@[simp] theorem State.hostWrite_regs (a : Nat) (b : List Byte) : (s.hostWrite a b).regs = s.regs := rfl
@[simp] theorem State.hostWrite_ecc (a : Nat) (b : List Byte) : (s.hostWrite a b).ecc = s.ecc := rfl
@[simp] theorem State.hostWrite_writeback (a : Nat) (b : List Byte) : (s.hostWrite a b).writeback = s.writeback := rfl
@[simp] theorem State.hostWrite_fab (a : Nat) (b : List Byte) : (s.hostWrite a b).fab = s.fab := rfl
@[simp] theorem State.hostWrite_eng (a : Nat) (b : List Byte) : (s.hostWrite a b).eng = s.eng := rfl
@[simp] theorem State.hostWrite_published (a : Nat) (b : List Byte) : (s.hostWrite a b).published = s.published := rfl
@[simp] theorem State.hostWrite_carriers (a : Nat) (b : List Byte) : (s.hostWrite a b).carriers = s.carriers := rfl
@[simp] theorem State.hostWrite_rx (a : Nat) (b : List Byte) : (s.hostWrite a b).rx = s.rx := rfl
@[simp] theorem State.hostWrite_ul (a : Nat) (b : List Byte) : (s.hostWrite a b).ul = s.ul := rfl
@[simp] theorem State.hostWrite_dl (a : Nat) (b : List Byte) : (s.hostWrite a b).dl = s.dl := rfl
@[simp] theorem State.hostWrite_lastUl (a : Nat) (b : List Byte) : (s.hostWrite a b).lastUl = s.lastUl := rfl
@[simp] theorem State.hostWrite_stages (a : Nat) (b : List Byte) : (s.hostWrite a b).stages = s.stages := rfl
@[simp] theorem State.hostWrite_harq (a : Nat) (b : List Byte) : (s.hostWrite a b).harq = s.harq := rfl
@[simp] theorem State.hostWrite_captures (a : Nat) (b : List Byte) : (s.hostWrite a b).captures = s.captures := rfl
@[simp] theorem State.hostWrite_shadow (a : Nat) (b : List Byte) : (s.hostWrite a b).shadow = s.shadow := rfl
@[simp] theorem State.hostWrite_weights (a : Nat) (b : List Byte) : (s.hostWrite a b).weights = s.weights := rfl
@[simp] theorem State.hostWrite_facet (a : Nat) (b : List Byte) : (s.hostWrite a b).facet = s.facet := rfl
@[simp] theorem State.hostWrite_pmcHi (a : Nat) (b : List Byte) : (s.hostWrite a b).pmcHi = s.pmcHi := rfl
@[simp] theorem State.hostWrite_fuse (a : Nat) (b : List Byte) : (s.hostWrite a b).fuse = s.fuse := rfl
@[simp] theorem State.hostWrite_queues (a : Nat) (b : List Byte) : (s.hostWrite a b).queues = s.queues := rfl
@[simp] theorem State.hostWrite_cmds (a : Nat) (b : List Byte) : (s.hostWrite a b).cmds = s.cmds := rfl
@[simp] theorem State.hostWrite_completions (a : Nat) (b : List Byte) : (s.hostWrite a b).completions = s.completions := rfl
@[simp] theorem State.hostWrite_orderNo (a : Nat) (b : List Byte) : (s.hostWrite a b).orderNo = s.orderNo := rfl
@[simp] theorem State.hostWrite_parts (a : Nat) (b : List Byte) : (s.hostWrite a b).parts = s.parts := rfl
@[simp] theorem State.hostWrite_jobs (a : Nat) (b : List Byte) : (s.hostWrite a b).jobs = s.jobs := rfl
@[simp] theorem State.hostWrite_stageKills (a : Nat) (b : List Byte) : (s.hostWrite a b).stageKills = s.stageKills := rfl
@[simp] theorem State.hostWrite_ledger (a : Nat) (b : List Byte) : (s.hostWrite a b).ledger = s.ledger := rfl
@[simp] theorem State.hostWrite_power (a : Nat) (b : List Byte) : (s.hostWrite a b).power = s.power := rfl
@[simp] theorem State.hostWrite_ptp (a : Nat) (b : List Byte) : (s.hostWrite a b).ptp = s.ptp := rfl
@[simp] theorem State.hostWrite_configured (a : Nat) (b : List Byte) : (s.hostWrite a b).configured = s.configured := rfl
@[simp] theorem State.hostWrite_readOut (a : Nat) (b : List Byte) : (s.hostWrite a b).readOut = s.readOut := rfl
@[simp] theorem State.hostWrite_mirror (a : Nat) (b : List Byte) : (s.hostWrite a b).mirror = s.mirror := rfl
@[simp] theorem State.hostWrite_scrub (a : Nat) (b : List Byte) : (s.hostWrite a b).scrub = s.scrub := rfl
@[simp] theorem State.hostWrite_patrol (a : Nat) (b : List Byte) : (s.hostWrite a b).patrol = s.patrol := rfl
@[simp] theorem State.hostWrite_ucie (a : Nat) (b : List Byte) : (s.hostWrite a b).ucie = s.ucie := rfl
@[simp] theorem State.hostWrite_front (a : Nat) (b : List Byte) : (s.hostWrite a b).front = s.front := rfl
@[simp] theorem State.hostWrite_brivel (a : Nat) (b : List Byte) : (s.hostWrite a b).brivel = s.brivel := rfl
@[simp] theorem State.hostWrite_modem (a : Nat) (b : List Byte) : (s.hostWrite a b).modem = s.modem := rfl
@[simp] theorem State.hostWrite_secure (a : Nat) (b : List Byte) : (s.hostWrite a b).secure = s.secure := rfl
@[simp] theorem State.hostWrite_jtag (a : Nat) (b : List Byte) : (s.hostWrite a b).jtag = s.jtag := rfl

@[simp] theorem State.modCmd_pending (id : Nat × Nat) (f : Cmd → Cmd) : (s.modCmd id f).pending = s.pending := rfl
@[simp] theorem State.modCmd_fresh (id : Nat × Nat) (f : Cmd → Cmd) : (s.modCmd id f).fresh = s.fresh := rfl
@[simp] theorem State.modCmd_clock (id : Nat × Nat) (f : Cmd → Cmd) : (s.modCmd id f).clock = s.clock := rfl
@[simp] theorem State.modCmd_mem (id : Nat × Nat) (f : Cmd → Cmd) : (s.modCmd id f).mem = s.mem := rfl
@[simp] theorem State.modCmd_host (id : Nat × Nat) (f : Cmd → Cmd) : (s.modCmd id f).host = s.host := rfl
@[simp] theorem State.modCmd_regs (id : Nat × Nat) (f : Cmd → Cmd) : (s.modCmd id f).regs = s.regs := rfl
@[simp] theorem State.modCmd_ecc (id : Nat × Nat) (f : Cmd → Cmd) : (s.modCmd id f).ecc = s.ecc := rfl
@[simp] theorem State.modCmd_writeback (id : Nat × Nat) (f : Cmd → Cmd) : (s.modCmd id f).writeback = s.writeback := rfl
@[simp] theorem State.modCmd_fab (id : Nat × Nat) (f : Cmd → Cmd) : (s.modCmd id f).fab = s.fab := rfl
@[simp] theorem State.modCmd_eng (id : Nat × Nat) (f : Cmd → Cmd) : (s.modCmd id f).eng = s.eng := rfl
@[simp] theorem State.modCmd_published (id : Nat × Nat) (f : Cmd → Cmd) : (s.modCmd id f).published = s.published := rfl
@[simp] theorem State.modCmd_carriers (id : Nat × Nat) (f : Cmd → Cmd) : (s.modCmd id f).carriers = s.carriers := rfl
@[simp] theorem State.modCmd_rx (id : Nat × Nat) (f : Cmd → Cmd) : (s.modCmd id f).rx = s.rx := rfl
@[simp] theorem State.modCmd_ul (id : Nat × Nat) (f : Cmd → Cmd) : (s.modCmd id f).ul = s.ul := rfl
@[simp] theorem State.modCmd_dl (id : Nat × Nat) (f : Cmd → Cmd) : (s.modCmd id f).dl = s.dl := rfl
@[simp] theorem State.modCmd_lastUl (id : Nat × Nat) (f : Cmd → Cmd) : (s.modCmd id f).lastUl = s.lastUl := rfl
@[simp] theorem State.modCmd_stages (id : Nat × Nat) (f : Cmd → Cmd) : (s.modCmd id f).stages = s.stages := rfl
@[simp] theorem State.modCmd_harq (id : Nat × Nat) (f : Cmd → Cmd) : (s.modCmd id f).harq = s.harq := rfl
@[simp] theorem State.modCmd_captures (id : Nat × Nat) (f : Cmd → Cmd) : (s.modCmd id f).captures = s.captures := rfl
@[simp] theorem State.modCmd_shadow (id : Nat × Nat) (f : Cmd → Cmd) : (s.modCmd id f).shadow = s.shadow := rfl
@[simp] theorem State.modCmd_weights (id : Nat × Nat) (f : Cmd → Cmd) : (s.modCmd id f).weights = s.weights := rfl
@[simp] theorem State.modCmd_facet (id : Nat × Nat) (f : Cmd → Cmd) : (s.modCmd id f).facet = s.facet := rfl
@[simp] theorem State.modCmd_pmcHi (id : Nat × Nat) (f : Cmd → Cmd) : (s.modCmd id f).pmcHi = s.pmcHi := rfl
@[simp] theorem State.modCmd_fuse (id : Nat × Nat) (f : Cmd → Cmd) : (s.modCmd id f).fuse = s.fuse := rfl
@[simp] theorem State.modCmd_queues (id : Nat × Nat) (f : Cmd → Cmd) : (s.modCmd id f).queues = s.queues := rfl
@[simp] theorem State.modCmd_completions (id : Nat × Nat) (f : Cmd → Cmd) : (s.modCmd id f).completions = s.completions := rfl
@[simp] theorem State.modCmd_orderNo (id : Nat × Nat) (f : Cmd → Cmd) : (s.modCmd id f).orderNo = s.orderNo := rfl
@[simp] theorem State.modCmd_parts (id : Nat × Nat) (f : Cmd → Cmd) : (s.modCmd id f).parts = s.parts := rfl
@[simp] theorem State.modCmd_jobs (id : Nat × Nat) (f : Cmd → Cmd) : (s.modCmd id f).jobs = s.jobs := rfl
@[simp] theorem State.modCmd_stageKills (id : Nat × Nat) (f : Cmd → Cmd) : (s.modCmd id f).stageKills = s.stageKills := rfl
@[simp] theorem State.modCmd_ledger (id : Nat × Nat) (f : Cmd → Cmd) : (s.modCmd id f).ledger = s.ledger := rfl
@[simp] theorem State.modCmd_power (id : Nat × Nat) (f : Cmd → Cmd) : (s.modCmd id f).power = s.power := rfl
@[simp] theorem State.modCmd_ptp (id : Nat × Nat) (f : Cmd → Cmd) : (s.modCmd id f).ptp = s.ptp := rfl
@[simp] theorem State.modCmd_configured (id : Nat × Nat) (f : Cmd → Cmd) : (s.modCmd id f).configured = s.configured := rfl
@[simp] theorem State.modCmd_readOut (id : Nat × Nat) (f : Cmd → Cmd) : (s.modCmd id f).readOut = s.readOut := rfl
@[simp] theorem State.modCmd_mirror (id : Nat × Nat) (f : Cmd → Cmd) : (s.modCmd id f).mirror = s.mirror := rfl
@[simp] theorem State.modCmd_scrub (id : Nat × Nat) (f : Cmd → Cmd) : (s.modCmd id f).scrub = s.scrub := rfl
@[simp] theorem State.modCmd_patrol (id : Nat × Nat) (f : Cmd → Cmd) : (s.modCmd id f).patrol = s.patrol := rfl
@[simp] theorem State.modCmd_ucie (id : Nat × Nat) (f : Cmd → Cmd) : (s.modCmd id f).ucie = s.ucie := rfl
@[simp] theorem State.modCmd_front (id : Nat × Nat) (f : Cmd → Cmd) : (s.modCmd id f).front = s.front := rfl
@[simp] theorem State.modCmd_brivel (id : Nat × Nat) (f : Cmd → Cmd) : (s.modCmd id f).brivel = s.brivel := rfl
@[simp] theorem State.modCmd_modem (id : Nat × Nat) (f : Cmd → Cmd) : (s.modCmd id f).modem = s.modem := rfl
@[simp] theorem State.modCmd_secure (id : Nat × Nat) (f : Cmd → Cmd) : (s.modCmd id f).secure = s.secure := rfl
@[simp] theorem State.modCmd_jtag (id : Nat × Nat) (f : Cmd → Cmd) : (s.modCmd id f).jtag = s.jtag := rfl

@[simp] theorem State.setEng_reg (e : Fin 8) (x : Engine) (ad : Nat) : (s.setEng e x).reg ad = s.reg ad := rfl
@[simp] theorem State.setEng_regN (e : Fin 8) (x : Engine) (ad : Nat) : (s.setEng e x).regN ad = s.regN ad := rfl
@[simp] theorem State.setEng_fld (e : Fin 8) (x : Engine) (ad hi lo : Nat) : (s.setEng e x).fld ad hi lo = s.fld ad hi lo := rfl
@[simp] theorem State.modEng_reg (e : Fin 8) (f : Engine → Engine) (ad : Nat) : (s.modEng e f).reg ad = s.reg ad := rfl
@[simp] theorem State.modEng_regN (e : Fin 8) (f : Engine → Engine) (ad : Nat) : (s.modEng e f).regN ad = s.regN ad := rfl
@[simp] theorem State.modEng_fld (e : Fin 8) (f : Engine → Engine) (ad hi lo : Nat) : (s.modEng e f).fld ad hi lo = s.fld ad hi lo := rfl
@[simp] theorem State.putByte_reg (a : Nat) (b : Byte) (ad : Nat) : (s.putByte a b).reg ad = s.reg ad := rfl
@[simp] theorem State.putByte_regN (a : Nat) (b : Byte) (ad : Nat) : (s.putByte a b).regN ad = s.regN ad := rfl
@[simp] theorem State.putByte_fld (a : Nat) (b : Byte) (ad hi lo : Nat) : (s.putByte a b).fld ad hi lo = s.fld ad hi lo := rfl
@[simp] theorem State.setEcc_reg (b : Nat) (x : Ecc) (ad : Nat) : (s.setEcc b x).reg ad = s.reg ad := rfl
@[simp] theorem State.setEcc_regN (b : Nat) (x : Ecc) (ad : Nat) : (s.setEcc b x).regN ad = s.regN ad := rfl
@[simp] theorem State.setEcc_fld (b : Nat) (x : Ecc) (ad hi lo : Nat) : (s.setEcc b x).fld ad hi lo = s.fld ad hi lo := rfl
@[simp] theorem State.ledgerIssue_reg (k : Nat) (p : List Byte) (ad : Nat) : (s.ledgerIssue k p).reg ad = s.reg ad := rfl
@[simp] theorem State.ledgerIssue_regN (k : Nat) (p : List Byte) (ad : Nat) : (s.ledgerIssue k p).regN ad = s.regN ad := rfl
@[simp] theorem State.ledgerIssue_fld (k : Nat) (p : List Byte) (ad hi lo : Nat) : (s.ledgerIssue k p).fld ad hi lo = s.fld ad hi lo := rfl
@[simp] theorem State.event_reg (a b c : Nat) (ad : Nat) : (s.event a b c).reg ad = s.reg ad := rfl
@[simp] theorem State.event_regN (a b c : Nat) (ad : Nat) : (s.event a b c).regN ad = s.regN ad := rfl
@[simp] theorem State.event_fld (a b c : Nat) (ad hi lo : Nat) : (s.event a b c).fld ad hi lo = s.fld ad hi lo := rfl
@[simp] theorem State.undef_reg (a n : Nat) (ad : Nat) : (s.undef a n).reg ad = s.reg ad := rfl
@[simp] theorem State.undef_regN (a n : Nat) (ad : Nat) : (s.undef a n).regN ad = s.regN ad := rfl
@[simp] theorem State.undef_fld (a n : Nat) (ad hi lo : Nat) : (s.undef a n).fld ad hi lo = s.fld ad hi lo := rfl
@[simp] theorem State.hostWrite_reg (a : Nat) (b : List Byte) (ad : Nat) : (s.hostWrite a b).reg ad = s.reg ad := rfl
@[simp] theorem State.hostWrite_regN (a : Nat) (b : List Byte) (ad : Nat) : (s.hostWrite a b).regN ad = s.regN ad := rfl
@[simp] theorem State.hostWrite_fld (a : Nat) (b : List Byte) (ad hi lo : Nat) : (s.hostWrite a b).fld ad hi lo = s.fld ad hi lo := rfl
@[simp] theorem State.modCmd_reg (id : Nat × Nat) (f : Cmd → Cmd) (ad : Nat) : (s.modCmd id f).reg ad = s.reg ad := rfl
@[simp] theorem State.modCmd_regN (id : Nat × Nat) (f : Cmd → Cmd) (ad : Nat) : (s.modCmd id f).regN ad = s.regN ad := rfl
@[simp] theorem State.modCmd_fld (id : Nat × Nat) (f : Cmd → Cmd) (ad hi lo : Nat) : (s.modCmd id f).fld ad hi lo = s.fld ad hi lo := rfl

@[simp] theorem State.setEng_eng (e : Fin 8) (x : Engine) : (s.setEng e x).eng = s.eng.set e x := rfl
@[simp] theorem State.setReg_regs (a : Nat) (v : Reg32) : (s.setReg a v).regs = Sparse.set regReset s.regs a v := rfl
@[simp] theorem State.hostWrite_host (a : Nat) (b : List Byte) : (s.hostWrite a b).host = putBytes s.host a b := rfl
@[simp] theorem State.ledgerIssue_queue (k : Nat) (p : List Byte) :
    (s.ledgerIssue k p).ledger.queue = s.ledger.queue ++ [(k, p)] := rfl

end Sys2Proof.Machine
end

