-- ==== Sys2Proof/Laws/Ops.lean ====
section
/-! SUPPORT. Laws of the named operations: registers and their fields, token counters, engines and their scalar
registers, bytes of memory. -/
namespace Sys2Proof.Machine

/-! ### Registers -/

theorem State.reg_setReg (s : State) (a : Nat) (v : Reg32) (b : Nat) : (s.setReg a v).reg b = if b = a then v else s.reg b :=
  Sparse.get_set regReset s.regs a v b

@[simp] theorem State.reg_setReg_eq (s : State) (a : Nat) (v : Reg32) : (s.setReg a v).reg a = v := by simp [State.reg_setReg]

theorem State.reg_setReg_ne (s : State) (a : Nat) (v : Reg32) (b : Nat) (h : b ≠ a) : (s.setReg a v).reg b = s.reg b := by
  simp [State.reg_setReg, h]

theorem State.regN_setRegN (s : State) (a v b : Nat) : (s.setRegN a v).regN b = if b = a then v % 2 ^ 32 else s.regN b := by
  unfold State.regN State.setRegN
  rw [State.reg_setReg]
  split <;> simp

@[simp] theorem State.regN_setRegN_eq (s : State) (a v : Nat) : (s.setRegN a v).regN a = v % 2 ^ 32 := by simp [State.regN_setRegN]

theorem State.regN_setRegN_ne (s : State) (a v b : Nat) (h : b ≠ a) : (s.setRegN a v).regN b = s.regN b := by
  simp [State.regN_setRegN, h]

theorem State.regN_lt (s : State) (a : Nat) : s.regN a < 2 ^ 32 := (s.reg a).isLt

/-! ### Bit fields -/

theorem bits_lt (n hi lo : Nat) : bits n hi lo < 2 ^ (hi + 1 - lo) := Nat.mod_lt _ (Nat.two_pow_pos _)

theorem testBit_bits (n hi lo k : Nat) : (bits n hi lo).testBit k = (decide (k < hi + 1 - lo) && n.testBit (lo + k)) := by
  simp [bits, Nat.testBit_mod_two_pow, Nat.testBit_div_two_pow, Nat.add_comm]

theorem setBits_low (n hi lo v : Nat) (_h : lo ≤ hi) :
    setBits n hi lo v = n / 2 ^ (hi + 1) * 2 ^ (hi + 1) + (v % 2 ^ (hi + 1 - lo) * 2 ^ lo + n % 2 ^ lo) := by
  unfold setBits; omega

theorem field_lt (hi lo v n : Nat) (_h : lo ≤ hi) : v % 2 ^ (hi + 1 - lo) * 2 ^ lo + n % 2 ^ lo < 2 ^ (hi + 1) := by
  have h1 : v % 2 ^ (hi + 1 - lo) < 2 ^ (hi + 1 - lo) := Nat.mod_lt _ (Nat.two_pow_pos _)
  have h2 : n % 2 ^ lo < 2 ^ lo := Nat.mod_lt _ (Nat.two_pow_pos _)
  have h3 : 2 ^ (hi + 1) = 2 ^ (hi + 1 - lo) * 2 ^ lo := by rw [← Nat.pow_add]; congr 1; omega
  rw [h3]
  calc _ < v % 2 ^ (hi + 1 - lo) * 2 ^ lo + 2 ^ lo := by omega
    _ = (v % 2 ^ (hi + 1 - lo) + 1) * 2 ^ lo := by ring
    _ ≤ _ := Nat.mul_le_mul_right _ h1

/-- A bit of a word in which a field was replaced. -/
theorem testBit_setBits (n hi lo v k : Nat) (h : lo ≤ hi) :
    (setBits n hi lo v).testBit k = if lo ≤ k ∧ k ≤ hi then v.testBit (k - lo) else n.testBit k := by
  rw [setBits_low n hi lo v h, Nat.mul_comm (n / 2 ^ (hi + 1)), Nat.testBit_two_pow_mul_add _ (field_lt hi lo v n h),
    Nat.mul_comm (v % _), Nat.testBit_two_pow_mul_add _ (Nat.mod_lt _ (Nat.two_pow_pos _))]
  simp only [Nat.testBit_mod_two_pow, Nat.testBit_div_two_pow]
  by_cases h1 : k < hi + 1
  · by_cases h2 : k < lo
    · simp [h1, h2, show ¬ lo ≤ k by omega]
    · simp [h1, h2, show lo ≤ k by omega, show k ≤ hi by omega, show k - lo < hi + 1 - lo by omega]
  · have h3 : ¬ (lo ≤ k ∧ k ≤ hi) := by omega
    simp only [h1, h3, if_false]
    congr 1; omega

theorem setBits_lt (n hi lo v : Nat) (h : lo ≤ hi) (hh : hi < 32) (hn : n < 2 ^ 32) : setBits n hi lo v < 2 ^ 32 := by
  apply Nat.lt_pow_two_of_testBit
  intro k hk
  rw [testBit_setBits n hi lo v k h, if_neg (by omega)]
  exact Nat.testBit_lt_two_pow (Nat.lt_of_lt_of_le hn (Nat.pow_le_pow_right (by omega) hk))

theorem bits_setBits_eq (n hi lo v : Nat) (h : lo ≤ hi) : bits (setBits n hi lo v) hi lo = v % 2 ^ (hi + 1 - lo) := by
  apply Nat.eq_of_testBit_eq
  intro k
  rw [testBit_bits, testBit_setBits n hi lo v _ h, Nat.testBit_mod_two_pow]
  by_cases hk : k < hi + 1 - lo
  · simp [hk, show lo + k ≤ hi by omega]
  · simp [hk]

/-- A field that does not meet the one replaced. -/
theorem bits_setBits_ne (n hi lo v hj lj : Nat) (h : lo ≤ hi) (hd : hj < lo ∨ hi < lj) :
    bits (setBits n hi lo v) hj lj = bits n hj lj := by
  apply Nat.eq_of_testBit_eq
  intro k
  rw [testBit_bits, testBit_bits, testBit_setBits n hi lo v _ h]
  by_cases hk : k < hj + 1 - lj
  · rw [if_neg (by omega)]
  · simp [hk]

theorem State.regN_setFld (s : State) (a hi lo v b : Nat) (h : lo ≤ hi) (hh : hi < 32) :
    (s.setFld a hi lo v).regN b = if b = a then setBits (s.regN a) hi lo v else s.regN b := by
  unfold State.setFld
  rw [State.regN_setRegN, Nat.mod_eq_of_lt (setBits_lt _ _ _ _ h hh (s.regN_lt a))]

/-- The field that was written. -/
theorem State.fld_setFld_eq (s : State) (a hi lo v : Nat) (h : lo ≤ hi) (hh : hi < 32) :
    (s.setFld a hi lo v).fld a hi lo = v % 2 ^ (hi + 1 - lo) := by
  unfold State.fld
  rw [State.regN_setFld s a hi lo v a h hh, if_pos rfl, bits_setBits_eq _ _ _ _ h]

/-- Every other field. -/
theorem State.fld_setFld_ne (s : State) (a hi lo v b hj lj : Nat) (h : lo ≤ hi) (hh : hi < 32)
    (hd : b ≠ a ∨ hj < lo ∨ hi < lj) : (s.setFld a hi lo v).fld b hj lj = s.fld b hj lj := by
  unfold State.fld
  rw [State.regN_setFld s a hi lo v b h hh]
  split
  · next hb => subst hb; exact bits_setBits_ne _ _ _ _ _ _ h (by tauto)
  · rfl

theorem State.fld_setRegN_ne (s : State) (a v b hi lo : Nat) (h : b ≠ a) : (s.setRegN a v).fld b hi lo = s.fld b hi lo := by
  unfold State.fld; rw [State.regN_setRegN_ne s a v b h]

@[simp] theorem State.fld_setRegN_eq (s : State) (a v hi lo : Nat) : (s.setRegN a v).fld a hi lo = bits (v % 2 ^ 32) hi lo := by
  unfold State.fld; rw [State.regN_setRegN_eq]

/-! ### Token counters (R51) -/

theorem State.tok_addTok (s : State) (u k n : Nat) : (s.addTok u k n).tok u k = s.tok u k + BitVec.ofNat 32 n := by
  unfold State.addTok State.tok
  split
  · next h => simp [h]
  · simp

theorem State.reg_addTok_one (s : State) (u k : Nat) : (s.addTok u k 1).reg (tokKey u k) = s.reg (tokKey u k) + 1 := by
  have h : s.addTok u k 1 = s.setReg (tokKey u k) (s.tok u k + BitVec.ofNat 32 1) := by
    unfold State.addTok; rw [if_neg Nat.one_ne_zero]
  rw [h, State.reg_setReg_eq]
  unfold State.tok
  congr 1

theorem State.reg_addTok_ne (s : State) (u k n b : Nat) (h : b ≠ tokKey u k) : (s.addTok u k n).reg b = s.reg b := by
  unfold State.addTok
  split
  · rfl
  · exact State.reg_setReg_ne s _ _ b h

@[simp] theorem State.addTok_eng (s : State) (u k n : Nat) : (s.addTok u k n).eng = s.eng := by
  unfold State.addTok; by_cases h : n = 0
  · rw [if_pos h]
  · rw [if_neg h]; exact State.setReg_eng _ _ _
@[simp] theorem State.addTok_mem (s : State) (u k n : Nat) : (s.addTok u k n).mem = s.mem := by
  unfold State.addTok; by_cases h : n = 0
  · rw [if_pos h]
  · rw [if_neg h]; exact State.setReg_mem _ _ _
@[simp] theorem State.addTok_ecc (s : State) (u k n : Nat) : (s.addTok u k n).ecc = s.ecc := by
  unfold State.addTok; by_cases h : n = 0
  · rw [if_pos h]
  · rw [if_neg h]; exact State.setReg_ecc _ _ _
@[simp] theorem State.addTok_fab (s : State) (u k n : Nat) : (s.addTok u k n).fab = s.fab := by
  unfold State.addTok; by_cases h : n = 0
  · rw [if_pos h]
  · rw [if_neg h]; exact State.setReg_fab _ _ _

/-! ### Engines -/

@[simp] theorem State.setEng_get (s : State) (e : Fin 8) (x : Engine) : (s.setEng e x).eng[e] = x := by
  simp [State.setEng]

theorem State.setEng_get_ne (s : State) (e j : Fin 8) (x : Engine) (h : j ≠ e) : (s.setEng e x).eng[j] = s.eng[j] := by
  have : e.val ≠ j.val := fun q => h (Fin.ext q.symm)
  simp [State.setEng, this]

@[simp] theorem State.modEng_get (s : State) (e : Fin 8) (f : Engine → Engine) : (s.modEng e f).eng[e] = f s.eng[e] := by
  simp [State.modEng]

theorem State.modEng_get_ne (s : State) (e j : Fin 8) (f : Engine → Engine) (h : j ≠ e) : (s.modEng e f).eng[j] = s.eng[j] :=
  State.setEng_get_ne s e j _ h

theorem eng_set_set (v : Vector Engine 8) (e : Fin 8) (a b : Engine) : (v.set e a).set e b = v.set e b := by
  apply Vector.ext
  intro i hi
  simp [Vector.getElem_set]

theorem State.modEng_modEng (s : State) (e : Fin 8) (f g : Engine → Engine) :
    (s.modEng e f).modEng e g = s.modEng e fun x => g (f x) := by
  unfold State.modEng; rw [State.setEng_get]; unfold State.setEng; dsimp only; rw [eng_set_set]

/-! ### Scalar registers (R87) -/

@[simp] theorem Engine.rx_zero (en : Engine) : en.rx 0 = 0 := by simp [Engine.rx]

theorem Engine.rx_wx_eq (en : Engine) (r : BitVec 5) (v : Word) : (en.wx r v).rx r = if r = 0 then 0 else v := by
  unfold Engine.rx Engine.wx
  split
  · rfl
  · simp

theorem Engine.rx_wx_ne (en : Engine) (r q : BitVec 5) (v : Word) (h : q ≠ r) : (en.wx r v).rx q = en.rx q := by
  unfold Engine.rx Engine.wx
  split
  · rfl
  · split
    · rfl
    · have h2 : r.toNat ≠ q.toNat := fun e => h (BitVec.eq_of_toNat_eq e.symm)
      simp [Vector.getElem_set] at h2 ⊢
      intro h3; exact absurd h3 h2

/-! ### Bytes of memory -/

theorem State.rawByte_putByte (s : State) (a : Nat) (b : Byte) (c : Nat) :
    (s.putByte a b).rawByte c = if c = a then b else s.rawByte c := Sparse.get_set memZero s.mem a b c

/-- A byte after a list of bytes was put. -/
theorem get_putBytes (bs : List Byte) : ∀ (m : List (Nat × Byte)) (a c : Nat),
    Sparse.get memZero (putBytes m a bs) c = if a ≤ c ∧ c < a + bs.length then bs.getD (c - a) 0 else Sparse.get memZero m c := by
  induction bs with
  | nil =>
    intro m a c
    have : ¬ (a ≤ c ∧ c < a + ([] : List Byte).length) := by simp
    rw [if_neg this]; rfl
  | cons b bs ih =>
    intro m a c
    rw [putBytes, ih, Sparse.get_set]
    by_cases h : c = a
    · subst h; simp
    · by_cases h2 : a ≤ c ∧ c < a + (bs.length + 1)
      · have h3 : a + 1 ≤ c ∧ c < a + 1 + bs.length := by omega
        rw [if_pos h3, List.length_cons, if_pos h2]
        obtain ⟨k, hk⟩ : ∃ k, c - a = k + 1 := ⟨c - a - 1, by omega⟩
        rw [hk, show c - (a + 1) = k by omega]; simp
      · have h3 : ¬ (a + 1 ≤ c ∧ c < a + 1 + bs.length) := by omega
        rw [if_neg h3, if_neg h, List.length_cons, if_neg h2]

end Sys2Proof.Machine
end

