-- ==== Sys2Proof/Laws/Seq.lean ====
section
/-! SUPPORT. What the reads through the checkers change, and what the fetch of an instruction leaves. -/
namespace Sys2Proof.Machine

/-- Everything but registers, write-backs waiting and the ledger's queue is the same, and of the registers only counts of corrected and
uncorrectable errors and the records of the latter differ. -/
structure SameButErrors (s t : State) : Prop where
  form : ∃ r w l, t = { s with regs := r, writeback := w, ledger := l }
  mem : t.mem = s.mem
  ecc : t.ecc = s.ecc
  host : t.host = s.host
  fuse : t.fuse = s.fuse
  eng : t.eng = s.eng
  fab : t.fab = s.fab
  cmds : t.cmds = s.cmds
  clock : t.clock = s.clock
  parts : t.parts = s.parts
  fresh : t.fresh = s.fresh
  reg : ∀ a, a % 2 ^ 52 < CTL + 0x100 ∨ CTL + 0x114 ≤ a % 2 ^ 52 → t.reg a = s.reg a

theorem SameButErrors.refl (s : State) : SameButErrors s s := ⟨⟨_, _, _, rfl⟩, rfl, rfl, rfl, rfl, rfl, rfl, rfl, rfl, rfl, rfl, fun _ _ => rfl⟩

theorem SameButErrors.trans {s t u : State} (h : SameButErrors s t) (k : SameButErrors t u) : SameButErrors s u :=
  ⟨by obtain ⟨_, _, _, rfl⟩ := h.form; obtain ⟨_, _, _, rfl⟩ := k.form; exact ⟨_, _, _, rfl⟩, k.mem.trans h.mem, k.ecc.trans h.ecc, k.host.trans h.host, k.fuse.trans h.fuse, k.eng.trans h.eng, k.fab.trans h.fab,
   k.cmds.trans h.cmds, k.clock.trans h.clock, k.parts.trans h.parts, k.fresh.trans h.fresh,
   fun a ha => (k.reg a ha).trans (h.reg a ha)⟩

/-- A register write outside what `reg` of SameButErrors covers. -/
theorem sameButErrors_setReg (s : State) (a : Nat) (v : Reg32) (h1 : CTL + 0x100 ≤ a % 2 ^ 52) (h2 : a % 2 ^ 52 < CTL + 0x114) :
    SameButErrors s (s.setReg a v) where
  form := ⟨_, _, _, rfl⟩
  mem := State.setReg_mem _ _ _
  ecc := State.setReg_ecc _ _ _
  host := State.setReg_host _ _ _
  fuse := State.setReg_fuse _ _ _
  eng := State.setReg_eng _ _ _
  fab := State.setReg_fab _ _ _
  cmds := State.setReg_cmds _ _ _
  clock := State.setReg_clock _ _ _
  parts := State.setReg_parts _ _ _
  fresh := State.setReg_fresh _ _ _
  reg := fun b hb => State.reg_setReg_ne _ _ _ _ (by intro e; subst e; omega)

theorem sameButErrors_ledger (s : State) (k : Nat) (p : List Byte) : SameButErrors s (s.ledgerIssue k p) :=
  ⟨⟨_, _, _, rfl⟩, rfl, rfl, rfl, rfl, rfl, rfl, rfl, rfl, rfl, rfl, fun _ _ => rfl⟩

theorem sameButErrors_writeback (s : State) (w : List Nat) : SameButErrors s { s with writeback := w } :=
  ⟨⟨_, _, _, rfl⟩, rfl, rfl, rfl, rfl, rfl, rfl, rfl, rfl, rfl, rfl, fun _ _ => rfl⟩

/-- The offset of register `o` of a unit's window. -/
theorem key_mod (u o : Nat) (h : o < 2 ^ 52) : key u o % 2 ^ 52 = o := by
  unfold key; omega

theorem sameButErrors_err (s : State) (u o : Nat) (v : Reg32) (h1 : 0x100 ≤ o) (h2 : o < 0x114) :
    SameButErrors s (s.setReg (key u (CTL + o)) v) := by
  have : key u (CTL + o) % 2 ^ 52 = CTL + o := key_mod _ _ (by unfold CTL; omega)
  exact sameButErrors_setReg _ _ _ (by omega) (by omega)

theorem recordUncorr_same (s : State) (b : Nat) : SameButErrors s (s.recordUncorr b) := by
  have h := fun (t : State) (o : Nat) (v : Reg32) (h1 : 0x100 ≤ o) (h2 : o < 0x114) =>
    sameButErrors_err t (b / 2 ^ 52) o v h1 h2
  have hN := fun (t : State) (o v : Nat) (h1 : 0x100 ≤ o) (h2 : o < 0x114) => h t o (BitVec.ofNat 32 v) h1 h2
  have hF := fun (t : State) (o hi lo v : Nat) (h1 : 0x100 ≤ o) (h2 : o < 0x114) =>
    hN t o (setBits (t.regN (key (b / 2 ^ 52) (CTL + o))) hi lo v) h1 h2
  unfold State.recordUncorr State.event
  extract_lets u st s1 s2
  refine SameButErrors.trans ?_ (sameButErrors_ledger _ _ _)
  have e1 : SameButErrors s s1 := h s 0x110 _ (by omega) (by omega)
  have e2 : SameButErrors s1 s2 := by
    dsimp only [s2]
    split
    · exact h s1 0x100 _ (by omega) (by omega)
    · have hk : key u (CTL + 0x104) + 4 = key u (CTL + 0x108) := by unfold key; omega
      unfold State.setReg64
      rw [hk]
      exact ((hF s1 0x100 0 0 1 (by omega) (by omega)).trans (hF _ 0x100 15 8 _ (by omega) (by omega))).trans
        ((hN _ 0x104 _ (by omega) (by omega)).trans (hN _ 0x108 _ (by omega) (by omega)))
  exact e1.trans e2

theorem touch_same (s : State) (b : Nat) : SameButErrors s (s.touch b).1 := by
  unfold State.touch
  split
  · exact SameButErrors.refl s
  · exact recordUncorr_same s b
  · exact SameButErrors.trans (sameButErrors_err s _ 0x10C _ (by omega) (by omega)) (sameButErrors_writeback _ _)

theorem touchAll_same (l : List Nat) : ∀ s : State, SameButErrors s (s.touchAll l).1 := by
  induction l with
  | nil => exact SameButErrors.refl
  | cons b l ih =>
    intro s
    have h := touch_same s b
    unfold State.touchAll
    split
    · next s1 he => rw [he] at h; exact h.trans (ih s1)
    · next s1 he => rw [he] at h; exact h

/-- A read through the checkers. -/
theorem check_same (s : State) (a n : Nat) : SameButErrors s (s.check a n).1 := touchAll_same _ s

end Sys2Proof.Machine
end

