-- ==== Sys2Proof/Laws/SeqStep.lean ====
section
/-! SUPPORT. What an instruction of the sequencer leaves: its fetch, and the writes of a scalar register, of the PC and of a wait. -/
namespace Sys2Proof.Machine

theorem byte_congr {s t : State} (hm : t.mem = s.mem) (he : t.ecc = s.ecc) (hf : t.fuse = s.fuse) (a : Nat) :
    t.byte a = s.byte a := by
  have h1 : ∀ u o n, t.region u o n = s.region u o n := by intro u o n; unfold State.region State.hbmBytes; rw [hf]
  have h2 : t.blockOf a = s.blockOf a := by unfold State.blockOf State.blockSize State.memCode; rw [h1]
  have h3 : ∀ b, t.rawByte b = s.rawByte b := by intro b; unfold State.rawByte; rw [hm]
  unfold State.byte State.eccAt
  rw [he, h2, h3]

theorem sameBytes_of {s t : State} (hm : t.mem = s.mem) (he : t.ecc = s.ecc) (hf : t.fuse = s.fuse) (hh : t.host = s.host) :
    SameBytes s t := ⟨byte_congr hm he hf, hh⟩

theorem SameButErrors.seqFrame {s t : State} (h : SameButErrors s t) (e : Fin 8) : SeqFrame s t e :=
  ⟨sameBytes_of h.mem h.ecc h.fuse h.host, fun j _ => by rw [h.eng], fun a ha _ => h.reg a ha, h.fab, h.cmds, h.clock, h.fresh⟩

theorem SeqFrame.trans {s t u : State} {e : Fin 8} (h : SeqFrame s t e) (k : SeqFrame t u e) : SeqFrame s u e :=
  ⟨⟨fun a => (k.bytes.1 a).trans (h.bytes.1 a), k.bytes.2.trans h.bytes.2⟩, fun j hj => (k.others j hj).trans (h.others j hj),
   fun a ha hb => (k.reg a ha hb).trans (h.reg a ha hb), k.fab.trans h.fab, k.cmds.trans h.cmds, k.clock.trans h.clock,
   k.fresh.trans h.fresh⟩

theorem seqFrame_modEng (s : State) (e : Fin 8) (f : Engine → Engine) : SeqFrame s (s.modEng e f) e :=
  ⟨⟨byte_congr rfl rfl rfl, rfl⟩, fun j hj => State.modEng_get_ne s e j f hj, fun _ _ _ => rfl, rfl, rfl, rfl, rfl⟩

theorem seqFrame_missed (s : State) (e : Fin 8) (v : Reg32) : SeqFrame s (s.setReg (loupeKey e 0x20) v) e where
  bytes := sameBytes_of (State.setReg_mem _ _ _) (State.setReg_ecc _ _ _) (State.setReg_fuse _ _ _) (State.setReg_host _ _ _)
  others := fun j _ => by rw [State.setReg_eng]
  reg := fun a _ ha => State.reg_setReg_ne _ _ _ _ ha
  fab := State.setReg_fab _ _ _
  cmds := State.setReg_cmds _ _ _
  clock := State.setReg_clock _ _ _
  fresh := State.setReg_fresh _ _ _

theorem seqFrame_tagInstr (s : State) (e : Fin 8) (code : Nat) : SeqFrame s (s.tagInstr e code) e := by
  unfold State.tagInstr
  extract_lets en step s1
  split
  · exact seqFrame_modEng s e _
  · split
    · exact (seqFrame_modEng s e _).trans (seqFrame_missed _ e _)
    · exact (seqFrame_modEng s e _).trans (seqFrame_modEng _ e _)

theorem eng_congr {s t : State} (h : t.eng = s.eng) (e : Fin 8) : t.eng[e] = s.eng[e] := by rw [h]

theorem tagInstr_eng (s : State) (e : Fin 8) (code : Nat) :
    ∃ i g, (s.tagInstr e code).eng[e] = { s.eng[e] with icount := i, tags := g } := by
  unfold State.tagInstr
  extract_lets en step s1
  split
  · exact ⟨_, _, State.modEng_get _ _ _⟩
  · split
    · refine ⟨s.eng[e].icount + 1, s.eng[e].tags, ?_⟩
      exact (eng_congr (State.countUp_eng s1 _ _) e).trans (State.modEng_get _ _ _)
    · refine ⟨s.eng[e].icount + 1,
        s.eng[e].tags ++ [⟨step % 2 ^ 32, s.eng[e].icount + 1 - 1, s.eng[e].pc.toNat % 2 ^ 26, code, false⟩], ?_⟩
      rw [State.modEng_get, State.modEng_get]

/-- The fetch changes of the engine only the count and the tags of its instructions. -/
theorem fetched_eng (s : State) (e : Fin 8) (code : Nat) :
    ∃ i g, (s.fetched e code).eng[e] = { s.eng[e] with icount := i, tags := g } := by
  obtain ⟨i, g, h⟩ := tagInstr_eng (s.check (key e s.eng[e].pc.toNat) 8).1 e code
  refine ⟨i, g, ?_⟩
  unfold State.fetched
  rw [h, (check_same s _ _).eng]

/-- The fetch changes nothing but registers, write-backs waiting, the ledger's queue and the count and tags of the engine's instructions. -/
theorem fetched_form (s : State) (e : Fin 8) (code : Nat) :
    ∃ r w l i g, s.fetched e code = { s with
      regs := r, writeback := w, ledger := l, eng := s.eng.set e { s.eng[e] with icount := i, tags := g } } := by
  unfold State.fetched
  obtain ⟨r, w, l, h⟩ := (check_same s (key e s.eng[e].pc.toNat) 8).form
  rw [h]
  unfold State.tagInstr
  extract_lets en step s1
  split
  · exact ⟨_, _, _, _, _, rfl⟩
  · split
    · exact ⟨_, _, _, _, _, rfl⟩
    · rw [State.modEng_modEng]
      exact ⟨_, _, _, _, _, rfl⟩

theorem fetched_frame (s : State) (e : Fin 8) (code : Nat) : SeqFrame s (s.fetched e code) e :=
  ((check_same s _ _).seqFrame e).trans (seqFrame_tagInstr _ e code)

theorem fetched_rx (s : State) (e : Fin 8) (code : Nat) (r : BitVec 5) : (s.fetched e code).eng[e].rx r = s.eng[e].rx r := by
  obtain ⟨i, g, h⟩ := fetched_eng s e code
  rw [h]; rfl

theorem fetched_pc (s : State) (e : Fin 8) (code : Nat) : (s.fetched e code).eng[e].pc = s.eng[e].pc := by
  obtain ⟨i, g, h⟩ := fetched_eng s e code
  rw [h]

theorem fetched_state (s : State) (e : Fin 8) (code : Nat) : (s.fetched e code).eng[e].state = s.eng[e].state := by
  obtain ⟨i, g, h⟩ := fetched_eng s e code
  rw [h]

theorem fetched_wait (s : State) (e : Fin 8) (code : Nat) : (s.fetched e code).eng[e].wait = s.eng[e].wait := by
  obtain ⟨i, g, h⟩ := fetched_eng s e code
  rw [h]

theorem fetched_units (s : State) (e : Fin 8) (code : Nat) : SameUnits s.eng[e] (s.fetched e code).eng[e] := by
  obtain ⟨i, g, h⟩ := fetched_eng s e code
  rw [h]
  exact ⟨rfl, rfl, rfl, rfl, rfl, rfl, rfl, rfl, rfl, rfl, rfl, rfl⟩

theorem wx_units (en : Engine) (r : BitVec 5) (v : Word) (p : Word) : SameUnits en { en.wx r v with pc := p } := by
  unfold Engine.wx
  split <;> exact ⟨rfl, rfl, rfl, rfl, rfl, rfl, rfl, rfl, rfl, rfl, rfl, rfl⟩

theorem SameUnits.trans {a b c : Engine} (h : SameUnits a b) (k : SameUnits b c) : SameUnits a c :=
  ⟨k.queue.trans h.queue, k.started.trans h.started, k.vreg.trans h.vreg, k.treg.trans h.treg, k.vl.trans h.vl,
   k.vbound.trans h.vbound, k.srbase.trans h.srbase, k.tiles.trans h.tiles, k.ranks.trans h.ranks, k.power.trans h.power,
   k.cmd.trans h.cmd, k.kill.trans h.kill⟩

theorem rx_wx (en : Engine) (xd : BitVec 5) (v p : Word) (r : BitVec 5) :
    ({ en.wx xd v with pc := p } : Engine).rx r = if r = xd ∧ r ≠ 0 then v else en.rx r := by
  have h0 : ({ en.wx xd v with pc := p } : Engine).rx r = (en.wx xd v).rx r := rfl
  rw [h0]
  by_cases h : r = xd
  · subst h
    rw [Engine.rx_wx_eq]
    by_cases h2 : r = 0
    · subst h2; rw [if_pos rfl, if_neg (by simp), Engine.rx_zero]
    · rw [if_neg h2, if_pos ⟨rfl, h2⟩]
  · rw [Engine.rx_wx_ne _ _ _ _ h]; simp [h]

theorem wx_state (en : Engine) (r : BitVec 5) (v : Word) : (en.wx r v).state = en.state := by unfold Engine.wx; split <;> rfl
theorem wx_wait (en : Engine) (r : BitVec 5) (v : Word) : (en.wx r v).wait = en.wait := by unfold Engine.wx; split <;> rfl

/-- Writing XD after a fetch. -/
theorem seqWrite_writes (s : State) (e : Fin 8) (code : Nat) (xd : BitVec 5) (v : Word) (h : s.eng[e].state = .running) :
    SeqWrites s (.next ((s.fetched e code).seqWrite e xd v)) e xd v := by
  refine ⟨_, rfl, (fetched_frame s e code).trans (seqFrame_modEng _ e _), ?_, ?_, ?_, ?_, ?_⟩
  · unfold State.seqWrite; rw [State.modEng_get]; exact (fetched_units s e code).trans (wx_units _ _ _ _)
  · unfold State.seqWrite; rw [State.modEng_get]; exact (wx_state _ _ _).trans ((fetched_state s e code).trans h)
  · unfold State.seqWrite; rw [State.modEng_get]; exact (wx_wait _ _ _).trans (fetched_wait s e code)
  · unfold State.seqWrite; rw [State.modEng_get]; show (s.fetched e code).eng[e].pc + 8 = _; rw [fetched_pc]
  · intro r; unfold State.seqWrite; rw [State.modEng_get, rx_wx, fetched_rx]

/-- Moving the PC after a fetch. -/
theorem modPc_moves (s : State) (e : Fin 8) (code : Nat) (p : Engine → Word) (h : s.eng[e].state = .running) :
    SeqMoves s (.next ((s.fetched e code).modEng e fun en => { en with pc := p en })) e (p (s.fetched e code).eng[e]) := by
  refine ⟨_, rfl, (fetched_frame s e code).trans (seqFrame_modEng _ e _), ?_, ?_, ?_, ?_, ?_⟩
  · rw [State.modEng_get]; exact (fetched_units s e code).trans ⟨rfl, rfl, rfl, rfl, rfl, rfl, rfl, rfl, rfl, rfl, rfl, rfl⟩
  · rw [State.modEng_get]; exact (fetched_state s e code).trans h
  · rw [State.modEng_get]; exact fetched_wait s e code
  · rw [State.modEng_get]
  · intro r; rw [State.modEng_get]; exact fetched_rx s e code r

/-- Starting a wait after a fetch. -/
theorem seqWait_waits (s : State) (e : Fin 8) (code : Nat) (w : Wait) :
    SeqWaits s (.next ((s.fetched e code).seqWait e w)) e w := by
  refine ⟨_, rfl, (fetched_frame s e code).trans (seqFrame_modEng _ e _), ?_, ?_, ?_, ?_, ?_, ?_⟩ <;> unfold State.seqWait
  · rw [State.modEng_get]; exact (fetched_units s e code).trans ⟨rfl, rfl, rfl, rfl, rfl, rfl, rfl, rfl, rfl, rfl, rfl, rfl⟩
  · rw [State.modEng_get]
  · rw [State.modEng_get]
  · rw [State.modEng_get]; exact congrArg Clock.aclk (fetched_frame s e code).clock
  · rw [State.modEng_get]; exact fetched_pc s e code
  · intro r; rw [State.modEng_get]; exact fetched_rx s e code r

/-- A legal instruction that issues has its effect on what the fetch leaves. -/
theorem onSeq_issues (code : Nat) (s : State) (e : Fin 8) (k : State → State) (h : s.issues e) :
    onSeq code s e true k = .next (k (s.fetched e code)) := by
  obtain ⟨h1, h2, h3⟩ := h
  unfold onSeq State.fetched
  rw [if_neg (fun h => h h1), if_neg (by simp [h2])]
  generalize hc : s.check (key e s.eng[e].pc.toNat) 8 = p at h3
  obtain ⟨s1, b⟩ := p
  subst h3
  rfl

/-- A scalar operation that computes one register (Table 3.5). -/
theorem scalarOp_writes (op : Nat) (s : State) (e : Fin 8) (f : ScalarF) (g : Engine → Word) (h : s.issues e) (hr : f.rsv = 0) (v : Word)
    (hv : g (s.fetched e op).eng[e] = v) : SeqWrites s (scalarOp op e f g s) e f.xd v := by
  unfold scalarOp
  have : (f.rsv == 0) = true := by simp [hr]
  rw [this, onSeq_issues _ _ _ _ h, hv]
  exact seqWrite_writes s e op f.xd v h.1

/-- A scalar branch (Table 3.5). -/
theorem scalarBr_moves (op : Nat) (s : State) (e : Fin 8) (f : ScalarF) (c : Engine → Bool) (h : s.issues e) (hr : f.rsv = 0) (b : Bool)
    (hb : c (s.fetched e op).eng[e] = b) :
    SeqMoves s (scalarBr op e f c s) e (if b then s.eng[e].pc + 8 * f.imm.signExtend 64 else s.eng[e].pc + 8) := by
  unfold scalarBr
  have : (f.rsv == 0) = true := by simp [hr]
  rw [this, onSeq_issues _ _ _ _ h, hb]
  have := modPc_moves s e op (fun en => if b then brTo en (immS f.imm) else en.pc + 8) h.1
  simp only [brTo, immS, fetched_pc] at this
  exact this

end Sys2Proof.Machine
end

