-- ==== Sys2Proof/Laws/Mem.lean ====
section
/-! SUPPORT. Reads and writes through the checkers where no code block met holds a bad bit. -/
namespace Sys2Proof.Machine

theorem Sparse.get_mem {α : Type} (d : Nat → α) (m : List (Nat × α)) (k : Nat) (h : Sparse.get d m k ≠ d k) : k ∈ m.map (·.1) := by
  induction m with
  | nil => exact absurd rfl h
  | cons e r ih =>
    simp only [Sparse.get] at h
    split at h
    · next he => simp [he]
    · simp only [List.map_cons, List.mem_cons]; exact Or.inr (ih h)

theorem region_of_block (s : State) (c : Nat) : s.memCode c = HBMMEM ↔ s.memCode (c / 64 * 64) = HBMMEM := by
  have hu : c / 64 * 64 / 2 ^ 52 = c / 2 ^ 52 := by omega
  have hm : c / 64 * 64 % 2 ^ 52 = c % 2 ^ 52 / 64 * 64 := by omega
  unfold State.memCode
  rw [hu, hm]
  generalize c / 2 ^ 52 = u
  generalize c % 2 ^ 52 = o
  unfold State.region
  cases unitClass u <;> simp only []
  case hbm =>
    have : s.hbmBytes % 64 = 0 := by unfold State.hbmBytes; split <;> rfl
    by_cases h : o + 1 ≤ s.hbmBytes
    · rw [if_pos h, if_pos (by omega)]
    · rw [if_neg h, if_neg (by omega)]
  all_goals
    repeat' split
    all_goals simp [HBMMEM, SIGMEM, SCRATCH, ACCUM, POOLMEM]

theorem blockSize_cases (s : State) (a : Nat) : s.blockSize a = 32 ∨ s.blockSize a = 64 := by
  unfold State.blockSize; split <;> simp

theorem blockOf_le (s : State) (c : Nat) : s.blockOf c ≤ c := by
  unfold State.blockOf
  exact Nat.div_mul_le_self _ _

/-- A byte of a clean range lies in a clean block. -/
theorem clean_block (s : State) (a n c : Nat) (h : s.dirtyBlocks a n = []) (h1 : a ≤ c) (h2 : c < a + n) :
    s.eccAt (s.blockOf c) = .clean := by
  by_contra hne
  have hk := Sparse.get_mem eccClean s.ecc (s.blockOf c) hne
  have hb : c < s.blockOf c + s.blockSize (s.blockOf c) := by
    by_cases hm : s.memCode c = HBMMEM
    · have e1 : s.blockSize c = 32 := by unfold State.blockSize; rw [if_pos hm]
      unfold State.blockOf
      rw [e1]
      rcases blockSize_cases s (c / 32 * 32) with h | h <;> omega
    · have e1 : s.blockSize c = 64 := by unfold State.blockSize; rw [if_neg hm]
      have e2 : s.blockSize (c / 64 * 64) = 64 := by
        unfold State.blockSize; rw [if_neg (fun x => hm ((region_of_block s c).2 x))]
      unfold State.blockOf
      rw [e1, e2]
      omega
  have hle := blockOf_le s c
  have : s.blockOf c ∈ s.dirtyBlocks a n := by
    unfold State.dirtyBlocks
    rw [List.mem_filter]
    exact ⟨hk, by simp; omega⟩
  rw [h] at this
  cases this

theorem byte_clean (s : State) (c : Nat) (h : s.eccAt (s.blockOf c) = .clean) : s.byte c = s.rawByte c := by
  unfold State.byte; rw [h]; rfl

theorem check_clean (s : State) (a n : Nat) (h : s.dirtyBlocks a n = []) : s.check a n = (s, true) := by
  unfold State.check
  rw [h]
  split <;> rfl

theorem read_clean (s : State) (a n : Nat) (h : s.dirtyBlocks a n = []) : s.read a n = (s, some (s.bytes a n)) := by
  unfold State.read
  rw [check_clean s a n h]

/-- A write of fewer bytes than a block, where no block met holds a bad bit, puts the bytes and nothing else. -/
theorem write_clean (s : State) (a : Nat) (bs : List Byte) (h : s.dirtyBlocks a bs.length = []) (h1 : bs ≠ []) (h2 : bs.length < 32) :
    s.write a bs = ({ s with mem := putBytes s.mem a bs }, true) := by
  unfold State.write
  extract_lets n z dirty part
  have hn : n ≠ 0 := by simpa [n] using h1
  have hd : dirty = [] := h
  have hp : part = [] := by simp [part, hd]
  rw [if_neg hn, hp, hd]
  simp only [State.touchAll, State.mendAll]
  have hz : z = 32 ∨ z = 64 := blockSize_cases s a
  have hle : a ≤ ceilDiv a z * z := by
    unfold ceilDiv
    rcases hz with q | q <;> rw [q] <;> omega
  exact if_neg fun hx => by
    have h4 := hx.2.2
    have h5 : ceilDiv a z * z + z ≤ a + n := h4
    omega

theorem putBytes_byte (s : State) (a : Nat) (bs : List Byte) (c : Nat) (h : s.dirtyBlocks a bs.length = []) :
    ({ s with mem := putBytes s.mem a bs } : State).byte c = if a ≤ c ∧ c < a + bs.length then bs.getD (c - a) 0 else s.byte c := by
  have hr : ∀ x, ({ s with mem := putBytes s.mem a bs } : State).rawByte x
      = if a ≤ x ∧ x < a + bs.length then bs.getD (x - a) 0 else s.rawByte x := fun x => get_putBytes bs s.mem a x
  have hb : ({ s with mem := putBytes s.mem a bs } : State).blockOf c = s.blockOf c := rfl
  have he : ∀ b, ({ s with mem := putBytes s.mem a bs } : State).eccAt b = s.eccAt b := fun _ => rfl
  by_cases hc : a ≤ c ∧ c < a + bs.length
  · rw [if_pos hc, byte_clean _ _ (by rw [hb, he]; exact clean_block s a _ c h hc.1 hc.2), hr, if_pos hc]
  · rw [if_neg hc]
    unfold State.byte
    simp only [he, hb, hr, if_neg hc]

theorem dirty_congr {s t : State} (he : t.ecc = s.ecc) (hf : t.fuse = s.fuse) (a n : Nat) : t.dirtyBlocks a n = s.dirtyBlocks a n := by
  have h1 : ∀ u o n, t.region u o n = s.region u o n := by intro u o n; unfold State.region State.hbmBytes; rw [hf]
  have h2 : ∀ b, t.blockSize b = s.blockSize b := by intro b; unfold State.blockSize State.memCode; rw [h1]
  unfold State.dirtyBlocks
  simp only [he, h2]

theorem fetched_dirty (s : State) (e : Fin 8) (code a n : Nat) : (s.fetched e code).dirtyBlocks a n = s.dirtyBlocks a n := by
  obtain ⟨r, w, l, i, g, h⟩ := fetched_form s e code
  rw [h]
  exact dirty_congr rfl rfl a n

theorem bytes_congr {s t : State} (h : ∀ a, t.byte a = s.byte a) (a n : Nat) : t.bytes a n = s.bytes a n := by
  unfold State.bytes; simp only [h]

theorem fetched_bytes (s : State) (e : Fin 8) (code a n : Nat) : (s.fetched e code).bytes a n = s.bytes a n :=
  bytes_congr (fetched_frame s e code).bytes.1 a n

end Sys2Proof.Machine
end

