-- ==== Sys2Proof/Laws/Does.lean ====
section
/-! SUPPORT. What the shared operations of the units do: bytes unchanged, counters cleared, descriptors completed. -/
namespace Sys2Proof.Machine

theorem SameBytes.refl (s : State) : SameBytes s s := ⟨fun _ => rfl, rfl⟩

theorem SameBytes.trans {s t u : State} (h : SameBytes s t) (k : SameBytes t u) : SameBytes s u :=
  ⟨fun a => (k.1 a).trans (h.1 a), k.2.trans h.2⟩

theorem sameBytes_setReg (s : State) (a : Nat) (v : Reg32) : SameBytes s (s.setReg a v) :=
  sameBytes_of (State.setReg_mem _ _ _) (State.setReg_ecc _ _ _) (State.setReg_fuse _ _ _) (State.setReg_host _ _ _)

theorem sameBytes_setRegN (s : State) (a v : Nat) : SameBytes s (s.setRegN a v) := sameBytes_setReg s a _

theorem sameBytes_setFld (s : State) (a hi lo v : Nat) : SameBytes s (s.setFld a hi lo v) := sameBytes_setReg s a _

theorem sameBytes_modEng (s : State) (e : Fin 8) (f : Engine → Engine) : SameBytes s (s.modEng e f) :=
  sameBytes_of (State.modEng_mem _ _ _) (State.modEng_ecc _ _ _) (State.modEng_fuse _ _ _) (State.modEng_host _ _ _)

theorem sameBytes_setEng (s : State) (e : Fin 8) (x : Engine) : SameBytes s (s.setEng e x) :=
  sameBytes_of (State.setEng_mem _ _ _) (State.setEng_ecc _ _ _) (State.setEng_fuse _ _ _) (State.setEng_host _ _ _)

theorem sameBytes_event (s : State) (a b c : Nat) : SameBytes s (s.event a b c) :=
  sameBytes_of (State.event_mem _ _ _ _) (State.event_ecc _ _ _ _) (State.event_fuse _ _ _ _) (State.event_host _ _ _ _)

theorem sameBytes_addTok (s : State) (u k n : Nat) : SameBytes s (s.addTok u k n) := by
  unfold State.addTok
  by_cases h : n = 0
  · rw [if_pos h]; exact SameBytes.refl s
  · rw [if_neg h]; exact sameBytes_setReg _ _ _

/-- Registers set to 0, one by one. -/
theorem regN_zeros (ks : List Nat) : ∀ (s : State) (b : Nat),
    (ks.foldl (fun t k => t.setRegN k 0) s).regN b = if b ∈ ks then 0 else s.regN b := by
  induction ks with
  | nil => intro s b; simp
  | cons k ks ih =>
    intro s b
    rw [List.foldl_cons, ih, State.regN_setRegN]
    by_cases h : b = k <;> simp [h]

theorem sameBytes_zeros (ks : List Nat) : ∀ s : State, SameBytes s (ks.foldl (fun t k => t.setRegN k 0) s) := by
  induction ks with
  | nil => exact SameBytes.refl
  | cons k ks ih => exact fun s => (sameBytes_setRegN s k 0).trans (ih _)

theorem setRegs_same (l : List (Nat × Reg32)) : ∀ s : State,
    SameBytes s (l.foldl (fun t x => t.setReg x.1 x.2) s) ∧ (l.foldl (fun t x => t.setReg x.1 x.2) s).eng = s.eng := by
  induction l with
  | nil => exact fun s => ⟨SameBytes.refl s, rfl⟩
  | cons k ks ih =>
    exact fun s => ⟨(sameBytes_setReg s _ _).trans (ih _).1, (ih _).2.trans (State.setReg_eng _ _ _)⟩

/-- The results of a descriptor, written. -/
theorem completeDesc_frame (s : State) (e : Fin 8) (d : Started) :
    SameBytes s (s.completeDesc e d) ∧ (s.completeDesc e d).eng[e].started = s.eng[e].started.filter (fun x => decide (x.id ≠ d.id)) := by
  have hf := setRegs_same d.result s
  unfold State.completeDesc
  generalize d.result.foldl (fun t x => t.setReg x.1 x.2) s = r at hf
  obtain ⟨q, id, tctr, origin, desc, err, wrote, ops, result, stores⟩ := d
  cases tctr with
  | none =>
    refine ⟨hf.1.trans (sameBytes_modEng _ _ _), ?_⟩
    simp only [State.modEng_get]; rw [eng_congr hf.2 e]
  | some n =>
    refine ⟨(hf.1.trans (sameBytes_addTok r e.val n.toNat 1)).trans (sameBytes_modEng _ _ _), ?_⟩
    simp only [State.modEng_get]; rw [eng_congr ((State.addTok_eng _ _ _ _).trans hf.2) e]

theorem addTok_modEng_reg (r : State) (e : Fin 8) (n : Nat) (f : Engine → Engine) (a : Nat) :
    ((r.addTok e.val n 1).modEng e f).reg a = if a = tokKey e.val n then r.reg a + 1 else r.reg a := by
  rw [State.modEng_reg]
  by_cases h : a = tokKey e.val n
  · rw [if_pos h, h]; exact State.reg_addTok_one r e.val n
  · rw [if_neg h]; exact State.reg_addTok_ne _ _ _ _ _ h

/-- The increment of a descriptor that names a token counter. -/
theorem completeDesc_some (s : State) (e : Fin 8) (d : Started) (n : BitVec 12) (h : d.tctr = some n) (a : Nat) :
    (s.completeDesc e d).reg a = if a = tokKey e.val n.toNat then (d.result.foldl (fun t x => t.setReg x.1 x.2) s).reg a + 1
      else (d.result.foldl (fun t x => t.setReg x.1 x.2) s).reg a := by
  unfold State.completeDesc
  generalize d.result.foldl (fun t x => t.setReg x.1 x.2) s = r
  obtain ⟨q, id, tctr, origin, desc, err, wrote, ops, result, stores⟩ := d
  cases h
  exact addTok_modEng_reg r e n.toNat _ a

/-- A descriptor that names none changes its results' registers alone. -/
theorem completeDesc_none (s : State) (e : Fin 8) (d : Started) (h : d.tctr = none) (a : Nat) :
    (s.completeDesc e d).reg a = (d.result.foldl (fun t x => t.setReg x.1 x.2) s).reg a := by
  unfold State.completeDesc
  generalize d.result.foldl (fun t x => t.setReg x.1 x.2) s = r
  obtain ⟨q, id, tctr, origin, desc, err, wrote, ops, result, stores⟩ := d
  cases h
  exact State.modEng_reg _ _ _ _

/-- The completion of a descriptor: its results, its increment, its removal. -/
theorem completeDesc_does (s : State) (e : Fin 8) (d : Started) :
    SameBytes s (s.completeDesc e d) ∧ (s.completeDesc e d).eng[e].started = s.eng[e].started.filter (fun x => decide (x.id ≠ d.id))
      ∧ ∀ a, (s.completeDesc e d).reg a = match d.tctr with
          | some n => if a = tokKey e.val n.toNat then (d.result.foldl (fun t x => t.setReg x.1 x.2) s).reg a + 1
              else (d.result.foldl (fun t x => t.setReg x.1 x.2) s).reg a
          | none => (d.result.foldl (fun t x => t.setReg x.1 x.2) s).reg a := by
  have hf := completeDesc_frame s e d
  refine ⟨hf.1, hf.2, fun a => ?_⟩
  cases h : d.tctr with
  | none => exact completeDesc_none s e d h a
  | some n => exact completeDesc_some s e d n h a

/-- A write that only the anchor may do, done by the anchor. -/
theorem anchorWrite_anchor (s : State) (e : Fin 8) (o : Nat) (f : State → State) (h : s.engPresent e = true) :
    anchorWrite 0x60 e o f s = f (s.wakeEng e) := by
  unfold anchorWrite; rw [if_neg (by simp [h]), if_neg (by simp)]

theorem anchorReg_anchor (s : State) (u o : Nat) (f : State → State) (h : s.unitCause u 0x60 = 0) :
    anchorReg (0x60 : BitVec 8).toNat u o f s = f (s.reach u) := by
  unfold anchorReg; dsimp only
  rw [show (0x60 : BitVec 8).toNat = 0x60 from rfl, h]; rfl

theorem sameBytes_reach (s : State) (u : Nat) : SameBytes s (s.reach u) := by
  unfold State.reach; split
  · exact sameBytes_modEng s _ _
  · exact SameBytes.refl s

theorem reach_regN (s : State) (u k : Nat) : (s.reach u).regN k = s.regN k := by
  unfold State.reach; split <;> rfl

end Sys2Proof.Machine
end

