-- ==== Sys2Proof/Laws/Clean.lean ====
section
/-! SUPPORT. Reads and writes of memory in a state with no bad code bit and no armed injection. -/
namespace Sys2Proof.Machine

theorem dirty_of_clean {s : State} (h : s.clean) (a n : Nat) : s.dirtyBlocks a n = [] := by
  unfold State.dirtyBlocks; rw [h.1]; rfl

theorem check_of_clean {s : State} (h : s.clean) (a n : Nat) : s.check a n = (s, true) := check_clean s a n (dirty_of_clean h a n)

theorem read_of_clean {s : State} (h : s.clean) (a n : Nat) : s.read a n = (s, some (s.bytes a n)) :=
  read_clean s a n (dirty_of_clean h a n)

theorem putBytes_nil (m : List (Nat × Byte)) (a : Nat) : putBytes m a [] = m := rfl

theorem write_of_clean {s : State} (h : s.clean) (a : Nat) (bs : List Byte) :
    s.write a bs = ({ s with mem := putBytes s.mem a bs }, true) := by
  unfold State.write
  extract_lets n z dirty part
  by_cases h0 : n = 0
  · rw [if_pos h0]
    have : bs = [] := List.length_eq_zero_iff.mp h0
    rw [this]; rfl
  · rw [if_neg h0]
    have hd : dirty = [] := dirty_of_clean h a n
    have hp : part = [] := by simp only [part, hd]; rfl
    rw [hp, hd]
    have hi : ∀ m, (({ s with mem := m } : State)).fld (key (a / 2 ^ 52) (CTL + 0x11C)) 3 3 ≠ 1 := by
      intro m
      have := h.2 (a / 2 ^ 52)
      have h2 : (({ s with mem := m } : State)).fld (key (a / 2 ^ 52) (CTL + 0x11C)) 3 3 = s.fld (key (a / 2 ^ 52) (CTL + 0x11C)) 3 3 := rfl
      rw [h2, this]; decide
    simp only [State.touchAll, State.mendAll]
    exact if_neg (fun x => hi _ x.1)

theorem poke_of_clean {s : State} (h : s.clean) (a : Nat) (bs : List Byte) : s.poke a bs = { s with mem := putBytes s.mem a bs } := by
  unfold State.poke; rw [write_of_clean h]

theorem clean_of {s t : State} (h : s.clean) (he : t.ecc = s.ecc) (hr : ∀ u, t.reg (key u (CTL + 0x11C)) = s.reg (key u (CTL + 0x11C))) : t.clean := by
  refine ⟨he.trans h.1, fun u => ?_⟩
  rw [← h.2 u]; unfold State.fld State.regN; rw [hr]

theorem clean_mem {s : State} (h : s.clean) (m : List (Nat × Byte)) : ({ s with mem := m } : State).clean :=
  clean_of h rfl fun _ => rfl

theorem clean_modEng {s : State} (h : s.clean) (e : Fin 8) (f : Engine → Engine) : (s.modEng e f).clean :=
  clean_of h (State.modEng_ecc _ _ _) fun _ => State.modEng_reg _ _ _ _

theorem clean_setReg {s : State} (h : s.clean) (a : Nat) (v : Reg32) (ha : a % 2 ^ 52 ≠ CTL + 0x11C) : (s.setReg a v).clean := by
  refine clean_of h (State.setReg_ecc _ _ _) fun u => State.reg_setReg_ne _ _ _ _ ?_
  intro hk
  apply ha
  rw [← hk]
  unfold key CTL
  omega

theorem clean_setRegN {s : State} (h : s.clean) (a v : Nat) (ha : a % 2 ^ 52 ≠ CTL + 0x11C) : (s.setRegN a v).clean := clean_setReg h a _ ha

theorem clean_setFld {s : State} (h : s.clean) (a hi lo v : Nat) (ha : a % 2 ^ 52 ≠ CTL + 0x11C) : (s.setFld a hi lo v).clean := clean_setReg h a _ ha

theorem putBytes_byte_clean {s : State} (h : s.clean) (a : Nat) (bs : List Byte) (c : Nat) :
    ({ s with mem := putBytes s.mem a bs } : State).byte c = if a ≤ c ∧ c < a + bs.length then bs.getD (c - a) 0 else s.byte c :=
  putBytes_byte s a bs c (dirty_of_clean h a bs.length)

theorem meter_same (s : State) (e : Fin 8) : SameBytes s (s.meter e) ∧ (s.meter e).eng = s.eng ∧ ∀ a, (s.meter e).reg a = s.reg a := by
  unfold State.meter
  cases s.ownerPart e with
  | none => exact ⟨SameBytes.refl s, rfl, fun _ => rfl⟩
  | some p =>
    dsimp only
    split
    · exact ⟨⟨fun c => byte_congr rfl rfl rfl c, rfl⟩, rfl, fun _ => rfl⟩
    · exact ⟨SameBytes.refl s, rfl, fun _ => rfl⟩

end Sys2Proof.Machine
end

