-- ==== Sys2Proof/Laws/Exec.lean ====
section
/-! SUPPORT. Each command's meaning, one lemma per command. -/
namespace Sys2Proof.Machine

@[simp] theorem exec_put (h : Hdr) (payload : List Byte) (s : State) : exec (.put h payload) s = execPut h payload s := rfl
@[simp] theorem exec_get (h : Hdr) (s : State) : exec (.get h) s = execGet h s := rfl
@[simp] theorem exec_putSignal (h : Hdr) (payload : List Byte) (s : State) : exec (.putSignal h payload) s = execPutSignal h payload s := rfl
@[simp] theorem exec_signal (h : Hdr) (s : State) : exec (.signal h) s = execSignal h s := rfl
@[simp] theorem exec_atomicAdd (h : Hdr) (payload : List Byte) (s : State) : exec (.atomicAdd h payload) s = execAtomicAdd h payload s := rfl
@[simp] theorem exec_fetchAdd (h : Hdr) (payload : List Byte) (s : State) : exec (.fetchAdd h payload) s = execFetchAdd h payload s := rfl
@[simp] theorem exec_cas (h : Hdr) (payload : List Byte) (s : State) : exec (.cas h payload) s = execCas h payload s := rfl
@[simp] theorem exec_orderedFadd (h : Hdr) (payload : List Byte) (s : State) : exec (.orderedFadd h payload) s = execOrderedFadd h payload s := rfl
@[simp] theorem exec_orderedFaddRelease (unit : BitVec 8) (stream : BitVec 16) (s : State) : exec (.orderedFaddRelease unit stream) s = execOrderedFaddRelease unit stream s := rfl
@[simp] theorem exec_returnDelivery (src : BitVec 12) (dst : BitVec 8) (stream : BitVec 16) (s : State) : exec (.returnDelivery src dst stream) s = execReturnDelivery src dst stream s := rfl
@[simp] theorem exec_errorResponse (unit : BitVec 8) (far : Bool) (stream : BitVec 16) (cause : BitVec 4) (s : State) : exec (.errorResponse unit far stream cause) s = execErrorResponse unit far stream cause s := rfl
@[simp] theorem exec_creditReturn (unit : BitVec 12) (stream : BitVec 16) (s : State) : exec (.creditReturn unit stream) s = execCreditReturn unit stream s := rfl
@[simp] theorem exec_fabricOpIssue (unit : BitVec 8) (queue : BitVec 14) (s : State) : exec (.fabricOpIssue unit queue) s = execFabricOpIssue unit queue s := rfl
@[simp] theorem exec_stall (unit : BitVec 8) (queue : BitVec 14) (s : State) : exec (.stall unit queue) s = execStall unit queue s := rfl
@[simp] theorem exec_mcastSlow (group : Fin 32) (s : State) : exec (.mcastSlow group) s = execMcastSlow group s := rfl
@[simp] theorem exec_priorityAging (unit : BitVec 8) (queue : BitVec 14) (s : State) : exec (.priorityAging unit queue) s = execPriorityAging unit queue s := rfl
@[simp] theorem exec_fabCrdW0Write (src : BitVec 8) (unit : BitVec 8) (k : BitVec 10) (v : Reg32) (s : State) : exec (.fabCrdW0Write src unit k v) s = execFabCrdW0Write src unit k v s := rfl
@[simp] theorem exec_fabCrdW1Write (src : BitVec 8) (unit : BitVec 8) (k : BitVec 10) (v : Reg32) (s : State) : exec (.fabCrdW1Write src unit k v) s = execFabCrdW1Write src unit k v s := rfl
@[simp] theorem exec_clockWake (unit : BitVec 8) (st : Fin 4) (s : State) : exec (.clockWake unit st) s = execClockWake unit st s := rfl
@[simp] theorem exec_scAdd (e : Fin 8) (f : ScalarF) (s : State) : exec (.scAdd e f) s = execScAdd e f s := rfl
@[simp] theorem exec_scSub (e : Fin 8) (f : ScalarF) (s : State) : exec (.scSub e f) s = execScSub e f s := rfl
@[simp] theorem exec_scAnd (e : Fin 8) (f : ScalarF) (s : State) : exec (.scAnd e f) s = execScAnd e f s := rfl
@[simp] theorem exec_scOr (e : Fin 8) (f : ScalarF) (s : State) : exec (.scOr e f) s = execScOr e f s := rfl
@[simp] theorem exec_scXor (e : Fin 8) (f : ScalarF) (s : State) : exec (.scXor e f) s = execScXor e f s := rfl
@[simp] theorem exec_scShl (e : Fin 8) (f : ScalarF) (s : State) : exec (.scShl e f) s = execScShl e f s := rfl
@[simp] theorem exec_scShr (e : Fin 8) (f : ScalarF) (s : State) : exec (.scShr e f) s = execScShr e f s := rfl
@[simp] theorem exec_scSra (e : Fin 8) (f : ScalarF) (s : State) : exec (.scSra e f) s = execScSra e f s := rfl
@[simp] theorem exec_scMul (e : Fin 8) (f : ScalarF) (s : State) : exec (.scMul e f) s = execScMul e f s := rfl
@[simp] theorem exec_scMovhi (e : Fin 8) (f : ScalarF) (s : State) : exec (.scMovhi e f) s = execScMovhi e f s := rfl
@[simp] theorem exec_scSlt (e : Fin 8) (f : ScalarF) (s : State) : exec (.scSlt e f) s = execScSlt e f s := rfl
@[simp] theorem exec_scSltu (e : Fin 8) (f : ScalarF) (s : State) : exec (.scSltu e f) s = execScSltu e f s := rfl
@[simp] theorem exec_scSeq (e : Fin 8) (f : ScalarF) (s : State) : exec (.scSeq e f) s = execScSeq e f s := rfl
@[simp] theorem exec_scLd (e : Fin 8) (f : ScalarF) (s : State) : exec (.scLd e f) s = execScLd e f s := rfl
@[simp] theorem exec_scSt (e : Fin 8) (f : ScalarF) (s : State) : exec (.scSt e f) s = execScSt e f s := rfl
@[simp] theorem exec_scB (e : Fin 8) (f : ScalarF) (s : State) : exec (.scB e f) s = execScB e f s := rfl
@[simp] theorem exec_scBeq (e : Fin 8) (f : ScalarF) (s : State) : exec (.scBeq e f) s = execScBeq e f s := rfl
@[simp] theorem exec_scBne (e : Fin 8) (f : ScalarF) (s : State) : exec (.scBne e f) s = execScBne e f s := rfl
@[simp] theorem exec_scBlt (e : Fin 8) (f : ScalarF) (s : State) : exec (.scBlt e f) s = execScBlt e f s := rfl
@[simp] theorem exec_scBge (e : Fin 8) (f : ScalarF) (s : State) : exec (.scBge e f) s = execScBge e f s := rfl
@[simp] theorem exec_scMovsum (e : Fin 8) (f : ScalarF) (s : State) : exec (.scMovsum e f) s = execScMovsum e f s := rfl
@[simp] theorem exec_scBsum (e : Fin 8) (f : ScalarF) (s : State) : exec (.scBsum e f) s = execScBsum e f s := rfl
@[simp] theorem exec_streamIssue (e : Fin 8) (f : IssueF) (s : State) : exec (.streamIssue e f) s = execStreamIssue e f s := rfl
@[simp] theorem exec_arrayIssue (e : Fin 8) (f : IssueF) (s : State) : exec (.arrayIssue e f) s = execArrayIssue e f s := rfl
@[simp] theorem exec_vectorIssue (e : Fin 8) (f : IssueF) (s : State) : exec (.vectorIssue e f) s = execVectorIssue e f s := rfl
@[simp] theorem exec_signalIssue (e : Fin 8) (f : IssueF) (s : State) : exec (.signalIssue e f) s = execSignalIssue e f s := rfl
@[simp] theorem exec_issueStallRelease (e : Fin 8) (s : State) : exec (.issueStallRelease e) s = execIssueStallRelease e s := rfl
@[simp] theorem exec_syWait (e : Fin 8) (f : SyncF) (s : State) : exec (.syWait e f) s = execSyWait e f s := rfl
@[simp] theorem exec_syWaitt (e : Fin 8) (f : SyncF) (s : State) : exec (.syWaitt e f) s = execSyWaitt e f s := rfl
@[simp] theorem exec_waitSatisfied (e : Fin 8) (s : State) : exec (.waitSatisfied e) s = execWaitSatisfied e s := rfl
@[simp] theorem exec_waittGiveUp (e : Fin 8) (s : State) : exec (.waittGiveUp e) s = execWaittGiveUp e s := rfl
@[simp] theorem exec_syFence (e : Fin 8) (f : SyncF) (s : State) : exec (.syFence e f) s = execSyFence e f s := rfl
@[simp] theorem exec_fenceRelease (e : Fin 8) (s : State) : exec (.fenceRelease e) s = execFenceRelease e s := rfl
@[simp] theorem exec_sySig (e : Fin 8) (f : SyncF) (s : State) : exec (.sySig e f) s = execSySig e f s := rfl
@[simp] theorem exec_syWaitdb (e : Fin 8) (f : SyncF) (s : State) : exec (.syWaitdb e f) s = execSyWaitdb e f s := rfl
@[simp] theorem exec_waitdbWake (e : Fin 8) (s : State) : exec (.waitdbWake e) s = execWaitdbWake e s := rfl
@[simp] theorem exec_syNop (e : Fin 8) (f : SyncF) (s : State) : exec (.syNop e f) s = execSyNop e f s := rfl
@[simp] theorem exec_syEnd (e : Fin 8) (f : SyncF) (s : State) : exec (.syEnd e f) s = execSyEnd e f s := rfl
@[simp] theorem exec_syTrap (e : Fin 8) (f : SyncF) (s : State) : exec (.syTrap e f) s = execSyTrap e f s := rfl
@[simp] theorem exec_trapAbortEnd (e : Fin 8) (s : State) : exec (.trapAbortEnd e) s = execTrapAbortEnd e s := rfl
@[simp] theorem exec_overblock (e : Fin 8) (s : State) : exec (.overblock e) s = execOverblock e s := rfl
@[simp] theorem exec_engRun (src : BitVec 8) (e : Fin 8) (s : State) : exec (.engRun src e) s = execEngRun src e s := rfl
@[simp] theorem exec_engHalt (src : BitVec 8) (e : Fin 8) (s : State) : exec (.engHalt src e) s = execEngHalt src e s := rfl
@[simp] theorem exec_engKill (src : BitVec 8) (e : Fin 8) (s : State) : exec (.engKill src e) s = execEngKill src e s := rfl
@[simp] theorem exec_killComplete (e : Fin 8) (s : State) : exec (.killComplete e) s = execKillComplete e s := rfl
@[simp] theorem exec_matmul (e : Fin 8) (s : State) : exec (.matmul e) s = execMatmul e s := rfl
@[simp] theorem exec_matmulComplete (e : Fin 8) (k : BitVec 6) (s : State) : exec (.matmulComplete e k) s = execMatmulComplete e k s := rfl
@[simp] theorem exec_drain (e : Fin 8) (s : State) : exec (.drain e) s = execDrain e s := rfl
@[simp] theorem exec_drainComplete (e : Fin 8) (k : BitVec 6) (s : State) : exec (.drainComplete e k) s = execDrainComplete e k s := rfl
@[simp] theorem exec_arrClrClamp (src : BitVec 8) (e : Fin 8) (all : Bool) (a : Fin 64) (s : State) : exec (.arrClrClamp src e all a) s = execArrClrClamp src e all a s := rfl
@[simp] theorem exec_arrClrFlags (src : BitVec 8) (e : Fin 8) (all : Bool) (a : Fin 64) (s : State) : exec (.arrClrFlags src e all a) s = execArrClrFlags src e all a s := rfl
@[simp] theorem exec_pairCtlWrite (src : BitVec 8) (e : Fin 8) (n : Fin 16) (v : Reg32) (s : State) : exec (.pairCtlWrite src e n v) s = execPairCtlWrite src e n v s := rfl
@[simp] theorem exec_vecQntClr (src : BitVec 8) (e : Fin 8) (s : State) : exec (.vecQntClr src e) s = execVecQntClr src e s := rfl
@[simp] theorem exec_vecAdd (e : Fin 8) (f : DirectF) (s : State) : exec (.vecAdd e f) s = execVecAdd e f s := rfl
@[simp] theorem exec_vecSub (e : Fin 8) (f : DirectF) (s : State) : exec (.vecSub e f) s = execVecSub e f s := rfl
@[simp] theorem exec_vecMul (e : Fin 8) (f : DirectF) (s : State) : exec (.vecMul e f) s = execVecMul e f s := rfl
@[simp] theorem exec_vecFma (e : Fin 8) (f : DirectF) (s : State) : exec (.vecFma e f) s = execVecFma e f s := rfl
@[simp] theorem exec_vecMin (e : Fin 8) (f : DirectF) (s : State) : exec (.vecMin e f) s = execVecMin e f s := rfl
@[simp] theorem exec_vecMax (e : Fin 8) (f : DirectF) (s : State) : exec (.vecMax e f) s = execVecMax e f s := rfl
@[simp] theorem exec_vecAbs (e : Fin 8) (f : DirectF) (s : State) : exec (.vecAbs e f) s = execVecAbs e f s := rfl
@[simp] theorem exec_vecNeg (e : Fin 8) (f : DirectF) (s : State) : exec (.vecNeg e f) s = execVecNeg e f s := rfl
@[simp] theorem exec_vecCeq (e : Fin 8) (f : DirectF) (s : State) : exec (.vecCeq e f) s = execVecCeq e f s := rfl
@[simp] theorem exec_vecClt (e : Fin 8) (f : DirectF) (s : State) : exec (.vecClt e f) s = execVecClt e f s := rfl
@[simp] theorem exec_vecCle (e : Fin 8) (f : DirectF) (s : State) : exec (.vecCle e f) s = execVecCle e f s := rfl
@[simp] theorem exec_vecSel (e : Fin 8) (f : DirectF) (s : State) : exec (.vecSel e f) s = execVecSel e f s := rfl
@[simp] theorem exec_vecAnd (e : Fin 8) (f : DirectF) (s : State) : exec (.vecAnd e f) s = execVecAnd e f s := rfl
@[simp] theorem exec_vecOr (e : Fin 8) (f : DirectF) (s : State) : exec (.vecOr e f) s = execVecOr e f s := rfl
@[simp] theorem exec_vecXor (e : Fin 8) (f : DirectF) (s : State) : exec (.vecXor e f) s = execVecXor e f s := rfl
@[simp] theorem exec_vecShl (e : Fin 8) (f : DirectF) (s : State) : exec (.vecShl e f) s = execVecShl e f s := rfl
@[simp] theorem exec_vecShr (e : Fin 8) (f : DirectF) (s : State) : exec (.vecShr e f) s = execVecShr e f s := rfl
@[simp] theorem exec_cvt (e : Fin 8) (f : DirectF) (s : State) : exec (.cvt e f) s = execCvt e f s := rfl
@[simp] theorem exec_scalb (e : Fin 8) (f : DirectF) (s : State) : exec (.scalb e f) s = execScalb e f s := rfl
@[simp] theorem exec_recip (e : Fin 8) (f : DirectF) (s : State) : exec (.recip e f) s = execRecip e f s := rfl
@[simp] theorem exec_rsqrt (e : Fin 8) (f : DirectF) (s : State) : exec (.rsqrt e f) s = execRsqrt e f s := rfl
@[simp] theorem exec_sqrt (e : Fin 8) (f : DirectF) (s : State) : exec (.sqrt e f) s = execSqrt e f s := rfl
@[simp] theorem exec_exp (e : Fin 8) (f : DirectF) (s : State) : exec (.exp e f) s = execExp e f s := rfl
@[simp] theorem exec_log (e : Fin 8) (f : DirectF) (s : State) : exec (.log e f) s = execLog e f s := rfl
@[simp] theorem exec_sin (e : Fin 8) (f : DirectF) (s : State) : exec (.sin e f) s = execSin e f s := rfl
@[simp] theorem exec_cos (e : Fin 8) (f : DirectF) (s : State) : exec (.cos e f) s = execCos e f s := rfl
@[simp] theorem exec_atan2 (e : Fin 8) (f : DirectF) (s : State) : exec (.atan2 e f) s = execAtan2 e f s := rfl
@[simp] theorem exec_vbcast (e : Fin 8) (f : DirectF) (s : State) : exec (.vbcast e f) s = execVbcast e f s := rfl
@[simp] theorem exec_vld (e : Fin 8) (f : DirectF) (s : State) : exec (.vld e f) s = execVld e f s := rfl
@[simp] theorem exec_vst (e : Fin 8) (f : DirectF) (s : State) : exec (.vst e f) s = execVst e f s := rfl
@[simp] theorem exec_vldt (e : Fin 8) (f : DirectF) (s : State) : exec (.vldt e f) s = execVldt e f s := rfl
@[simp] theorem exec_vstt (e : Fin 8) (f : DirectF) (s : State) : exec (.vstt e f) s = execVstt e f s := rfl
@[simp] theorem exec_vtget (e : Fin 8) (f : DirectF) (s : State) : exec (.vtget e f) s = execVtget e f s := rfl
@[simp] theorem exec_vtput (e : Fin 8) (f : DirectF) (s : State) : exec (.vtput e f) s = execVtput e f s := rfl
@[simp] theorem exec_vperm (e : Fin 8) (f : DirectF) (s : State) : exec (.vperm e f) s = execVperm e f s := rfl
@[simp] theorem exec_vgather (e : Fin 8) (f : DirectF) (s : State) : exec (.vgather e f) s = execVgather e f s := rfl
@[simp] theorem exec_vscatter (e : Fin 8) (f : DirectF) (s : State) : exec (.vscatter e f) s = execVscatter e f s := rfl
@[simp] theorem exec_vredt (e : Fin 8) (f : DirectF) (s : State) : exec (.vredt e f) s = execVredt e f s := rfl
@[simp] theorem exec_vsumm (e : Fin 8) (f : DirectF) (s : State) : exec (.vsumm e f) s = execVsumm e f s := rfl
@[simp] theorem exec_vsetvl (e : Fin 8) (f : DirectF) (s : State) : exec (.vsetvl e f) s = execVsetvl e f s := rfl
@[simp] theorem exec_vsetbnd (e : Fin 8) (f : DirectF) (s : State) : exec (.vsetbnd e f) s = execVsetbnd e f s := rfl
@[simp] theorem exec_vsetsr (e : Fin 8) (f : DirectF) (s : State) : exec (.vsetsr e f) s = execVsetsr e f s := rfl
@[simp] theorem exec_directInstrComplete (e : Fin 8) (k : BitVec 6) (s : State) : exec (.directInstrComplete e k) s = execDirectInstrComplete e k s := rfl
@[simp] theorem exec_elementProgram (e : Fin 8) (p : Fin 4) (s : State) : exec (.elementProgram e p) s = execElementProgram e p s := rfl
@[simp] theorem exec_reduce (e : Fin 8) (p : Fin 5) (s : State) : exec (.reduce e p) s = execReduce e p s := rfl
@[simp] theorem exec_bquant (e : Fin 8) (p : Fin 4) (s : State) : exec (.bquant e p) s = execBquant e p s := rfl
@[simp] theorem exec_cquant (e : Fin 8) (p : Fin 4) (s : State) : exec (.cquant e p) s = execCquant e p s := rfl
@[simp] theorem exec_dequant (e : Fin 8) (p : Fin 4) (s : State) : exec (.dequant e p) s = execDequant e p s := rfl
@[simp] theorem exec_qacc (e : Fin 8) (p : Fin 4) (s : State) : exec (.qacc e p) s = execQacc e p s := rfl
@[simp] theorem exec_vectorDescComplete (e : Fin 8) (p : Fin 4) (k : BitVec 6) (s : State) : exec (.vectorDescComplete e p k) s = execVectorDescComplete e p k s := rfl
@[simp] theorem exec_crc (e : Fin 8) (s : State) : exec (.crc e) s = execCrc e s := rfl
@[simp] theorem exec_sum64 (e : Fin 8) (s : State) : exec (.sum64 e) s = execSum64 e s := rfl
@[simp] theorem exec_fill (e : Fin 8) (s : State) : exec (.fill e) s = execFill e s := rfl
@[simp] theorem exec_compare (e : Fin 8) (s : State) : exec (.compare e) s = execCompare e s := rfl
@[simp] theorem exec_collimatorComplete (e : Fin 8) (k : BitVec 6) (s : State) : exec (.collimatorComplete e k) s = execCollimatorComplete e k s := rfl
@[simp] theorem exec_vecCntClr (src : BitVec 8) (e : Fin 8) (s : State) : exec (.vecCntClr src e) s = execVecCntClr src e s := rfl
@[simp] theorem exec_program (e : Fin 8) (s : State) : exec (.program e) s = execProgram e s := rfl
@[simp] theorem exec_programComplete (e : Fin 8) (s : State) : exec (.programComplete e) s = execProgramComplete e s := rfl
@[simp] theorem exec_load (e : Fin 8) (q : BitVec 10) (s : State) : exec (.load e q) s = execLoad e q s := rfl
@[simp] theorem exec_store (e : Fin 8) (q : BitVec 10) (s : State) : exec (.store e q) s = execStore e q s := rfl
@[simp] theorem exec_pload (e : Fin 8) (q : BitVec 10) (s : State) : exec (.pload e q) s = execPload e q s := rfl
@[simp] theorem exec_pstore (e : Fin 8) (q : BitVec 10) (s : State) : exec (.pstore e q) s = execPstore e q s := rfl
@[simp] theorem exec_rmo (e : Fin 8) (q : BitVec 10) (s : State) : exec (.rmo e q) s = execRmo e q s := rfl
@[simp] theorem exec_streamDescComplete (e : Fin 8) (q : BitVec 10) (s : State) : exec (.streamDescComplete e q) s = execStreamDescComplete e q s := rfl
@[simp] theorem exec_queueAging (e : Fin 8) (q : BitVec 10) (s : State) : exec (.queueAging e q) s = execQueueAging e q s := rfl
@[simp] theorem exec_prismCntClr (src : BitVec 8) (e : Fin 8) (s : State) : exec (.prismCntClr src e) s = execPrismCntClr src e s := rfl
@[simp] theorem exec_carrierCfg (pair : BitVec 16) (s : State) : exec (.carrierCfg pair) s = execCarrierCfg pair s := rfl
@[simp] theorem exec_carrierSwitch (c : Fin 24) (s : State) : exec (.carrierSwitch c) s = execCarrierSwitch c s := rfl
@[simp] theorem exec_blockDelivery (port : Fin 16) (s : State) : exec (.blockDelivery port) s = execBlockDelivery port s := rfl
@[simp] theorem exec_rxWindowClose (c : Fin 24) (n : BitVec 64) (sym : Fin 14) (s : State) : exec (.rxWindowClose c n sym) s = execRxWindowClose c n sym s := rfl
@[simp] theorem exec_ulSlot (pair : BitVec 16) (s : State) : exec (.ulSlot pair) s = execUlSlot pair s := rfl
@[simp] theorem exec_dlSlot (pair : BitVec 16) (s : State) : exec (.dlSlot pair) s = execDlSlot pair s := rfl
@[simp] theorem exec_est (e : Fin 8) (s : State) : exec (.est e) s = execEst e s := rfl
@[simp] theorem exec_eq (e : Fin 8) (s : State) : exec (.eq e) s = execEq e s := rfl
@[simp] theorem exec_dec (e : Fin 8) (s : State) : exec (.dec e) s = execDec e s := rfl
@[simp] theorem exec_stageRerun (s : State) : exec (.stageRerun) s = execStageRerun s := rfl
@[simp] theorem exec_slotPublish (e : Fin 8) (k : BitVec 64) (s : State) : exec (.slotPublish e k) s = execSlotPublish e k s := rfl
@[simp] theorem exec_tx (e : Fin 8) (s : State) : exec (.tx e) s = execTx e s := rfl
@[simp] theorem exec_cplaneSend (c : Fin 24) (n : BitVec 64) (s : State) : exec (.cplaneSend c n) s = execCplaneSend c n s := rfl
@[simp] theorem exec_uplaneSend (c : Fin 24) (n : BitVec 64) (ant : Fin 16) (sym : Fin 14) (complete : Bool) (s : State) : exec (.uplaneSend c n ant sym complete) s = execUplaneSend c n ant sym complete s := rfl
@[simp] theorem exec_dlSlotComplete (c : Fin 24) (n : BitVec 64) (s : State) : exec (.dlSlotComplete c n) s = execDlSlotComplete c n s := rfl
@[simp] theorem exec_facetFetch (f : Fin 8) (s : State) : exec (.facetFetch f) s = execFacetFetch f s := rfl
@[simp] theorem exec_ldpcDec (f : Fin 8) (s : State) : exec (.ldpcDec f) s = execLdpcDec f s := rfl
@[simp] theorem exec_ldpcEnc (f : Fin 8) (s : State) : exec (.ldpcEnc f) s = execLdpcEnc f s := rfl
@[simp] theorem exec_polarDec (f : Fin 8) (s : State) : exec (.polarDec f) s = execPolarDec f s := rfl
@[simp] theorem exec_polarEnc (f : Fin 8) (s : State) : exec (.polarEnc f) s = execPolarEnc f s := rfl
@[simp] theorem exec_tbcrc (f : Fin 8) (s : State) : exec (.tbcrc f) s = execTbcrc f s := rfl
@[simp] theorem exec_facetStatusRecord (f : Fin 8) (s : State) : exec (.facetStatusRecord f) s = execFacetStatusRecord f s := rfl
@[simp] theorem exec_facetAging (f : Fin 8) (q : BitVec 5) (s : State) : exec (.facetAging f q) s = execFacetAging f q s := rfl
@[simp] theorem exec_fctFlush (src : BitVec 8) (f : Fin 8) (q : BitVec 5) (s : State) : exec (.fctFlush src f q) s = execFctFlush src f q s := rfl
@[simp] theorem exec_fctCntClr (src : BitVec 8) (f : Fin 8) (s : State) : exec (.fctCntClr src f) s = execFctCntClr src f s := rfl
@[simp] theorem exec_loadWeights (pair : BitVec 16) (s : State) : exec (.loadWeights pair) s = execLoadWeights pair s := rfl
@[simp] theorem exec_weightsCommit (p : Fin 8) (s : State) : exec (.weightsCommit p) s = execWeightsCommit p s := rfl
@[simp] theorem exec_shadowConfig (pair : BitVec 16) (s : State) : exec (.shadowConfig pair) s = execShadowConfig pair s := rfl
@[simp] theorem exec_shadowCapWindow (s : State) : exec (.shadowCapWindow) s = execShadowCapWindow s := rfl
@[simp] theorem exec_netTrial (pair : BitVec 16) (s : State) : exec (.netTrial pair) s = execNetTrial pair s := rfl
@[simp] theorem exec_trialDecide (e : Fin 8) (s : State) : exec (.trialDecide e) s = execTrialDecide e s := rfl
@[simp] theorem exec_trialTimeout (e : Fin 8) (s : State) : exec (.trialTimeout e) s = execTrialTimeout e s := rfl
@[simp] theorem exec_netRollback (pair : BitVec 16) (s : State) : exec (.netRollback pair) s = execNetRollback pair s := rfl
@[simp] theorem exec_qTailWrite (pair : BitVec 11) (v : Reg32) (s : State) : exec (.qTailWrite pair v) s = execQTailWrite pair v s := rfl
@[simp] theorem exec_commandAccept (pair : BitVec 11) (s : State) : exec (.commandAccept pair) s = execCommandAccept pair s := rfl
@[simp] theorem exec_qCheadWrite (pair : BitVec 11) (v : Reg32) (s : State) : exec (.qCheadWrite pair v) s = execQCheadWrite pair v s := rfl
@[simp] theorem exec_resume (pair : BitVec 11) (s : State) : exec (.resume pair) s = execResume pair s := rfl
@[simp] theorem exec_qAdmEnable (en : Bool) (s : State) : exec (.qAdmEnable en) s = execQAdmEnable en s := rfl
@[simp] theorem exec_completionWrite (pair : BitVec 11) (s : State) : exec (.completionWrite pair) s = execCompletionWrite pair s := rfl
@[simp] theorem exec_nop (pair : BitVec 16) (s : State) : exec (.nop pair) s = execNop pair s := rfl
@[simp] theorem exec_queueConfig (pair : BitVec 16) (s : State) : exec (.queueConfig pair) s = execQueueConfig pair s := rfl
@[simp] theorem exec_windowOpen (pair : BitVec 16) (s : State) : exec (.windowOpen pair) s = execWindowOpen pair s := rfl
@[simp] theorem exec_windowClose (pair : BitVec 16) (s : State) : exec (.windowClose pair) s = execWindowClose pair s := rfl
@[simp] theorem exec_windowRead (o : BitVec 64) (len : BitVec 13) (s : State) : exec (.windowRead o len) s = execWindowRead o len s := rfl
@[simp] theorem exec_windowWrite (o : BitVec 64) (data : List Byte) (s : State) : exec (.windowWrite o data) s = execWindowWrite o data s := rfl
@[simp] theorem exec_mbxPost (src : BitVec 8) (unit : BitVec 8) (n : Fin 32) (s : State) : exec (.mbxPost src unit n) s = execMbxPost src unit n s := rfl
@[simp] theorem exec_mbxAck (src : BitVec 8) (unit : BitVec 8) (n : Fin 32) (v : Reg32) (s : State) : exec (.mbxAck src unit n v) s = execMbxAck src unit n v s := rfl
@[simp] theorem exec_dbSet (src : BitVec 8) (unit : BitVec 8) (v : Reg32) (s : State) : exec (.dbSet src unit v) s = execDbSet src unit v s := rfl
@[simp] theorem exec_partCreate (pair : BitVec 16) (s : State) : exec (.partCreate pair) s = execPartCreate pair s := rfl
@[simp] theorem exec_partDestroy (pair : BitVec 16) (s : State) : exec (.partDestroy pair) s = execPartDestroy pair s := rfl
@[simp] theorem exec_jobLoad (pair : BitVec 16) (s : State) : exec (.jobLoad pair) s = execJobLoad pair s := rfl
@[simp] theorem exec_jobCmd (pair : BitVec 16) (s : State) : exec (.jobCmd pair) s = execJobCmd pair s := rfl
@[simp] theorem exec_jobUnload (pair : BitVec 16) (s : State) : exec (.jobUnload pair) s = execJobUnload pair s := rfl
@[simp] theorem exec_jobAbort (pair : BitVec 16) (s : State) : exec (.jobAbort pair) s = execJobAbort pair s := rfl
@[simp] theorem exec_commandStart (p : Fin 8) (s : State) : exec (.commandStart p) s = execCommandStart p s := rfl
@[simp] theorem exec_commandCommit (p : Fin 8) (s : State) : exec (.commandCommit p) s = execCommandCommit p s := rfl
@[simp] theorem exec_ledgerCommit (ok0 : Bool) (ok1 : Bool) (s : State) : exec (.ledgerCommit ok0 ok1) s = execLedgerCommit ok0 ok1 s := rfl
@[simp] theorem exec_ledgerRead (pair : BitVec 16) (s : State) : exec (.ledgerRead pair) s = execLedgerRead pair s := rfl
@[simp] theorem exec_mirrorStart (pair : BitVec 16) (s : State) : exec (.mirrorStart pair) s = execMirrorStart pair s := rfl
@[simp] theorem exec_mirrorStop (pair : BitVec 16) (s : State) : exec (.mirrorStop pair) s = execMirrorStop pair s := rfl
@[simp] theorem exec_mirrorFull (len : BitVec 32) (s : State) : exec (.mirrorFull len) s = execMirrorFull len s := rfl
@[simp] theorem exec_gap (s : State) : exec (.gap) s = execGap s := rfl
@[simp] theorem exec_replayStart (pair : BitVec 16) (s : State) : exec (.replayStart pair) s = execReplayStart pair s := rfl
@[simp] theorem exec_replayHold (s : State) : exec (.replayHold) s = execReplayHold s := rfl
@[simp] theorem exec_replayRelease (pair : BitVec 16) (s : State) : exec (.replayRelease pair) s = execReplayRelease pair s := rfl
@[simp] theorem exec_eccWriteback (s : State) : exec (.eccWriteback) s = execEccWriteback s := rfl
@[simp] theorem exec_scrubRead (unit : BitVec 8) (s : State) : exec (.scrubRead unit) s = execScrubRead unit s := rfl
@[simp] theorem exec_hbmRefresh (st : Fin 4) (s : State) : exec (.hbmRefresh st) s = execHbmRefresh st s := rfl
@[simp] theorem exec_eccInjArm (src : BitVec 8) (unit : BitVec 8) (v : Reg32) (s : State) : exec (.eccInjArm src unit v) s = execEccInjArm src unit v s := rfl
@[simp] theorem exec_eccCntClr (src : BitVec 8) (unit : BitVec 8) (s : State) : exec (.eccCntClr src unit) s = execEccCntClr src unit s := rfl
@[simp] theorem exec_ucieRetry (ns : BitVec 16) (s : State) : exec (.ucieRetry ns) s = execUcieRetry ns s := rfl
@[simp] theorem exec_ucieRetrain (s : State) : exec (.ucieRetrain) s = execUcieRetrain s := rfl
@[simp] theorem exec_ucieRetrainEnd (ok : Bool) (tests : Tests) (s : State) : exec (.ucieRetrainEnd ok tests) s = execUcieRetrainEnd ok tests s := rfl
@[simp] theorem exec_fhConfig (pair : BitVec 16) (s : State) : exec (.fhConfig pair) s = execFhConfig pair s := rfl
@[simp] theorem exec_ptpConfig (pair : BitVec 16) (s : State) : exec (.ptpConfig pair) s = execPtpConfig pair s := rfl
@[simp] theorem exec_portLinkChange (port : Fin 16) (up : Bool) (s : State) : exec (.portLinkChange port up) s = execPortLinkChange port up s := rfl
@[simp] theorem exec_frameReceive (port : Fin 16) (frame : List Byte) (good : Bool) (t : BitVec 96) (tx : BitVec 96) (s : State) : exec (.frameReceive port frame good t tx) s = execFrameReceive port frame good t tx s := rfl
@[simp] theorem exec_storedFrameSend (port : Fin 16) (tx : BitVec 96) (s : State) : exec (.storedFrameSend port tx) s = execStoredFrameSend port tx s := rfl
@[simp] theorem exec_fhCntClr (src : BitVec 8) (port : Fin 16) (s : State) : exec (.fhCntClr src port) s = execFhCntClr src port s := rfl
@[simp] theorem exec_ptpSecLatch (s : State) : exec (.ptpSecLatch) s = execPtpSecLatch s := rfl
@[simp] theorem exec_ptpAdj (src : BitVec 8) (v : Reg32) (s : State) : exec (.ptpAdj src v) s = execPtpAdj src v s := rfl
@[simp] theorem exec_slewEnd (s : State) : exec (.slewEnd) s = execSlewEnd s := rfl
@[simp] theorem exec_ptpHold (src : BitVec 8) (hold : Bool) (s : State) : exec (.ptpHold src hold) s = execPtpHold src hold s := rfl
@[simp] theorem exec_triggerFire (time : Word) (addr : Word) (stream : BitVec 16) (tinc : BitVec 16) (s : State) : exec (.triggerFire time addr stream tinc) s = execTriggerFire time addr stream tinc s := rfl
@[simp] theorem exec_ppsOut (s : State) : exec (.ppsOut) s = execPpsOut s := rfl
@[simp] theorem exec_todSend (s : State) : exec (.todSend) s = execTodSend s := rfl
@[simp] theorem exec_ppsIn (t : BitVec 96) (s : State) : exec (.ppsIn t) s = execPpsIn t s := rfl
@[simp] theorem exec_brvConfig (pair : BitVec 16) (s : State) : exec (.brvConfig pair) s = execBrvConfig pair s := rfl
@[simp] theorem exec_brvLinkUp (port : Fin 2) (nbr : BitVec 4) (size : BitVec 5) (id : Word) (major : BitVec 16) (s : State) : exec (.brvLinkUp port nbr size id major) s = execBrvLinkUp port nbr size id major s := rfl
@[simp] theorem exec_brvLinkTimeout (port : Fin 2) (s : State) : exec (.brvLinkTimeout port) s = execBrvLinkTimeout port s := rfl
@[simp] theorem exec_routeChange (s : State) : exec (.routeChange) s = execRouteChange s := rfl
@[simp] theorem exec_transit (port : Fin 2) (vc : BitVec 2) (op : BitVec 8) (h : Hdr) (payload : List Byte) (s : State) : exec (.transit port vc op h payload) s = execTransit port vc op h payload s := rfl
@[simp] theorem exec_brvReplay (port : Fin 2) (crc : Bool) (ns : BitVec 16) (s : State) : exec (.brvReplay port crc ns) s = execBrvReplay port crc ns s := rfl
@[simp] theorem exec_brvRetrain (port : Fin 2) (s : State) : exec (.brvRetrain port) s = execBrvRetrain port s := rfl
@[simp] theorem exec_brvRetrainEnd (port : Fin 2) (ok : Bool) (s : State) : exec (.brvRetrainEnd port ok) s = execBrvRetrainEnd port ok s := rfl
@[simp] theorem exec_brvLinkDown (port : Fin 2) (s : State) : exec (.brvLinkDown port) s = execBrvLinkDown port s := rfl
@[simp] theorem exec_brvCntClr (src : BitVec 8) (port : Fin 2) (s : State) : exec (.brvCntClr src port) s = execBrvCntClr src port s := rfl
@[simp] theorem exec_modConfig (pair : BitVec 16) (s : State) : exec (.modConfig pair) s = execModConfig pair s := rfl
@[simp] theorem exec_jesdLinkLoss (s : State) : exec (.jesdLinkLoss) s = execJesdLinkLoss s := rfl
@[simp] theorem exec_periscopeDetect (c : Fin 8) (dets : List (Fin 8 × List Int)) (t : Word) (blocks : List (List Byte)) (s : State) : exec (.periscopeDetect c dets t blocks) s = execPeriscopeDetect c dets t blocks s := rfl
@[simp] theorem exec_syncFound (c : Fin 8) (word : BitVec 32) (t : Word) (s : State) : exec (.syncFound c word t) s = execSyncFound c word t s := rfl
@[simp] theorem exec_syncTimeout (c : Fin 8) (s : State) : exec (.syncTimeout c) s = execSyncTimeout c s := rfl
@[simp] theorem exec_rxRecord (c : Fin 8) (frame : List Byte) (rssi : BitVec 16) (fofs : BitVec 32) (blocks : List (List Byte)) (s : State) : exec (.rxRecord c frame rssi fofs blocks) s = execRxRecord c frame rssi fofs blocks s := rfl
@[simp] theorem exec_modTxFetch (c : Fin 8) (s : State) : exec (.modTxFetch c) s = execModTxFetch c s := rfl
@[simp] theorem exec_txBurstStart (c : Fin 8) (mask : Bool) (s : State) : exec (.txBurstStart c mask) s = execTxBurstStart c mask s := rfl
@[simp] theorem exec_txBurstComplete (c : Fin 8) (t : Word) (sat : BitVec 16) (s : State) : exec (.txBurstComplete c t sat) s = execTxBurstComplete c t sat s := rfl
@[simp] theorem exec_modCntClr (src : BitVec 8) (s : State) : exec (.modCntClr src) s = execModCntClr src s := rfl
@[simp] theorem exec_romLoad (s : State) : exec (.romLoad) s = execRomLoad s := rfl
@[simp] theorem exec_fwLoad (pair : BitVec 16) (tests : Tests) (s : State) : exec (.fwLoad pair tests) s = execFwLoad pair tests s := rfl
@[simp] theorem exec_attest (pair : BitVec 16) (s : State) : exec (.attest pair) s = execAttest pair s := rfl
@[simp] theorem exec_alarmCfg (pair : BitVec 16) (holding : BitVec 5) (s : State) : exec (.alarmCfg pair holding) s = execAlarmCfg pair holding s := rfl
@[simp] theorem exec_alarm (sources : BitVec 5) (s : State) : exec (.alarm sources) s = execAlarm sources s := rfl
@[simp] theorem exec_smbusBlockRead (code : BitVec 8) (s : State) : exec (.smbusBlockRead code) s = execSmbusBlockRead code s := rfl
@[simp] theorem exec_por (cap : BitVec 2) (smb : BitVec 3) (test : Bool) (tests : Tests) (s : State) : exec (.por cap smb test tests) s = execPor cap smb test tests s := rfl
@[simp] theorem exec_pinReset (tests : Tests) (s : State) : exec (.pinReset tests) s = execPinReset tests s := rfl
@[simp] theorem exec_hostWarmReset (src : BitVec 4) (pair : BitVec 16) (tests : Tests) (s : State) : exec (.hostWarmReset src pair tests) s = execHostWarmReset src pair tests s := rfl
@[simp] theorem exec_computeReset (pair : BitVec 16) (tests : Tests) (s : State) : exec (.computeReset pair tests) s = execComputeReset pair tests s := rfl
@[simp] theorem exec_partitionReset (pair : BitVec 16) (s : State) : exec (.partitionReset pair) s = execPartitionReset pair s := rfl
@[simp] theorem exec_engineReset (pair : BitVec 16) (s : State) : exec (.engineReset pair) s = execEngineReset pair s := rfl
@[simp] theorem exec_perstAssert (s : State) : exec (.perstAssert) s = execPerstAssert s := rfl
@[simp] theorem exec_perstRelease (s : State) : exec (.perstRelease) s = execPerstRelease s := rfl
@[simp] theorem exec_pwrGoodFall (s : State) : exec (.pwrGoodFall) s = execPwrGoodFall s := rfl
@[simp] theorem exec_thermtrip (mdeg : Int) (s : State) : exec (.thermtrip mdeg) s = execThermtrip mdeg s := rfl
@[simp] theorem exec_powerCap (pair : BitVec 16) (s : State) : exec (.powerCap pair) s = execPowerCap pair s := rfl
@[simp] theorem exec_capSwitch (quiet : Bool) (s : State) : exec (.capSwitch quiet) s = execCapSwitch quiet s := rfl
@[simp] theorem exec_powerWindow (watts : BitVec 16) (s : State) : exec (.powerWindow watts) s = execPowerWindow watts s := rfl
@[simp] theorem exec_eIdleEntry (e : Fin 8) (s : State) : exec (.eIdleEntry e) s = execEIdleEntry e s := rfl
@[simp] theorem exec_powerUpGrant (s : State) : exec (.powerUpGrant) s = execPowerUpGrant s := rfl
@[simp] theorem exec_dIdleExit (s : State) : exec (.dIdleExit) s = execDIdleExit s := rfl
@[simp] theorem exec_perfProgram (pair : BitVec 16) (s : State) : exec (.perfProgram pair) s = execPerfProgram pair s := rfl
@[simp] theorem exec_perfClear (pair : BitVec 16) (s : State) : exec (.perfClear pair) s = execPerfClear pair s := rfl
@[simp] theorem exec_perfFreeze (pair : BitVec 16) (s : State) : exec (.perfFreeze pair) s = execPerfFreeze pair s := rfl
@[simp] theorem exec_perfRun (pair : BitVec 16) (s : State) : exec (.perfRun pair) s = execPerfRun pair s := rfl
@[simp] theorem exec_perfSnapshot (pair : BitVec 16) (s : State) : exec (.perfSnapshot pair) s = execPerfSnapshot pair s := rfl
@[simp] theorem exec_pmcClr (src : BitVec 8) (unit : BitVec 8) (n : Fin 16) (v : Reg32) (s : State) : exec (.pmcClr src unit n v) s = execPmcClr src unit n v s := rfl
@[simp] theorem exec_pmcLoLatch (unit : BitVec 8) (n : Fin 16) (k : Fin 16) (s : State) : exec (.pmcLoLatch unit n k) s = execPmcLoLatch unit n k s := rfl
@[simp] theorem exec_loupeCfg (pair : BitVec 16) (s : State) : exec (.loupeCfg pair) s = execLoupeCfg pair s := rfl
@[simp] theorem exec_loupeRecord (e : Fin 8) (k : Fin 16) (issue : Word) (ready : Option Word) (start : Option Word) (commit : Option Word) (s : State) : exec (.loupeRecord e k issue ready start commit) s = execLoupeRecord e k issue ready start commit s := rfl
@[simp] theorem exec_tapReset (s : State) : exec (.tapReset) s = execTapReset s := rfl
@[simp] theorem exec_idcode (s : State) : exec (.idcode) s = execIdcode s := rfl
@[simp] theorem exec_samplePreload (balls : BitVec 412) (cells : BitVec 412) (s : State) : exec (.samplePreload balls cells) s = execSamplePreload balls cells s := rfl
@[simp] theorem exec_extest (balls : BitVec 412) (cells : BitVec 412) (s : State) : exec (.extest balls cells) s = execExtest balls cells s := rfl
@[simp] theorem exec_clamp (s : State) : exec (.clamp) s = execClamp s := rfl
@[simp] theorem exec_highz (s : State) : exec (.highz) s = execHighz s := rfl
@[simp] theorem exec_debug (s : State) : exec (.debug) s = execDebug s := rfl
@[simp] theorem exec_bypass (code : BitVec 8) (s : State) : exec (.bypass code) s = execBypass code s := rfl
@[simp] theorem exec_registerWrite (src : BitVec 8) (unit : BitVec 9) (off : BitVec 52) (v : Reg32) (s : State) : exec (.registerWrite src unit off v) s = execRegisterWrite src unit off v s := rfl
@[simp] theorem exec_jesdLinkAlign (s : State) : exec (.jesdLinkAlign) s = execJesdLinkAlign s := rfl
@[simp] theorem exec_transmitLinkLoss (s : State) : exec (.transmitLinkLoss) s = execTransmitLinkLoss s := rfl
@[simp] theorem exec_selfRefreshReturn (st : Fin 4) (s : State) : exec (.selfRefreshReturn st) s = execSelfRefreshReturn st s := rfl
@[simp] theorem exec_busMasterEnable (s : State) : exec (.busMasterEnable) s = execBusMasterEnable s := rfl
@[simp] theorem exec_todReceive (sentence : List Byte) (s : State) : exec (.todReceive sentence) s = execTodReceive sentence s := rfl
@[simp] theorem exec_ptpEgress (port : Fin 16) (frame : List Byte) (t : BitVec 96) (s : State) : exec (.ptpEgress port frame t) s = execPtpEgress port frame t s := rfl
@[simp] theorem exec_counterOverflow (unit : BitVec 8) (n : Fin 16) (k : Fin 16) (s : State) : exec (.counterOverflow unit n k) s = execCounterOverflow unit n k s := rfl
@[simp] theorem exec_facetShareWindow (s : State) : exec (.facetShareWindow) s = execFacetShareWindow s := rfl
@[simp] theorem exec_replayRecord (s : State) : exec (.replayRecord) s = execReplayRecord s := rfl

end Sys2Proof.Machine
end

