-- ==== Sys2Proof/Laws/Keep.lean ====
section
/-! SUPPORT. What every operation and every command keeps, whatever it does: the commands that wait, the fuses
(grade, suffix, unit map and serial number stay, the anti-rollback counter never falls), and the canonical form of the
memories, of the register file and of the code blocks. `Keep r s` says it of an earlier state `r` and a later `s`. -/
namespace Sys2Proof.Machine

/-- The fuses of `b` are those of `a`, but for an anti-rollback counter that may have risen and straps sampled again. -/
structure Fuse.Later (a b : Fuse) : Prop where
  gradeA : b.gradeA = a.gradeA
  xSuffix : b.xSuffix = a.xSuffix
  dismap : b.dismap = a.dismap
  serial : b.serial = a.serial
  svn : a.svn ≤ b.svn

theorem Fuse.Later.rfl' (a : Fuse) : Fuse.Later a a := ⟨rfl, rfl, rfl, rfl, Nat.le_refl _⟩

/-- From `r` to `s`: the queue of waiting commands is the same, the fuses are later ones, and the canonical form is kept. -/
structure Keep (r s : State) : Prop where
  pending : s.pending = r.pending
  fuse : Fuse.Later r.fuse s.fuse
  mem : r.canonical = true → Sparse.wf memZero s.mem = true
  host : r.canonical = true → Sparse.wf memZero s.host = true
  regs : r.canonical = true → Sparse.wf regReset s.regs = true
  ecc : r.canonical = true → Sparse.wf eccClean s.ecc = true

/-- A meaning's answer is a next state, and it is kept. -/
def KeepO (r : State) (o : Out) : Prop := ∃ t, o = .next t ∧ Keep r t

theorem keepO_next {r t : State} (h : Keep r t) : KeepO r (.next t) := ⟨t, rfl, h⟩

theorem Keep.rfl' (s : State) : Keep s s := by
  refine ⟨rfl, Fuse.Later.rfl' _, ?_, ?_, ?_, ?_⟩ <;>
    (intro h; simp only [State.canonical, Memory.wf, Bool.and_eq_true] at h; simp [h])

theorem Keep.canonical {r s : State} (h : Keep r s) (hr : r.canonical = true) : s.canonical = true := by
  simp [State.canonical, Memory.wf, h.mem hr, h.host hr, h.regs hr, h.ecc hr]

theorem keep_fst {r : State} {β : Type} {p : State × β} {t : State} {b : β} (e : p = (t, b)) (h : Keep r p.1) : Keep r t := by
  subst e; exact h

theorem keep_snd {r : State} {β : Type} {p : β × State} {t : State} {b : β} (e : p = (b, t)) (h : Keep r p.2) : Keep r t := by
  subst e; exact h

theorem keep_foldl {r : State} {β : Type} {f : State → β → State} {l : List β} {s : State}
    (hf : ∀ t x, Keep r t → Keep r (f t x)) (hs : Keep r s) : Keep r (l.foldl f s) := by
  induction l generalizing s with
  | nil => exact hs
  | cons x l ih => exact ih (hf s x hs)

theorem keep_foldl_fst {r : State} {β γ : Type} {f : State × γ → β → State × γ} {l : List β} {s : State × γ}
    (hf : ∀ t x, Keep r t.1 → Keep r (f t x).1) (hs : Keep r s.1) : Keep r (l.foldl f s).1 := by
  induction l generalizing s with
  | nil => exact hs
  | cons x l ih => exact ih (hf s x hs)

/-- The state that an answer may carry is kept. -/
structure KeepOpt (r : State) (o : Option State) : Prop where
  of : ∀ t, o = some t → Keep r t

theorem keepOpt_some {r s : State} (h : Keep r s) : KeepOpt r (some s) := ⟨fun _ e => by cases e; exact h⟩

theorem keepOpt_none {r : State} : KeepOpt r none := ⟨fun _ e => by cases e⟩

theorem keep_of_some {r t : State} {o : Option State} (e : o = some t) (h : KeepOpt r o) : Keep r t := h.of t e

theorem keepOpt_bind {r : State} {o : Option State} {f : State → Option State} (h : KeepOpt r o)
    (hf : ∀ t, Keep r t → KeepOpt r (f t)) : KeepOpt r (o.bind f) := by
  cases o with
  | none => exact keepOpt_none
  | some t => exact hf t (h.of t rfl)

theorem keepOpt_map {r : State} {α : Type} {o : Option α} {f : α → State} (hf : ∀ x, Keep r (f x)) : KeepOpt r (o.map f) := by
  cases o with
  | none => exact keepOpt_none
  | some t => exact keepOpt_some (hf t)

theorem keepOpt_bindA {r : State} {α : Type} {o : Option α} {f : α → Option State} (hf : ∀ x, KeepOpt r (f x)) :
    KeepOpt r (o.bind f) := by
  cases o with
  | none => exact keepOpt_none
  | some t => exact hf t

theorem keep_getD {r : State} {o : Option State} {s : State} (ho : KeepOpt r o) (hs : Keep r s) :
    Keep r (o.getD s) := by
  cases o with
  | none => exact hs
  | some t => exact ho.of t rfl

theorem keep_regs {r s : State} (h : Keep r s) (m : List (Nat × Reg32))
    (hm : Sparse.wf regReset s.regs = true → Sparse.wf regReset m = true) : Keep r { s with regs := m } :=
  ⟨h.pending, h.fuse, h.mem, h.host, fun x => hm (h.regs x), h.ecc⟩

theorem keep_mem {r s : State} (h : Keep r s) (m : List (Nat × Byte))
    (hm : Sparse.wf memZero s.mem = true → Sparse.wf memZero m = true) : Keep r { s with mem := m } :=
  ⟨h.pending, h.fuse, fun x => hm (h.mem x), h.host, h.regs, h.ecc⟩

theorem keep_host {r s : State} (h : Keep r s) (m : List (Nat × Byte))
    (hm : Sparse.wf memZero s.host = true → Sparse.wf memZero m = true) : Keep r { s with host := m } :=
  ⟨h.pending, h.fuse, h.mem, fun x => hm (h.host x), h.regs, h.ecc⟩

theorem keep_ecc {r s : State} (h : Keep r s) (m : List (Nat × Ecc))
    (hm : Sparse.wf eccClean s.ecc = true → Sparse.wf eccClean m = true) : Keep r { s with ecc := m } :=
  ⟨h.pending, h.fuse, h.mem, h.host, h.regs, fun x => hm (h.ecc x)⟩

theorem wf_putBytes (bs : List Byte) : ∀ (m : List (Nat × Byte)) (a : Nat), Sparse.wf memZero m = true →
    Sparse.wf memZero (putBytes m a bs) = true := by
  induction bs with
  | nil => exact fun _ _ h => h
  | cons b bs ih => exact fun m a h => ih _ _ (Sparse.wf_set memZero m a b h)

theorem keep_foldl_snd {r : State} {β γ : Type} {f : γ × State → β → γ × State} {l : List β} {s : γ × State}
    (hf : ∀ t x, Keep r t.2 → Keep r (f t x).2) (hs : Keep r s.2) : Keep r (l.foldl f s).2 := by
  induction l generalizing s with
  | nil => exact hs
  | cons x l ih => exact ih (hf s x hs)

theorem Fuse.Later.trans {a b c : Fuse} (h : Fuse.Later a b) (k : Fuse.Later b c) : Fuse.Later a c :=
  ⟨k.gradeA.trans h.gradeA, k.xSuffix.trans h.xSuffix, k.dismap.trans h.dismap, k.serial.trans h.serial, Nat.le_trans h.svn k.svn⟩

theorem keep_mk {r s : State} (h : Keep r s)
    {a1 : Nat} {a2 : Clock} {a7 : List Nat} {a8 : Fab} {a9 : Vector Engine 8} {a10 : List (Nat × Nat)} {a11 : List
    Carrier} {a12 : List RxSlot} {a13 : List UlSlot} {a14 : List DlSlot} {a15 : List (Nat × Nat)} {a16 : List Stage}
    {a17 : List ((Nat × Nat × Nat) × Nat)} {a18 : List Capture} {a19 : Shadow} {a20 : List Weights} {a21 : List
    Facet} {a22 : List (Nat × Nat)} {a24 : List (Nat × QueueDesc)} {a25 : List Cmd} {a26 : List Completion} {a27 :
    Nat} {a28 : Vector (Option Part) 8} {a29 : List Job} {a30 : List ((Nat × Nat) × KillInfo)} {a31 : Ledger} {a32 :
    Power} {a33 : Nat} {a34 : List Nat} {a35 : List Byte} {a36 : Mirror} {a37 : List (Nat × Nat)} {a38 : List (Nat ×
    Nat)} {a39 : UcieLink} {a40 : Front} {a41 : Brivel} {a42 : Modem} {a43 : Secure} {a44 : Jtag} :
    Keep r (State.mk s.pending a1 a2 s.mem s.host s.regs s.ecc a7 a8 a9 a10 a11 a12 a13 a14 a15 a16 a17 a18 a19 a20 a21 a22 s.fuse
      a24 a25 a26 a27 a28 a29 a30 a31 a32 a33 a34 a35 a36 a37 a38 a39 a40 a41 a42 a43 a44) :=
  ⟨h.pending, h.fuse, h.mem, h.host, h.regs, h.ecc⟩

end Sys2Proof.Machine
end

