-- ==== Sys2Proof/Laws/KeepOps.lean ====
section
/-! SUPPORT. What the operations and meanings of Machine/Ops keep (Laws/Keep). -/
namespace Sys2Proof.Machine

set_option linter.unusedTactic false
set_option linter.unreachableTactic false

theorem State.setReg_keep {r0 : State} (s : State) (a : Nat) (v : Reg32) (hs : Keep r0 s) :
    Keep r0 (State.setReg s a v) := by
  exact keep_regs hs _ (Sparse.wf_set regReset s.regs a v)

theorem State.setRegN_keep {r0 : State} (s : State) (a : Nat) (v : Nat) (hs : Keep r0 s) :
    Keep r0 (State.setRegN s a v) := by
  unfold State.setRegN; (repeat' (first
    | with_reducible assumption
    | intro _
    | with_reducible apply State.setReg_keep
    | dsimp only
    | with_reducible apply_assumption))

theorem State.setFld_keep {r0 : State} (s : State) (a hi lo v : Nat) (hs : Keep r0 s) :
    Keep r0 (State.setFld s a hi lo v) := by
  unfold State.setFld; (repeat' (first
    | with_reducible assumption
    | intro _
    | with_reducible apply State.setRegN_keep
    | dsimp only
    | with_reducible apply_assumption))

theorem State.countUp_keep {r0 : State} (s : State) (a n : Nat) (hs : Keep r0 s) :
    Keep r0 (State.countUp s a n) := by
  unfold State.countUp; (repeat' (first
    | with_reducible assumption
    | intro _
    | with_reducible apply State.setRegN_keep
    | dsimp only
    | with_reducible apply_assumption))

theorem State.setReg64_keep {r0 : State} (s : State) (a v : Nat) (hs : Keep r0 s) :
    Keep r0 (State.setReg64 s a v) := by
  unfold State.setReg64; (repeat' (first
    | with_reducible assumption
    | intro _
    | with_reducible apply State.setRegN_keep
    | dsimp only
    | with_reducible apply_assumption))

theorem State.addTok_keep {r0 : State} (s : State) (u k inc : Nat) (hs : Keep r0 s) :
    Keep r0 (State.addTok s u k inc) := by
  unfold State.addTok; (repeat' (first
    | with_reducible assumption
    | intro _
    | with_reducible apply State.setReg_keep
    | split
    | dsimp only
    | with_reducible apply_assumption))

theorem State.setEng_keep {r0 : State} (s : State) (e : Fin 8) (en : Engine) (hs : Keep r0 s) :
    Keep r0 (State.setEng s e en) := by
  unfold State.setEng; (repeat' (first
    | with_reducible assumption
    | intro _
    | fail_if_no_progress with_reducible apply keep_mk
    | dsimp only
    | with_reducible apply_assumption))

theorem State.modEng_keep {r0 : State} (s : State) (e : Fin 8) (f : Engine → Engine) (hs : Keep r0 s) :
    Keep r0 (State.modEng s e f) := by
  unfold State.modEng; (repeat' (first
    | with_reducible assumption
    | intro _
    | with_reducible apply State.setEng_keep
    | dsimp only
    | with_reducible apply_assumption))

theorem State.putByte_keep {r0 : State} (s : State) (a : Nat) (b : Byte) (hs : Keep r0 s) :
    Keep r0 (State.putByte s a b) := by
  exact keep_mem hs _ (Sparse.wf_set memZero s.mem a b)

theorem State.setEcc_keep {r0 : State} (s : State) (b : Nat) (e : Ecc) (hs : Keep r0 s) :
    Keep r0 (State.setEcc s b e) := by
  exact keep_ecc hs _ (Sparse.wf_set eccClean s.ecc b e)

theorem State.ledgerIssue_keep {r0 : State} (s : State) (type : Nat) (payload : List Byte) (hs : Keep r0 s) :
    Keep r0 (State.ledgerIssue s type payload) := by
  unfold State.ledgerIssue; (repeat' (first
    | with_reducible assumption
    | intro _
    | fail_if_no_progress with_reducible apply keep_mk
    | dsimp only
    | with_reducible apply_assumption))

theorem State.event_keep {r0 : State} (s : State) (status unit detail : Nat) (hs : Keep r0 s) :
    Keep r0 (State.event s status unit detail) := by
  unfold State.event; (repeat' (first
    | with_reducible assumption
    | intro _
    | with_reducible apply State.ledgerIssue_keep
    | dsimp only
    | with_reducible apply_assumption))

theorem State.recordUncorr_keep {r0 : State} (s : State) (b : Nat) (hs : Keep r0 s) :
    Keep r0 (State.recordUncorr s b) := by
  unfold State.recordUncorr; (repeat' (first
    | with_reducible assumption
    | intro _
    | with_reducible apply State.countUp_keep
    | with_reducible apply State.setFld_keep
    | with_reducible apply State.setReg64_keep
    | with_reducible apply State.event_keep
    | split
    | dsimp only
    | with_reducible apply_assumption))

theorem State.touch_keep {r0 : State} (s : State) (b : Nat) (hs : Keep r0 s) :
    Keep r0 (State.touch s b).1 := by
  unfold State.touch; (repeat' (first
    | with_reducible assumption
    | intro _
    | with_reducible apply State.recordUncorr_keep
    | with_reducible apply State.countUp_keep
    | fail_if_no_progress with_reducible apply keep_mk
    | with_reducible refine keep_fst ‹_ = (_, _)› ?_
    | with_reducible refine keep_of_some ‹_ = some _› ?_
    | with_reducible refine keep_snd ‹_ = (_, _)› ?_
    | split
    | dsimp only
    | with_reducible apply_assumption))

theorem State.touchAll_keep {r0 : State} (s : State) (l0 : List Nat) (hs : Keep r0 s) :
    Keep r0 (State.touchAll s l0).1 := by
  revert hs
  fun_induction State.touchAll s l0
  all_goals (intros; (repeat' (first
    | with_reducible assumption
    | intro _
    | with_reducible apply State.touch_keep
    | with_reducible refine keep_fst ‹_ = (_, _)› ?_
    | with_reducible refine keep_of_some ‹_ = some _› ?_
    | with_reducible refine keep_snd ‹_ = (_, _)› ?_
    | split
    | dsimp only
    | with_reducible apply_assumption)))

theorem State.check_keep {r0 : State} (s : State) (a n : Nat) (hs : Keep r0 s) :
    Keep r0 (State.check s a n).1 := by
  unfold State.check; (repeat' (first
    | with_reducible assumption
    | intro _
    | with_reducible apply State.touchAll_keep
    | split
    | dsimp only
    | with_reducible apply_assumption))

theorem State.read_keep {r0 : State} (s : State) (a n : Nat) (hs : Keep r0 s) :
    Keep r0 (State.read s a n).1 := by
  unfold State.read; (repeat' (first
    | with_reducible assumption
    | intro _
    | with_reducible apply State.check_keep
    | with_reducible refine keep_fst ‹_ = (_, _)› ?_
    | with_reducible refine keep_of_some ‹_ = some _› ?_
    | with_reducible refine keep_snd ‹_ = (_, _)› ?_
    | split
    | dsimp only
    | with_reducible apply_assumption))

theorem State.mend_keep {r0 : State} (s : State) (b : Nat) (hs : Keep r0 s) :
    Keep r0 (State.mend s b) := by
  unfold State.mend; (repeat' (first
    | with_reducible assumption
    | intro _
    | with_reducible apply State.putByte_keep
    | with_reducible apply State.setEcc_keep
    | fail_if_no_progress with_reducible apply keep_mk
    | with_reducible refine keep_fst ‹_ = (_, _)› ?_
    | with_reducible refine keep_of_some ‹_ = some _› ?_
    | with_reducible refine keep_snd ‹_ = (_, _)› ?_
    | split
    | dsimp only
    | with_reducible apply_assumption))

theorem State.mendAll_keep {r0 : State} (s : State) (l0 : List Nat) (hs : Keep r0 s) :
    Keep r0 (State.mendAll s l0) := by
  revert hs
  fun_induction State.mendAll s l0
  all_goals (intros; (repeat' (first
    | with_reducible assumption
    | intro _
    | with_reducible apply State.mend_keep
    | with_reducible refine keep_fst ‹_ = (_, _)› ?_
    | with_reducible refine keep_of_some ‹_ = some _› ?_
    | with_reducible refine keep_snd ‹_ = (_, _)› ?_
    | split
    | dsimp only
    | with_reducible apply_assumption)))

theorem State.inject_keep {r0 : State} (s : State) (b : Nat) (hs : Keep r0 s) :
    Keep r0 (State.inject s b) := by
  unfold State.inject; (repeat' (first
    | with_reducible assumption
    | intro _
    | with_reducible apply State.putByte_keep
    | with_reducible apply State.setEcc_keep
    | with_reducible apply State.setFld_keep
    | with_reducible refine keep_foldl ?_ ?_
    | with_reducible refine keep_foldl_fst ?_ ?_
    | with_reducible refine keep_foldl_snd ?_ ?_
    | dsimp only
    | with_reducible apply_assumption))

theorem State.write_keep {r0 : State} (s : State) (a : Nat) (bs : List Byte) (hs : Keep r0 s) :
    Keep r0 (State.write s a bs).1 := by
  unfold State.write; dsimp only
  split
  · exact hs
  · split
    · exact keep_fst ‹_ = (_, _)› (State.touchAll_keep _ _ hs)
    · have h1 := keep_fst ‹_ = (_, _)› (State.touchAll_keep _ _ hs)
      have h2 := State.mendAll_keep _ (s.dirtyBlocks a bs.length) h1
      have h3 := keep_mem h2 _ (wf_putBytes bs _ a)
      split
      · exact State.inject_keep _ _ h3
      · exact h3

theorem State.poke_keep {r0 : State} (s : State) (a : Nat) (bs : List Byte) (hs : Keep r0 s) :
    Keep r0 (State.poke s a bs) := by
  unfold State.poke; (repeat' (first
    | with_reducible assumption
    | intro _
    | with_reducible apply State.write_keep
    | dsimp only
    | with_reducible apply_assumption))

theorem State.undef_keep {r0 : State} (s : State) (a n : Nat) (hs : Keep r0 s) :
    Keep r0 (State.undef s a n) := by
  exact ⟨hs.pending, hs.fuse, fun x => wf_putBytes _ _ _ (hs.mem x), hs.host, hs.regs, hs.ecc⟩

theorem State.undefAll_keep {r0 : State} (s : State) (l0 : List (Nat × Nat)) (hs : Keep r0 s) :
    Keep r0 (State.undefAll s l0) := by
  revert hs
  fun_induction State.undefAll s l0
  all_goals (intros; (repeat' (first
    | with_reducible assumption
    | intro _
    | with_reducible apply State.undef_keep
    | with_reducible refine keep_fst ‹_ = (_, _)› ?_
    | with_reducible refine keep_of_some ‹_ = some _› ?_
    | with_reducible refine keep_snd ‹_ = (_, _)› ?_
    | split
    | dsimp only
    | with_reducible apply_assumption)))

theorem State.draw_keep {r0 : State} (s : State) (hs : Keep r0 s) :
    Keep r0 (State.draw s).2 := by
  unfold State.draw; (repeat' (first
    | with_reducible assumption
    | intro _
    | fail_if_no_progress with_reducible apply keep_mk
    | dsimp only
    | with_reducible apply_assumption))

theorem State.hostWrite_keep {r0 : State} (s : State) (a : Nat) (bs : List Byte) (hs : Keep r0 s) :
    Keep r0 (State.hostWrite s a bs) := by
  exact keep_host hs _ (wf_putBytes bs s.host a)

theorem State.modCmd_keep {r0 : State} (s : State) (id : Nat × Nat) (f : Cmd → Cmd) (hs : Keep r0 s) :
    Keep r0 (State.modCmd s id f) := by
  unfold State.modCmd; (repeat' (first
    | with_reducible assumption
    | intro _
    | fail_if_no_progress with_reducible apply keep_mk
    | split
    | dsimp only
    | with_reducible apply_assumption))

theorem State.abortUnits_keep {r0 : State} (s : State) (e : Fin 8) (hs : Keep r0 s) :
    Keep r0 (State.abortUnits s e) := by
  unfold State.abortUnits; (repeat' (first
    | with_reducible assumption
    | intro _
    | with_reducible apply State.undefAll_keep
    | with_reducible apply State.modEng_keep
    | fail_if_no_progress with_reducible apply keep_mk
    | dsimp only
    | with_reducible apply_assumption))

theorem State.killEng_keep {r0 : State} (s : State) (e : Fin 8) (k : KillInfo) (hs : Keep r0 s) :
    Keep r0 (State.killEng s e k) := by
  unfold State.killEng; (repeat' (first
    | with_reducible assumption
    | intro _
    | with_reducible apply State.abortUnits_keep
    | with_reducible apply State.setEng_keep
    | fail_if_no_progress with_reducible apply keep_mk
    | with_reducible refine keep_fst ‹_ = (_, _)› ?_
    | with_reducible refine keep_of_some ‹_ = some _› ?_
    | with_reducible refine keep_snd ‹_ = (_, _)› ?_
    | split
    | dsimp only
    | with_reducible apply_assumption))

theorem State.killCmdOn_keep {r0 : State} (s : State) (e : Fin 8) (k : KillInfo) (hs : Keep r0 s) :
    Keep r0 (State.killCmdOn s e k) := by
  unfold State.killCmdOn; (repeat' (first
    | with_reducible assumption
    | intro _
    | with_reducible apply State.killEng_keep
    | with_reducible refine keep_foldl ?_ ?_
    | with_reducible refine keep_foldl_fst ?_ ?_
    | with_reducible refine keep_foldl_snd ?_ ?_
    | with_reducible refine keep_fst ‹_ = (_, _)› ?_
    | with_reducible refine keep_of_some ‹_ = some _› ?_
    | with_reducible refine keep_snd ‹_ = (_, _)› ?_
    | split
    | dsimp only
    | with_reducible apply_assumption))

theorem State.trap_keep {r0 : State} (s : State) (e : Fin 8) (cause detail status : Nat) (hs : Keep r0 s) :
    Keep r0 (State.trap s e cause detail status) := by
  unfold State.trap; (repeat' (first
    | with_reducible assumption
    | intro _
    | with_reducible apply State.setRegN_keep
    | with_reducible apply State.abortUnits_keep
    | with_reducible apply State.setEng_keep
    | fail_if_no_progress with_reducible apply keep_mk
    | split
    | dsimp only
    | with_reducible apply_assumption))

theorem State.recordErr_keep {r0 : State} (s : State) (r : ErrItem) (hs : Keep r0 s) :
    Keep r0 (State.recordErr s r) := by
  unfold State.recordErr; (repeat' (first
    | with_reducible assumption
    | intro _
    | with_reducible apply State.setFld_keep
    | with_reducible apply State.setRegN_keep
    | with_reducible apply State.setReg64_keep
    | split
    | dsimp only
    | with_reducible apply_assumption))

end Sys2Proof.Machine
end

