-- ==== Sys2Proof/Laws/KeepLedgerOps.lean ====
section
/-! SUPPORT. What the operations and meanings of Machine/LedgerOps keep (Laws/Keep). -/
namespace Sys2Proof.Machine

set_option linter.unusedTactic false
set_option linter.unreachableTactic false

theorem State.ledgerCommit_keep {r0 : State} (s : State) (type : Nat) (payload : List Byte) (more : List (Nat × Nat) := []) (hs : Keep r0 s) :
    Keep r0 (State.ledgerCommit s type payload more) := by
  unfold State.ledgerCommit; (repeat' (first
    | with_reducible assumption
    | intro _
    | fail_if_no_progress with_reducible apply keep_mk
    | with_reducible apply keepO_next
    | split
    | dsimp only
    | with_reducible apply_assumption))

theorem State.finish_keep {r0 : State} (s : State) (id : Nat × Nat) (status detail value : Nat) (values : List Byte := []) (hs : Keep r0 s) :
    Keep r0 (State.finish s id status detail value values) := by
  unfold State.finish; (repeat' (first
    | with_reducible assumption
    | intro _
    | with_reducible apply State.ledgerCommit_keep
    | with_reducible apply State.modCmd_keep
    | fail_if_no_progress with_reducible apply keep_mk
    | with_reducible refine keep_fst ‹_ = (_, _)› ?_
    | with_reducible refine keep_of_some ‹_ = some _› ?_
    | with_reducible refine keep_snd ‹_ = (_, _)› ?_
    | split
    | dsimp only
    | with_reducible apply_assumption))

end Sys2Proof.Machine
end

