-- ==== Sys2Proof/Laws/KeepFacetOps.lean ====
section
/-! SUPPORT. What the operations and meanings of Machine/FacetOps keep (Laws/Keep). -/
namespace Sys2Proof.Machine

set_option linter.unusedTactic false
set_option linter.unreachableTactic false

theorem State.modFct_keep {r0 : State} (s : State) (f : Nat) (g : Facet → Facet) (hs : Keep r0 s) :
    Keep r0 (State.modFct s f g) := by
  unfold State.modFct; (repeat' (first
    | with_reducible assumption
    | intro _
    | fail_if_no_progress with_reducible apply keep_mk
    | dsimp only
    | with_reducible apply_assumption))

theorem State.fctUndef_keep {r0 : State} (s : State) (d : List Byte) (hs : Keep r0 s) :
    Keep r0 (State.fctUndef s d) := by
  unfold State.fctUndef; (repeat' (first
    | with_reducible assumption
    | intro _
    | with_reducible apply State.undefAll_keep
    | split
    | dsimp only
    | with_reducible apply_assumption))

theorem State.fctFlush_keep {r0 : State} (s : State) (f q : Nat) (hs : Keep r0 s) :
    Keep r0 (State.fctFlush s f q) := by
  unfold State.fctFlush; (repeat' (first
    | with_reducible assumption
    | intro _
    | with_reducible apply State.modFct_keep
    | with_reducible apply State.fctUndef_keep
    | fail_if_no_progress with_reducible apply keep_mk
    | with_reducible refine keep_fst ‹_ = (_, _)› ?_
    | with_reducible refine keep_of_some ‹_ = some _› ?_
    | with_reducible refine keep_snd ‹_ = (_, _)› ?_
    | split
    | dsimp only
    | with_reducible apply_assumption))

theorem State.fctFlushAll_keep {r0 : State} (s : State) (qs : List (Nat × Nat)) (hs : Keep r0 s) :
    Keep r0 (State.fctFlushAll s qs) := by
  unfold State.fctFlushAll; (repeat' (first
    | with_reducible assumption
    | intro _
    | with_reducible apply State.fctFlush_keep
    | with_reducible refine keep_foldl ?_ ?_
    | with_reducible refine keep_foldl_fst ?_ ?_
    | with_reducible refine keep_foldl_snd ?_ ?_
    | dsimp only
    | with_reducible apply_assumption))

end Sys2Proof.Machine
end

