-- ==== Sys2Proof/Laws/KeepJobOps.lean ====
section
/-! SUPPORT. What the operations and meanings of Machine/JobOps keep (Laws/Keep). -/
namespace Sys2Proof.Machine

set_option linter.unusedTactic false
set_option linter.unreachableTactic false

theorem State.takeErr_keep {r0 : State} (s : State) (u : Nat) (l0 : List (Nat × Nat × List Nat)) (hs : Keep r0 s) :
    Keep r0 (State.takeErr s u l0).2 := by
  revert hs
  fun_induction State.takeErr s u l0
  all_goals (intros; (repeat' (first
    | with_reducible assumption
    | intro _
    | with_reducible apply State.setFld_keep
    | with_reducible refine keep_fst ‹_ = (_, _)› ?_
    | with_reducible refine keep_of_some ‹_ = some _› ?_
    | with_reducible refine keep_snd ‹_ = (_, _)› ?_
    | split
    | dsimp only
    | with_reducible apply_assumption)))

theorem State.errorLog_keep {r0 : State} (s : State) (hs : Keep r0 s) :
    Keep r0 (State.errorLog s) := by
  unfold State.errorLog; (repeat' (first
    | with_reducible assumption
    | intro _
    | with_reducible apply State.takeErr_keep
    | with_reducible apply State.ledgerIssue_keep
    | with_reducible refine keep_foldl ?_ ?_
    | with_reducible refine keep_foldl_fst ?_ ?_
    | with_reducible refine keep_foldl_snd ?_ ?_
    | split
    | dsimp only
    | with_reducible apply_assumption))

theorem State.killRecord_keep {r0 : State} (s : State) (id : Nat × Nat) (cause reruns : Nat) (hs : Keep r0 s) :
    Keep r0 (State.killRecord s id cause reruns) := by
  unfold State.killRecord; (repeat' (first
    | with_reducible assumption
    | intro _
    | with_reducible apply State.ledgerCommit_keep
    | split
    | dsimp only
    | with_reducible apply_assumption))

theorem State.swapOut_keep {r0 : State} (s : State) (id : Nat × Nat) (counted : Nat) (hs : Keep r0 s) :
    Keep r0 (State.swapOut s id counted) := by
  unfold State.swapOut; (repeat' (first
    | with_reducible assumption
    | intro _
    | with_reducible apply State.modCmd_keep
    | fail_if_no_progress with_reducible apply keep_mk
    | dsimp only
    | with_reducible apply_assumption))

theorem State.settle_keep {r0 : State} (s : State) (id : Nat × Nat) (k : KillInfo) (hs : Keep r0 s) :
    Keep r0 (State.settle s id k) := by
  unfold State.settle; (repeat' (first
    | with_reducible assumption
    | intro _
    | with_reducible apply State.modEng_keep
    | with_reducible apply State.fctFlushAll_keep
    | with_reducible apply State.errorLog_keep
    | with_reducible apply State.finish_keep
    | with_reducible apply State.swapOut_keep
    | with_reducible apply State.killRecord_keep
    | with_reducible apply State.preempt_keep
    | fail_if_no_progress with_reducible apply keep_mk
    | with_reducible refine keep_foldl ?_ ?_
    | with_reducible refine keep_foldl_fst ?_ ?_
    | with_reducible refine keep_foldl_snd ?_ ?_
    | with_reducible refine keep_fst ‹_ = (_, _)› ?_
    | with_reducible refine keep_of_some ‹_ = some _› ?_
    | with_reducible refine keep_snd ‹_ = (_, _)› ?_
    | split
    | dsimp only
    | with_reducible apply_assumption))

theorem State.settleIf_keep {r0 : State} (s : State) (e : Fin 8) (hs : Keep r0 s) :
    Keep r0 (State.settleIf s e) := by
  unfold State.settleIf; (repeat' (first
    | with_reducible assumption
    | intro _
    | with_reducible apply State.settle_keep
    | with_reducible refine keep_fst ‹_ = (_, _)› ?_
    | with_reducible refine keep_of_some ‹_ = some _› ?_
    | with_reducible refine keep_snd ‹_ = (_, _)› ?_
    | split
    | dsimp only
    | with_reducible apply_assumption))

theorem State.trapCmd_keep {r0 : State} (s : State) (e : Fin 8) (cause detail status : Nat) (hs : Keep r0 s) :
    Keep r0 (State.trapCmd s e cause detail status) := by
  unfold State.trapCmd; (repeat' (first
    | with_reducible assumption
    | intro _
    | with_reducible apply State.trap_keep
    | with_reducible apply State.killEng_keep
    | with_reducible refine keep_foldl ?_ ?_
    | with_reducible refine keep_foldl_fst ?_ ?_
    | with_reducible refine keep_foldl_snd ?_ ?_
    | with_reducible refine keep_fst ‹_ = (_, _)› ?_
    | with_reducible refine keep_of_some ‹_ = some _› ?_
    | with_reducible refine keep_snd ‹_ = (_, _)› ?_
    | split
    | dsimp only
    | with_reducible apply_assumption))

theorem State.faultKill_keep {r0 : State} (s : State) (e : Fin 8) (status detail : Nat) (hs : Keep r0 s) :
    Keep r0 (State.faultKill s e status detail) := by
  unfold State.faultKill; (repeat' (first
    | with_reducible assumption
    | intro _
    | with_reducible apply State.killCmdOn_keep
    | dsimp only
    | with_reducible apply_assumption))

theorem State.dynChoice_keep {r0 : State} (s : State) (p : Option (Fin 8)) (hs : Keep r0 s) :
    Keep r0 (State.dynChoice s p) := by
  unfold State.dynChoice; (repeat' (first
    | with_reducible assumption
    | intro _
    | with_reducible apply State.setReg64_keep
    | with_reducible refine keep_fst ‹_ = (_, _)› ?_
    | with_reducible refine keep_of_some ‹_ = some _› ?_
    | with_reducible refine keep_snd ‹_ = (_, _)› ?_
    | split
    | dsimp only
    | with_reducible apply_assumption))

end Sys2Proof.Machine
end

