-- ==== Sys2Proof/Laws/KeepQuant.lean ====
section
/-! SUPPORT. What the operations and meanings of Machine/Quant keep (Laws/Keep). -/
namespace Sys2Proof.Machine

set_option linter.unusedTactic false
set_option linter.unreachableTactic false

theorem State.recordSkew_keep {r0 : State} (s : State) (e : Fin 8) (source pair index expected found : Nat) (hs : Keep r0 s) :
    Keep r0 (State.recordSkew s e source pair index expected found) := by
  unfold State.recordSkew; (repeat' (first
    | with_reducible assumption
    | intro _
    | with_reducible apply State.setRegN_keep
    | split
    | dsimp only
    | with_reducible apply_assumption))

theorem State.qntCount_keep {r0 : State} (s : State) (e : Fin 8) (k n : Nat) (hs : Keep r0 s) :
    Keep r0 (State.qntCount s e k n) := by
  unfold State.qntCount; (repeat' (first
    | with_reducible assumption
    | intro _
    | with_reducible apply State.countUp_keep
    | split
    | dsimp only
    | with_reducible apply_assumption))

end Sys2Proof.Machine
end

