-- ==== Sys2Proof/Laws/KeepFlags.lean ====
section
/-! SUPPORT. What the operations and meanings of Machine/Flags keep (Laws/Keep). -/
namespace Sys2Proof.Machine

set_option linter.unusedTactic false
set_option linter.unreachableTactic false

theorem State.setSummary_keep {r0 : State} (s : State) (e : Fin 8) (k : Nat) (m : Summary) (hs : Keep r0 s) :
    Keep r0 (State.setSummary s e k m) := by
  unfold State.setSummary; (repeat' (first
    | with_reducible assumption
    | intro _
    | with_reducible apply State.setRegN_keep
    | dsimp only
    | with_reducible apply_assumption))

end Sys2Proof.Machine
end

