-- ==== Sys2Proof/Laws/KeepScalar.lean ====
section
/-! SUPPORT. What the operations and meanings of Machine/Scalar keep (Laws/Keep). -/
namespace Sys2Proof.Machine

set_option linter.unusedTactic false
set_option linter.unreachableTactic false

theorem State.tagInstr_keep {r0 : State} (s : State) (e : Fin 8) (code : Nat) (hs : Keep r0 s) :
    Keep r0 (State.tagInstr s e code) := by
  unfold State.tagInstr; (repeat' (first
    | with_reducible assumption
    | intro _
    | with_reducible apply State.modEng_keep
    | with_reducible apply State.countUp_keep
    | fail_if_no_progress with_reducible apply keep_mk
    | with_reducible apply keep_getD
    | split
    | dsimp only
    | with_reducible apply_assumption))

theorem onSeq_keep {r0 : State} (code : Nat) (s : State) (e : Fin 8) (legal : Bool) (k : State → State) (hs : Keep r0 s) (hk : ∀ t, Keep r0 t → Keep r0 (k t)) :
    KeepO r0 (onSeq code s e legal k) := by
  unfold onSeq; (repeat' (first
    | with_reducible assumption
    | intro _
    | with_reducible apply State.trapCmd_keep
    | with_reducible apply State.check_keep
    | with_reducible apply State.tagInstr_keep
    | with_reducible apply keepO_next
    | with_reducible refine keep_fst ‹_ = (_, _)› ?_
    | with_reducible refine keep_of_some ‹_ = some _› ?_
    | with_reducible refine keep_snd ‹_ = (_, _)› ?_
    | split
    | dsimp only
    | with_reducible apply_assumption))

theorem State.seqNext_keep {r0 : State} (s : State) (e : Fin 8) (hs : Keep r0 s) :
    Keep r0 (State.seqNext s e) := by
  unfold State.seqNext; (repeat' (first
    | with_reducible assumption
    | intro _
    | with_reducible apply State.modEng_keep
    | fail_if_no_progress with_reducible apply keep_mk
    | dsimp only
    | with_reducible apply_assumption))

theorem State.seqWrite_keep {r0 : State} (s : State) (e : Fin 8) (xd : BitVec 5) (v : Word) (hs : Keep r0 s) :
    Keep r0 (State.seqWrite s e xd v) := by
  unfold State.seqWrite; (repeat' (first
    | with_reducible assumption
    | intro _
    | with_reducible apply State.modEng_keep
    | fail_if_no_progress with_reducible apply keep_mk
    | dsimp only
    | with_reducible apply_assumption))

theorem State.seqBranch_keep {r0 : State} (s : State) (e : Fin 8) (taken : Bool) (d : Word) (hs : Keep r0 s) :
    Keep r0 (State.seqBranch s e taken d) := by
  unfold State.seqBranch; (repeat' (first
    | with_reducible assumption
    | intro _
    | with_reducible apply State.modEng_keep
    | fail_if_no_progress with_reducible apply keep_mk
    | split
    | dsimp only
    | with_reducible apply_assumption))

theorem scalarOp_keep {r0 : State} (op : Nat) (e : Fin 8) (f : ScalarF) (g : Engine → Word) (s : State) (hs : Keep r0 s) :
    KeepO r0 (scalarOp op e f g s) := by
  unfold scalarOp; (repeat' (first
    | with_reducible assumption
    | intro _
    | with_reducible apply onSeq_keep
    | with_reducible apply State.seqWrite_keep
    | dsimp only
    | with_reducible apply_assumption))

theorem scalarBr_keep {r0 : State} (op : Nat) (e : Fin 8) (f : ScalarF) (c : Engine → Bool) (s : State) (hs : Keep r0 s) :
    KeepO r0 (scalarBr op e f c s) := by
  unfold scalarBr; (repeat' (first
    | with_reducible assumption
    | intro _
    | with_reducible apply onSeq_keep
    | with_reducible apply State.seqBranch_keep
    | dsimp only
    | with_reducible apply_assumption))

theorem execScAdd_keep {r0 : State} (e : Fin 8) (f : ScalarF) (s : State) (hs : Keep r0 s) :
    KeepO r0 (execScAdd e f s) := by
  unfold execScAdd; (repeat' (first
    | with_reducible assumption
    | intro _
    | with_reducible apply scalarOp_keep
    | dsimp only
    | with_reducible apply_assumption))

theorem execScSub_keep {r0 : State} (e : Fin 8) (f : ScalarF) (s : State) (hs : Keep r0 s) :
    KeepO r0 (execScSub e f s) := by
  unfold execScSub; (repeat' (first
    | with_reducible assumption
    | intro _
    | with_reducible apply scalarOp_keep
    | dsimp only
    | with_reducible apply_assumption))

theorem execScAnd_keep {r0 : State} (e : Fin 8) (f : ScalarF) (s : State) (hs : Keep r0 s) :
    KeepO r0 (execScAnd e f s) := by
  unfold execScAnd; (repeat' (first
    | with_reducible assumption
    | intro _
    | with_reducible apply scalarOp_keep
    | dsimp only
    | with_reducible apply_assumption))

theorem execScOr_keep {r0 : State} (e : Fin 8) (f : ScalarF) (s : State) (hs : Keep r0 s) :
    KeepO r0 (execScOr e f s) := by
  unfold execScOr; (repeat' (first
    | with_reducible assumption
    | intro _
    | with_reducible apply scalarOp_keep
    | dsimp only
    | with_reducible apply_assumption))

theorem execScXor_keep {r0 : State} (e : Fin 8) (f : ScalarF) (s : State) (hs : Keep r0 s) :
    KeepO r0 (execScXor e f s) := by
  unfold execScXor; (repeat' (first
    | with_reducible assumption
    | intro _
    | with_reducible apply scalarOp_keep
    | dsimp only
    | with_reducible apply_assumption))

theorem execScShl_keep {r0 : State} (e : Fin 8) (f : ScalarF) (s : State) (hs : Keep r0 s) :
    KeepO r0 (execScShl e f s) := by
  unfold execScShl; (repeat' (first
    | with_reducible assumption
    | intro _
    | with_reducible apply scalarOp_keep
    | dsimp only
    | with_reducible apply_assumption))

theorem execScShr_keep {r0 : State} (e : Fin 8) (f : ScalarF) (s : State) (hs : Keep r0 s) :
    KeepO r0 (execScShr e f s) := by
  unfold execScShr; (repeat' (first
    | with_reducible assumption
    | intro _
    | with_reducible apply scalarOp_keep
    | dsimp only
    | with_reducible apply_assumption))

theorem execScSra_keep {r0 : State} (e : Fin 8) (f : ScalarF) (s : State) (hs : Keep r0 s) :
    KeepO r0 (execScSra e f s) := by
  unfold execScSra; (repeat' (first
    | with_reducible assumption
    | intro _
    | with_reducible apply scalarOp_keep
    | dsimp only
    | with_reducible apply_assumption))

theorem execScMul_keep {r0 : State} (e : Fin 8) (f : ScalarF) (s : State) (hs : Keep r0 s) :
    KeepO r0 (execScMul e f s) := by
  unfold execScMul; (repeat' (first
    | with_reducible assumption
    | intro _
    | with_reducible apply scalarOp_keep
    | dsimp only
    | with_reducible apply_assumption))

theorem execScMovhi_keep {r0 : State} (e : Fin 8) (f : ScalarF) (s : State) (hs : Keep r0 s) :
    KeepO r0 (execScMovhi e f s) := by
  unfold execScMovhi; (repeat' (first
    | with_reducible assumption
    | intro _
    | with_reducible apply scalarOp_keep
    | dsimp only
    | with_reducible apply_assumption))

theorem execScSlt_keep {r0 : State} (e : Fin 8) (f : ScalarF) (s : State) (hs : Keep r0 s) :
    KeepO r0 (execScSlt e f s) := by
  unfold execScSlt; (repeat' (first
    | with_reducible assumption
    | intro _
    | with_reducible apply scalarOp_keep
    | split
    | dsimp only
    | with_reducible apply_assumption))

theorem execScSltu_keep {r0 : State} (e : Fin 8) (f : ScalarF) (s : State) (hs : Keep r0 s) :
    KeepO r0 (execScSltu e f s) := by
  unfold execScSltu; (repeat' (first
    | with_reducible assumption
    | intro _
    | with_reducible apply scalarOp_keep
    | split
    | dsimp only
    | with_reducible apply_assumption))

theorem execScSeq_keep {r0 : State} (e : Fin 8) (f : ScalarF) (s : State) (hs : Keep r0 s) :
    KeepO r0 (execScSeq e f s) := by
  unfold execScSeq; (repeat' (first
    | with_reducible assumption
    | intro _
    | with_reducible apply scalarOp_keep
    | split
    | dsimp only
    | with_reducible apply_assumption))

theorem execScLd_keep {r0 : State} (e : Fin 8) (f : ScalarF) (s : State) (hs : Keep r0 s) :
    KeepO r0 (execScLd e f s) := by
  unfold execScLd; (repeat' (first
    | with_reducible assumption
    | intro _
    | with_reducible apply onSeq_keep
    | with_reducible apply State.read_keep
    | with_reducible apply State.seqWrite_keep
    | with_reducible apply State.trapCmd_keep
    | with_reducible refine keep_fst ‹_ = (_, _)› ?_
    | with_reducible refine keep_of_some ‹_ = some _› ?_
    | with_reducible refine keep_snd ‹_ = (_, _)› ?_
    | split
    | dsimp only
    | with_reducible apply_assumption))

theorem execScSt_keep {r0 : State} (e : Fin 8) (f : ScalarF) (s : State) (hs : Keep r0 s) :
    KeepO r0 (execScSt e f s) := by
  unfold execScSt; (repeat' (first
    | with_reducible assumption
    | intro _
    | with_reducible apply onSeq_keep
    | with_reducible apply State.write_keep
    | with_reducible apply State.seqNext_keep
    | with_reducible apply State.trapCmd_keep
    | with_reducible apply State.setReg_keep
    | with_reducible refine keep_fst ‹_ = (_, _)› ?_
    | with_reducible refine keep_of_some ‹_ = some _› ?_
    | with_reducible refine keep_snd ‹_ = (_, _)› ?_
    | split
    | dsimp only
    | with_reducible apply_assumption))

theorem execScB_keep {r0 : State} (e : Fin 8) (f : ScalarF) (s : State) (hs : Keep r0 s) :
    KeepO r0 (execScB e f s) := by
  unfold execScB; (repeat' (first
    | with_reducible assumption
    | intro _
    | with_reducible apply scalarBr_keep
    | dsimp only
    | with_reducible apply_assumption))

theorem execScBeq_keep {r0 : State} (e : Fin 8) (f : ScalarF) (s : State) (hs : Keep r0 s) :
    KeepO r0 (execScBeq e f s) := by
  unfold execScBeq; (repeat' (first
    | with_reducible assumption
    | intro _
    | with_reducible apply scalarBr_keep
    | dsimp only
    | with_reducible apply_assumption))

theorem execScBne_keep {r0 : State} (e : Fin 8) (f : ScalarF) (s : State) (hs : Keep r0 s) :
    KeepO r0 (execScBne e f s) := by
  unfold execScBne; (repeat' (first
    | with_reducible assumption
    | intro _
    | with_reducible apply scalarBr_keep
    | dsimp only
    | with_reducible apply_assumption))

theorem execScBlt_keep {r0 : State} (e : Fin 8) (f : ScalarF) (s : State) (hs : Keep r0 s) :
    KeepO r0 (execScBlt e f s) := by
  unfold execScBlt; (repeat' (first
    | with_reducible assumption
    | intro _
    | with_reducible apply scalarBr_keep
    | dsimp only
    | with_reducible apply_assumption))

theorem execScBge_keep {r0 : State} (e : Fin 8) (f : ScalarF) (s : State) (hs : Keep r0 s) :
    KeepO r0 (execScBge e f s) := by
  unfold execScBge; (repeat' (first
    | with_reducible assumption
    | intro _
    | with_reducible apply scalarBr_keep
    | dsimp only
    | with_reducible apply_assumption))

theorem execScMovsum_keep {r0 : State} (e : Fin 8) (f : ScalarF) (s : State) (hs : Keep r0 s) :
    KeepO r0 (execScMovsum e f s) := by
  unfold execScMovsum; (repeat' (first
    | with_reducible assumption
    | intro _
    | with_reducible apply scalarOp_keep
    | split
    | dsimp only
    | with_reducible apply_assumption))

theorem execScBsum_keep {r0 : State} (e : Fin 8) (f : ScalarF) (s : State) (hs : Keep r0 s) :
    KeepO r0 (execScBsum e f s) := by
  unfold execScBsum; (repeat' (first
    | with_reducible assumption
    | intro _
    | with_reducible apply onSeq_keep
    | with_reducible apply State.seqBranch_keep
    | dsimp only
    | with_reducible apply_assumption))

end Sys2Proof.Machine
end

