-- ==== Sys2Proof/Laws/KeepSequencer.lean ====
section
/-! SUPPORT. What the operations and meanings of Machine/Sequencer keep (Laws/Keep). -/
namespace Sys2Proof.Machine

set_option linter.unusedTactic false
set_option linter.unreachableTactic false

theorem State.seqWait_keep {r0 : State} (s : State) (e : Fin 8) (w : Wait) (hs : Keep r0 s) :
    Keep r0 (State.seqWait s e w) := by
  unfold State.seqWait; (repeat' (first
    | with_reducible assumption
    | intro _
    | with_reducible apply State.modEng_keep
    | fail_if_no_progress with_reducible apply keep_mk
    | dsimp only
    | with_reducible apply_assumption))

theorem State.passAclk_keep {r0 : State} (s : State) (t : Nat) (hs : Keep r0 s) :
    Keep r0 (State.passAclk s t) := by
  unfold State.passAclk; (repeat' (first
    | with_reducible assumption
    | intro _
    | fail_if_no_progress with_reducible apply keep_mk
    | dsimp only
    | with_reducible apply_assumption))

theorem State.passNclk_keep {r0 : State} (s : State) (t : Nat) (hs : Keep r0 s) :
    Keep r0 (State.passNclk s t) := by
  unfold State.passNclk; (repeat' (first
    | with_reducible assumption
    | intro _
    | fail_if_no_progress with_reducible apply keep_mk
    | dsimp only
    | with_reducible apply_assumption))

theorem State.seqResume_keep {r0 : State} (s : State) (e : Fin 8) (hs : Keep r0 s) :
    Keep r0 (State.seqResume s e) := by
  unfold State.seqResume; (repeat' (first
    | with_reducible assumption
    | intro _
    | with_reducible apply State.setRegN_keep
    | with_reducible apply State.modEng_keep
    | fail_if_no_progress with_reducible apply keep_mk
    | dsimp only
    | with_reducible apply_assumption))

theorem State.issue_keep {r0 : State} (s : State) (e : Fin 8) (cls : BitVec 3) (f : IssueF) (hs : Keep r0 s) :
    Keep r0 (State.issue s e cls f) := by
  unfold State.issue; (repeat' (first
    | with_reducible assumption
    | intro _
    | with_reducible apply State.trapCmd_keep
    | with_reducible apply State.seqWait_keep
    | with_reducible apply State.read_keep
    | with_reducible apply State.modEng_keep
    | fail_if_no_progress with_reducible apply keep_mk
    | with_reducible apply keepO_next
    | with_reducible refine keep_fst ‹_ = (_, _)› ?_
    | with_reducible refine keep_of_some ‹_ = some _› ?_
    | with_reducible refine keep_snd ‹_ = (_, _)› ?_
    | split
    | dsimp only
    | with_reducible apply_assumption))

theorem execStreamIssue_keep {r0 : State} (e : Fin 8) (f : IssueF) (s : State) (hs : Keep r0 s) :
    KeepO r0 (execStreamIssue e f s) := by
  unfold execStreamIssue; (repeat' (first
    | with_reducible assumption
    | intro _
    | with_reducible apply onSeq_keep
    | with_reducible apply State.issue_keep
    | dsimp only
    | with_reducible apply_assumption))

theorem execArrayIssue_keep {r0 : State} (e : Fin 8) (f : IssueF) (s : State) (hs : Keep r0 s) :
    KeepO r0 (execArrayIssue e f s) := by
  unfold execArrayIssue; (repeat' (first
    | with_reducible assumption
    | intro _
    | with_reducible apply onSeq_keep
    | with_reducible apply State.issue_keep
    | dsimp only
    | with_reducible apply_assumption))

theorem execVectorIssue_keep {r0 : State} (e : Fin 8) (f : IssueF) (s : State) (hs : Keep r0 s) :
    KeepO r0 (execVectorIssue e f s) := by
  unfold execVectorIssue; (repeat' (first
    | with_reducible assumption
    | intro _
    | with_reducible apply onSeq_keep
    | with_reducible apply State.issue_keep
    | dsimp only
    | with_reducible apply_assumption))

theorem execSignalIssue_keep {r0 : State} (e : Fin 8) (f : IssueF) (s : State) (hs : Keep r0 s) :
    KeepO r0 (execSignalIssue e f s) := by
  unfold execSignalIssue; (repeat' (first
    | with_reducible assumption
    | intro _
    | with_reducible apply onSeq_keep
    | with_reducible apply State.issue_keep
    | dsimp only
    | with_reducible apply_assumption))

theorem execSyWait_keep {r0 : State} (e : Fin 8) (f : SyncF) (s : State) (hs : Keep r0 s) :
    KeepO r0 (execSyWait e f s) := by
  unfold execSyWait; (repeat' (first
    | with_reducible assumption
    | intro _
    | with_reducible apply onSeq_keep
    | with_reducible apply State.seqNext_keep
    | with_reducible apply State.seqWait_keep
    | split
    | dsimp only
    | with_reducible apply_assumption))

theorem State.waittEnd_keep {r0 : State} (s : State) (e : Fin 8) (xd : BitVec 5) (gaveUp : Bool) (hs : Keep r0 s) :
    Keep r0 (State.waittEnd s e xd gaveUp) := by
  unfold State.waittEnd; (repeat' (first
    | with_reducible assumption
    | intro _
    | with_reducible apply State.seqResume_keep
    | with_reducible apply State.seqWrite_keep
    | with_reducible apply State.dynChoice_keep
    | split
    | dsimp only
    | with_reducible apply_assumption))

theorem execSyWaitt_keep {r0 : State} (e : Fin 8) (f : SyncF) (s : State) (hs : Keep r0 s) :
    KeepO r0 (execSyWaitt e f s) := by
  unfold execSyWaitt; (repeat' (first
    | with_reducible assumption
    | intro _
    | with_reducible apply onSeq_keep
    | with_reducible apply State.seqWait_keep
    | with_reducible apply State.waittEnd_keep
    | split
    | dsimp only
    | with_reducible apply_assumption))

theorem execWaitSatisfied_keep {r0 : State} (e : Fin 8) (s : State) (hs : Keep r0 s) :
    KeepO r0 (execWaitSatisfied e s) := by
  unfold execWaitSatisfied; (repeat' (first
    | with_reducible assumption
    | intro _
    | with_reducible apply State.seqResume_keep
    | with_reducible apply State.seqNext_keep
    | with_reducible apply State.waittEnd_keep
    | with_reducible apply keepO_next
    | with_reducible refine keep_fst ‹_ = (_, _)› ?_
    | with_reducible refine keep_of_some ‹_ = some _› ?_
    | with_reducible refine keep_snd ‹_ = (_, _)› ?_
    | split
    | dsimp only
    | with_reducible apply_assumption))

theorem execWaittGiveUp_keep {r0 : State} (e : Fin 8) (s : State) (hs : Keep r0 s) :
    KeepO r0 (execWaittGiveUp e s) := by
  unfold execWaittGiveUp; (repeat' (first
    | with_reducible assumption
    | intro _
    | with_reducible apply State.waittEnd_keep
    | with_reducible apply State.passAclk_keep
    | with_reducible apply keepO_next
    | with_reducible refine keep_fst ‹_ = (_, _)› ?_
    | with_reducible refine keep_of_some ‹_ = some _› ?_
    | with_reducible refine keep_snd ‹_ = (_, _)› ?_
    | split
    | dsimp only
    | with_reducible apply_assumption))

theorem State.seqEnd_keep {r0 : State} (s : State) (e : Fin 8) (hs : Keep r0 s) :
    Keep r0 (State.seqEnd s e) := by
  unfold State.seqEnd; (repeat' (first
    | with_reducible assumption
    | intro _
    | with_reducible apply State.modEng_keep
    | fail_if_no_progress with_reducible apply keep_mk
    | dsimp only
    | with_reducible apply_assumption))

theorem execSyFence_keep {r0 : State} (e : Fin 8) (f : SyncF) (s : State) (hs : Keep r0 s) :
    KeepO r0 (execSyFence e f s) := by
  unfold execSyFence; (repeat' (first
    | with_reducible assumption
    | intro _
    | with_reducible apply onSeq_keep
    | with_reducible apply State.seqNext_keep
    | with_reducible apply State.seqWait_keep
    | split
    | dsimp only
    | with_reducible apply_assumption))

theorem execSyEnd_keep {r0 : State} (e : Fin 8) (f : SyncF) (s : State) (hs : Keep r0 s) :
    KeepO r0 (execSyEnd e f s) := by
  unfold execSyEnd; (repeat' (first
    | with_reducible assumption
    | intro _
    | with_reducible apply onSeq_keep
    | with_reducible apply State.seqEnd_keep
    | with_reducible apply State.seqWait_keep
    | split
    | dsimp only
    | with_reducible apply_assumption))

theorem execFenceRelease_keep {r0 : State} (e : Fin 8) (s : State) (hs : Keep r0 s) :
    KeepO r0 (execFenceRelease e s) := by
  unfold execFenceRelease; (repeat' (first
    | with_reducible assumption
    | intro _
    | with_reducible apply State.seqResume_keep
    | with_reducible apply State.seqNext_keep
    | with_reducible apply State.seqEnd_keep
    | with_reducible apply keepO_next
    | with_reducible refine keep_fst ‹_ = (_, _)› ?_
    | with_reducible refine keep_of_some ‹_ = some _› ?_
    | with_reducible refine keep_snd ‹_ = (_, _)› ?_
    | split
    | dsimp only
    | with_reducible apply_assumption))

theorem execSySig_keep {r0 : State} (e : Fin 8) (f : SyncF) (s : State) (hs : Keep r0 s) :
    KeepO r0 (execSySig e f s) := by
  unfold execSySig; (repeat' (first
    | with_reducible assumption
    | intro _
    | with_reducible apply onSeq_keep
    | with_reducible apply State.seqNext_keep
    | fail_if_no_progress with_reducible apply keep_mk
    | dsimp only
    | with_reducible apply_assumption))

theorem State.takeDb_keep {r0 : State} (s : State) (e : Fin 8) (xd : BitVec 5) (hs : Keep r0 s) :
    Keep r0 (State.takeDb s e xd) := by
  unfold State.takeDb; (repeat' (first
    | with_reducible assumption
    | intro _
    | with_reducible apply State.setReg_keep
    | with_reducible apply State.seqWrite_keep
    | dsimp only
    | with_reducible apply_assumption))

theorem execSyWaitdb_keep {r0 : State} (e : Fin 8) (f : SyncF) (s : State) (hs : Keep r0 s) :
    KeepO r0 (execSyWaitdb e f s) := by
  unfold execSyWaitdb; (repeat' (first
    | with_reducible assumption
    | intro _
    | with_reducible apply onSeq_keep
    | with_reducible apply State.seqWait_keep
    | with_reducible apply State.takeDb_keep
    | split
    | dsimp only
    | with_reducible apply_assumption))

theorem execWaitdbWake_keep {r0 : State} (e : Fin 8) (s : State) (hs : Keep r0 s) :
    KeepO r0 (execWaitdbWake e s) := by
  unfold execWaitdbWake; (repeat' (first
    | with_reducible assumption
    | intro _
    | with_reducible apply State.seqResume_keep
    | with_reducible apply State.takeDb_keep
    | with_reducible apply keepO_next
    | with_reducible refine keep_fst ‹_ = (_, _)› ?_
    | with_reducible refine keep_of_some ‹_ = some _› ?_
    | with_reducible refine keep_snd ‹_ = (_, _)› ?_
    | split
    | dsimp only
    | with_reducible apply_assumption))

theorem execSyNop_keep {r0 : State} (e : Fin 8) (f : SyncF) (s : State) (hs : Keep r0 s) :
    KeepO r0 (execSyNop e f s) := by
  unfold execSyNop; (repeat' (first
    | with_reducible assumption
    | intro _
    | with_reducible apply onSeq_keep
    | with_reducible apply State.seqNext_keep
    | dsimp only
    | with_reducible apply_assumption))

theorem execSyTrap_keep {r0 : State} (e : Fin 8) (f : SyncF) (s : State) (hs : Keep r0 s) :
    KeepO r0 (execSyTrap e f s) := by
  unfold execSyTrap; (repeat' (first
    | with_reducible assumption
    | intro _
    | with_reducible apply onSeq_keep
    | with_reducible apply State.trapCmd_keep
    | dsimp only
    | with_reducible apply_assumption))

theorem State.toIdle_keep {r0 : State} (s : State) (e : Fin 8) (hs : Keep r0 s) :
    Keep r0 (State.toIdle s e) := by
  unfold State.toIdle; (repeat' (first
    | with_reducible assumption
    | intro _
    | with_reducible apply State.modEng_keep
    | fail_if_no_progress with_reducible apply keep_mk
    | dsimp only
    | with_reducible apply_assumption))

theorem execTrapAbortEnd_keep {r0 : State} (e : Fin 8) (s : State) (hs : Keep r0 s) :
    KeepO r0 (execTrapAbortEnd e s) := by
  unfold execTrapAbortEnd; (repeat' (first
    | with_reducible assumption
    | intro _
    | with_reducible apply State.modEng_keep
    | with_reducible apply State.settleIf_keep
    | with_reducible apply State.toIdle_keep
    | fail_if_no_progress with_reducible apply keep_mk
    | with_reducible apply keepO_next
    | split
    | dsimp only
    | with_reducible apply_assumption))

theorem execKillComplete_keep {r0 : State} (e : Fin 8) (s : State) (hs : Keep r0 s) :
    KeepO r0 (execKillComplete e s) := by
  unfold execKillComplete; (repeat' (first
    | with_reducible assumption
    | intro _
    | with_reducible apply State.modEng_keep
    | with_reducible apply State.settleIf_keep
    | with_reducible apply State.toIdle_keep
    | fail_if_no_progress with_reducible apply keep_mk
    | with_reducible apply keepO_next
    | with_reducible refine keep_fst ‹_ = (_, _)› ?_
    | with_reducible refine keep_of_some ‹_ = some _› ?_
    | with_reducible refine keep_snd ‹_ = (_, _)› ?_
    | split
    | dsimp only
    | with_reducible apply_assumption))

theorem State.startEng_keep {r0 : State} (s : State) (e : Fin 8) (hs : Keep r0 s) :
    Keep r0 (State.startEng s e) := by
  unfold State.startEng; (repeat' (first
    | with_reducible assumption
    | intro _
    | with_reducible apply State.modEng_keep
    | fail_if_no_progress with_reducible apply keep_mk
    | dsimp only
    | with_reducible apply_assumption))

theorem State.ctlRun_keep {r0 : State} (s : State) (e : Fin 8) (hs : Keep r0 s) :
    Keep r0 (State.ctlRun s e) := by
  unfold State.ctlRun; (repeat' (first
    | with_reducible assumption
    | intro _
    | with_reducible apply State.startEng_keep
    | with_reducible apply State.modEng_keep
    | fail_if_no_progress with_reducible apply keep_mk
    | with_reducible refine keep_fst ‹_ = (_, _)› ?_
    | with_reducible refine keep_of_some ‹_ = some _› ?_
    | with_reducible refine keep_snd ‹_ = (_, _)› ?_
    | split
    | dsimp only
    | with_reducible apply_assumption))

theorem State.ctlHalt_keep {r0 : State} (s : State) (e : Fin 8) (hs : Keep r0 s) :
    Keep r0 (State.ctlHalt s e) := by
  unfold State.ctlHalt; (repeat' (first
    | with_reducible assumption
    | intro _
    | with_reducible apply State.modEng_keep
    | with_reducible apply State.setRegN_keep
    | fail_if_no_progress with_reducible apply keep_mk
    | with_reducible refine keep_fst ‹_ = (_, _)› ?_
    | with_reducible refine keep_of_some ‹_ = some _› ?_
    | with_reducible refine keep_snd ‹_ = (_, _)› ?_
    | split
    | dsimp only
    | with_reducible apply_assumption))

theorem State.ctlKill_keep {r0 : State} (s : State) (e : Fin 8) (hs : Keep r0 s) :
    Keep r0 (State.ctlKill s e) := by
  unfold State.ctlKill; (repeat' (first
    | with_reducible assumption
    | intro _
    | with_reducible apply State.modEng_keep
    | with_reducible apply State.toIdle_keep
    | with_reducible apply State.killCmdOn_keep
    | fail_if_no_progress with_reducible apply keep_mk
    | with_reducible refine keep_fst ‹_ = (_, _)› ?_
    | with_reducible refine keep_of_some ‹_ = some _› ?_
    | with_reducible refine keep_snd ‹_ = (_, _)› ?_
    | split
    | dsimp only
    | with_reducible apply_assumption))

theorem State.ctlWrite_keep {r0 : State} (s : State) (e : Fin 8) (v : Nat) (hs : Keep r0 s) :
    Keep r0 (State.ctlWrite s e v) := by
  unfold State.ctlWrite; (repeat' (first
    | with_reducible assumption
    | intro _
    | with_reducible apply State.ctlKill_keep
    | with_reducible apply State.ctlHalt_keep
    | with_reducible apply State.ctlRun_keep
    | split
    | dsimp only
    | with_reducible apply_assumption))

theorem State.wakeEng_keep {r0 : State} (s : State) (e : Fin 8) (hs : Keep r0 s) :
    Keep r0 (State.wakeEng s e) := by
  unfold State.wakeEng; (repeat' (first
    | with_reducible assumption
    | intro _
    | with_reducible apply State.modEng_keep
    | fail_if_no_progress with_reducible apply keep_mk
    | split
    | dsimp only
    | with_reducible apply_assumption))

theorem State.failOp_keep {r0 : State} (s : State) (unit cause opcode stream addr : Nat) (owner : Owner) (hs : Keep r0 s) :
    Keep r0 (State.failOp s unit cause opcode stream addr owner) := by
  unfold State.failOp; (repeat' (first
    | with_reducible assumption
    | intro _
    | fail_if_no_progress with_reducible apply keep_mk
    | dsimp only
    | with_reducible apply_assumption))

theorem engCtl_keep {r0 : State} (src : BitVec 8) (e : Fin 8) (v : Nat) (s : State) (hs : Keep r0 s) :
    Keep r0 (engCtl src e v s) := by
  unfold engCtl; (repeat' (first
    | with_reducible assumption
    | intro _
    | with_reducible apply State.failOp_keep
    | with_reducible apply State.wakeEng_keep
    | with_reducible apply State.ctlWrite_keep
    | split
    | dsimp only
    | with_reducible apply_assumption))

theorem execEngRun_keep {r0 : State} (src : BitVec 8) (e : Fin 8) (s : State) (hs : Keep r0 s) :
    KeepO r0 (execEngRun src e s) := by
  unfold execEngRun; (repeat' (first
    | with_reducible assumption
    | intro _
    | with_reducible apply engCtl_keep
    | with_reducible apply keepO_next
    | dsimp only
    | with_reducible apply_assumption))

theorem execEngHalt_keep {r0 : State} (src : BitVec 8) (e : Fin 8) (s : State) (hs : Keep r0 s) :
    KeepO r0 (execEngHalt src e s) := by
  unfold execEngHalt; (repeat' (first
    | with_reducible assumption
    | intro _
    | with_reducible apply engCtl_keep
    | with_reducible apply keepO_next
    | dsimp only
    | with_reducible apply_assumption))

theorem execEngKill_keep {r0 : State} (src : BitVec 8) (e : Fin 8) (s : State) (hs : Keep r0 s) :
    KeepO r0 (execEngKill src e s) := by
  unfold execEngKill; (repeat' (first
    | with_reducible assumption
    | intro _
    | with_reducible apply engCtl_keep
    | with_reducible apply keepO_next
    | dsimp only
    | with_reducible apply_assumption))

end Sys2Proof.Machine
end

