-- ==== Sys2Proof/Laws/KeepArrays.lean ====
section
/-! SUPPORT. What the operations and meanings of Machine/Arrays keep (Laws/Keep). -/
namespace Sys2Proof.Machine

set_option linter.unusedTactic false
set_option linter.unreachableTactic false

theorem State.dequeue_keep {r0 : State} (s : State) (e : Fin 8) (id : Nat) (hs : Keep r0 s) :
    Keep r0 (State.dequeue s e id) := by
  unfold State.dequeue; (repeat' (first
    | with_reducible assumption
    | intro _
    | with_reducible apply State.modEng_keep
    | fail_if_no_progress with_reducible apply keep_mk
    | dsimp only
    | with_reducible apply_assumption))

theorem State.startDesc_keep {r0 : State} (s : State) (e : Fin 8) (d : Queued) (wrote : List (Nat × Nat)) (result : List (Nat × Reg32)) (hs : Keep r0 s) :
    Keep r0 (State.startDesc s e d wrote result) := by
  unfold State.startDesc; (repeat' (first
    | with_reducible assumption
    | intro _
    | with_reducible apply State.modEng_keep
    | fail_if_no_progress with_reducible apply keep_mk
    | dsimp only
    | with_reducible apply_assumption))

theorem State.completeDesc_keep {r0 : State} (s : State) (e : Fin 8) (d : Started) (hs : Keep r0 s) :
    Keep r0 (State.completeDesc s e d) := by
  unfold State.completeDesc; (repeat' (first
    | with_reducible assumption
    | intro _
    | with_reducible apply State.setReg_keep
    | with_reducible apply State.addTok_keep
    | with_reducible apply State.modEng_keep
    | fail_if_no_progress with_reducible apply keep_mk
    | with_reducible refine keep_foldl ?_ ?_
    | with_reducible refine keep_foldl_fst ?_ ?_
    | with_reducible refine keep_foldl_snd ?_ ?_
    | with_reducible refine keep_fst ‹_ = (_, _)› ?_
    | with_reducible refine keep_of_some ‹_ = some _› ?_
    | with_reducible refine keep_snd ‹_ = (_, _)› ?_
    | split
    | dsimp only
    | with_reducible apply_assumption))

theorem State.arrClamp_keep {r0 : State} (s : State) (e : Fin 8) (a n : Nat) (hs : Keep r0 s) :
    Keep r0 (State.arrClamp s e a n) := by
  unfold State.arrClamp; (repeat' (first
    | with_reducible assumption
    | intro _
    | with_reducible apply State.countUp_keep
    | split
    | dsimp only
    | with_reducible apply_assumption))

theorem State.arrNonfinite_keep {r0 : State} (s : State) (e : Fin 8) (a row col krow quad imag : Nat) (hs : Keep r0 s) :
    Keep r0 (State.arrNonfinite s e a row col krow quad imag) := by
  unfold State.arrNonfinite; (repeat' (first
    | with_reducible assumption
    | intro _
    | with_reducible apply State.setFld_keep
    | with_reducible apply State.setRegN_keep
    | split
    | dsimp only
    | with_reducible apply_assumption))

theorem State.unitError_keep {r0 : State} (s : State) (e : Fin 8) (infoKey info descKey desc status : Nat) (hs : Keep r0 s) :
    Keep r0 (State.unitError s e infoKey info descKey desc status) := by
  unfold State.unitError; (repeat' (first
    | with_reducible assumption
    | intro _
    | with_reducible apply State.setRegN_keep
    | with_reducible apply State.faultKill_keep
    | split
    | dsimp only
    | with_reducible apply_assumption))

theorem State.arrError_keep {r0 : State} (s : State) (e : Fin 8) (d : Queued) (cause : Nat) (hs : Keep r0 s) :
    Keep r0 (State.arrError s e d cause) := by
  unfold State.arrError; (repeat' (first
    | with_reducible assumption
    | intro _
    | with_reducible apply State.unitError_keep
    | split
    | dsimp only
    | with_reducible apply_assumption))

theorem State.storeAll_keep {r0 : State} (s : State) (l0 : List (Nat × List Byte)) (hs : Keep r0 s) :
    Keep r0 (State.storeAll s l0).1 := by
  revert hs
  fun_induction State.storeAll s l0
  all_goals (intros; (repeat' (first
    | with_reducible assumption
    | intro _
    | with_reducible apply State.write_keep
    | with_reducible refine keep_fst ‹_ = (_, _)› ?_
    | with_reducible refine keep_of_some ‹_ = some _› ?_
    | with_reducible refine keep_snd ‹_ = (_, _)› ?_
    | split
    | dsimp only
    | with_reducible apply_assumption)))

theorem State.arrFlags_keep {r0 : State} (s : State) (e : Fin 8) (a n q : Nat) (int : Bool) (x : ResPart) (r : Nat × Bool) (hs : Keep r0 s) :
    Keep r0 (State.arrFlags s e a n q int x r) := by
  unfold State.arrFlags; (repeat' (first
    | with_reducible assumption
    | intro _
    | with_reducible apply State.setFld_keep
    | with_reducible apply State.arrNonfinite_keep
    | split
    | dsimp only
    | with_reducible apply_assumption))

theorem State.matRow_keep {r0 : State} (s : State) (e : Fin 8) (m : MatD) (p : PairInfo) (a : Nat) (t : Tile) (wrecs rows : List (List Byte)) (n : Nat) (hs : Keep r0 s) :
    Keep r0 (State.matRow s e m p a t wrecs rows n).1 := by
  unfold State.matRow; (repeat' (first
    | with_reducible assumption
    | intro _
    | with_reducible apply State.storeAll_keep
    | with_reducible apply State.arrFlags_keep
    | with_reducible refine keep_foldl ?_ ?_
    | with_reducible refine keep_foldl_fst ?_ ?_
    | with_reducible refine keep_foldl_snd ?_ ?_
    | with_reducible apply keep_getD
    | with_reducible refine keep_fst ‹_ = (_, _)› ?_
    | with_reducible refine keep_of_some ‹_ = some _› ?_
    | with_reducible refine keep_snd ‹_ = (_, _)› ?_
    | split
    | dsimp only
    | with_reducible apply_assumption))

theorem State.drainRow_keep {r0 : State} (s : State) (e : Fin 8) (d : DrainD) (a i row r : Nat) (scales biases : List Byte) (hs : Keep r0 s) :
    Keep r0 (State.drainRow s e d a i row r scales biases).1 := by
  unfold State.drainRow; (repeat' (first
    | with_reducible assumption
    | intro _
    | with_reducible apply State.write_keep
    | with_reducible apply State.arrClamp_keep
    | with_reducible refine keep_fst ‹_ = (_, _)› ?_
    | with_reducible refine keep_of_some ‹_ = some _› ?_
    | with_reducible refine keep_snd ‹_ = (_, _)› ?_
    | split
    | dsimp only
    | with_reducible apply_assumption))

theorem State.drainVecs_keep {r0 : State} (s : State) (e : Fin 8) (d : DrainD) (n : Nat) (hs : Keep r0 s) :
    Keep r0 (State.drainVecs s e d n).1 := by
  unfold State.drainVecs; (repeat' (first
    | with_reducible assumption
    | intro _
    | with_reducible apply State.read_keep
    | with_reducible refine keep_fst ‹_ = (_, _)› ?_
    | with_reducible refine keep_of_some ‹_ = some _› ?_
    | with_reducible refine keep_snd ‹_ = (_, _)› ?_
    | split
    | dsimp only
    | with_reducible apply_assumption))

theorem State.loadTiles_keep {r0 : State} (s : State) (e : Fin 8) (m : MatD) (p : PairInfo) (l0 : List (Nat × Nat)) (hs : Keep r0 s) :
    Keep r0 (State.loadTiles s e m p l0).1 := by
  revert hs
  fun_induction State.loadTiles s e m p l0
  all_goals (intros; (repeat' (first
    | with_reducible assumption
    | intro _
    | with_reducible apply State.read_keep
    | with_reducible apply State.modEng_keep
    | fail_if_no_progress with_reducible apply keep_mk
    | with_reducible refine keep_fst ‹_ = (_, _)› ?_
    | with_reducible refine keep_of_some ‹_ = some _› ?_
    | with_reducible refine keep_snd ‹_ = (_, _)› ?_
    | split
    | dsimp only
    | with_reducible apply_assumption)))

theorem State.checkAll_keep {r0 : State} (s : State) (l0 : List (Nat × Nat)) (hs : Keep r0 s) :
    Keep r0 (State.checkAll s l0).1 := by
  revert hs
  fun_induction State.checkAll s l0
  all_goals (intros; (repeat' (first
    | with_reducible assumption
    | intro _
    | with_reducible apply State.check_keep
    | with_reducible refine keep_fst ‹_ = (_, _)› ?_
    | with_reducible refine keep_of_some ‹_ = some _› ?_
    | with_reducible refine keep_snd ‹_ = (_, _)› ?_
    | split
    | dsimp only
    | with_reducible apply_assumption)))

theorem State.streamRows_keep {r0 : State} (s : State) (e : Fin 8) (m : MatD) (p : PairInfo) (dr : Option (DrainD × List Byte × List Byte)) (fuel : Nat) (n : Nat) (hs : Keep r0 s) :
    Keep r0 (State.streamRows s e m p dr fuel n).1 := by
  revert hs
  fun_induction State.streamRows s e m p dr fuel n
  all_goals (intros; (repeat' (first
    | with_reducible assumption
    | intro _
    | with_reducible apply State.checkAll_keep
    | with_reducible apply State.matRow_keep
    | with_reducible apply State.drainRow_keep
    | with_reducible refine keep_foldl ?_ ?_
    | with_reducible refine keep_foldl_fst ?_ ?_
    | with_reducible refine keep_foldl_snd ?_ ?_
    | with_reducible refine keep_fst ‹_ = (_, _)› ?_
    | with_reducible refine keep_of_some ‹_ = some _› ?_
    | with_reducible refine keep_snd ‹_ = (_, _)› ?_
    | split
    | dsimp only
    | with_reducible apply_assumption)))

theorem arrEnd_keep {r0 : State} (e : Fin 8) (d : Queued) (wrote : List (Nat × Nat)) (r : State × ArrStop) (hr : Keep r0 r.1) :
    Keep r0 (arrEnd e d wrote r) := by
  unfold arrEnd; split
  · exact State.startDesc_keep _ _ _ _ _ hr
  · exact State.arrError_keep _ _ _ _ hr
  · exact State.arrError_keep _ _ _ _ (State.recordSkew_keep _ _ _ _ _ _ _ hr)

theorem State.runMat_keep {r0 : State} (s : State) (e : Fin 8) (d : Queued) (m : MatD) (p : PairInfo) (dr : Option DrainD) (hs : Keep r0 s) :
    Keep r0 (State.runMat s e d m p dr) := by
  unfold State.runMat; (repeat' (first
    | with_reducible assumption
    | intro _
    | with_reducible apply State.drainVecs_keep
    | with_reducible apply State.arrError_keep
    | with_reducible apply State.loadTiles_keep
    | with_reducible apply arrEnd_keep
    | with_reducible apply State.streamRows_keep
    | with_reducible refine keep_fst ‹_ = (_, _)› ?_
    | with_reducible refine keep_of_some ‹_ = some _› ?_
    | with_reducible refine keep_snd ‹_ = (_, _)› ?_
    | split
    | dsimp only
    | with_reducible apply_assumption))

theorem State.emptyDesc_keep {r0 : State} (s : State) (e : Fin 8) (d : Queued) (hs : Keep r0 s) :
    Keep r0 (State.emptyDesc s e d) := by
  unfold State.emptyDesc; (repeat' (first
    | with_reducible assumption
    | intro _
    | with_reducible apply State.addTok_keep
    | dsimp only
    | with_reducible apply_assumption))

theorem execMatmul_keep {r0 : State} (e : Fin 8) (s : State) (hs : Keep r0 s) :
    KeepO r0 (execMatmul e s) := by
  unfold execMatmul; (repeat' (first
    | with_reducible assumption
    | intro _
    | with_reducible apply State.dequeue_keep
    | with_reducible apply State.arrError_keep
    | with_reducible apply State.emptyDesc_keep
    | with_reducible apply State.read_keep
    | with_reducible apply State.runMat_keep
    | with_reducible apply keepO_next
    | with_reducible refine keep_fst ‹_ = (_, _)› ?_
    | with_reducible refine keep_of_some ‹_ = some _› ?_
    | with_reducible refine keep_snd ‹_ = (_, _)› ?_
    | split
    | dsimp only
    | with_reducible apply_assumption))

theorem State.meter_keep {r0 : State} (s : State) (e : Fin 8) (hs : Keep r0 s) :
    Keep r0 (State.meter s e) := by
  unfold State.meter; (repeat' (first
    | with_reducible assumption
    | intro _
    | with_reducible apply State.draw_keep
    | fail_if_no_progress with_reducible apply keep_mk
    | with_reducible refine keep_fst ‹_ = (_, _)› ?_
    | with_reducible refine keep_of_some ‹_ = some _› ?_
    | with_reducible refine keep_snd ‹_ = (_, _)› ?_
    | split
    | dsimp only
    | with_reducible apply_assumption))

theorem State.arrComplete_keep {r0 : State} (s : State) (e : Fin 8) (k kind : Nat) (hs : Keep r0 s) :
    Keep r0 (State.arrComplete s e k kind) := by
  unfold State.arrComplete; (repeat' (first
    | with_reducible assumption
    | intro _
    | with_reducible apply State.completeDesc_keep
    | with_reducible apply State.meter_keep
    | with_reducible refine keep_fst ‹_ = (_, _)› ?_
    | with_reducible refine keep_of_some ‹_ = some _› ?_
    | with_reducible refine keep_snd ‹_ = (_, _)› ?_
    | split
    | dsimp only
    | with_reducible apply_assumption))

theorem execMatmulComplete_keep {r0 : State} (e : Fin 8) (k : BitVec 6) (s : State) (hs : Keep r0 s) :
    KeepO r0 (execMatmulComplete e k s) := by
  unfold execMatmulComplete; (repeat' (first
    | with_reducible assumption
    | intro _
    | with_reducible apply State.arrComplete_keep
    | with_reducible apply keepO_next
    | dsimp only
    | with_reducible apply_assumption))

theorem State.drainRows_keep {r0 : State} (s : State) (e : Fin 8) (d : DrainD) (sc bi : List Byte) (fuel : Nat) (r : Nat) (hs : Keep r0 s) :
    Keep r0 (State.drainRows s e d sc bi fuel r).1 := by
  revert hs
  fun_induction State.drainRows s e d sc bi fuel r
  all_goals (intros; (repeat' (first
    | with_reducible assumption
    | intro _
    | with_reducible apply State.checkAll_keep
    | with_reducible apply State.drainRow_keep
    | with_reducible refine keep_foldl ?_ ?_
    | with_reducible refine keep_foldl_fst ?_ ?_
    | with_reducible refine keep_foldl_snd ?_ ?_
    | with_reducible refine keep_fst ‹_ = (_, _)› ?_
    | with_reducible refine keep_of_some ‹_ = some _› ?_
    | with_reducible refine keep_snd ‹_ = (_, _)› ?_
    | split
    | dsimp only
    | with_reducible apply_assumption)))

theorem execDrain_keep {r0 : State} (e : Fin 8) (s : State) (hs : Keep r0 s) :
    KeepO r0 (execDrain e s) := by
  unfold execDrain; (repeat' (first
    | with_reducible assumption
    | intro _
    | with_reducible apply State.dequeue_keep
    | with_reducible apply State.emptyDesc_keep
    | with_reducible apply State.arrError_keep
    | with_reducible apply State.drainVecs_keep
    | with_reducible apply arrEnd_keep
    | with_reducible apply State.drainRows_keep
    | with_reducible apply keepO_next
    | with_reducible refine keep_fst ‹_ = (_, _)› ?_
    | with_reducible refine keep_of_some ‹_ = some _› ?_
    | with_reducible refine keep_snd ‹_ = (_, _)› ?_
    | split
    | dsimp only
    | with_reducible apply_assumption))

theorem execDrainComplete_keep {r0 : State} (e : Fin 8) (k : BitVec 6) (s : State) (hs : Keep r0 s) :
    KeepO r0 (execDrainComplete e k s) := by
  unfold execDrainComplete; (repeat' (first
    | with_reducible assumption
    | intro _
    | with_reducible apply State.arrComplete_keep
    | with_reducible apply keepO_next
    | dsimp only
    | with_reducible apply_assumption))

theorem State.raceRow_keep {r0 : State} (s : State) (e : Fin 8) (a r : Nat) (hs : Keep r0 s) :
    Keep r0 (State.raceRow s e a r) := by
  unfold State.raceRow; (repeat' (first
    | with_reducible assumption
    | intro _
    | with_reducible apply State.undef_keep
    | with_reducible apply State.undefAll_keep
    | with_reducible refine keep_foldl ?_ ?_
    | with_reducible refine keep_foldl_fst ?_ ?_
    | with_reducible refine keep_foldl_snd ?_ ?_
    | with_reducible apply keep_getD
    | split
    | dsimp only
    | with_reducible apply_assumption))

theorem State.clrClamp_keep {r0 : State} (s : State) (e : Fin 8) (as : List Nat) (hs : Keep r0 s) :
    Keep r0 (State.clrClamp s e as) := by
  unfold State.clrClamp; (repeat' (first
    | with_reducible assumption
    | intro _
    | with_reducible apply State.setRegN_keep
    | with_reducible refine keep_foldl ?_ ?_
    | with_reducible refine keep_foldl_fst ?_ ?_
    | with_reducible refine keep_foldl_snd ?_ ?_
    | dsimp only
    | with_reducible apply_assumption))

theorem State.clrFlags_keep {r0 : State} (s : State) (e : Fin 8) (as : List Nat) (hs : Keep r0 s) :
    Keep r0 (State.clrFlags s e as) := by
  unfold State.clrFlags; (repeat' (first
    | with_reducible assumption
    | intro _
    | with_reducible apply State.setFld_keep
    | with_reducible apply State.setRegN_keep
    | with_reducible refine keep_foldl ?_ ?_
    | with_reducible refine keep_foldl_fst ?_ ?_
    | with_reducible refine keep_foldl_snd ?_ ?_
    | dsimp only
    | with_reducible apply_assumption))

theorem State.arrClr_keep {r0 : State} (s : State) (e : Fin 8) (v : Nat) (hs : Keep r0 s) :
    Keep r0 (State.arrClr s e v) := by
  unfold State.arrClr; (repeat' (first
    | with_reducible assumption
    | intro _
    | with_reducible apply State.clrClamp_keep
    | with_reducible apply State.clrFlags_keep
    | split
    | dsimp only
    | with_reducible apply_assumption))

theorem anchorWrite_keep {r0 : State} (src : BitVec 8) (e : Fin 8) (off : Nat) (f : State → State) (s : State) (hf : ∀ t, Keep r0 t → Keep r0 (f t)) (hs : Keep r0 s) :
    Keep r0 (anchorWrite src e off f s) := by
  unfold anchorWrite; (repeat' (first
    | with_reducible assumption
    | intro _
    | with_reducible apply State.failOp_keep
    | with_reducible apply State.wakeEng_keep
    | split
    | dsimp only
    | with_reducible apply_assumption))

theorem execArrClrClamp_keep {r0 : State} (src : BitVec 8) (e : Fin 8) (all : Bool) (a : Fin 64) (s : State) (hs : Keep r0 s) :
    KeepO r0 (execArrClrClamp src e all a s) := by
  unfold execArrClrClamp; (repeat' (first
    | with_reducible assumption
    | intro _
    | with_reducible apply anchorWrite_keep
    | with_reducible apply State.arrClr_keep
    | with_reducible apply keepO_next
    | dsimp only
    | with_reducible apply_assumption))

theorem execArrClrFlags_keep {r0 : State} (src : BitVec 8) (e : Fin 8) (all : Bool) (a : Fin 64) (s : State) (hs : Keep r0 s) :
    KeepO r0 (execArrClrFlags src e all a s) := by
  unfold execArrClrFlags; (repeat' (first
    | with_reducible assumption
    | intro _
    | with_reducible apply anchorWrite_keep
    | with_reducible apply State.arrClr_keep
    | with_reducible apply keepO_next
    | dsimp only
    | with_reducible apply_assumption))

theorem State.pairCtl_keep {r0 : State} (s : State) (e : Fin 8) (n v : Nat) (hs : Keep r0 s) :
    Keep r0 (State.pairCtl s e n v) := by
  unfold State.pairCtl; (repeat' (first
    | with_reducible assumption
    | intro _
    | with_reducible apply State.setRegN_keep
    | with_reducible apply State.modEng_keep
    | fail_if_no_progress with_reducible apply keep_mk
    | dsimp only
    | with_reducible apply_assumption))

theorem execPairCtlWrite_keep {r0 : State} (src : BitVec 8) (e : Fin 8) (n : Fin 16) (v : Reg32) (s : State) (hs : Keep r0 s) :
    KeepO r0 (execPairCtlWrite src e n v s) := by
  unfold execPairCtlWrite; (repeat' (first
    | with_reducible assumption
    | intro _
    | with_reducible apply anchorWrite_keep
    | with_reducible apply State.pairCtl_keep
    | with_reducible apply keepO_next
    | dsimp only
    | with_reducible apply_assumption))

theorem State.qntClr_keep {r0 : State} (s : State) (e : Fin 8) (hs : Keep r0 s) :
    Keep r0 (State.qntClr s e) := by
  unfold State.qntClr; (repeat' (first
    | with_reducible assumption
    | intro _
    | with_reducible apply State.setRegN_keep
    | with_reducible refine keep_foldl ?_ ?_
    | with_reducible refine keep_foldl_fst ?_ ?_
    | with_reducible refine keep_foldl_snd ?_ ?_
    | dsimp only
    | with_reducible apply_assumption))

theorem execVecQntClr_keep {r0 : State} (src : BitVec 8) (e : Fin 8) (s : State) (hs : Keep r0 s) :
    KeepO r0 (execVecQntClr src e s) := by
  unfold execVecQntClr; (repeat' (first
    | with_reducible assumption
    | intro _
    | with_reducible apply anchorWrite_keep
    | with_reducible apply State.qntClr_keep
    | with_reducible apply keepO_next
    | dsimp only
    | with_reducible apply_assumption))

end Sys2Proof.Machine
end

