-- ==== Sys2Proof/Laws/KeepViews.lean ====
section
/-! SUPPORT. What the operations and meanings of Machine/Views keep (Laws/Keep). -/
namespace Sys2Proof.Machine

set_option linter.unusedTactic false
set_option linter.unreachableTactic false

theorem State.ptpLatch_keep {r0 : State} (s : State) (hs : Keep r0 s) :
    Keep r0 (State.ptpLatch s) := by
  unfold State.ptpLatch; (repeat' (first
    | with_reducible assumption
    | intro _
    | with_reducible apply State.setReg64_keep
    | with_reducible apply State.setRegN_keep
    | dsimp only
    | with_reducible apply_assumption))

theorem State.pmcPut_keep {r0 : State} (s : State) (u b k v : Nat) (hs : Keep r0 s) :
    Keep r0 (State.pmcPut s u b k v) := by
  unfold State.pmcPut; (repeat' (first
    | with_reducible assumption
    | intro _
    | with_reducible apply State.setRegN_keep
    | fail_if_no_progress with_reducible apply keep_mk
    | dsimp only
    | with_reducible apply_assumption))

theorem State.pmcLook_keep {r0 : State} (s : State) (u b k : Nat) (hs : Keep r0 s) :
    Keep r0 (State.pmcLook s u b k) := by
  unfold State.pmcLook; (repeat' (first
    | with_reducible assumption
    | intro _
    | with_reducible apply State.draw_keep
    | with_reducible apply State.pmcPut_keep
    | split
    | dsimp only
    | with_reducible apply_assumption))

theorem State.pmcLatch_keep {r0 : State} (s : State) (u b k : Nat) (hs : Keep r0 s) :
    Keep r0 (State.pmcLatch s u b k) := by
  unfold State.pmcLatch; (repeat' (first
    | with_reducible assumption
    | intro _
    | with_reducible apply State.pmcLook_keep
    | with_reducible apply State.setRegN_keep
    | dsimp only
    | with_reducible apply_assumption))

theorem State.latch_keep {r0 : State} (s : State) (a : Nat) (hs : Keep r0 s) :
    Keep r0 (State.latch s a) := by
  unfold State.latch; (repeat' (first
    | with_reducible assumption
    | intro _
    | with_reducible apply State.ptpLatch_keep
    | with_reducible apply State.pmcLatch_keep
    | with_reducible refine keep_fst ‹_ = (_, _)› ?_
    | with_reducible refine keep_of_some ‹_ = some _› ?_
    | with_reducible refine keep_snd ‹_ = (_, _)› ?_
    | split
    | dsimp only
    | with_reducible apply_assumption))

theorem State.readWord_keep {r0 : State} (s : State) (a : Nat) (hs : Keep r0 s) :
    Keep r0 (State.readWord s a).1 := by
  unfold State.readWord; (repeat' (first
    | with_reducible assumption
    | intro _
    | with_reducible apply State.latch_keep
    | dsimp only
    | with_reducible apply_assumption))

theorem State.readWords_keep {r0 : State} (s : State) (a : Nat) (n : Nat) (hs : Keep r0 s) :
    Keep r0 (State.readWords s a n).1 := by
  revert hs
  fun_induction State.readWords s a n
  all_goals (intros; (repeat' (first
    | with_reducible assumption
    | intro _
    | with_reducible apply State.readWord_keep
    | with_reducible refine keep_fst ‹_ = (_, _)› ?_
    | with_reducible refine keep_of_some ‹_ = some _› ?_
    | with_reducible refine keep_snd ‹_ = (_, _)› ?_
    | split
    | dsimp only
    | with_reducible apply_assumption)))

theorem State.targetRead_keep {r0 : State} (s : State) (u off n : Nat) (hs : Keep r0 s) :
    Keep r0 (State.targetRead s u off n).1 := by
  unfold State.targetRead; (repeat' (first
    | with_reducible assumption
    | intro _
    | with_reducible apply State.read_keep
    | with_reducible apply State.readWords_keep
    | split
    | dsimp only
    | with_reducible apply_assumption))

end Sys2Proof.Machine
end

