-- ==== Sys2Proof/Laws/KeepFabCheck.lean ====
section
/-! SUPPORT. What the operations and meanings of Machine/FabCheck keep (Laws/Keep). -/
namespace Sys2Proof.Machine

set_option linter.unusedTactic false
set_option linter.unreachableTactic false

theorem State.reach_keep {r0 : State} (s : State) (u : Nat) (hs : Keep r0 s) :
    Keep r0 (State.reach s u) := by
  unfold State.reach; (repeat' (first
    | with_reducible assumption
    | intro _
    | with_reducible apply State.wakeEng_keep
    | with_reducible refine keep_fst ‹_ = (_, _)› ?_
    | with_reducible refine keep_of_some ‹_ = some _› ?_
    | with_reducible refine keep_snd ‹_ = (_, _)› ?_
    | split
    | dsimp only
    | with_reducible apply_assumption))

theorem State.wakeStack_keep {r0 : State} (s : State) (st : Nat) (hs : Keep r0 s) :
    Keep r0 (State.wakeStack s st) := by
  unfold State.wakeStack; (repeat' (first
    | with_reducible assumption
    | intro _
    | fail_if_no_progress with_reducible apply keep_mk
    | split
    | dsimp only
    | with_reducible apply_assumption))

theorem State.reachAt_keep {r0 : State} (s : State) (u off n : Nat) (hs : Keep r0 s) :
    Keep r0 (State.reachAt s u off n) := by
  unfold State.reachAt; (repeat' (first
    | with_reducible assumption
    | intro _
    | with_reducible apply State.wakeStack_keep
    | with_reducible apply State.reach_keep
    | with_reducible refine keep_foldl ?_ ?_
    | with_reducible refine keep_foldl_fst ?_ ?_
    | with_reducible refine keep_foldl_snd ?_ ?_
    | split
    | dsimp only
    | with_reducible apply_assumption))

theorem State.pairCheck_keep {r0 : State} (s : State) (e : Fin 8) (stream seq : Nat) (payload : List Byte) (hs : Keep r0 s) :
    Keep r0 (State.pairCheck s e stream seq payload).1 := by
  unfold State.pairCheck; (repeat' (first
    | with_reducible assumption
    | intro _
    | with_reducible apply State.modEng_keep
    | with_reducible apply State.setFld_keep
    | with_reducible apply State.recordSkew_keep
    | with_reducible apply State.faultKill_keep
    | fail_if_no_progress with_reducible apply keep_mk
    | with_reducible refine keep_fst ‹_ = (_, _)› ?_
    | with_reducible refine keep_of_some ‹_ = some _› ?_
    | with_reducible refine keep_snd ‹_ = (_, _)› ?_
    | split
    | dsimp only
    | with_reducible apply_assumption))

end Sys2Proof.Machine
end

