-- ==== Sys2Proof/Laws/KeepMirrorOps.lean ====
section
/-! SUPPORT. What the operations and meanings of Machine/MirrorOps keep (Laws/Keep). -/
namespace Sys2Proof.Machine

set_option linter.unusedTactic false
set_option linter.unreachableTactic false

theorem State.journalPut_keep {r0 : State} (s : State) (kind src step time : Nat) (payload : List Byte) (hs : Keep r0 s) :
    Keep r0 (State.journalPut s kind src step time payload) := by
  unfold State.journalPut; (repeat' (first
    | with_reducible assumption
    | intro _
    | with_reducible apply State.poke_keep
    | with_reducible apply State.setReg64_keep
    | fail_if_no_progress with_reducible apply keep_mk
    | dsimp only
    | with_reducible apply_assumption))

theorem State.journalEnd_keep {r0 : State} (s : State) (reason : Nat) (hs : Keep r0 s) :
    Keep r0 (State.journalEnd s reason) := by
  unfold State.journalEnd; (repeat' (first
    | with_reducible assumption
    | intro _
    | with_reducible apply State.journalPut_keep
    | with_reducible apply State.setFld_keep
    | dsimp only
    | with_reducible apply_assumption))

theorem State.journal_keep {r0 : State} (s : State) (kind src step time : Nat) (payload : List Byte) (hs : Keep r0 s) :
    Keep r0 (State.journal s kind src step time payload) := by
  unfold State.journal; (repeat' (first
    | with_reducible assumption
    | intro _
    | with_reducible apply State.countUp_keep
    | with_reducible apply State.setFld_keep
    | with_reducible apply State.journalEnd_keep
    | with_reducible apply State.journalPut_keep
    | fail_if_no_progress with_reducible apply keep_mk
    | split
    | dsimp only
    | with_reducible apply_assumption))

theorem State.journalCarrier_keep {r0 : State} (s : State) (kind src carrier part time : Nat) (payload : List Byte) (hs : Keep r0 s) :
    Keep r0 (State.journalCarrier s kind src carrier part time payload) := by
  unfold State.journalCarrier; (repeat' (first
    | with_reducible assumption
    | intro _
    | with_reducible apply State.journal_keep
    | split
    | dsimp only
    | with_reducible apply_assumption))

theorem State.journalHost_keep {r0 : State} (s : State) (pair : Nat) (pkt : List Byte) (hs : Keep r0 s) :
    Keep r0 (State.journalHost s pair pkt) := by
  unfold State.journalHost; (repeat' (first
    | with_reducible assumption
    | intro _
    | with_reducible apply State.journal_keep
    | split
    | dsimp only
    | with_reducible apply_assumption))

theorem State.modReplay_keep {r0 : State} (s : State) (f : Replay → Replay) (hs : Keep r0 s) :
    Keep r0 (State.modReplay s f) := by
  unfold State.modReplay; (repeat' (first
    | with_reducible assumption
    | intro _
    | fail_if_no_progress with_reducible apply keep_mk
    | dsimp only
    | with_reducible apply_assumption))

theorem State.endReplay_keep {r0 : State} (s : State) (gap stopped : Bool) (hs : Keep r0 s) :
    Keep r0 (State.endReplay s gap stopped) := by
  unfold State.endReplay; (repeat' (first
    | with_reducible assumption
    | intro _
    | with_reducible apply State.finish_keep
    | with_reducible apply State.setFld_keep
    | fail_if_no_progress with_reducible apply keep_mk
    | with_reducible refine keep_fst ‹_ = (_, _)› ?_
    | with_reducible refine keep_of_some ‹_ = some _› ?_
    | with_reducible refine keep_snd ‹_ = (_, _)› ?_
    | split
    | dsimp only
    | with_reducible apply_assumption))

theorem State.compareDigest_keep {r0 : State} (s : State) (p digest : Nat) (hs : Keep r0 s) :
    Keep r0 (State.compareDigest s p digest) := by
  unfold State.compareDigest; (repeat' (first
    | with_reducible assumption
    | intro _
    | with_reducible apply State.digest_keep
    | with_reducible apply State.setFld_keep
    | with_reducible apply State.setReg64_keep
    | with_reducible apply State.setRegN_keep
    | with_reducible apply State.modReplay_keep
    | with_reducible apply State.endReplay_keep
    | fail_if_no_progress with_reducible apply keep_mk
    | with_reducible refine keep_fst ‹_ = (_, _)› ?_
    | with_reducible refine keep_of_some ‹_ = some _› ?_
    | with_reducible refine keep_snd ‹_ = (_, _)› ?_
    | split
    | dsimp only
    | with_reducible apply_assumption))

theorem State.digest_keep {r0 : State} (s : State) (replayed : Bool) (p job pair seq step digest dyn : Nat) (hs : Keep r0 s) :
    Keep r0 (State.digest s replayed p job pair seq step digest dyn) := by
  unfold State.digest; (repeat' (first
    | with_reducible assumption
    | intro _
    | with_reducible apply State.compareDigest_keep
    | with_reducible apply State.journal_keep
    | split
    | dsimp only
    | with_reducible apply_assumption))

end Sys2Proof.Machine
end

