-- ==== Sys2Proof/Laws/KeepRings.lean ====
section
/-! SUPPORT. What the operations and meanings of Machine/Rings keep (Laws/Keep). -/
namespace Sys2Proof.Machine

set_option linter.unusedTactic false
set_option linter.unreachableTactic false

theorem hostReg_keep {r0 : State} (s : State) (f : State → State) (hs : Keep r0 s) (hf : ∀ t, Keep r0 t → Keep r0 (f t)) :
    Keep r0 (hostReg s f) := by
  unfold hostReg; (repeat' (first
    | with_reducible assumption
    | intro _
    | split
    | dsimp only
    | with_reducible apply_assumption))

theorem State.tailWrite_keep {r0 : State} (s : State) (p v : Nat) (hs : Keep r0 s) :
    Keep r0 (State.tailWrite s p v) := by
  unfold State.tailWrite; (repeat' (first
    | with_reducible assumption
    | intro _
    | with_reducible apply State.setFld_keep
    | with_reducible apply State.setRegN_keep
    | split
    | dsimp only
    | with_reducible apply_assumption))

theorem State.cheadWrite_keep {r0 : State} (s : State) (p v : Nat) (hs : Keep r0 s) :
    Keep r0 (State.cheadWrite s p v) := by
  unfold State.cheadWrite; (repeat' (first
    | with_reducible assumption
    | intro _
    | with_reducible apply State.setRegN_keep
    | split
    | dsimp only
    | with_reducible apply_assumption))

theorem execQTailWrite_keep {r0 : State} (pair : BitVec 11) (v : Reg32) (s : State) (hs : Keep r0 s) :
    KeepO r0 (execQTailWrite pair v s) := by
  unfold execQTailWrite; (repeat' (first
    | with_reducible assumption
    | intro _
    | with_reducible apply hostReg_keep
    | with_reducible apply State.tailWrite_keep
    | with_reducible apply keepO_next
    | dsimp only
    | with_reducible apply_assumption))

theorem execQCheadWrite_keep {r0 : State} (pair : BitVec 11) (v : Reg32) (s : State) (hs : Keep r0 s) :
    KeepO r0 (execQCheadWrite pair v s) := by
  unfold execQCheadWrite; (repeat' (first
    | with_reducible assumption
    | intro _
    | with_reducible apply hostReg_keep
    | with_reducible apply State.cheadWrite_keep
    | with_reducible apply keepO_next
    | dsimp only
    | with_reducible apply_assumption))

theorem State.msix_keep {r0 : State} (s : State) (v : Nat) (hs : Keep r0 s) :
    Keep r0 (State.msix s v) := by
  unfold State.msix; (repeat' (first
    | with_reducible assumption
    | intro _
    | with_reducible apply State.hostWrite_keep
    | with_reducible apply State.setFld_keep
    | split
    | dsimp only
    | with_reducible apply_assumption))

theorem State.take_keep {r0 : State} (s : State) (p : Nat) (pkt : List Byte) (hs : Keep r0 s) :
    Keep r0 (State.take s p pkt) := by
  unfold State.take; (repeat' (first
    | with_reducible assumption
    | intro _
    | with_reducible apply State.ledgerCommit_keep
    | with_reducible apply State.setRegN_keep
    | with_reducible apply State.setReg64_keep
    | with_reducible apply State.journalHost_keep
    | with_reducible apply State.finish_keep
    | fail_if_no_progress with_reducible apply keep_mk
    | split
    | dsimp only
    | with_reducible apply_assumption))

theorem State.acceptStep_keep {r0 : State} (s : State) (p : Nat) (hs : Keep r0 s) :
    Keep r0 (State.acceptStep s p) := by
  unfold State.acceptStep; (repeat' (first
    | with_reducible assumption
    | intro _
    | with_reducible apply State.setFld_keep
    | with_reducible apply State.take_keep
    | fail_if_no_progress with_reducible apply keep_mk
    | split
    | dsimp only
    | with_reducible apply_assumption))

theorem execResume_keep {r0 : State} (pair : BitVec 11) (s : State) (hs : Keep r0 s) :
    KeepO r0 (execResume pair s) := by
  unfold execResume; (repeat' (first
    | with_reducible assumption
    | intro _
    | with_reducible apply hostReg_keep
    | with_reducible apply State.setFld_keep
    | with_reducible apply State.acceptStep_keep
    | with_reducible apply keepO_next
    | dsimp only
    | with_reducible apply_assumption))

theorem State.writeCompletion_keep {r0 : State} (s : State) (p : Nat) (hs : Keep r0 s) :
    Keep r0 (State.writeCompletion s p) := by
  unfold State.writeCompletion; (repeat' (first
    | with_reducible assumption
    | intro _
    | with_reducible apply State.hostWrite_keep
    | with_reducible apply State.ledgerCommit_keep
    | with_reducible apply State.setRegN_keep
    | with_reducible apply State.msix_keep
    | fail_if_no_progress with_reducible apply keep_mk
    | with_reducible apply keep_getD
    | with_reducible refine keep_fst ‹_ = (_, _)› ?_
    | with_reducible refine keep_of_some ‹_ = some _› ?_
    | with_reducible refine keep_snd ‹_ = (_, _)› ?_
    | split
    | dsimp only
    | with_reducible apply_assumption))

theorem execCompletionWrite_keep {r0 : State} (pair : BitVec 11) (s : State) (hs : Keep r0 s) :
    KeepO r0 (execCompletionWrite pair s) := by
  unfold execCompletionWrite; (repeat' (first
    | with_reducible assumption
    | intro _
    | with_reducible apply State.writeCompletion_keep
    | with_reducible apply keepO_next
    | dsimp only
    | with_reducible apply_assumption))

theorem onCmd_keep {r0 : State} (op : Nat) (pair : BitVec 16) (k : Cmd → State → State) (s : State) (hk : ∀ x0 t, Keep r0 t → Keep r0 (k x0 t)) (hs : Keep r0 s) :
    KeepO r0 (onCmd op pair k s) := by
  unfold onCmd; (repeat' (first
    | with_reducible assumption
    | intro _
    | with_reducible apply keepO_next
    | with_reducible refine keep_fst ‹_ = (_, _)› ?_
    | with_reducible refine keep_of_some ‹_ = some _› ?_
    | with_reducible refine keep_snd ‹_ = (_, _)› ?_
    | split
    | dsimp only
    | with_reducible apply_assumption))

theorem Cmd.ends_keep {r0 : State} (c : Cmd) (status detail value : Nat) (s : State) (hs : Keep r0 s) :
    Keep r0 (Cmd.ends c status detail value s) := by
  unfold Cmd.ends; (repeat' (first
    | with_reducible assumption
    | intro _
    | with_reducible apply State.finish_keep
    | dsimp only
    | with_reducible apply_assumption))

theorem execNop_keep {r0 : State} (pair : BitVec 16) (s : State) (hs : Keep r0 s) :
    KeepO r0 (execNop pair s) := by
  unfold execNop; (repeat' (first
    | with_reducible assumption
    | intro _
    | with_reducible apply onCmd_keep
    | with_reducible apply Cmd.ends_keep
    | dsimp only
    | with_reducible apply_assumption))

theorem State.setQueue_keep {r0 : State} (s : State) (q : Nat) (d : QueueDesc) (hs : Keep r0 s) :
    Keep r0 (State.setQueue s q d) := by
  unfold State.setQueue; (repeat' (first
    | with_reducible assumption
    | intro _
    | fail_if_no_progress with_reducible apply keep_mk
    | dsimp only
    | with_reducible apply_assumption))

theorem State.buildPair_keep {r0 : State} (s : State) (p part : Nat) (b : List Byte) (hs : Keep r0 s) :
    Keep r0 (State.buildPair s p part b) := by
  unfold State.buildPair; (repeat' (first
    | with_reducible assumption
    | intro _
    | with_reducible apply State.setQueue_keep
    | with_reducible apply State.setRegN_keep
    | with_reducible apply State.setReg64_keep
    | with_reducible refine keep_foldl ?_ ?_
    | with_reducible refine keep_foldl_fst ?_ ?_
    | with_reducible refine keep_foldl_snd ?_ ?_
    | dsimp only
    | with_reducible apply_assumption))

theorem State.dropPair_keep {r0 : State} (s : State) (p : Nat) (hs : Keep r0 s) :
    Keep r0 (State.dropPair s p) := by
  unfold State.dropPair; (repeat' (first
    | with_reducible assumption
    | intro _
    | with_reducible apply State.setQueue_keep
    | fail_if_no_progress with_reducible apply keep_mk
    | dsimp only
    | with_reducible apply_assumption))

theorem State.queueConfig_keep {r0 : State} (c : Cmd) (s : State) (hs : Keep r0 s) :
    Keep r0 (State.queueConfig c s) := by
  unfold State.queueConfig; (repeat' (first
    | with_reducible assumption
    | intro _
    | with_reducible apply Cmd.ends_keep
    | with_reducible apply State.finish_keep
    | with_reducible apply State.take_keep
    | with_reducible apply State.dropPair_keep
    | with_reducible apply State.buildPair_keep
    | split
    | dsimp only
    | with_reducible apply_assumption))

theorem execQueueConfig_keep {r0 : State} (pair : BitVec 16) (s : State) (hs : Keep r0 s) :
    KeepO r0 (execQueueConfig pair s) := by
  unfold execQueueConfig; (repeat' (first
    | with_reducible assumption
    | intro _
    | with_reducible apply onCmd_keep
    | with_reducible apply State.queueConfig_keep
    | dsimp only
    | with_reducible apply_assumption))

theorem State.admWrite_keep {r0 : State} (s : State) (en : Bool) (hs : Keep r0 s) :
    Keep r0 (State.admWrite s en) := by
  unfold State.admWrite; (repeat' (first
    | with_reducible assumption
    | intro _
    | with_reducible apply State.dropPair_keep
    | with_reducible apply State.setFld_keep
    | with_reducible apply State.buildPair_keep
    | split
    | dsimp only
    | with_reducible apply_assumption))

theorem execQAdmEnable_keep {r0 : State} (en : Bool) (s : State) (hs : Keep r0 s) :
    KeepO r0 (execQAdmEnable en s) := by
  unfold execQAdmEnable; (repeat' (first
    | with_reducible assumption
    | intro _
    | with_reducible apply hostReg_keep
    | with_reducible apply State.admWrite_keep
    | with_reducible apply keepO_next
    | dsimp only
    | with_reducible apply_assumption))

theorem State.windowOpen_keep {r0 : State} (c : Cmd) (s : State) (hs : Keep r0 s) :
    Keep r0 (State.windowOpen c s) := by
  unfold State.windowOpen; (repeat' (first
    | with_reducible assumption
    | intro _
    | with_reducible apply Cmd.ends_keep
    | with_reducible apply State.finish_keep
    | with_reducible apply State.setReg64_keep
    | with_reducible apply State.setRegN_keep
    | with_reducible refine keep_fst ‹_ = (_, _)› ?_
    | with_reducible refine keep_of_some ‹_ = some _› ?_
    | with_reducible refine keep_snd ‹_ = (_, _)› ?_
    | split
    | dsimp only
    | with_reducible apply_assumption))

theorem execWindowOpen_keep {r0 : State} (pair : BitVec 16) (s : State) (hs : Keep r0 s) :
    KeepO r0 (execWindowOpen pair s) := by
  unfold execWindowOpen; (repeat' (first
    | with_reducible assumption
    | intro _
    | with_reducible apply onCmd_keep
    | with_reducible apply State.windowOpen_keep
    | dsimp only
    | with_reducible apply_assumption))

theorem State.windowClose_keep {r0 : State} (c : Cmd) (s : State) (hs : Keep r0 s) :
    Keep r0 (State.windowClose c s) := by
  unfold State.windowClose; (repeat' (first
    | with_reducible assumption
    | intro _
    | with_reducible apply Cmd.ends_keep
    | with_reducible apply State.finish_keep
    | with_reducible apply State.setFld_keep
    | split
    | dsimp only
    | with_reducible apply_assumption))

theorem execWindowClose_keep {r0 : State} (pair : BitVec 16) (s : State) (hs : Keep r0 s) :
    KeepO r0 (execWindowClose pair s) := by
  unfold execWindowClose; (repeat' (first
    | with_reducible assumption
    | intro _
    | with_reducible apply onCmd_keep
    | with_reducible apply State.windowClose_keep
    | dsimp only
    | with_reducible apply_assumption))

end Sys2Proof.Machine
end

