-- ==== Sys2Proof/Laws/KeepStreams.lean ====
section
/-! SUPPORT. What the operations and meanings of Machine/Streams keep (Laws/Keep). -/
namespace Sys2Proof.Machine

set_option linter.unusedTactic false
set_option linter.unreachableTactic false

theorem State.strmError_keep {r0 : State} (s : State) (e : Fin 8) (q cause fcause origin : Nat) (hs : Keep r0 s) :
    Keep r0 (State.strmError s e q cause fcause origin) := by
  unfold State.strmError; (repeat' (first
    | with_reducible assumption
    | intro _
    | with_reducible apply State.modEng_keep
    | with_reducible apply State.unitError_keep
    | fail_if_no_progress with_reducible apply keep_mk
    | split
    | dsimp only
    | with_reducible apply_assumption))

theorem State.startStrm_keep {r0 : State} (s : State) (e : Fin 8) (q kind : Nat) (k : State → Queued → State) (hs : Keep r0 s) (hk : ∀ t x0, Keep r0 t → Keep r0 (k t x0)) :
    Keep r0 (State.startStrm s e q kind k) := by
  unfold State.startStrm; (repeat' (first
    | with_reducible assumption
    | intro _
    | with_reducible apply State.dequeue_keep
    | with_reducible apply State.strmError_keep
    | with_reducible refine keep_fst ‹_ = (_, _)› ?_
    | with_reducible refine keep_of_some ‹_ = some _› ?_
    | with_reducible refine keep_snd ‹_ = (_, _)› ?_
    | split
    | dsimp only
    | with_reducible apply_assumption))

theorem State.strmBegin_keep {r0 : State} (s : State) (e : Fin 8) (d : Queued) (wrote : List (Nat × Nat)) (ops : Nat) (err : Option (Nat × Nat × Nat)) (hs : Keep r0 s) :
    Keep r0 (State.strmBegin s e d wrote ops err) := by
  unfold State.strmBegin; (repeat' (first
    | with_reducible assumption
    | intro _
    | with_reducible apply State.modEng_keep
    | fail_if_no_progress with_reducible apply keep_mk
    | dsimp only
    | with_reducible apply_assumption))

theorem State.sideRead_keep {r0 : State} (s : State) (side : Side) (e : Fin 8) (rs : List (Nat × Nat)) (hs : Keep r0 s) :
    Keep r0 (State.sideRead s side e rs).1 := by
  unfold State.sideRead; (repeat' (first
    | with_reducible assumption
    | intro _
    | with_reducible apply State.touchAll_keep
    | with_reducible apply State.reach_keep
    | with_reducible refine keep_fst ‹_ = (_, _)› ?_
    | with_reducible refine keep_of_some ‹_ = some _› ?_
    | with_reducible refine keep_snd ‹_ = (_, _)› ?_
    | split
    | dsimp only
    | with_reducible apply_assumption))

theorem State.passFar_keep {r0 : State} (s : State) (side : Side) (hs : Keep r0 s) :
    Keep r0 (State.passFar s side) := by
  unfold State.passFar; (repeat' (first
    | with_reducible assumption
    | intro _
    | fail_if_no_progress with_reducible apply keep_mk
    | split
    | dsimp only
    | with_reducible apply_assumption))

theorem State.xferRows_keep {r0 : State} (s : State) (e : Fin 8) (t : Xfer) (old : Nat → Byte) (l0 : List (Nat × Nat × Nat)) (l1 : Img) (hs : Keep r0 s) :
    Keep r0 (State.xferRows s e t old l0 l1).1 := by
  revert hs
  fun_induction State.xferRows s e t old l0 l1
  all_goals (intros; (repeat' (first
    | with_reducible assumption
    | intro _
    | with_reducible apply State.sideRead_keep
    | fail_if_no_progress with_reducible apply keep_mk
    | with_reducible refine keep_foldl ?_ ?_
    | with_reducible refine keep_foldl_fst ?_ ?_
    | with_reducible refine keep_foldl_snd ?_ ?_
    | with_reducible refine keep_fst ‹_ = (_, _)› ?_
    | with_reducible refine keep_of_some ‹_ = some _› ?_
    | with_reducible refine keep_snd ‹_ = (_, _)› ?_
    | split
    | dsimp only
    | with_reducible apply_assumption)))

theorem State.writeRuns_keep {r0 : State} (s : State) (e : Fin 8) (l0 : List (Nat × List Byte)) (hs : Keep r0 s) :
    Keep r0 (State.writeRuns s e l0).1 := by
  revert hs
  fun_induction State.writeRuns s e l0
  all_goals (intros; (repeat' (first
    | with_reducible assumption
    | intro _
    | with_reducible apply State.write_keep
    | with_reducible refine keep_fst ‹_ = (_, _)› ?_
    | with_reducible refine keep_of_some ‹_ = some _› ?_
    | with_reducible refine keep_snd ‹_ = (_, _)› ?_
    | split
    | dsimp only
    | with_reducible apply_assumption)))

theorem State.overlap_keep {r0 : State} (s : State) (e : Fin 8) (t : Xfer) (bytes : List (Nat × Byte)) (hs : Keep r0 s) :
    Keep r0 (State.overlap s e t bytes) := by
  unfold State.overlap; (repeat' (first
    | with_reducible assumption
    | intro _
    | with_reducible apply State.undefAll_keep
    | with_reducible refine keep_fst ‹_ = (_, _)› ?_
    | with_reducible refine keep_of_some ‹_ = some _› ?_
    | with_reducible refine keep_snd ‹_ = (_, _)› ?_
    | split
    | dsimp only
    | with_reducible apply_assumption))

theorem State.prismCounts_keep {r0 : State} (s : State) (e : Fin 8) (m : Img) (hs : Keep r0 s) :
    Keep r0 (State.prismCounts s e m) := by
  unfold State.prismCounts; (repeat' (first
    | with_reducible assumption
    | intro _
    | with_reducible apply State.countUp_keep
    | dsimp only
    | with_reducible apply_assumption))

theorem State.loadPairs_keep {r0 : State} (s : State) (e : Fin 8) (stream : Nat) (side : Side) (i : Nat) (l0 : List (Nat × Nat)) (hs : Keep r0 s) :
    Keep r0 (State.loadPairs s e stream side i l0) := by
  revert hs
  fun_induction State.loadPairs s e stream side i l0
  all_goals (intros; (repeat' (first
    | with_reducible assumption
    | intro _
    | with_reducible apply State.pairCheck_keep
    | with_reducible refine keep_fst ‹_ = (_, _)› ?_
    | with_reducible refine keep_of_some ‹_ = some _› ?_
    | with_reducible refine keep_snd ‹_ = (_, _)› ?_
    | split
    | dsimp only
    | with_reducible apply_assumption)))

theorem State.loadEnd_keep {r0 : State} (s : State) (e : Fin 8) (d : Queued) (q : Nat) (t : Xfer) (m : Img) (fail : Option (Nat × Nat)) (hs : Keep r0 s) :
    Keep r0 (State.loadEnd s e d q t m fail) := by
  unfold State.loadEnd; (repeat' (first
    | with_reducible assumption
    | intro _
    | with_reducible apply State.check_keep
    | with_reducible apply State.strmError_keep
    | with_reducible apply State.writeRuns_keep
    | with_reducible apply State.overlap_keep
    | with_reducible apply State.prismCounts_keep
    | with_reducible apply State.setFld_keep
    | with_reducible apply State.strmBegin_keep
    | with_reducible apply State.countUp_keep
    | with_reducible apply State.loadPairs_keep
    | with_reducible apply State.passFar_keep
    | with_reducible apply State.failOp_keep
    | with_reducible refine keep_fst ‹_ = (_, _)› ?_
    | with_reducible refine keep_of_some ‹_ = some _› ?_
    | with_reducible refine keep_snd ‹_ = (_, _)› ?_
    | split
    | dsimp only
    | with_reducible apply_assumption))

theorem State.readShape_keep {r0 : State} (s : State) (e : Fin 8) (off : Nat) (hs : Keep r0 s) :
    Keep r0 (State.readShape s e off).1 := by
  unfold State.readShape; (repeat' (first
    | with_reducible assumption
    | intro _
    | with_reducible apply State.read_keep
    | with_reducible refine keep_fst ‹_ = (_, _)› ?_
    | with_reducible refine keep_of_some ‹_ = some _› ?_
    | with_reducible refine keep_snd ‹_ = (_, _)› ?_
    | split
    | dsimp only
    | with_reducible apply_assumption))

theorem State.runLoad_keep {r0 : State} (e : Fin 8) (q : Nat) (s : State) (d : Queued) (hs : Keep r0 s) :
    Keep r0 (State.runLoad e q s d) := by
  unfold State.runLoad; (repeat' (first
    | with_reducible assumption
    | intro _
    | with_reducible apply State.readShape_keep
    | with_reducible apply State.strmError_keep
    | with_reducible apply State.strmBegin_keep
    | with_reducible apply State.check_keep
    | with_reducible apply State.read_keep
    | with_reducible apply State.loadEnd_keep
    | with_reducible apply State.xferRows_keep
    | fail_if_no_progress with_reducible apply keep_mk
    | with_reducible refine keep_fst ‹_ = (_, _)› ?_
    | with_reducible refine keep_of_some ‹_ = some _› ?_
    | with_reducible refine keep_snd ‹_ = (_, _)› ?_
    | split
    | dsimp only
    | with_reducible apply_assumption))

theorem State.pushItems_keep {r0 : State} (s : State) (xs : List FabItem) (hs : Keep r0 s) :
    Keep r0 (State.pushItems s xs) := by
  unfold State.pushItems; (repeat' (first
    | with_reducible assumption
    | intro _
    | fail_if_no_progress with_reducible apply keep_mk
    | dsimp only
    | with_reducible apply_assumption))

theorem State.sendOps_keep {r0 : State} (s : State) (e : Fin 8) (d : Queued) (q : Nat) (items : List FabItem) (fail : Option (Nat × Nat)) (wrote : List (Nat × Nat) := []) (hs : Keep r0 s) :
    Keep r0 (State.sendOps s e d q items fail wrote) := by
  unfold State.sendOps; (repeat' (first
    | with_reducible assumption
    | intro _
    | with_reducible apply State.strmError_keep
    | with_reducible apply State.strmBegin_keep
    | with_reducible apply State.pushItems_keep
    | with_reducible refine keep_fst ‹_ = (_, _)› ?_
    | with_reducible refine keep_of_some ‹_ = some _› ?_
    | with_reducible refine keep_snd ‹_ = (_, _)› ?_
    | split
    | dsimp only
    | with_reducible apply_assumption))

theorem State.emptyStore_keep {r0 : State} (s : State) (e : Fin 8) (d : Queued) (q : Nat) (x : StrmD) (hs : Keep r0 s) :
    Keep r0 (State.emptyStore s e d q x) := by
  unfold State.emptyStore; (repeat' (first
    | with_reducible assumption
    | intro _
    | with_reducible apply State.sendOps_keep
    | with_reducible apply State.strmBegin_keep
    | fail_if_no_progress with_reducible apply keep_mk
    | split
    | dsimp only
    | with_reducible apply_assumption))

theorem State.runStore_keep {r0 : State} (e : Fin 8) (q : Nat) (s : State) (d : Queued) (hs : Keep r0 s) :
    Keep r0 (State.runStore e q s d) := by
  unfold State.runStore; (repeat' (first
    | with_reducible assumption
    | intro _
    | with_reducible apply State.readShape_keep
    | with_reducible apply State.strmError_keep
    | with_reducible apply State.emptyStore_keep
    | with_reducible apply State.check_keep
    | with_reducible apply State.xferRows_keep
    | with_reducible apply State.sendOps_keep
    | fail_if_no_progress with_reducible apply keep_mk
    | with_reducible refine keep_fst ‹_ = (_, _)› ?_
    | with_reducible refine keep_of_some ‹_ = some _› ?_
    | with_reducible refine keep_snd ‹_ = (_, _)› ?_
    | split
    | dsimp only
    | with_reducible apply_assumption))

theorem State.moveIn_keep {r0 : State} (s : State) (e : Fin 8) (side : Side) (stream seq addr dst n : Nat) (ok : List Byte → Option (Nat × Nat)) (hs : Keep r0 s) :
    Keep r0 (State.moveIn s e side stream seq addr dst n ok).1 := by
  unfold State.moveIn; (repeat' (first
    | with_reducible assumption
    | intro _
    | with_reducible apply State.sideRead_keep
    | with_reducible apply State.pairCheck_keep
    | with_reducible apply State.passFar_keep
    | with_reducible apply State.write_keep
    | with_reducible refine keep_fst ‹_ = (_, _)› ?_
    | with_reducible refine keep_of_some ‹_ = some _› ?_
    | with_reducible refine keep_snd ‹_ = (_, _)› ?_
    | split
    | dsimp only
    | with_reducible apply_assumption))

theorem State.strmSkew_keep {r0 : State} (s : State) (e : Fin 8) (q : Nat) (x : StrmD) (i found : Nat) (hs : Keep r0 s) :
    Keep r0 (State.strmSkew s e q x i found) := by
  unfold State.strmSkew; (repeat' (first
    | with_reducible assumption
    | intro _
    | with_reducible apply State.recordSkew_keep
    | dsimp only
    | with_reducible apply_assumption))

theorem State.ploadFrom_keep {r0 : State} (s : State) (e : Fin 8) (q : Nat) (x : StrmD) (da ra : Side) (fuel : Nat) (i : Nat) (hs : Keep r0 s) :
    Keep r0 (State.ploadFrom s e q x da ra fuel i).1 := by
  revert hs
  fun_induction State.ploadFrom s e q x da ra fuel i
  all_goals (intros; (repeat' (first
    | with_reducible assumption
    | intro _
    | with_reducible apply State.moveIn_keep
    | with_reducible apply State.strmSkew_keep
    | with_reducible refine keep_fst ‹_ = (_, _)› ?_
    | with_reducible refine keep_of_some ‹_ = some _› ?_
    | with_reducible refine keep_snd ‹_ = (_, _)› ?_
    | split
    | dsimp only
    | with_reducible apply_assumption)))

theorem State.runPload_keep {r0 : State} (e : Fin 8) (q : Nat) (s : State) (d : Queued) (hs : Keep r0 s) :
    Keep r0 (State.runPload e q s d) := by
  unfold State.runPload; (repeat' (first
    | with_reducible assumption
    | intro _
    | with_reducible apply State.strmBegin_keep
    | with_reducible apply State.strmError_keep
    | with_reducible apply State.ploadFrom_keep
    | with_reducible apply State.failOp_keep
    | with_reducible refine keep_fst ‹_ = (_, _)› ?_
    | with_reducible refine keep_of_some ‹_ = some _› ?_
    | with_reducible refine keep_snd ‹_ = (_, _)› ?_
    | split
    | dsimp only
    | with_reducible apply_assumption))

theorem State.pstoreFrom_keep {r0 : State} (s : State) (e : Fin 8) (q : Nat) (x : StrmD) (fuel : Nat) (i : Nat) (hs : Keep r0 s) :
    Keep r0 (State.pstoreFrom s e q x fuel i).1 := by
  revert hs
  fun_induction State.pstoreFrom s e q x fuel i
  all_goals (intros; (repeat' (first
    | with_reducible assumption
    | intro _
    | with_reducible apply State.read_keep
    | with_reducible apply State.strmSkew_keep
    | with_reducible refine keep_fst ‹_ = (_, _)› ?_
    | with_reducible refine keep_of_some ‹_ = some _› ?_
    | with_reducible refine keep_snd ‹_ = (_, _)› ?_
    | split
    | dsimp only
    | with_reducible apply_assumption)))

theorem State.runPstore_keep {r0 : State} (e : Fin 8) (q : Nat) (s : State) (d : Queued) (hs : Keep r0 s) :
    Keep r0 (State.runPstore e q s d) := by
  unfold State.runPstore; (repeat' (first
    | with_reducible assumption
    | intro _
    | with_reducible apply State.emptyStore_keep
    | with_reducible apply State.strmError_keep
    | with_reducible apply State.pstoreFrom_keep
    | with_reducible apply State.sendOps_keep
    | split
    | dsimp only
    | with_reducible apply_assumption))

theorem State.noteFadd_keep {r0 : State} (s : State) (e : Fin 8) (h : Hdr) (hs : Keep r0 s) :
    Keep r0 (State.noteFadd s e h) := by
  unfold State.noteFadd; (repeat' (first
    | with_reducible assumption
    | intro _
    | with_reducible apply State.modCmd_keep
    | fail_if_no_progress with_reducible apply keep_mk
    | with_reducible refine keep_fst ‹_ = (_, _)› ?_
    | with_reducible refine keep_of_some ‹_ = some _› ?_
    | with_reducible refine keep_snd ‹_ = (_, _)› ?_
    | split
    | dsimp only
    | with_reducible apply_assumption))

theorem State.runRmo_keep {r0 : State} (e : Fin 8) (q : Nat) (s : State) (d : Queued) (hs : Keep r0 s) :
    Keep r0 (State.runRmo e q s d) := by
  unfold State.runRmo; (repeat' (first
    | with_reducible assumption
    | intro _
    | with_reducible apply State.strmError_keep
    | with_reducible apply State.noteFadd_keep
    | with_reducible apply State.sendOps_keep
    | fail_if_no_progress with_reducible apply keep_mk
    | with_reducible refine keep_fst ‹_ = (_, _)› ?_
    | with_reducible refine keep_of_some ‹_ = some _› ?_
    | with_reducible refine keep_snd ‹_ = (_, _)› ?_
    | split
    | dsimp only
    | with_reducible apply_assumption))

theorem execLoad_keep {r0 : State} (e : Fin 8) (q : BitVec 10) (s : State) (hs : Keep r0 s) :
    KeepO r0 (execLoad e q s) := by
  unfold execLoad; (repeat' (first
    | with_reducible assumption
    | intro _
    | with_reducible apply State.startStrm_keep
    | with_reducible apply State.runLoad_keep
    | with_reducible apply keepO_next
    | dsimp only
    | with_reducible apply_assumption))

theorem execStore_keep {r0 : State} (e : Fin 8) (q : BitVec 10) (s : State) (hs : Keep r0 s) :
    KeepO r0 (execStore e q s) := by
  unfold execStore; (repeat' (first
    | with_reducible assumption
    | intro _
    | with_reducible apply State.startStrm_keep
    | with_reducible apply State.runStore_keep
    | with_reducible apply keepO_next
    | dsimp only
    | with_reducible apply_assumption))

theorem execPload_keep {r0 : State} (e : Fin 8) (q : BitVec 10) (s : State) (hs : Keep r0 s) :
    KeepO r0 (execPload e q s) := by
  unfold execPload; (repeat' (first
    | with_reducible assumption
    | intro _
    | with_reducible apply State.startStrm_keep
    | with_reducible apply State.runPload_keep
    | with_reducible apply keepO_next
    | dsimp only
    | with_reducible apply_assumption))

theorem execPstore_keep {r0 : State} (e : Fin 8) (q : BitVec 10) (s : State) (hs : Keep r0 s) :
    KeepO r0 (execPstore e q s) := by
  unfold execPstore; (repeat' (first
    | with_reducible assumption
    | intro _
    | with_reducible apply State.startStrm_keep
    | with_reducible apply State.runPstore_keep
    | with_reducible apply keepO_next
    | dsimp only
    | with_reducible apply_assumption))

theorem execRmo_keep {r0 : State} (e : Fin 8) (q : BitVec 10) (s : State) (hs : Keep r0 s) :
    KeepO r0 (execRmo e q s) := by
  unfold execRmo; (repeat' (first
    | with_reducible assumption
    | intro _
    | with_reducible apply State.startStrm_keep
    | with_reducible apply State.runRmo_keep
    | with_reducible apply keepO_next
    | dsimp only
    | with_reducible apply_assumption))

theorem execStreamDescComplete_keep {r0 : State} (e : Fin 8) (q : BitVec 10) (s : State) (hs : Keep r0 s) :
    KeepO r0 (execStreamDescComplete e q s) := by
  unfold execStreamDescComplete; (repeat' (first
    | with_reducible assumption
    | intro _
    | with_reducible apply State.completeDesc_keep
    | with_reducible apply keepO_next
    | with_reducible refine keep_fst ‹_ = (_, _)› ?_
    | with_reducible refine keep_of_some ‹_ = some _› ?_
    | with_reducible refine keep_snd ‹_ = (_, _)› ?_
    | split
    | dsimp only
    | with_reducible apply_assumption))

theorem execQueueAging_keep {r0 : State} (e : Fin 8) (q : BitVec 10) (s : State) (hs : Keep r0 s) :
    KeepO r0 (execQueueAging e q s) := by
  unfold execQueueAging; (repeat' (first
    | with_reducible assumption
    | intro _
    | with_reducible apply State.modEng_keep
    | fail_if_no_progress with_reducible apply keep_mk
    | with_reducible apply keepO_next
    | split
    | dsimp only
    | with_reducible apply_assumption))

theorem State.prismClr_keep {r0 : State} (s : State) (e : Fin 8) (hs : Keep r0 s) :
    Keep r0 (State.prismClr s e) := by
  unfold State.prismClr; (repeat' (first
    | with_reducible assumption
    | intro _
    | with_reducible apply State.setRegN_keep
    | with_reducible refine keep_foldl ?_ ?_
    | with_reducible refine keep_foldl_fst ?_ ?_
    | with_reducible refine keep_foldl_snd ?_ ?_
    | dsimp only
    | with_reducible apply_assumption))

theorem execPrismCntClr_keep {r0 : State} (src : BitVec 8) (e : Fin 8) (s : State) (hs : Keep r0 s) :
    KeepO r0 (execPrismCntClr src e s) := by
  unfold execPrismCntClr; (repeat' (first
    | with_reducible assumption
    | intro _
    | with_reducible apply anchorWrite_keep
    | with_reducible apply State.prismClr_keep
    | with_reducible apply keepO_next
    | dsimp only
    | with_reducible apply_assumption))

end Sys2Proof.Machine
end

