-- ==== Sys2Proof/Laws/KeepFabOps.lean ====
section
/-! SUPPORT. What the operations and meanings of Machine/FabOps keep (Laws/Keep). -/
namespace Sys2Proof.Machine

set_option linter.unusedTactic false
set_option linter.unreachableTactic false

theorem State.hold_keep {r0 : State} (s : State) (i : Ingress) (hs : Keep r0 s) :
    Keep r0 (State.hold s i) := by
  unfold State.hold; (repeat' (first
    | with_reducible assumption
    | intro _
    | fail_if_no_progress with_reducible apply keep_mk
    | dsimp only
    | with_reducible apply_assumption))

theorem State.arrive_keep {r0 : State} (s : State) (du : Nat) (x : FabItem) (hs : Keep r0 s) :
    Keep r0 (State.arrive s du x) := by
  unfold State.arrive; (repeat' (first
    | with_reducible assumption
    | intro _
    | fail_if_no_progress with_reducible apply keep_mk
    | with_reducible refine keep_fst ‹_ = (_, _)› ?_
    | with_reducible refine keep_of_some ‹_ = some _› ?_
    | with_reducible refine keep_snd ‹_ = (_, _)› ?_
    | split
    | dsimp only
    | with_reducible apply_assumption))

theorem State.failItem_keep {r0 : State} (s : State) (du : Nat) (x : FabItem) (cause : Nat) (hs : Keep r0 s) :
    Keep r0 (State.failItem s du x cause) := by
  unfold State.failItem; (repeat' (first
    | with_reducible assumption
    | intro _
    | with_reducible apply State.arrive_keep
    | with_reducible apply State.failOp_keep
    | split
    | dsimp only
    | with_reducible apply_assumption))

theorem State.dropHeld_keep {r0 : State} (s : State) (u stream : Nat) (hs : Keep r0 s) :
    Keep r0 (State.dropHeld s u stream) := by
  unfold State.dropHeld; (repeat' (first
    | with_reducible assumption
    | intro _
    | with_reducible apply State.failItem_keep
    | fail_if_no_progress with_reducible apply keep_mk
    | with_reducible refine keep_foldl ?_ ?_
    | with_reducible refine keep_foldl_fst ?_ ?_
    | with_reducible refine keep_foldl_snd ?_ ?_
    | dsimp only
    | with_reducible apply_assumption))

theorem State.deregister_keep {r0 : State} (s : State) (u k : Nat) (hs : Keep r0 s) :
    Keep r0 (State.deregister s u k) := by
  unfold State.deregister; (repeat' (first
    | with_reducible assumption
    | intro _
    | with_reducible apply State.setFld_keep
    | with_reducible apply State.dropHeld_keep
    | dsimp only
    | with_reducible apply_assumption))

theorem State.withoutStream_keep {r0 : State} (s : State) (u stream : Nat) (hs : Keep r0 s) :
    Keep r0 (State.withoutStream s u stream) := by
  unfold State.withoutStream; (repeat' (first
    | with_reducible assumption
    | intro _
    | with_reducible apply State.deregister_keep
    | with_reducible refine keep_fst ‹_ = (_, _)› ?_
    | with_reducible refine keep_of_some ‹_ = some _› ?_
    | with_reducible refine keep_snd ‹_ = (_, _)› ?_
    | split
    | dsimp only
    | with_reducible apply_assumption))

theorem State.register_keep {r0 : State} (s : State) (u stream esc mx win nextSeq : Nat) (hs : Keep r0 s) :
    KeepOpt r0 (State.register s u stream esc mx win nextSeq) := by
  unfold State.register; (repeat' (first
    | with_reducible assumption
    | intro _
    | with_reducible apply State.withoutStream_keep
    | with_reducible apply State.setRegN_keep
    | with_reducible apply keepOpt_some
    | with_reducible apply keepOpt_none
    | with_reducible refine keepOpt_bind ?_ ?_
    | with_reducible refine keepOpt_bindA ?_
    | with_reducible refine keepOpt_map ?_
    | with_reducible refine keep_fst ‹_ = (_, _)› ?_
    | with_reducible refine keep_of_some ‹_ = some _› ?_
    | with_reducible refine keep_snd ‹_ = (_, _)› ?_
    | split
    | dsimp only
    | with_reducible apply_assumption))

theorem State.registerAll_keep {r0 : State} (s : State) (l0 : List (Nat × Nat × Nat × Nat × Nat)) (hs : Keep r0 s) :
    KeepOpt r0 (State.registerAll s l0) := by
  revert hs
  induction l0 generalizing s with
  | nil => exact fun hs => keepOpt_some hs
  | cons x l ih =>
    intro hs; unfold State.registerAll; split
    · exact ih _ (keep_of_some ‹_ = some _› (State.register_keep _ _ _ _ _ _ _ hs))
    · exact keepOpt_none

theorem State.rewindOrdered_keep {r0 : State} (s : State) (c : Cmd) (hs : Keep r0 s) :
    Keep r0 (State.rewindOrdered s c) := by
  unfold State.rewindOrdered; (repeat' (first
    | with_reducible assumption
    | intro _
    | with_reducible apply State.deregister_keep
    | with_reducible apply State.setFld_keep
    | with_reducible refine keep_foldl ?_ ?_
    | with_reducible refine keep_foldl_fst ?_ ?_
    | with_reducible refine keep_foldl_snd ?_ ?_
    | with_reducible refine keep_fst ‹_ = (_, _)› ?_
    | with_reducible refine keep_of_some ‹_ = some _› ?_
    | with_reducible refine keep_snd ‹_ = (_, _)› ?_
    | split
    | dsimp only
    | with_reducible apply_assumption))

end Sys2Proof.Machine
end

