-- ==== Sys2Proof/Laws/KeepVector.lean ====
section
/-! SUPPORT. What the operations and meanings of Machine/Vector keep (Laws/Keep). -/
namespace Sys2Proof.Machine

set_option linter.unusedTactic false
set_option linter.unreachableTactic false

/-- The state that `d` carries is kept. -/
def KeepV (r : State) : DirOut → Prop
  | .err s _ => Keep r s
  | .ok s _ _ _ => Keep r s

theorem keepV_ok {r s : State} {a b c} (h : Keep r s) : KeepV r (.ok s a b c) := h

theorem keepV_err {r s : State} {c} (h : Keep r s) : KeepV r (.err s c) := h

theorem keepV_of_ok {r s : State} {a b c} {d : DirOut} (e : d = .ok s a b c) (h : KeepV r d) : Keep r s := by
  subst e; exact h

theorem keepV_of_err {r s : State} {c} {d : DirOut} (e : d = .err s c) (h : KeepV r d) : Keep r s := by
  subst e; exact h

theorem State.vecCount_keep {r0 : State} (s : State) (e : Fin 8) (k n : Nat) (hs : Keep r0 s) :
    Keep r0 (State.vecCount s e k n) := by
  unfold State.vecCount; (repeat' (first
    | with_reducible assumption
    | intro _
    | with_reducible apply State.countUp_keep
    | split
    | dsimp only
    | with_reducible apply_assumption))

theorem State.toVd_keep {r0 : State} (s : State) (e : Fin 8) (f : DirectF) (c : Nat) (codes : List Nat) (hs : Keep r0 s) :
    KeepV r0 (State.toVd s e f c codes) := by
  unfold State.toVd; (repeat' (first
    | with_reducible assumption
    | intro _
    | with_reducible apply State.modEng_keep
    | with_reducible apply keepV_ok
    | with_reducible apply keepV_err
    | with_reducible refine keepV_of_ok ‹_ = _› ?_
    | with_reducible refine keepV_of_err ‹_ = _› ?_
    | dsimp only
    | with_reducible apply_assumption))

theorem State.vecArith_keep {r0 : State} (s : State) (e : Fin 8) (op : Nat) (f : DirectF) (hs : Keep r0 s) :
    KeepV r0 (State.vecArith s e op f) := by
  unfold State.vecArith; (repeat' (first
    | with_reducible assumption
    | intro _
    | with_reducible apply State.toVd_keep
    | with_reducible apply keep_getD
    | with_reducible refine keep_fst ‹_ = (_, _)› ?_
    | with_reducible refine keep_of_some ‹_ = some _› ?_
    | with_reducible refine keep_snd ‹_ = (_, _)› ?_
    | split
    | with_reducible apply keepV_ok
    | with_reducible apply keepV_err
    | with_reducible refine keepV_of_ok ‹_ = _› ?_
    | with_reducible refine keepV_of_err ‹_ = _› ?_
    | dsimp only
    | with_reducible apply_assumption))

theorem State.vBcast_keep {r0 : State} (s : State) (e : Fin 8) (f : DirectF) (xa : Word) (hs : Keep r0 s) :
    KeepV r0 (State.vBcast s e f xa) := by
  unfold State.vBcast; (repeat' (first
    | with_reducible assumption
    | intro _
    | with_reducible apply State.toVd_keep
    | with_reducible apply keepV_ok
    | with_reducible apply keepV_err
    | with_reducible refine keepV_of_ok ‹_ = _› ?_
    | with_reducible refine keepV_of_err ‹_ = _› ?_
    | dsimp only
    | with_reducible apply_assumption))

theorem State.vLd_keep {r0 : State} (s : State) (e : Fin 8) (f : DirectF) (xa : Word) (hs : Keep r0 s) :
    KeepV r0 (State.vLd s e f xa) := by
  unfold State.vLd; (repeat' (first
    | with_reducible assumption
    | intro _
    | with_reducible apply State.read_keep
    | with_reducible apply State.toVd_keep
    | with_reducible refine keep_fst ‹_ = (_, _)› ?_
    | with_reducible refine keep_of_some ‹_ = some _› ?_
    | with_reducible refine keep_snd ‹_ = (_, _)› ?_
    | split
    | with_reducible apply keepV_ok
    | with_reducible apply keepV_err
    | with_reducible refine keepV_of_ok ‹_ = _› ?_
    | with_reducible refine keepV_of_err ‹_ = _› ?_
    | dsimp only
    | with_reducible apply_assumption))

theorem State.vSt_keep {r0 : State} (s : State) (e : Fin 8) (f : DirectF) (xa : Word) (hs : Keep r0 s) :
    KeepV r0 (State.vSt s e f xa) := by
  unfold State.vSt; (repeat' (first
    | with_reducible assumption
    | intro _
    | with_reducible apply State.write_keep
    | with_reducible refine keep_fst ‹_ = (_, _)› ?_
    | with_reducible refine keep_of_some ‹_ = some _› ?_
    | with_reducible refine keep_snd ‹_ = (_, _)› ?_
    | split
    | with_reducible apply keepV_ok
    | with_reducible apply keepV_err
    | with_reducible refine keepV_of_ok ‹_ = _› ?_
    | with_reducible refine keepV_of_err ‹_ = _› ?_
    | dsimp only
    | with_reducible apply_assumption))

theorem State.vLdt_keep {r0 : State} (s : State) (e : Fin 8) (f : DirectF) (xa : Word) (hs : Keep r0 s) :
    KeepV r0 (State.vLdt s e f xa) := by
  unfold State.vLdt; (repeat' (first
    | with_reducible assumption
    | intro _
    | with_reducible apply State.read_keep
    | with_reducible apply State.modEng_keep
    | fail_if_no_progress with_reducible apply keep_mk
    | with_reducible refine keep_fst ‹_ = (_, _)› ?_
    | with_reducible refine keep_of_some ‹_ = some _› ?_
    | with_reducible refine keep_snd ‹_ = (_, _)› ?_
    | split
    | with_reducible apply keepV_ok
    | with_reducible apply keepV_err
    | with_reducible refine keepV_of_ok ‹_ = _› ?_
    | with_reducible refine keepV_of_err ‹_ = _› ?_
    | dsimp only
    | with_reducible apply_assumption))

theorem State.vStt_keep {r0 : State} (s : State) (e : Fin 8) (f : DirectF) (xa : Word) (hs : Keep r0 s) :
    KeepV r0 (State.vStt s e f xa) := by
  unfold State.vStt; extract_lets a bs
  split
  · exact keepV_err hs
  · split
    · exact keepV_ok hs
    · split
      · exact keepV_err (keep_fst ‹_ = (_, _)› (State.write_keep _ _ _ hs))
      · exact keepV_ok (keep_fst ‹_ = (_, _)› (State.write_keep _ _ _ hs))

theorem State.vTget_keep {r0 : State} (s : State) (e : Fin 8) (f : DirectF) (hs : Keep r0 s) :
    KeepV r0 (State.vTget s e f) := by
  unfold State.vTget; (repeat' (first
    | with_reducible assumption
    | intro _
    | with_reducible apply State.toVd_keep
    | with_reducible apply keepV_ok
    | with_reducible apply keepV_err
    | with_reducible refine keepV_of_ok ‹_ = _› ?_
    | with_reducible refine keepV_of_err ‹_ = _› ?_
    | dsimp only
    | with_reducible apply_assumption))

theorem State.vTput_keep {r0 : State} (s : State) (e : Fin 8) (f : DirectF) (hs : Keep r0 s) :
    KeepV r0 (State.vTput s e f) := by
  unfold State.vTput; (repeat' (first
    | with_reducible assumption
    | intro _
    | with_reducible apply State.modEng_keep
    | with_reducible refine keep_foldl ?_ ?_
    | with_reducible refine keep_foldl_fst ?_ ?_
    | with_reducible refine keep_foldl_snd ?_ ?_
    | with_reducible apply keepV_ok
    | with_reducible apply keepV_err
    | with_reducible refine keepV_of_ok ‹_ = _› ?_
    | with_reducible refine keepV_of_err ‹_ = _› ?_
    | dsimp only
    | with_reducible apply_assumption))

theorem State.vPerm_keep {r0 : State} (s : State) (e : Fin 8) (f : DirectF) (hs : Keep r0 s) :
    KeepV r0 (State.vPerm s e f) := by
  unfold State.vPerm; (repeat' (first
    | with_reducible assumption
    | intro _
    | with_reducible apply State.vecCount_keep
    | with_reducible apply State.toVd_keep
    | with_reducible apply keep_getD
    | with_reducible apply keepV_ok
    | with_reducible apply keepV_err
    | with_reducible refine keepV_of_ok ‹_ = _› ?_
    | with_reducible refine keepV_of_err ‹_ = _› ?_
    | dsimp only
    | with_reducible apply_assumption))

theorem State.checkLines_keep {r0 : State} (s : State) (e : Fin 8) (offs : List Nat) (hs : Keep r0 s) :
    Keep r0 (State.checkLines s e offs).1 := by
  unfold State.checkLines; (repeat' (first
    | with_reducible assumption
    | intro _
    | with_reducible apply State.checkAll_keep
    | dsimp only
    | with_reducible apply_assumption))

theorem State.vGather_keep {r0 : State} (s : State) (e : Fin 8) (f : DirectF) (xa : Word) (hs : Keep r0 s) :
    KeepV r0 (State.vGather s e f xa) := by
  unfold State.vGather; (repeat' (first
    | with_reducible assumption
    | intro _
    | with_reducible apply State.checkLines_keep
    | with_reducible apply State.vecCount_keep
    | with_reducible apply State.toVd_keep
    | with_reducible refine keep_fst ‹_ = (_, _)› ?_
    | with_reducible refine keep_of_some ‹_ = some _› ?_
    | with_reducible refine keep_snd ‹_ = (_, _)› ?_
    | split
    | with_reducible apply keepV_ok
    | with_reducible apply keepV_err
    | with_reducible refine keepV_of_ok ‹_ = _› ?_
    | with_reducible refine keepV_of_err ‹_ = _› ?_
    | dsimp only
    | with_reducible apply_assumption))

theorem State.scatter_keep {r0 : State} (s : State) (e : Fin 8) (n : Nat) (l0 : List (Nat × Nat)) (hs : Keep r0 s) :
    Keep r0 (State.scatter s e n l0).1 := by
  revert hs
  fun_induction State.scatter s e n l0
  all_goals (intros; (repeat' (first
    | with_reducible assumption
    | intro _
    | with_reducible apply State.write_keep
    | with_reducible refine keep_fst ‹_ = (_, _)› ?_
    | with_reducible refine keep_of_some ‹_ = some _› ?_
    | with_reducible refine keep_snd ‹_ = (_, _)› ?_
    | split
    | dsimp only
    | with_reducible apply_assumption)))

theorem State.vScatter_keep {r0 : State} (s : State) (e : Fin 8) (f : DirectF) (xa : Word) (hs : Keep r0 s) :
    KeepV r0 (State.vScatter s e f xa) := by
  unfold State.vScatter; (repeat' (first
    | with_reducible assumption
    | intro _
    | with_reducible apply State.vecCount_keep
    | with_reducible apply State.scatter_keep
    | with_reducible refine keep_fst ‹_ = (_, _)› ?_
    | with_reducible refine keep_of_some ‹_ = some _› ?_
    | with_reducible refine keep_snd ‹_ = (_, _)› ?_
    | split
    | with_reducible apply keepV_ok
    | with_reducible apply keepV_err
    | with_reducible refine keepV_of_ok ‹_ = _› ?_
    | with_reducible refine keepV_of_err ‹_ = _› ?_
    | dsimp only
    | with_reducible apply_assumption))

theorem State.vRedt_keep {r0 : State} (s : State) (e : Fin 8) (f : DirectF) (hs : Keep r0 s) :
    KeepV r0 (State.vRedt s e f) := by
  unfold State.vRedt; (repeat' (first
    | with_reducible assumption
    | intro _
    | with_reducible apply State.vecCount_keep
    | with_reducible apply State.toVd_keep
    | with_reducible refine keep_fst ‹_ = (_, _)› ?_
    | with_reducible refine keep_of_some ‹_ = some _› ?_
    | with_reducible refine keep_snd ‹_ = (_, _)› ?_
    | split
    | with_reducible apply keepV_ok
    | with_reducible apply keepV_err
    | with_reducible refine keepV_of_ok ‹_ = _› ?_
    | with_reducible refine keepV_of_err ‹_ = _› ?_
    | dsimp only
    | with_reducible apply_assumption))

theorem State.directEffect_keep {r0 : State} (s : State) (e : Fin 8) (d : Direct) (hs : Keep r0 s) :
    KeepV r0 (State.directEffect s e d) := by
  unfold State.directEffect; (repeat' (first
    | with_reducible assumption
    | intro _
    | with_reducible apply State.vecArith_keep
    | with_reducible apply State.vBcast_keep
    | with_reducible apply State.vLd_keep
    | with_reducible apply State.vSt_keep
    | with_reducible apply State.vLdt_keep
    | with_reducible apply State.vStt_keep
    | with_reducible apply State.vTget_keep
    | with_reducible apply State.vTput_keep
    | with_reducible apply State.vPerm_keep
    | with_reducible apply State.vGather_keep
    | with_reducible apply State.vScatter_keep
    | with_reducible apply State.vRedt_keep
    | with_reducible apply State.modEng_keep
    | fail_if_no_progress with_reducible apply keep_mk
    | with_reducible refine keep_fst ‹_ = (_, _)› ?_
    | with_reducible refine keep_of_some ‹_ = some _› ?_
    | with_reducible refine keep_snd ‹_ = (_, _)› ?_
    | split
    | with_reducible apply keepV_ok
    | with_reducible apply keepV_err
    | with_reducible refine keepV_of_ok ‹_ = _› ?_
    | with_reducible refine keepV_of_err ‹_ = _› ?_
    | dsimp only
    | with_reducible apply_assumption))

theorem State.vecError_keep {r0 : State} (s : State) (e : Fin 8) (unit cause origin : Nat) (direct : Bool) (hs : Keep r0 s) :
    Keep r0 (State.vecError s e unit cause origin direct) := by
  unfold State.vecError; (repeat' (first
    | with_reducible assumption
    | intro _
    | with_reducible apply State.unitError_keep
    | dsimp only
    | with_reducible apply_assumption))

theorem State.startDirect_keep {r0 : State} (s : State) (e : Fin 8) (q : Queued) (d : Direct) (hs : Keep r0 s) :
    Keep r0 (State.startDirect s e q d) := by
  unfold State.startDirect; (repeat' (first
    | with_reducible assumption
    | intro _
    | with_reducible apply State.directEffect_keep
    | with_reducible apply State.vecError_keep
    | with_reducible apply State.modEng_keep
    | fail_if_no_progress with_reducible apply keep_mk
    | with_reducible refine keep_fst ‹_ = (_, _)› ?_
    | with_reducible refine keep_of_some ‹_ = some _› ?_
    | with_reducible refine keep_snd ‹_ = (_, _)› ?_
    | split
    | with_reducible apply keepV_ok
    | with_reducible apply keepV_err
    | with_reducible refine keepV_of_ok ‹_ = _› ?_
    | with_reducible refine keepV_of_err ‹_ = _› ?_
    | dsimp only
    | with_reducible apply_assumption))

theorem State.runDirects_keep {r0 : State} (s : State) (e : Fin 8) (fuel : Nat) (hs : Keep r0 s) :
    Keep r0 (State.runDirects s e fuel) := by
  revert hs
  fun_induction State.runDirects s e fuel
  all_goals (intros; (repeat' (first
    | with_reducible assumption
    | intro _
    | with_reducible apply State.dequeue_keep
    | with_reducible apply State.startDirect_keep
    | with_reducible refine keep_fst ‹_ = (_, _)› ?_
    | with_reducible refine keep_of_some ‹_ = some _› ?_
    | with_reducible refine keep_snd ‹_ = (_, _)› ?_
    | split
    | dsimp only
    | with_reducible apply_assumption)))

theorem State.issueDirect_keep {r0 : State} (s : State) (e : Fin 8) (op : Nat) (f : DirectF) (hs : Keep r0 s) :
    Keep r0 (State.issueDirect s e op f) := by
  unfold State.issueDirect; (repeat' (first
    | with_reducible assumption
    | intro _
    | with_reducible apply State.seqWait_keep
    | with_reducible apply State.modEng_keep
    | with_reducible apply State.runDirects_keep
    | fail_if_no_progress with_reducible apply keep_mk
    | with_reducible apply keepO_next
    | split
    | dsimp only
    | with_reducible apply_assumption))

theorem directInstr_keep {r0 : State} (op : Nat) (e : Fin 8) (f : DirectF) (s : State) (hs : Keep r0 s) :
    KeepO r0 (directInstr op e f s) := by
  unfold directInstr; (repeat' (first
    | with_reducible assumption
    | intro _
    | with_reducible apply onSeq_keep
    | with_reducible apply State.issueDirect_keep
    | dsimp only
    | with_reducible apply_assumption))

theorem execIssueStallRelease_keep {r0 : State} (e : Fin 8) (s : State) (hs : Keep r0 s) :
    KeepO r0 (execIssueStallRelease e s) := by
  unfold execIssueStallRelease; (repeat' (first
    | with_reducible assumption
    | intro _
    | with_reducible apply State.issue_keep
    | with_reducible apply State.issueDirect_keep
    | with_reducible apply keepO_next
    | with_reducible refine keep_fst ‹_ = (_, _)› ?_
    | with_reducible refine keep_of_some ‹_ = some _› ?_
    | with_reducible refine keep_snd ‹_ = (_, _)› ?_
    | split
    | dsimp only
    | with_reducible apply_assumption))

theorem execDirectInstrComplete_keep {r0 : State} (e : Fin 8) (k : BitVec 6) (s : State) (hs : Keep r0 s) :
    KeepO r0 (execDirectInstrComplete e k s) := by
  unfold execDirectInstrComplete; (repeat' (first
    | with_reducible assumption
    | intro _
    | with_reducible apply State.completeDesc_keep
    | with_reducible apply keepO_next
    | with_reducible refine keep_fst ‹_ = (_, _)› ?_
    | with_reducible refine keep_of_some ‹_ = some _› ?_
    | with_reducible refine keep_snd ‹_ = (_, _)› ?_
    | split
    | dsimp only
    | with_reducible apply_assumption))

theorem execVecAdd_keep {r0 : State} (e : Fin 8) (f : DirectF) (s : State) (hs : Keep r0 s) :
    KeepO r0 (execVecAdd e f s) := by
  unfold execVecAdd; (repeat' (first
    | with_reducible assumption
    | intro _
    | with_reducible apply directInstr_keep
    | dsimp only
    | with_reducible apply_assumption))

theorem execVecSub_keep {r0 : State} (e : Fin 8) (f : DirectF) (s : State) (hs : Keep r0 s) :
    KeepO r0 (execVecSub e f s) := by
  unfold execVecSub; (repeat' (first
    | with_reducible assumption
    | intro _
    | with_reducible apply directInstr_keep
    | dsimp only
    | with_reducible apply_assumption))

theorem execVecMul_keep {r0 : State} (e : Fin 8) (f : DirectF) (s : State) (hs : Keep r0 s) :
    KeepO r0 (execVecMul e f s) := by
  unfold execVecMul; (repeat' (first
    | with_reducible assumption
    | intro _
    | with_reducible apply directInstr_keep
    | dsimp only
    | with_reducible apply_assumption))

theorem execVecFma_keep {r0 : State} (e : Fin 8) (f : DirectF) (s : State) (hs : Keep r0 s) :
    KeepO r0 (execVecFma e f s) := by
  unfold execVecFma; (repeat' (first
    | with_reducible assumption
    | intro _
    | with_reducible apply directInstr_keep
    | dsimp only
    | with_reducible apply_assumption))

theorem execVecMin_keep {r0 : State} (e : Fin 8) (f : DirectF) (s : State) (hs : Keep r0 s) :
    KeepO r0 (execVecMin e f s) := by
  unfold execVecMin; (repeat' (first
    | with_reducible assumption
    | intro _
    | with_reducible apply directInstr_keep
    | dsimp only
    | with_reducible apply_assumption))

theorem execVecMax_keep {r0 : State} (e : Fin 8) (f : DirectF) (s : State) (hs : Keep r0 s) :
    KeepO r0 (execVecMax e f s) := by
  unfold execVecMax; (repeat' (first
    | with_reducible assumption
    | intro _
    | with_reducible apply directInstr_keep
    | dsimp only
    | with_reducible apply_assumption))

theorem execVecAbs_keep {r0 : State} (e : Fin 8) (f : DirectF) (s : State) (hs : Keep r0 s) :
    KeepO r0 (execVecAbs e f s) := by
  unfold execVecAbs; (repeat' (first
    | with_reducible assumption
    | intro _
    | with_reducible apply directInstr_keep
    | dsimp only
    | with_reducible apply_assumption))

theorem execVecNeg_keep {r0 : State} (e : Fin 8) (f : DirectF) (s : State) (hs : Keep r0 s) :
    KeepO r0 (execVecNeg e f s) := by
  unfold execVecNeg; (repeat' (first
    | with_reducible assumption
    | intro _
    | with_reducible apply directInstr_keep
    | dsimp only
    | with_reducible apply_assumption))

theorem execVecCeq_keep {r0 : State} (e : Fin 8) (f : DirectF) (s : State) (hs : Keep r0 s) :
    KeepO r0 (execVecCeq e f s) := by
  unfold execVecCeq; (repeat' (first
    | with_reducible assumption
    | intro _
    | with_reducible apply directInstr_keep
    | dsimp only
    | with_reducible apply_assumption))

theorem execVecClt_keep {r0 : State} (e : Fin 8) (f : DirectF) (s : State) (hs : Keep r0 s) :
    KeepO r0 (execVecClt e f s) := by
  unfold execVecClt; (repeat' (first
    | with_reducible assumption
    | intro _
    | with_reducible apply directInstr_keep
    | dsimp only
    | with_reducible apply_assumption))

theorem execVecCle_keep {r0 : State} (e : Fin 8) (f : DirectF) (s : State) (hs : Keep r0 s) :
    KeepO r0 (execVecCle e f s) := by
  unfold execVecCle; (repeat' (first
    | with_reducible assumption
    | intro _
    | with_reducible apply directInstr_keep
    | dsimp only
    | with_reducible apply_assumption))

theorem execVecSel_keep {r0 : State} (e : Fin 8) (f : DirectF) (s : State) (hs : Keep r0 s) :
    KeepO r0 (execVecSel e f s) := by
  unfold execVecSel; (repeat' (first
    | with_reducible assumption
    | intro _
    | with_reducible apply directInstr_keep
    | dsimp only
    | with_reducible apply_assumption))

theorem execVecAnd_keep {r0 : State} (e : Fin 8) (f : DirectF) (s : State) (hs : Keep r0 s) :
    KeepO r0 (execVecAnd e f s) := by
  unfold execVecAnd; (repeat' (first
    | with_reducible assumption
    | intro _
    | with_reducible apply directInstr_keep
    | dsimp only
    | with_reducible apply_assumption))

theorem execVecOr_keep {r0 : State} (e : Fin 8) (f : DirectF) (s : State) (hs : Keep r0 s) :
    KeepO r0 (execVecOr e f s) := by
  unfold execVecOr; (repeat' (first
    | with_reducible assumption
    | intro _
    | with_reducible apply directInstr_keep
    | dsimp only
    | with_reducible apply_assumption))

theorem execVecXor_keep {r0 : State} (e : Fin 8) (f : DirectF) (s : State) (hs : Keep r0 s) :
    KeepO r0 (execVecXor e f s) := by
  unfold execVecXor; (repeat' (first
    | with_reducible assumption
    | intro _
    | with_reducible apply directInstr_keep
    | dsimp only
    | with_reducible apply_assumption))

theorem execVecShl_keep {r0 : State} (e : Fin 8) (f : DirectF) (s : State) (hs : Keep r0 s) :
    KeepO r0 (execVecShl e f s) := by
  unfold execVecShl; (repeat' (first
    | with_reducible assumption
    | intro _
    | with_reducible apply directInstr_keep
    | dsimp only
    | with_reducible apply_assumption))

theorem execVecShr_keep {r0 : State} (e : Fin 8) (f : DirectF) (s : State) (hs : Keep r0 s) :
    KeepO r0 (execVecShr e f s) := by
  unfold execVecShr; (repeat' (first
    | with_reducible assumption
    | intro _
    | with_reducible apply directInstr_keep
    | dsimp only
    | with_reducible apply_assumption))

theorem execCvt_keep {r0 : State} (e : Fin 8) (f : DirectF) (s : State) (hs : Keep r0 s) :
    KeepO r0 (execCvt e f s) := by
  unfold execCvt; (repeat' (first
    | with_reducible assumption
    | intro _
    | with_reducible apply directInstr_keep
    | dsimp only
    | with_reducible apply_assumption))

theorem execScalb_keep {r0 : State} (e : Fin 8) (f : DirectF) (s : State) (hs : Keep r0 s) :
    KeepO r0 (execScalb e f s) := by
  unfold execScalb; (repeat' (first
    | with_reducible assumption
    | intro _
    | with_reducible apply directInstr_keep
    | dsimp only
    | with_reducible apply_assumption))

theorem execRecip_keep {r0 : State} (e : Fin 8) (f : DirectF) (s : State) (hs : Keep r0 s) :
    KeepO r0 (execRecip e f s) := by
  unfold execRecip; (repeat' (first
    | with_reducible assumption
    | intro _
    | with_reducible apply directInstr_keep
    | dsimp only
    | with_reducible apply_assumption))

theorem execRsqrt_keep {r0 : State} (e : Fin 8) (f : DirectF) (s : State) (hs : Keep r0 s) :
    KeepO r0 (execRsqrt e f s) := by
  unfold execRsqrt; (repeat' (first
    | with_reducible assumption
    | intro _
    | with_reducible apply directInstr_keep
    | dsimp only
    | with_reducible apply_assumption))

theorem execSqrt_keep {r0 : State} (e : Fin 8) (f : DirectF) (s : State) (hs : Keep r0 s) :
    KeepO r0 (execSqrt e f s) := by
  unfold execSqrt; (repeat' (first
    | with_reducible assumption
    | intro _
    | with_reducible apply directInstr_keep
    | dsimp only
    | with_reducible apply_assumption))

theorem execExp_keep {r0 : State} (e : Fin 8) (f : DirectF) (s : State) (hs : Keep r0 s) :
    KeepO r0 (execExp e f s) := by
  unfold execExp; (repeat' (first
    | with_reducible assumption
    | intro _
    | with_reducible apply directInstr_keep
    | dsimp only
    | with_reducible apply_assumption))

theorem execLog_keep {r0 : State} (e : Fin 8) (f : DirectF) (s : State) (hs : Keep r0 s) :
    KeepO r0 (execLog e f s) := by
  unfold execLog; (repeat' (first
    | with_reducible assumption
    | intro _
    | with_reducible apply directInstr_keep
    | dsimp only
    | with_reducible apply_assumption))

theorem execSin_keep {r0 : State} (e : Fin 8) (f : DirectF) (s : State) (hs : Keep r0 s) :
    KeepO r0 (execSin e f s) := by
  unfold execSin; (repeat' (first
    | with_reducible assumption
    | intro _
    | with_reducible apply directInstr_keep
    | dsimp only
    | with_reducible apply_assumption))

theorem execCos_keep {r0 : State} (e : Fin 8) (f : DirectF) (s : State) (hs : Keep r0 s) :
    KeepO r0 (execCos e f s) := by
  unfold execCos; (repeat' (first
    | with_reducible assumption
    | intro _
    | with_reducible apply directInstr_keep
    | dsimp only
    | with_reducible apply_assumption))

theorem execAtan2_keep {r0 : State} (e : Fin 8) (f : DirectF) (s : State) (hs : Keep r0 s) :
    KeepO r0 (execAtan2 e f s) := by
  unfold execAtan2; (repeat' (first
    | with_reducible assumption
    | intro _
    | with_reducible apply directInstr_keep
    | dsimp only
    | with_reducible apply_assumption))

theorem execVbcast_keep {r0 : State} (e : Fin 8) (f : DirectF) (s : State) (hs : Keep r0 s) :
    KeepO r0 (execVbcast e f s) := by
  unfold execVbcast; (repeat' (first
    | with_reducible assumption
    | intro _
    | with_reducible apply directInstr_keep
    | dsimp only
    | with_reducible apply_assumption))

theorem execVld_keep {r0 : State} (e : Fin 8) (f : DirectF) (s : State) (hs : Keep r0 s) :
    KeepO r0 (execVld e f s) := by
  unfold execVld; (repeat' (first
    | with_reducible assumption
    | intro _
    | with_reducible apply directInstr_keep
    | dsimp only
    | with_reducible apply_assumption))

theorem execVst_keep {r0 : State} (e : Fin 8) (f : DirectF) (s : State) (hs : Keep r0 s) :
    KeepO r0 (execVst e f s) := by
  unfold execVst; (repeat' (first
    | with_reducible assumption
    | intro _
    | with_reducible apply directInstr_keep
    | dsimp only
    | with_reducible apply_assumption))

theorem execVldt_keep {r0 : State} (e : Fin 8) (f : DirectF) (s : State) (hs : Keep r0 s) :
    KeepO r0 (execVldt e f s) := by
  unfold execVldt; (repeat' (first
    | with_reducible assumption
    | intro _
    | with_reducible apply directInstr_keep
    | dsimp only
    | with_reducible apply_assumption))

theorem execVstt_keep {r0 : State} (e : Fin 8) (f : DirectF) (s : State) (hs : Keep r0 s) :
    KeepO r0 (execVstt e f s) := by
  unfold execVstt; (repeat' (first
    | with_reducible assumption
    | intro _
    | with_reducible apply directInstr_keep
    | dsimp only
    | with_reducible apply_assumption))

theorem execVtget_keep {r0 : State} (e : Fin 8) (f : DirectF) (s : State) (hs : Keep r0 s) :
    KeepO r0 (execVtget e f s) := by
  unfold execVtget; (repeat' (first
    | with_reducible assumption
    | intro _
    | with_reducible apply directInstr_keep
    | dsimp only
    | with_reducible apply_assumption))

theorem execVtput_keep {r0 : State} (e : Fin 8) (f : DirectF) (s : State) (hs : Keep r0 s) :
    KeepO r0 (execVtput e f s) := by
  unfold execVtput; (repeat' (first
    | with_reducible assumption
    | intro _
    | with_reducible apply directInstr_keep
    | dsimp only
    | with_reducible apply_assumption))

theorem execVperm_keep {r0 : State} (e : Fin 8) (f : DirectF) (s : State) (hs : Keep r0 s) :
    KeepO r0 (execVperm e f s) := by
  unfold execVperm; (repeat' (first
    | with_reducible assumption
    | intro _
    | with_reducible apply directInstr_keep
    | dsimp only
    | with_reducible apply_assumption))

theorem execVgather_keep {r0 : State} (e : Fin 8) (f : DirectF) (s : State) (hs : Keep r0 s) :
    KeepO r0 (execVgather e f s) := by
  unfold execVgather; (repeat' (first
    | with_reducible assumption
    | intro _
    | with_reducible apply directInstr_keep
    | dsimp only
    | with_reducible apply_assumption))

theorem execVscatter_keep {r0 : State} (e : Fin 8) (f : DirectF) (s : State) (hs : Keep r0 s) :
    KeepO r0 (execVscatter e f s) := by
  unfold execVscatter; (repeat' (first
    | with_reducible assumption
    | intro _
    | with_reducible apply directInstr_keep
    | dsimp only
    | with_reducible apply_assumption))

theorem execVredt_keep {r0 : State} (e : Fin 8) (f : DirectF) (s : State) (hs : Keep r0 s) :
    KeepO r0 (execVredt e f s) := by
  unfold execVredt; (repeat' (first
    | with_reducible assumption
    | intro _
    | with_reducible apply directInstr_keep
    | dsimp only
    | with_reducible apply_assumption))

theorem execVsumm_keep {r0 : State} (e : Fin 8) (f : DirectF) (s : State) (hs : Keep r0 s) :
    KeepO r0 (execVsumm e f s) := by
  unfold execVsumm; (repeat' (first
    | with_reducible assumption
    | intro _
    | with_reducible apply directInstr_keep
    | dsimp only
    | with_reducible apply_assumption))

theorem execVsetvl_keep {r0 : State} (e : Fin 8) (f : DirectF) (s : State) (hs : Keep r0 s) :
    KeepO r0 (execVsetvl e f s) := by
  unfold execVsetvl; (repeat' (first
    | with_reducible assumption
    | intro _
    | with_reducible apply directInstr_keep
    | dsimp only
    | with_reducible apply_assumption))

theorem execVsetbnd_keep {r0 : State} (e : Fin 8) (f : DirectF) (s : State) (hs : Keep r0 s) :
    KeepO r0 (execVsetbnd e f s) := by
  unfold execVsetbnd; (repeat' (first
    | with_reducible assumption
    | intro _
    | with_reducible apply directInstr_keep
    | dsimp only
    | with_reducible apply_assumption))

theorem execVsetsr_keep {r0 : State} (e : Fin 8) (f : DirectF) (s : State) (hs : Keep r0 s) :
    KeepO r0 (execVsetsr e f s) := by
  unfold execVsetsr; (repeat' (first
    | with_reducible assumption
    | intro _
    | with_reducible apply directInstr_keep
    | dsimp only
    | with_reducible apply_assumption))

end Sys2Proof.Machine
end

