-- ==== Sys2Proof/Laws/KeepVecDesc.lean ====
section
/-! SUPPORT. What the operations and meanings of Machine/VecDesc keep (Laws/Keep). -/
namespace Sys2Proof.Machine

set_option linter.unusedTactic false
set_option linter.unreachableTactic false

/-- The state that `d` carries is kept. -/
def KeepD (r : State) : DescOut → Prop
  | .err s _ => Keep r s
  | .ok s _ _ _ => Keep r s

theorem keepD_ok {r s : State} {a b c} (h : Keep r s) : KeepD r (.ok s a b c) := h

theorem keepD_err {r s : State} {c} (h : Keep r s) : KeepD r (.err s c) := h

theorem keepD_of_ok {r s : State} {a b c} {d : DescOut} (e : d = .ok s a b c) (h : KeepD r d) : Keep r s := by
  subst e; exact h

theorem keepD_of_err {r s : State} {c} {d : DescOut} (e : d = .err s c) (h : KeepD r d) : Keep r s := by
  subst e; exact h

theorem State.startVec_keep {r0 : State} (s : State) (e : Fin 8) (q : EngQ) (u : Nat) (kinds : List Nat) (kind : Nat) (k : State → Queued → DescOut) (hs : Keep r0 s) (hk : ∀ t x0, Keep r0 t → KeepD r0 (k t x0)) :
    Keep r0 (State.startVec s e q u kinds kind k) := by
  unfold State.startVec; (repeat' (first
    | with_reducible assumption
    | intro _
    | with_reducible apply State.dequeue_keep
    | with_reducible apply State.vecError_keep
    | with_reducible apply State.runDirects_keep
    | with_reducible apply State.modEng_keep
    | fail_if_no_progress with_reducible apply keep_mk
    | with_reducible refine keep_fst ‹_ = (_, _)› ?_
    | with_reducible refine keep_of_some ‹_ = some _› ?_
    | with_reducible refine keep_snd ‹_ = (_, _)› ?_
    | split
    | with_reducible apply keepD_ok
    | with_reducible apply keepD_err
    | with_reducible refine keepD_of_ok ‹_ = _› ?_
    | with_reducible refine keepD_of_err ‹_ = _› ?_
    | dsimp only
    | with_reducible apply_assumption))

theorem State.readElem_keep {r0 : State} (s : State) (e : Fin 8) (off w el : Nat) (hs : Keep r0 s) :
    Keep r0 (State.readElem s e off w el).1 := by
  unfold State.readElem; (repeat' (first
    | with_reducible assumption
    | intro _
    | with_reducible apply State.read_keep
    | with_reducible refine keep_fst ‹_ = (_, _)› ?_
    | with_reducible refine keep_of_some ‹_ = some _› ?_
    | with_reducible refine keep_snd ‹_ = (_, _)› ?_
    | split
    | dsimp only
    | with_reducible apply_assumption))

theorem State.writeElem_keep {r0 : State} (s : State) (e : Fin 8) (off w el v : Nat) (hs : Keep r0 s) :
    Keep r0 (State.writeElem s e off w el v).1 := by
  unfold State.writeElem; (repeat' (first
    | with_reducible assumption
    | intro _
    | with_reducible apply State.write_keep
    | split
    | dsimp only
    | with_reducible apply_assumption))

theorem State.readIns_keep {r0 : State} (s : State) (e : Fin 8) (el : Nat) (l0 : List (Nat × Nat)) (hs : Keep r0 s) :
    Keep r0 (State.readIns s e el l0).1 := by
  revert hs
  fun_induction State.readIns s e el l0
  all_goals (intros; (repeat' (first
    | with_reducible assumption
    | intro _
    | with_reducible apply State.readElem_keep
    | with_reducible refine keep_fst ‹_ = (_, _)› ?_
    | with_reducible refine keep_of_some ‹_ = some _› ?_
    | with_reducible refine keep_snd ‹_ = (_, _)› ?_
    | split
    | dsimp only
    | with_reducible apply_assumption)))

theorem State.writeOuts_keep {r0 : State} (s : State) (e : Fin 8) (el : Nat) (l0 : List ((Nat × Nat) × Nat)) (hs : Keep r0 s) :
    Keep r0 (State.writeOuts s e el l0).1 := by
  revert hs
  fun_induction State.writeOuts s e el l0
  all_goals (intros; (repeat' (first
    | with_reducible assumption
    | intro _
    | with_reducible apply State.writeElem_keep
    | with_reducible refine keep_fst ‹_ = (_, _)› ?_
    | with_reducible refine keep_of_some ‹_ = some _› ?_
    | with_reducible refine keep_snd ‹_ = (_, _)› ?_
    | split
    | dsimp only
    | with_reducible apply_assumption)))

theorem State.runElems_keep {r0 : State} (s : State) (e : Fin 8) (p : Prog) (fuel : Nat) (el : Nat) (hs : Keep r0 s) :
    Keep r0 (State.runElems s e p fuel el).1 := by
  revert hs
  fun_induction State.runElems s e p fuel el
  all_goals (intros; (repeat' (first
    | with_reducible assumption
    | intro _
    | with_reducible apply State.readIns_keep
    | with_reducible apply State.writeOuts_keep
    | with_reducible apply keep_getD
    | with_reducible refine keep_fst ‹_ = (_, _)› ?_
    | with_reducible refine keep_of_some ‹_ = some _› ?_
    | with_reducible refine keep_snd ‹_ = (_, _)› ?_
    | split
    | dsimp only
    | with_reducible apply_assumption)))

theorem State.runProg_keep {r0 : State} (e : Fin 8) (s : State) (d : Queued) (hs : Keep r0 s) :
    KeepD r0 (State.runProg e s d) := by
  unfold State.runProg; (repeat' (first
    | with_reducible assumption
    | intro _
    | with_reducible apply State.read_keep
    | with_reducible apply State.runElems_keep
    | fail_if_no_progress with_reducible apply keep_mk
    | with_reducible refine keep_fst ‹_ = (_, _)› ?_
    | with_reducible refine keep_of_some ‹_ = some _› ?_
    | with_reducible refine keep_snd ‹_ = (_, _)› ?_
    | split
    | with_reducible apply keepD_ok
    | with_reducible apply keepD_err
    | with_reducible refine keepD_of_ok ‹_ = _› ?_
    | with_reducible refine keepD_of_err ‹_ = _› ?_
    | dsimp only
    | with_reducible apply_assumption))

theorem execElementProgram_keep {r0 : State} (e : Fin 8) (p : Fin 4) (s : State) (hs : Keep r0 s) :
    KeepO r0 (execElementProgram e p s) := by
  unfold execElementProgram; (repeat' (first
    | with_reducible assumption
    | intro _
    | with_reducible apply State.startVec_keep
    | with_reducible apply State.runProg_keep
    | with_reducible apply keepO_next
    | dsimp only
    | with_reducible apply_assumption))

theorem State.runReduce_keep {r0 : State} (e : Fin 8) (s : State) (d : Queued) (hs : Keep r0 s) :
    KeepD r0 (State.runReduce e s d) := by
  unfold State.runReduce; extract_lets
  split
  · exact keepD_err hs
  · split
    · exact keepD_err hs
    · extract_lets
      split
      · exact keepD_err hs
      · split
        · exact keepD_err (keep_fst ‹_ = (_, _)› (State.check_keep _ _ _ hs))
        · have h1 := keep_fst ‹_ = (_, _)› (State.check_keep _ _ _ hs)
          extract_lets
          split
          · exact keepD_ok h1
          · split
            · exact keepD_err (keep_fst ‹_ = (_, _)› (State.write_keep _ _ _ (State.vecCount_keep _ _ _ _ h1)))
            · exact keepD_ok (keep_fst ‹_ = (_, _)› (State.write_keep _ _ _ (State.vecCount_keep _ _ _ _ h1)))

theorem execReduce_keep {r0 : State} (e : Fin 8) (p : Fin 5) (s : State) (hs : Keep r0 s) :
    KeepO r0 (execReduce e p s) := by
  unfold execReduce; (repeat' (first
    | with_reducible assumption
    | intro _
    | with_reducible apply State.startVec_keep
    | with_reducible apply State.runReduce_keep
    | with_reducible apply keepO_next
    | split
    | dsimp only
    | with_reducible apply_assumption))

theorem State.bqBlock_keep {r0 : State} (s : State) (e : Fin 8) (q : QntD) (e0 : Nat) (vs : List Val) (hs : Keep r0 s) :
    Keep r0 (State.bqBlock s e q e0 vs).1 := by
  unfold State.bqBlock; (repeat' (first
    | with_reducible assumption
    | intro _
    | with_reducible apply State.qntCount_keep
    | with_reducible apply keep_getD
    | split
    | dsimp only
    | with_reducible apply_assumption))

theorem State.putBlock_keep {r0 : State} (s : State) (e : Fin 8) (q : QntD) (b : Nat) (data : List Byte) (scales : List Nat) (hs : Keep r0 s) :
    Keep r0 (State.putBlock s e q b data scales).1 := by
  unfold State.putBlock; (repeat' (first
    | with_reducible assumption
    | intro _
    | with_reducible apply State.write_keep
    | with_reducible refine keep_fst ‹_ = (_, _)› ?_
    | with_reducible refine keep_of_some ‹_ = some _› ?_
    | with_reducible refine keep_snd ‹_ = (_, _)› ?_
    | split
    | dsimp only
    | with_reducible apply_assumption))

theorem State.readRecord_keep {r0 : State} (s : State) (e : Fin 8) (pipe : Nat) (q : QntD) (b : Nat) (hs : Keep r0 s) :
    Keep r0 (State.readRecord s e pipe q b).1 := by
  unfold State.readRecord; (repeat' (first
    | with_reducible assumption
    | intro _
    | with_reducible apply State.read_keep
    | with_reducible apply State.recordSkew_keep
    | with_reducible refine keep_fst ‹_ = (_, _)› ?_
    | with_reducible refine keep_of_some ‹_ = some _› ?_
    | with_reducible refine keep_snd ‹_ = (_, _)› ?_
    | split
    | dsimp only
    | with_reducible apply_assumption))

theorem State.qntBlock_keep {r0 : State} (s : State) (e : Fin 8) (pipe : Nat) (q : QntD) (b : Nat) (hs : Keep r0 s) :
    Keep r0 (State.qntBlock s e pipe q b).1 := by
  unfold State.qntBlock; (repeat' (first
    | with_reducible assumption
    | intro _
    | with_reducible apply State.read_keep
    | with_reducible apply State.bqBlock_keep
    | with_reducible apply State.putBlock_keep
    | with_reducible apply State.readRecord_keep
    | with_reducible apply State.write_keep
    | with_reducible refine keep_fst ‹_ = (_, _)› ?_
    | with_reducible refine keep_of_some ‹_ = some _› ?_
    | with_reducible refine keep_snd ‹_ = (_, _)› ?_
    | split
    | dsimp only
    | with_reducible apply_assumption))

theorem qntLoop_keep {r0 : State} (step : State → Nat → State × Option Nat) (s : State) (fuel : Nat) (i : Nat) (hs : Keep r0 s) (hstep : ∀ t x0, Keep r0 t → Keep r0 (step t x0).1) :
    Keep r0 (qntLoop step s fuel i).1 := by
  revert hs
  induction fuel generalizing s i with
  | zero => intro hs; exact hs
  | succ n ih =>
    intro hs; unfold qntLoop; split
    · exact ih _ _ (keep_fst ‹_ = (_, _)› (hstep _ _ hs))
    · exact hstep _ _ hs

theorem State.cqChannel_keep {r0 : State} (s : State) (e : Fin 8) (q : QntD) (e0 : Nat) (vs : List Val) (hs : Keep r0 s) :
    Keep r0 (State.cqChannel s e q e0 vs).1 := by
  unfold State.cqChannel; (repeat' (first
    | with_reducible assumption
    | intro _
    | with_reducible apply State.qntCount_keep
    | with_reducible refine keep_foldl ?_ ?_
    | with_reducible refine keep_foldl_fst ?_ ?_
    | with_reducible refine keep_foldl_snd ?_ ?_
    | with_reducible refine keep_fst ‹_ = (_, _)› ?_
    | with_reducible refine keep_of_some ‹_ = some _› ?_
    | with_reducible refine keep_snd ‹_ = (_, _)› ?_
    | split
    | dsimp only
    | with_reducible apply_assumption))

theorem State.cqStep_keep {r0 : State} (s : State) (e : Fin 8) (q : QntD) (i : Nat) (hs : Keep r0 s) :
    Keep r0 (State.cqStep s e q i).1 := by
  unfold State.cqStep; (repeat' (first
    | with_reducible assumption
    | intro _
    | with_reducible apply State.read_keep
    | with_reducible apply State.cqChannel_keep
    | with_reducible apply State.write_keep
    | with_reducible refine keep_fst ‹_ = (_, _)› ?_
    | with_reducible refine keep_of_some ‹_ = some _› ?_
    | with_reducible refine keep_snd ‹_ = (_, _)› ?_
    | split
    | dsimp only
    | with_reducible apply_assumption))

theorem State.runQnt_keep {r0 : State} (e : Fin 8) (pipe : Nat) (s : State) (d : Queued) (hs : Keep r0 s) :
    KeepD r0 (State.runQnt e pipe s d) := by
  unfold State.runQnt; (repeat' (first
    | with_reducible assumption
    | intro _
    | with_reducible apply qntLoop_keep
    | with_reducible apply State.cqStep_keep
    | with_reducible apply State.qntBlock_keep
    | with_reducible refine keep_fst ‹_ = (_, _)› ?_
    | with_reducible refine keep_of_some ‹_ = some _› ?_
    | with_reducible refine keep_snd ‹_ = (_, _)› ?_
    | split
    | with_reducible apply keepD_ok
    | with_reducible apply keepD_err
    | with_reducible refine keepD_of_ok ‹_ = _› ?_
    | with_reducible refine keepD_of_err ‹_ = _› ?_
    | dsimp only
    | with_reducible apply_assumption))

theorem execBquant_keep {r0 : State} (e : Fin 8) (p : Fin 4) (s : State) (hs : Keep r0 s) :
    KeepO r0 (execBquant e p s) := by
  unfold execBquant; (repeat' (first
    | with_reducible assumption
    | intro _
    | with_reducible apply State.startVec_keep
    | with_reducible apply State.runQnt_keep
    | with_reducible apply keepO_next
    | dsimp only
    | with_reducible apply_assumption))

theorem execCquant_keep {r0 : State} (e : Fin 8) (p : Fin 4) (s : State) (hs : Keep r0 s) :
    KeepO r0 (execCquant e p s) := by
  unfold execCquant; (repeat' (first
    | with_reducible assumption
    | intro _
    | with_reducible apply State.startVec_keep
    | with_reducible apply State.runQnt_keep
    | with_reducible apply keepO_next
    | dsimp only
    | with_reducible apply_assumption))

theorem execDequant_keep {r0 : State} (e : Fin 8) (p : Fin 4) (s : State) (hs : Keep r0 s) :
    KeepO r0 (execDequant e p s) := by
  unfold execDequant; (repeat' (first
    | with_reducible assumption
    | intro _
    | with_reducible apply State.startVec_keep
    | with_reducible apply State.runQnt_keep
    | with_reducible apply keepO_next
    | dsimp only
    | with_reducible apply_assumption))

theorem execQacc_keep {r0 : State} (e : Fin 8) (p : Fin 4) (s : State) (hs : Keep r0 s) :
    KeepO r0 (execQacc e p s) := by
  unfold execQacc; (repeat' (first
    | with_reducible assumption
    | intro _
    | with_reducible apply State.startVec_keep
    | with_reducible apply State.runQnt_keep
    | with_reducible apply keepO_next
    | dsimp only
    | with_reducible apply_assumption))

theorem execVectorDescComplete_keep {r0 : State} (e : Fin 8) (p : Fin 4) (k : BitVec 6) (s : State) (hs : Keep r0 s) :
    KeepO r0 (execVectorDescComplete e p k s) := by
  unfold execVectorDescComplete; (repeat' (first
    | with_reducible assumption
    | intro _
    | with_reducible apply State.completeDesc_keep
    | with_reducible apply keepO_next
    | with_reducible refine keep_fst ‹_ = (_, _)› ?_
    | with_reducible refine keep_of_some ‹_ = some _› ?_
    | with_reducible refine keep_snd ‹_ = (_, _)› ?_
    | split
    | dsimp only
    | with_reducible apply_assumption))

theorem colResult_keep {r0 : State} (e : Fin 8) (radr v : Nat) (miss : List (Nat × Reg32)) (s : State) (hs : Keep r0 s) :
    KeepD r0 (colResult e radr v miss s) := by
  unfold colResult; (repeat' (first
    | with_reducible assumption
    | intro _
    | with_reducible apply keepD_ok
    | with_reducible apply keepD_err
    | with_reducible refine keepD_of_ok ‹_ = _› ?_
    | with_reducible refine keepD_of_err ‹_ = _› ?_
    | dsimp only
    | with_reducible apply_assumption))

theorem State.runCol_keep {r0 : State} (e : Fin 8) (s : State) (d : Queued) (hs : Keep r0 s) :
    KeepD r0 (State.runCol e s d) := by
  unfold State.runCol; (repeat' (first
    | with_reducible assumption
    | intro _
    | with_reducible apply State.write_keep
    | with_reducible apply State.read_keep
    | with_reducible apply colResult_keep
    | with_reducible refine keep_foldl ?_ ?_
    | with_reducible refine keep_foldl_fst ?_ ?_
    | with_reducible refine keep_foldl_snd ?_ ?_
    | with_reducible refine keep_fst ‹_ = (_, _)› ?_
    | with_reducible refine keep_of_some ‹_ = some _› ?_
    | with_reducible refine keep_snd ‹_ = (_, _)› ?_
    | split
    | with_reducible apply keepD_ok
    | with_reducible apply keepD_err
    | with_reducible refine keepD_of_ok ‹_ = _› ?_
    | with_reducible refine keepD_of_err ‹_ = _› ?_
    | dsimp only
    | with_reducible apply_assumption))

theorem execCrc_keep {r0 : State} (e : Fin 8) (s : State) (hs : Keep r0 s) :
    KeepO r0 (execCrc e s) := by
  unfold execCrc; (repeat' (first
    | with_reducible assumption
    | intro _
    | with_reducible apply State.startVec_keep
    | with_reducible apply State.runCol_keep
    | with_reducible apply keepO_next
    | dsimp only
    | with_reducible apply_assumption))

theorem execSum64_keep {r0 : State} (e : Fin 8) (s : State) (hs : Keep r0 s) :
    KeepO r0 (execSum64 e s) := by
  unfold execSum64; (repeat' (first
    | with_reducible assumption
    | intro _
    | with_reducible apply State.startVec_keep
    | with_reducible apply State.runCol_keep
    | with_reducible apply keepO_next
    | dsimp only
    | with_reducible apply_assumption))

theorem execFill_keep {r0 : State} (e : Fin 8) (s : State) (hs : Keep r0 s) :
    KeepO r0 (execFill e s) := by
  unfold execFill; (repeat' (first
    | with_reducible assumption
    | intro _
    | with_reducible apply State.startVec_keep
    | with_reducible apply State.runCol_keep
    | with_reducible apply keepO_next
    | dsimp only
    | with_reducible apply_assumption))

theorem execCompare_keep {r0 : State} (e : Fin 8) (s : State) (hs : Keep r0 s) :
    KeepO r0 (execCompare e s) := by
  unfold execCompare; (repeat' (first
    | with_reducible assumption
    | intro _
    | with_reducible apply State.startVec_keep
    | with_reducible apply State.runCol_keep
    | with_reducible apply keepO_next
    | dsimp only
    | with_reducible apply_assumption))

theorem execCollimatorComplete_keep {r0 : State} (e : Fin 8) (k : BitVec 6) (s : State) (hs : Keep r0 s) :
    KeepO r0 (execCollimatorComplete e k s) := by
  unfold execCollimatorComplete; (repeat' (first
    | with_reducible assumption
    | intro _
    | with_reducible apply State.storeAll_keep
    | with_reducible apply State.vecError_keep
    | with_reducible apply State.setFld_keep
    | with_reducible apply State.completeDesc_keep
    | fail_if_no_progress with_reducible apply keep_mk
    | with_reducible apply keepO_next
    | with_reducible refine keep_fst ‹_ = (_, _)› ?_
    | with_reducible refine keep_of_some ‹_ = some _› ?_
    | with_reducible refine keep_snd ‹_ = (_, _)› ?_
    | split
    | dsimp only
    | with_reducible apply_assumption))

theorem State.vecClr_keep {r0 : State} (s : State) (e : Fin 8) (hs : Keep r0 s) :
    Keep r0 (State.vecClr s e) := by
  unfold State.vecClr; (repeat' (first
    | with_reducible assumption
    | intro _
    | with_reducible apply State.setRegN_keep
    | with_reducible refine keep_foldl ?_ ?_
    | with_reducible refine keep_foldl_fst ?_ ?_
    | with_reducible refine keep_foldl_snd ?_ ?_
    | dsimp only
    | with_reducible apply_assumption))

theorem execVecCntClr_keep {r0 : State} (src : BitVec 8) (e : Fin 8) (s : State) (hs : Keep r0 s) :
    KeepO r0 (execVecCntClr src e s) := by
  unfold execVecCntClr; (repeat' (first
    | with_reducible assumption
    | intro _
    | with_reducible apply anchorWrite_keep
    | with_reducible apply State.vecClr_keep
    | with_reducible apply keepO_next
    | dsimp only
    | with_reducible apply_assumption))

end Sys2Proof.Machine
end

