-- ==== Sys2Proof/Laws/KeepJobs.lean ====
section
/-! SUPPORT. What the operations and meanings of Machine/Jobs keep (Laws/Keep). -/
namespace Sys2Proof.Machine

set_option linter.unusedTactic false
set_option linter.unreachableTactic false

theorem State.wakeMask_keep {r0 : State} (s : State) (m : Nat) (hs : Keep r0 s) :
    Keep r0 (State.wakeMask s m) := by
  unfold State.wakeMask; (repeat' (first
    | with_reducible assumption
    | intro _
    | fail_if_no_progress with_reducible apply keep_mk
    | dsimp only
    | with_reducible apply_assumption))

theorem State.setDev_keep {r0 : State} (s : State) (v : Nat) (hs : Keep r0 s) :
    Keep r0 (State.setDev s v) := by
  unfold State.setDev; (repeat' (first
    | with_reducible assumption
    | intro _
    | with_reducible apply State.setFld_keep
    | dsimp only
    | with_reducible apply_assumption))

theorem State.partCreate_keep {r0 : State} (c : Cmd) (s : State) (hs : Keep r0 s) :
    Keep r0 (State.partCreate c s) := by
  unfold State.partCreate; (repeat' (first
    | with_reducible assumption
    | intro _
    | with_reducible apply Cmd.ends_keep
    | with_reducible apply State.wakeMask_keep
    | with_reducible apply State.modCmd_keep
    | with_reducible apply State.finish_keep
    | with_reducible apply State.setReg64_keep
    | with_reducible apply State.setDev_keep
    | fail_if_no_progress with_reducible apply keep_mk
    | split
    | dsimp only
    | with_reducible apply_assumption))

theorem execPartCreate_keep {r0 : State} (pair : BitVec 16) (s : State) (hs : Keep r0 s) :
    KeepO r0 (execPartCreate pair s) := by
  unfold execPartCreate; (repeat' (first
    | with_reducible assumption
    | intro _
    | with_reducible apply onCmd_keep
    | with_reducible apply State.partCreate_keep
    | dsimp only
    | with_reducible apply_assumption))

theorem State.engOff_keep {r0 : State} (s : State) (e : Fin 8) (hs : Keep r0 s) :
    Keep r0 (State.engOff s e) := by
  unfold State.engOff; (repeat' (first
    | with_reducible assumption
    | intro _
    | with_reducible apply State.modEng_keep
    | fail_if_no_progress with_reducible apply keep_mk
    | dsimp only
    | with_reducible apply_assumption))

theorem State.partDestroy_keep {r0 : State} (c : Cmd) (s : State) (hs : Keep r0 s) :
    Keep r0 (State.partDestroy c s) := by
  unfold State.partDestroy; (repeat' (first
    | with_reducible assumption
    | intro _
    | with_reducible apply Cmd.ends_keep
    | with_reducible apply State.finish_keep
    | with_reducible apply State.engOff_keep
    | with_reducible apply State.setDev_keep
    | fail_if_no_progress with_reducible apply keep_mk
    | with_reducible refine keep_foldl ?_ ?_
    | with_reducible refine keep_foldl_fst ?_ ?_
    | with_reducible refine keep_foldl_snd ?_ ?_
    | with_reducible refine keep_fst ‹_ = (_, _)› ?_
    | with_reducible refine keep_of_some ‹_ = some _› ?_
    | with_reducible refine keep_snd ‹_ = (_, _)› ?_
    | split
    | dsimp only
    | with_reducible apply_assumption))

theorem execPartDestroy_keep {r0 : State} (pair : BitVec 16) (s : State) (hs : Keep r0 s) :
    KeepO r0 (execPartDestroy pair s) := by
  unfold execPartDestroy; (repeat' (first
    | with_reducible assumption
    | intro _
    | with_reducible apply onCmd_keep
    | with_reducible apply State.partDestroy_keep
    | dsimp only
    | with_reducible apply_assumption))

theorem State.jobLoadImage_keep {r0 : State} (c : Cmd) (p : Nat) (q : Part) (s : State) (img : List Byte) (hs : Keep r0 s) :
    Keep r0 (State.jobLoadImage c p q s img) := by
  unfold State.jobLoadImage; (repeat' (first
    | with_reducible assumption
    | intro _
    | with_reducible apply Cmd.ends_keep
    | with_reducible apply State.registerAll_keep
    | with_reducible apply State.finish_keep
    | fail_if_no_progress with_reducible apply keep_mk
    | with_reducible apply keep_getD
    | with_reducible refine keep_fst ‹_ = (_, _)› ?_
    | with_reducible refine keep_of_some ‹_ = some _› ?_
    | with_reducible refine keep_snd ‹_ = (_, _)› ?_
    | split
    | dsimp only
    | with_reducible apply_assumption))

theorem State.jobLoad_keep {r0 : State} (c : Cmd) (s : State) (hs : Keep r0 s) :
    Keep r0 (State.jobLoad c s) := by
  unfold State.jobLoad; (repeat' (first
    | with_reducible assumption
    | intro _
    | with_reducible apply Cmd.ends_keep
    | with_reducible apply State.read_keep
    | with_reducible apply State.jobLoadImage_keep
    | with_reducible refine keep_fst ‹_ = (_, _)› ?_
    | with_reducible refine keep_of_some ‹_ = some _› ?_
    | with_reducible refine keep_snd ‹_ = (_, _)› ?_
    | split
    | dsimp only
    | with_reducible apply_assumption))

theorem execJobLoad_keep {r0 : State} (pair : BitVec 16) (s : State) (hs : Keep r0 s) :
    KeepO r0 (execJobLoad pair s) := by
  unfold execJobLoad; (repeat' (first
    | with_reducible assumption
    | intro _
    | with_reducible apply onCmd_keep
    | with_reducible apply State.jobLoad_keep
    | dsimp only
    | with_reducible apply_assumption))

theorem State.killCmd_keep {r0 : State} (s : State) (id : Nat × Nat) (k : KillInfo) (hs : Keep r0 s) :
    Keep r0 (State.killCmd s id k) := by
  unfold State.killCmd; (repeat' (first
    | with_reducible assumption
    | intro _
    | with_reducible apply State.killEng_keep
    | with_reducible refine keep_foldl ?_ ?_
    | with_reducible refine keep_foldl_fst ?_ ?_
    | with_reducible refine keep_foldl_snd ?_ ?_
    | dsimp only
    | with_reducible apply_assumption))

theorem State.preempt_keep {r0 : State} (s : State) (p : Nat) (hs : Keep r0 s) :
    Keep r0 (State.preempt s p) := by
  unfold State.preempt; (repeat' (first
    | with_reducible assumption
    | intro _
    | with_reducible apply State.killCmd_keep
    | with_reducible refine keep_foldl ?_ ?_
    | with_reducible refine keep_foldl_fst ?_ ?_
    | with_reducible refine keep_foldl_snd ?_ ?_
    | with_reducible refine keep_fst ‹_ = (_, _)› ?_
    | with_reducible refine keep_of_some ‹_ = some _› ?_
    | with_reducible refine keep_snd ‹_ = (_, _)› ?_
    | split
    | dsimp only
    | with_reducible apply_assumption))

theorem State.modJob_keep {r0 : State} (s : State) (p j : Nat) (f : Job → Job) (hs : Keep r0 s) :
    Keep r0 (State.modJob s p j f) := by
  unfold State.modJob; (repeat' (first
    | with_reducible assumption
    | intro _
    | fail_if_no_progress with_reducible apply keep_mk
    | split
    | dsimp only
    | with_reducible apply_assumption))

theorem State.blockTest_keep {r0 : State} (s : State) (e : Fin 8) (hs : Keep r0 s) :
    Keep r0 (State.blockTest s e) := by
  unfold State.blockTest; (repeat' (first
    | with_reducible assumption
    | intro _
    | with_reducible apply State.setFld_keep
    | with_reducible apply State.modJob_keep
    | with_reducible apply State.killCmd_keep
    | with_reducible apply State.preempt_keep
    | fail_if_no_progress with_reducible apply keep_mk
    | with_reducible refine keep_fst ‹_ = (_, _)› ?_
    | with_reducible refine keep_of_some ‹_ = some _› ?_
    | with_reducible refine keep_snd ‹_ = (_, _)› ?_
    | split
    | dsimp only
    | with_reducible apply_assumption))

theorem execOverblock_keep {r0 : State} (e : Fin 8) (s : State) (hs : Keep r0 s) :
    KeepO r0 (execOverblock e s) := by
  unfold execOverblock; (repeat' (first
    | with_reducible assumption
    | intro _
    | with_reducible apply State.passAclk_keep
    | with_reducible apply State.setFld_keep
    | with_reducible apply State.event_keep
    | with_reducible apply State.blockTest_keep
    | with_reducible apply keepO_next
    | with_reducible refine keep_fst ‹_ = (_, _)› ?_
    | with_reducible refine keep_of_some ‹_ = some _› ?_
    | with_reducible refine keep_snd ‹_ = (_, _)› ?_
    | split
    | dsimp only
    | with_reducible apply_assumption))

theorem State.retest_keep {r0 : State} (s : State) (p : Nat) (hs : Keep r0 s) :
    Keep r0 (State.retest s p) := by
  unfold State.retest; (repeat' (first
    | with_reducible assumption
    | intro _
    | with_reducible apply State.setFld_keep
    | with_reducible apply State.blockTest_keep
    | with_reducible refine keep_foldl ?_ ?_
    | with_reducible refine keep_foldl_fst ?_ ?_
    | with_reducible refine keep_foldl_snd ?_ ?_
    | split
    | dsimp only
    | with_reducible apply_assumption))

theorem execCommandAccept_keep {r0 : State} (pair : BitVec 11) (s : State) (hs : Keep r0 s) :
    KeepO r0 (execCommandAccept pair s) := by
  unfold execCommandAccept; (repeat' (first
    | with_reducible assumption
    | intro _
    | with_reducible apply State.acceptStep_keep
    | with_reducible apply State.preempt_keep
    | with_reducible apply State.retest_keep
    | with_reducible apply keepO_next
    | with_reducible refine keep_fst ‹_ = (_, _)› ?_
    | with_reducible refine keep_of_some ‹_ = some _› ?_
    | with_reducible refine keep_snd ‹_ = (_, _)› ?_
    | split
    | dsimp only
    | with_reducible apply_assumption))

theorem State.jobCmd_keep {r0 : State} (c : Cmd) (s : State) (hs : Keep r0 s) :
    Keep r0 (State.jobCmd c s) := by
  unfold State.jobCmd; (repeat' (first
    | with_reducible assumption
    | intro _
    | with_reducible apply Cmd.ends_keep
    | with_reducible apply State.modCmd_keep
    | with_reducible apply State.preempt_keep
    | with_reducible apply State.retest_keep
    | fail_if_no_progress with_reducible apply keep_mk
    | with_reducible refine keep_fst ‹_ = (_, _)› ?_
    | with_reducible refine keep_of_some ‹_ = some _› ?_
    | with_reducible refine keep_snd ‹_ = (_, _)› ?_
    | split
    | dsimp only
    | with_reducible apply_assumption))

theorem execJobCmd_keep {r0 : State} (pair : BitVec 16) (s : State) (hs : Keep r0 s) :
    KeepO r0 (execJobCmd pair s) := by
  unfold execJobCmd; (repeat' (first
    | with_reducible assumption
    | intro _
    | with_reducible apply onCmd_keep
    | with_reducible apply State.jobCmd_keep
    | dsimp only
    | with_reducible apply_assumption))

theorem State.jobUnload_keep {r0 : State} (c : Cmd) (s : State) (hs : Keep r0 s) :
    Keep r0 (State.jobUnload c s) := by
  unfold State.jobUnload; (repeat' (first
    | with_reducible assumption
    | intro _
    | with_reducible apply Cmd.ends_keep
    | with_reducible apply State.finish_keep
    | fail_if_no_progress with_reducible apply keep_mk
    | with_reducible refine keep_fst ‹_ = (_, _)› ?_
    | with_reducible refine keep_of_some ‹_ = some _› ?_
    | with_reducible refine keep_snd ‹_ = (_, _)› ?_
    | split
    | dsimp only
    | with_reducible apply_assumption))

theorem execJobUnload_keep {r0 : State} (pair : BitVec 16) (s : State) (hs : Keep r0 s) :
    KeepO r0 (execJobUnload pair s) := by
  unfold execJobUnload; (repeat' (first
    | with_reducible assumption
    | intro _
    | with_reducible apply onCmd_keep
    | with_reducible apply State.jobUnload_keep
    | dsimp only
    | with_reducible apply_assumption))

theorem State.abortCmd_keep {r0 : State} (s : State) (c : Cmd) (hs : Keep r0 s) :
    Keep r0 (State.abortCmd s c) := by
  unfold State.abortCmd; (repeat' (first
    | with_reducible assumption
    | intro _
    | with_reducible apply State.killCmd_keep
    | with_reducible apply State.modEng_keep
    | with_reducible apply State.finish_keep
    | fail_if_no_progress with_reducible apply keep_mk
    | with_reducible refine keep_foldl ?_ ?_
    | with_reducible refine keep_foldl_fst ?_ ?_
    | with_reducible refine keep_foldl_snd ?_ ?_
    | split
    | dsimp only
    | with_reducible apply_assumption))

theorem State.jobAbort_keep {r0 : State} (c : Cmd) (s : State) (hs : Keep r0 s) :
    Keep r0 (State.jobAbort c s) := by
  unfold State.jobAbort; (repeat' (first
    | with_reducible assumption
    | intro _
    | with_reducible apply Cmd.ends_keep
    | with_reducible apply State.abortCmd_keep
    | with_reducible refine keep_foldl ?_ ?_
    | with_reducible refine keep_foldl_fst ?_ ?_
    | with_reducible refine keep_foldl_snd ?_ ?_
    | with_reducible refine keep_fst ‹_ = (_, _)› ?_
    | with_reducible refine keep_of_some ‹_ = some _› ?_
    | with_reducible refine keep_snd ‹_ = (_, _)› ?_
    | split
    | dsimp only
    | with_reducible apply_assumption))

theorem execJobAbort_keep {r0 : State} (pair : BitVec 16) (s : State) (hs : Keep r0 s) :
    KeepO r0 (execJobAbort pair s) := by
  unfold execJobAbort; (repeat' (first
    | with_reducible assumption
    | intro _
    | with_reducible apply onCmd_keep
    | with_reducible apply State.jobAbort_keep
    | dsimp only
    | with_reducible apply_assumption))

theorem State.clearFlags_keep {r0 : State} (s : State) (e : Fin 8) (hs : Keep r0 s) :
    Keep r0 (State.clearFlags s e) := by
  unfold State.clearFlags; (repeat' (first
    | with_reducible assumption
    | intro _
    | with_reducible apply State.clrClamp_keep
    | with_reducible apply State.clrFlags_keep
    | with_reducible apply State.qntClr_keep
    | with_reducible apply State.vecClr_keep
    | with_reducible apply State.prismClr_keep
    | with_reducible apply State.setFld_keep
    | dsimp only
    | with_reducible apply_assumption))

theorem State.setKeys_keep {r0 : State} (s : State) (e : Fin 8) (seeds : List Nat) (step : Nat) (hs : Keep r0 s) :
    Keep r0 (State.setKeys s e seeds step) := by
  unfold State.setKeys; (repeat' (first
    | with_reducible assumption
    | intro _
    | with_reducible apply State.setRegN_keep
    | with_reducible apply State.setReg64_keep
    | with_reducible refine keep_foldl ?_ ?_
    | with_reducible refine keep_foldl_fst ?_ ?_
    | with_reducible refine keep_foldl_snd ?_ ?_
    | with_reducible apply keep_getD
    | dsimp only
    | with_reducible apply_assumption))

theorem State.launch_keep {r0 : State} (s : State) (e : Fin 8) (id : Nat × Nat) (j : Job) (entry ctx : List Byte) (step : Nat) (hs : Keep r0 s) :
    Keep r0 (State.launch s e id j entry ctx step) := by
  unfold State.launch; (repeat' (first
    | with_reducible assumption
    | intro _
    | with_reducible apply State.wakeEng_keep
    | with_reducible apply State.clearFlags_keep
    | with_reducible apply State.setKeys_keep
    | with_reducible apply State.setRegN_keep
    | with_reducible apply State.setReg_keep
    | with_reducible apply State.poke_keep
    | with_reducible apply State.startEng_keep
    | with_reducible apply State.modEng_keep
    | fail_if_no_progress with_reducible apply keep_mk
    | with_reducible refine keep_foldl ?_ ?_
    | with_reducible refine keep_foldl_fst ?_ ?_
    | with_reducible refine keep_foldl_snd ?_ ?_
    | dsimp only
    | with_reducible apply_assumption))

theorem State.startCmd_keep {r0 : State} (s : State) (q : Part) (j : Job) (c : Cmd) (mayDyn : Bool) (hs : Keep r0 s) :
    Keep r0 (State.startCmd s q j c mayDyn) := by
  unfold State.startCmd; (repeat' (first
    | with_reducible assumption
    | intro _
    | with_reducible apply State.rewindOrdered_keep
    | with_reducible apply State.modCmd_keep
    | with_reducible apply State.toIdle_keep
    | with_reducible apply State.launch_keep
    | with_reducible apply State.dynChoice_keep
    | fail_if_no_progress with_reducible apply keep_mk
    | with_reducible refine keep_foldl ?_ ?_
    | with_reducible refine keep_foldl_fst ?_ ?_
    | with_reducible refine keep_foldl_snd ?_ ?_
    | split
    | dsimp only
    | with_reducible apply_assumption))

theorem execCommandStart_keep {r0 : State} (p : Fin 8) (s : State) (hs : Keep r0 s) :
    KeepO r0 (execCommandStart p s) := by
  unfold execCommandStart; (repeat' (first
    | with_reducible assumption
    | intro _
    | with_reducible apply State.preempt_keep
    | with_reducible apply State.startCmd_keep
    | with_reducible apply keepO_next
    | with_reducible refine keep_fst ‹_ = (_, _)› ?_
    | with_reducible refine keep_of_some ‹_ = some _› ?_
    | with_reducible refine keep_snd ‹_ = (_, _)› ?_
    | split
    | dsimp only
    | with_reducible apply_assumption))

theorem State.commitCmd_keep {r0 : State} (s : State) (j : Job) (c : Cmd) (hs : Keep r0 s) :
    Keep r0 (State.commitCmd s j c) := by
  unfold State.commitCmd; (repeat' (first
    | with_reducible assumption
    | intro _
    | with_reducible apply State.finish_keep
    | with_reducible apply State.modJob_keep
    | with_reducible apply State.modEng_keep
    | with_reducible apply State.digest_keep
    | fail_if_no_progress with_reducible apply keep_mk
    | with_reducible refine keep_foldl ?_ ?_
    | with_reducible refine keep_foldl_fst ?_ ?_
    | with_reducible refine keep_foldl_snd ?_ ?_
    | split
    | dsimp only
    | with_reducible apply_assumption))

theorem execCommandCommit_keep {r0 : State} (p : Fin 8) (s : State) (hs : Keep r0 s) :
    KeepO r0 (execCommandCommit p s) := by
  unfold execCommandCommit; (repeat' (first
    | with_reducible assumption
    | intro _
    | with_reducible apply State.commitCmd_keep
    | with_reducible apply keepO_next
    | with_reducible refine keep_fst ‹_ = (_, _)› ?_
    | with_reducible refine keep_of_some ‹_ = some _› ?_
    | with_reducible refine keep_snd ‹_ = (_, _)› ?_
    | split
    | dsimp only
    | with_reducible apply_assumption))

end Sys2Proof.Machine
end

