-- ==== Sys2Proof/Laws/KeepIntegrity.lean ====
section
/-! SUPPORT. What the operations and meanings of Machine/Integrity keep (Laws/Keep). -/
namespace Sys2Proof.Machine

set_option linter.unusedTactic false
set_option linter.unreachableTactic false

theorem anchorReg_keep {r0 : State} (src u off : Nat) (f : State → State) (s : State) (hf : ∀ t, Keep r0 t → Keep r0 (f t)) (hs : Keep r0 s) :
    Keep r0 (anchorReg src u off f s) := by
  unfold anchorReg; (repeat' (first
    | with_reducible assumption
    | intro _
    | with_reducible apply State.failOp_keep
    | with_reducible apply State.reach_keep
    | split
    | dsimp only
    | with_reducible apply_assumption))

theorem State.ledgerPop_keep {r0 : State} (s : State) (hs : Keep r0 s) :
    Keep r0 (State.ledgerPop s) := by
  unfold State.ledgerPop; (repeat' (first
    | with_reducible assumption
    | intro _
    | fail_if_no_progress with_reducible apply keep_mk
    | dsimp only
    | with_reducible apply_assumption))

theorem State.modLedger_keep {r0 : State} (s : State) (f : Ledger → Ledger) (hs : Keep r0 s) :
    Keep r0 (State.modLedger s f) := by
  unfold State.modLedger; (repeat' (first
    | with_reducible assumption
    | intro _
    | fail_if_no_progress with_reducible apply keep_mk
    | dsimp only
    | with_reducible apply_assumption))

theorem execLedgerCommit_keep {r0 : State} (ok0 : Bool) (ok1 : Bool) (s : State) (hs : Keep r0 s) :
    KeepO r0 (execLedgerCommit ok0 ok1 s) := by
  unfold execLedgerCommit; (repeat' (first
    | with_reducible assumption
    | intro _
    | with_reducible apply State.ledgerPop_keep
    | with_reducible apply State.modLedger_keep
    | with_reducible apply State.lost_keep
    | with_reducible apply State.ledgerCommit_keep
    | with_reducible apply State.event_keep
    | fail_if_no_progress with_reducible apply keep_mk
    | with_reducible apply keepO_next
    | with_reducible refine keep_fst ‹_ = (_, _)› ?_
    | with_reducible refine keep_of_some ‹_ = some _› ?_
    | with_reducible refine keep_snd ‹_ = (_, _)› ?_
    | split
    | dsimp only
    | with_reducible apply_assumption))

theorem State.ledgerRead_keep {r0 : State} (c : Cmd) (s : State) (hs : Keep r0 s) :
    Keep r0 (State.ledgerRead c s) := by
  unfold State.ledgerRead; (repeat' (first
    | with_reducible assumption
    | intro _
    | with_reducible apply Cmd.ends_keep
    | with_reducible apply State.finish_keep
    | with_reducible apply State.hostWrite_keep
    | with_reducible apply keepO_next
    | with_reducible refine keep_fst ‹_ = (_, _)› ?_
    | with_reducible refine keep_of_some ‹_ = some _› ?_
    | with_reducible refine keep_snd ‹_ = (_, _)› ?_
    | split
    | dsimp only
    | with_reducible apply_assumption))

theorem execLedgerRead_keep {r0 : State} (pair : BitVec 16) (s : State) (hs : Keep r0 s) :
    KeepO r0 (execLedgerRead pair s) := by
  unfold execLedgerRead; (repeat' (first
    | with_reducible assumption
    | intro _
    | with_reducible apply onCmd_keep
    | with_reducible apply State.ledgerRead_keep
    | dsimp only
    | with_reducible apply_assumption))

theorem execEccWriteback_keep {r0 : State} (s : State) (hs : Keep r0 s) :
    KeepO r0 (execEccWriteback s) := by
  unfold execEccWriteback; (repeat' (first
    | with_reducible assumption
    | intro _
    | with_reducible apply State.mend_keep
    | with_reducible apply keepO_next
    | with_reducible refine keep_fst ‹_ = (_, _)› ?_
    | with_reducible refine keep_of_some ‹_ = some _› ?_
    | with_reducible refine keep_snd ‹_ = (_, _)› ?_
    | split
    | dsimp only
    | with_reducible apply_assumption))

theorem State.scrubTouch_keep {r0 : State} (s : State) (b : Nat) (hs : Keep r0 s) :
    Keep r0 (State.scrubTouch s b) := by
  unfold State.scrubTouch; (repeat' (first
    | with_reducible assumption
    | intro _
    | with_reducible apply State.touch_keep
    | dsimp only
    | with_reducible apply_assumption))

theorem execScrubRead_keep {r0 : State} (unit : BitVec 8) (s : State) (hs : Keep r0 s) :
    KeepO r0 (execScrubRead unit s) := by
  unfold execScrubRead; (repeat' (first
    | with_reducible assumption
    | intro _
    | with_reducible apply State.draw_keep
    | with_reducible apply State.setRegN_keep
    | with_reducible apply State.scrubTouch_keep
    | fail_if_no_progress with_reducible apply keep_mk
    | with_reducible apply keepO_next
    | split
    | dsimp only
    | with_reducible apply_assumption))

theorem State.touchEach_keep {r0 : State} (s : State) (a n : Nat) (hs : Keep r0 s) :
    Keep r0 (State.touchEach s a n) := by
  unfold State.touchEach; (repeat' (first
    | with_reducible assumption
    | intro _
    | with_reducible apply State.touch_keep
    | with_reducible refine keep_foldl ?_ ?_
    | with_reducible refine keep_foldl_fst ?_ ?_
    | with_reducible refine keep_foldl_snd ?_ ?_
    | dsimp only
    | with_reducible apply_assumption))

theorem execHbmRefresh_keep {r0 : State} (st : Fin 4) (s : State) (hs : Keep r0 s) :
    KeepO r0 (execHbmRefresh st s) := by
  unfold execHbmRefresh; (repeat' (first
    | with_reducible assumption
    | intro _
    | with_reducible apply State.touchEach_keep
    | fail_if_no_progress with_reducible apply keep_mk
    | with_reducible apply keepO_next
    | with_reducible refine keep_foldl ?_ ?_
    | with_reducible refine keep_foldl_fst ?_ ?_
    | with_reducible refine keep_foldl_snd ?_ ?_
    | split
    | dsimp only
    | with_reducible apply_assumption))

theorem State.injWrite_keep {r0 : State} (s : State) (u v : Nat) (hs : Keep r0 s) :
    Keep r0 (State.injWrite s u v) := by
  unfold State.injWrite; (repeat' (first
    | with_reducible assumption
    | intro _
    | with_reducible apply State.setRegN_keep
    | split
    | dsimp only
    | with_reducible apply_assumption))

theorem execEccInjArm_keep {r0 : State} (src : BitVec 8) (unit : BitVec 8) (v : Reg32) (s : State) (hs : Keep r0 s) :
    KeepO r0 (execEccInjArm src unit v s) := by
  unfold execEccInjArm; (repeat' (first
    | with_reducible assumption
    | intro _
    | with_reducible apply anchorReg_keep
    | with_reducible apply State.injWrite_keep
    | with_reducible apply keepO_next
    | split
    | dsimp only
    | with_reducible apply_assumption))

theorem State.eccClr_keep {r0 : State} (s : State) (u : Nat) (hs : Keep r0 s) :
    Keep r0 (State.eccClr s u) := by
  unfold State.eccClr; (repeat' (first
    | with_reducible assumption
    | intro _
    | with_reducible apply State.setRegN_keep
    | dsimp only
    | with_reducible apply_assumption))

theorem execEccCntClr_keep {r0 : State} (src : BitVec 8) (unit : BitVec 8) (s : State) (hs : Keep r0 s) :
    KeepO r0 (execEccCntClr src unit s) := by
  unfold execEccCntClr; (repeat' (first
    | with_reducible assumption
    | intro _
    | with_reducible apply anchorReg_keep
    | with_reducible apply State.eccClr_keep
    | with_reducible apply keepO_next
    | split
    | dsimp only
    | with_reducible apply_assumption))

theorem execUcieRetry_keep {r0 : State} (ns : BitVec 16) (s : State) (hs : Keep r0 s) :
    KeepO r0 (execUcieRetry ns s) := by
  unfold execUcieRetry; (repeat' (first
    | with_reducible assumption
    | intro _
    | with_reducible apply State.passNclk_keep
    | fail_if_no_progress with_reducible apply keep_mk
    | with_reducible apply keepO_next
    | dsimp only
    | with_reducible apply_assumption))

theorem execUcieRetrain_keep {r0 : State} (s : State) (hs : Keep r0 s) :
    KeepO r0 (execUcieRetrain s) := by
  unfold execUcieRetrain; (repeat' (first
    | with_reducible assumption
    | intro _
    | with_reducible apply State.event_keep
    | fail_if_no_progress with_reducible apply keep_mk
    | with_reducible apply keepO_next
    | split
    | dsimp only
    | with_reducible apply_assumption))

end Sys2Proof.Machine
end

