-- ==== Sys2Proof/Laws/KeepSlotOps.lean ====
section
/-! SUPPORT. What the operations and meanings of Machine/SlotOps keep (Laws/Keep). -/
namespace Sys2Proof.Machine

set_option linter.unusedTactic false
set_option linter.unreachableTactic false

theorem State.passTime_keep {r0 : State} (s : State) (p t : Nat) (hs : Keep r0 s) :
    Keep r0 (State.passTime s p t) := by
  unfold State.passTime; (repeat' (first
    | with_reducible assumption
    | intro _
    | with_reducible apply State.modReplay_keep
    | fail_if_no_progress with_reducible apply keep_mk
    | with_reducible refine keep_fst ‹_ = (_, _)› ?_
    | with_reducible refine keep_of_some ‹_ = some _› ?_
    | with_reducible refine keep_snd ‹_ = (_, _)› ?_
    | split
    | dsimp only
    | with_reducible apply_assumption))

theorem State.modGroup_keep {r0 : State} (s : State) (e : Nat) (f : Group → Group) (hs : Keep r0 s) :
    Keep r0 (State.modGroup s e f) := by
  unfold State.modGroup; (repeat' (first
    | with_reducible assumption
    | intro _
    | fail_if_no_progress with_reducible apply keep_mk
    | split
    | dsimp only
    | with_reducible apply_assumption))

theorem State.capture_keep {r0 : State} (s : State) (e k : Nat) (hs : Keep r0 s) :
    Keep r0 (State.capture s e k) := by
  unfold State.capture; (repeat' (first
    | with_reducible assumption
    | intro _
    | with_reducible apply State.modGroup_keep
    | with_reducible apply State.poke_keep
    | with_reducible apply State.undef_keep
    | fail_if_no_progress with_reducible apply keep_mk
    | with_reducible refine keep_foldl ?_ ?_
    | with_reducible refine keep_foldl_fst ?_ ?_
    | with_reducible refine keep_foldl_snd ?_ ?_
    | with_reducible refine keep_fst ‹_ = (_, _)› ?_
    | with_reducible refine keep_of_some ‹_ = some _› ?_
    | with_reducible refine keep_snd ‹_ = (_, _)› ?_
    | split
    | dsimp only
    | with_reducible apply_assumption))

theorem State.captureCommit_keep {r0 : State} (s : State) (e : Nat) (c : Carrier) (n : Nat) (bad : Bool) (missing : List Nat) (pass : Nat → Bool) (hs : Keep r0 s) :
    Keep r0 (State.captureCommit s e c n bad missing pass) := by
  unfold State.captureCommit; (repeat' (first
    | with_reducible assumption
    | intro _
    | with_reducible apply State.poke_keep
    | fail_if_no_progress with_reducible apply keep_mk
    | with_reducible refine keep_foldl ?_ ?_
    | with_reducible refine keep_foldl_fst ?_ ?_
    | with_reducible refine keep_foldl_snd ?_ ?_
    | with_reducible refine keep_fst ‹_ = (_, _)› ?_
    | with_reducible refine keep_of_some ‹_ = some _› ?_
    | with_reducible refine keep_snd ‹_ = (_, _)› ?_
    | split
    | dsimp only
    | with_reducible apply_assumption))

theorem State.tbRecord_keep {r0 : State} (s : State) (r : List Byte) (dead : Bool) (hs : Keep r0 s) :
    Keep r0 (State.tbRecord s r dead).2.2 := by
  unfold State.tbRecord; (repeat' (first
    | with_reducible assumption
    | intro _
    | with_reducible apply State.draw_keep
    | split
    | dsimp only
    | with_reducible apply_assumption))

theorem State.tbRecords_keep {r0 : State} (s : State) (dead : Bool) (l0 : List (List Byte)) (hs : Keep r0 s) :
    Keep r0 (State.tbRecords s dead l0).2.2 := by
  revert hs
  fun_induction State.tbRecords s dead l0
  all_goals (intros; (repeat' (first
    | with_reducible assumption
    | intro _
    | with_reducible apply State.tbRecord_keep
    | with_reducible refine keep_fst ‹_ = (_, _)› ?_
    | with_reducible refine keep_of_some ‹_ = some _› ?_
    | with_reducible refine keep_snd ‹_ = (_, _)› ?_
    | split
    | dsimp only
    | with_reducible apply_assumption)))

theorem State.publishSlot_keep {r0 : State} (s : State) (c : Carrier) (u : UlSlot) (why : PubWhy) (hs : Keep r0 s) :
    Keep r0 (State.publishSlot s c u why).st := by
  unfold State.publishSlot; (repeat' (first
    | with_reducible assumption
    | intro _
    | with_reducible apply State.draw_keep
    | with_reducible apply State.tbRecords_keep
    | with_reducible apply State.undef_keep
    | with_reducible apply State.poke_keep
    | with_reducible apply State.captureCommit_keep
    | with_reducible apply State.event_keep
    | with_reducible apply State.take_keep
    | with_reducible apply State.digest_keep
    | fail_if_no_progress with_reducible apply keep_mk
    | with_reducible refine keep_foldl ?_ ?_
    | with_reducible refine keep_foldl_fst ?_ ?_
    | with_reducible refine keep_foldl_snd ?_ ?_
    | with_reducible apply keep_getD
    | split
    | dsimp only
    | with_reducible apply_assumption))

theorem State.finishGroup_keep {r0 : State} (s : State) (xs : List ((Nat × Nat) × Nat × Nat × Nat)) (hs : Keep r0 s) :
    Keep r0 (State.finishGroup s xs) := by
  unfold State.finishGroup; (repeat' (first
    | with_reducible assumption
    | intro _
    | with_reducible apply State.ledgerCommit_keep
    | with_reducible apply State.modCmd_keep
    | fail_if_no_progress with_reducible apply keep_mk
    | with_reducible refine keep_foldl ?_ ?_
    | with_reducible refine keep_foldl_fst ?_ ?_
    | with_reducible refine keep_foldl_snd ?_ ?_
    | with_reducible refine keep_fst ‹_ = (_, _)› ?_
    | with_reducible refine keep_of_some ‹_ = some _› ?_
    | with_reducible refine keep_snd ‹_ = (_, _)› ?_
    | split
    | dsimp only
    | with_reducible apply_assumption))

theorem State.publishAll_keep {r0 : State} (s : State) (why : PubWhy) (us : List (Carrier × UlSlot)) (hs : Keep r0 s) :
    Keep r0 (State.publishAll s why us) := by
  unfold State.publishAll; (repeat' (first
    | with_reducible assumption
    | intro _
    | with_reducible apply State.publishSlot_keep
    | with_reducible apply State.finishGroup_keep
    | with_reducible refine keep_foldl ?_ ?_
    | with_reducible refine keep_foldl_fst ?_ ?_
    | with_reducible refine keep_foldl_snd ?_ ?_
    | with_reducible apply keep_getD
    | dsimp only
    | with_reducible apply_assumption))

theorem State.collectStages_keep {r0 : State} (s : State) (hs : Keep r0 s) :
    Keep r0 (State.collectStages s) := by
  unfold State.collectStages; (repeat' (first
    | with_reducible assumption
    | intro _
    | with_reducible apply State.finish_keep
    | with_reducible apply State.modEng_keep
    | fail_if_no_progress with_reducible apply keep_mk
    | with_reducible refine keep_foldl ?_ ?_
    | with_reducible refine keep_foldl_fst ?_ ?_
    | with_reducible refine keep_foldl_snd ?_ ?_
    | with_reducible refine keep_fst ‹_ = (_, _)› ?_
    | with_reducible refine keep_of_some ‹_ = some _› ?_
    | with_reducible refine keep_snd ‹_ = (_, _)› ?_
    | split
    | dsimp only
    | with_reducible apply_assumption))

theorem State.abandon_keep {r0 : State} (s : State) (c : Carrier) (n : Nat) (hs : Keep r0 s) :
    Keep r0 (State.abandon s c n) := by
  unfold State.abandon; (repeat' (first
    | with_reducible assumption
    | intro _
    | with_reducible apply State.journalCarrier_keep
    | with_reducible apply State.killEng_keep
    | with_reducible apply State.publishAll_keep
    | fail_if_no_progress with_reducible apply keep_mk
    | with_reducible refine keep_foldl ?_ ?_
    | with_reducible refine keep_foldl_fst ?_ ?_
    | with_reducible refine keep_foldl_snd ?_ ?_
    | with_reducible refine keep_fst ‹_ = (_, _)› ?_
    | with_reducible refine keep_of_some ‹_ = some _› ?_
    | with_reducible refine keep_snd ‹_ = (_, _)› ?_
    | split
    | dsimp only
    | with_reducible apply_assumption))

end Sys2Proof.Machine
end

