-- ==== Sys2Proof/Laws/KeepShadow.lean ====
section
/-! SUPPORT. What the operations and meanings of Machine/Shadow keep (Laws/Keep). -/
namespace Sys2Proof.Machine

set_option linter.unusedTactic false
set_option linter.unreachableTactic false

theorem State.hbmPut_keep {r0 : State} (s : State) (a : Nat) (bs : List Byte) (hs : Keep r0 s) :
    Keep r0 (State.hbmPut s a bs) := by
  unfold State.hbmPut; (repeat' (first
    | with_reducible assumption
    | intro _
    | with_reducible apply State.poke_keep
    | dsimp only
    | with_reducible apply_assumption))

theorem State.shadowConfig_keep {r0 : State} (c : Cmd) (s : State) (hs : Keep r0 s) :
    Keep r0 (State.shadowConfig c s) := by
  unfold State.shadowConfig; (repeat' (first
    | with_reducible assumption
    | intro _
    | with_reducible apply Cmd.ends_keep
    | with_reducible apply State.finish_keep
    | with_reducible apply State.hbmPut_keep
    | fail_if_no_progress with_reducible apply keep_mk
    | with_reducible apply keep_getD
    | with_reducible refine keep_fst ‹_ = (_, _)› ?_
    | with_reducible refine keep_of_some ‹_ = some _› ?_
    | with_reducible refine keep_snd ‹_ = (_, _)› ?_
    | split
    | dsimp only
    | with_reducible apply_assumption))

theorem execShadowConfig_keep {r0 : State} (pair : BitVec 16) (s : State) (hs : Keep r0 s) :
    KeepO r0 (execShadowConfig pair s) := by
  unfold execShadowConfig; (repeat' (first
    | with_reducible assumption
    | intro _
    | with_reducible apply onCmd_keep
    | with_reducible apply State.shadowConfig_keep
    | dsimp only
    | with_reducible apply_assumption))

theorem execShadowCapWindow_keep {r0 : State} (s : State) (hs : Keep r0 s) :
    KeepO r0 (execShadowCapWindow s) := by
  unfold execShadowCapWindow; (repeat' (first
    | with_reducible assumption
    | intro _
    | fail_if_no_progress with_reducible apply keep_mk
    | with_reducible apply keepO_next
    | dsimp only
    | with_reducible apply_assumption))

theorem State.trialEndRecord_keep {r0 : State} (s : State) (e : Nat) (t : Trial) (detail : Nat) (decided : Bool) (hs : Keep r0 s) :
    Keep r0 (State.trialEndRecord s e t detail decided) := by
  unfold State.trialEndRecord; (repeat' (first
    | with_reducible assumption
    | intro _
    | with_reducible apply State.ledgerCommit_keep
    | split
    | dsimp only
    | with_reducible apply_assumption))

theorem State.clearTrial_keep {r0 : State} (s : State) (e : Nat) (hs : Keep r0 s) :
    Keep r0 (State.clearTrial s e) := by
  unfold State.clearTrial; (repeat' (first
    | with_reducible assumption
    | intro _
    | with_reducible apply State.modGroup_keep
    | with_reducible apply State.hbmPut_keep
    | fail_if_no_progress with_reducible apply keep_mk
    | with_reducible refine keep_fst ‹_ = (_, _)› ?_
    | with_reducible refine keep_of_some ‹_ = some _› ?_
    | with_reducible refine keep_snd ‹_ = (_, _)› ?_
    | split
    | dsimp only
    | with_reducible apply_assumption))

theorem State.endTrial_keep {r0 : State} (s : State) (e detail : Nat) (decided : Bool) (hs : Keep r0 s) :
    Keep r0 (State.endTrial s e detail decided) := by
  unfold State.endTrial; (repeat' (first
    | with_reducible assumption
    | intro _
    | with_reducible apply State.trialEndRecord_keep
    | with_reducible apply State.clearTrial_keep
    | with_reducible apply State.finish_keep
    | with_reducible refine keep_fst ‹_ = (_, _)› ?_
    | with_reducible refine keep_of_some ‹_ = some _› ?_
    | with_reducible refine keep_snd ‹_ = (_, _)› ?_
    | split
    | dsimp only
    | with_reducible apply_assumption))

theorem State.netTrialAbort_keep {r0 : State} (c : Cmd) (s : State) (hs : Keep r0 s) :
    Keep r0 (State.netTrialAbort c s) := by
  unfold State.netTrialAbort; (repeat' (first
    | with_reducible assumption
    | intro _
    | with_reducible apply Cmd.ends_keep
    | with_reducible apply State.endTrial_keep
    | split
    | dsimp only
    | with_reducible apply_assumption))

theorem State.netTrial_keep {r0 : State} (c : Cmd) (s : State) (hs : Keep r0 s) :
    Keep r0 (State.netTrial c s) := by
  unfold State.netTrial; (repeat' (first
    | with_reducible assumption
    | intro _
    | with_reducible apply State.netTrialAbort_keep
    | with_reducible apply Cmd.ends_keep
    | with_reducible apply State.hbmPut_keep
    | with_reducible apply State.modGroup_keep
    | with_reducible apply State.modCmd_keep
    | fail_if_no_progress with_reducible apply keep_mk
    | with_reducible refine keep_fst ‹_ = (_, _)› ?_
    | with_reducible refine keep_of_some ‹_ = some _› ?_
    | with_reducible refine keep_snd ‹_ = (_, _)› ?_
    | split
    | dsimp only
    | with_reducible apply_assumption))

theorem execNetTrial_keep {r0 : State} (pair : BitVec 16) (s : State) (hs : Keep r0 s) :
    KeepO r0 (execNetTrial pair s) := by
  unfold execNetTrial; (repeat' (first
    | with_reducible assumption
    | intro _
    | with_reducible apply onCmd_keep
    | with_reducible apply State.netTrial_keep
    | dsimp only
    | with_reducible apply_assumption))

theorem State.trialSlot_keep {r0 : State} (s : State) (e k : Nat) (us : List (Carrier × UlSlot)) (captured : Bool) (hs : Keep r0 s) :
    Keep r0 (State.trialSlot s e k us captured) := by
  unfold State.trialSlot; (repeat' (first
    | with_reducible assumption
    | intro _
    | with_reducible apply State.draw_keep
    | with_reducible apply State.modGroup_keep
    | with_reducible apply State.hbmPut_keep
    | fail_if_no_progress with_reducible apply keep_mk
    | with_reducible refine keep_foldl ?_ ?_
    | with_reducible refine keep_foldl_fst ?_ ?_
    | with_reducible refine keep_foldl_snd ?_ ?_
    | with_reducible refine keep_fst ‹_ = (_, _)› ?_
    | with_reducible refine keep_of_some ‹_ = some _› ?_
    | with_reducible refine keep_snd ‹_ = (_, _)› ?_
    | split
    | dsimp only
    | with_reducible apply_assumption))

theorem State.promote_keep {r0 : State} (s : State) (e : Nat) (t : Trial) (hs : Keep r0 s) :
    Keep r0 (State.promote s e t) := by
  unfold State.promote; (repeat' (first
    | with_reducible assumption
    | intro _
    | with_reducible apply State.ledgerCommit_keep
    | with_reducible apply State.hbmPut_keep
    | with_reducible apply State.modGroup_keep
    | fail_if_no_progress with_reducible apply keep_mk
    | with_reducible refine keep_fst ‹_ = (_, _)› ?_
    | with_reducible refine keep_of_some ‹_ = some _› ?_
    | with_reducible refine keep_snd ‹_ = (_, _)› ?_
    | split
    | dsimp only
    | with_reducible apply_assumption))

theorem execTrialDecide_keep {r0 : State} (e : Fin 8) (s : State) (hs : Keep r0 s) :
    KeepO r0 (execTrialDecide e s) := by
  unfold execTrialDecide; (repeat' (first
    | with_reducible assumption
    | intro _
    | with_reducible apply State.promote_keep
    | with_reducible apply State.clearTrial_keep
    | with_reducible apply State.finish_keep
    | with_reducible apply State.endTrial_keep
    | with_reducible apply keepO_next
    | with_reducible refine keep_fst ‹_ = (_, _)› ?_
    | with_reducible refine keep_of_some ‹_ = some _› ?_
    | with_reducible refine keep_snd ‹_ = (_, _)› ?_
    | split
    | dsimp only
    | with_reducible apply_assumption))

theorem execTrialTimeout_keep {r0 : State} (e : Fin 8) (s : State) (hs : Keep r0 s) :
    KeepO r0 (execTrialTimeout e s) := by
  unfold execTrialTimeout; (repeat' (first
    | with_reducible assumption
    | intro _
    | with_reducible apply State.passTime_keep
    | with_reducible apply State.endTrial_keep
    | with_reducible apply keepO_next
    | with_reducible refine keep_fst ‹_ = (_, _)› ?_
    | with_reducible refine keep_of_some ‹_ = some _› ?_
    | with_reducible refine keep_snd ‹_ = (_, _)› ?_
    | split
    | dsimp only
    | with_reducible apply_assumption))

theorem State.netRollback_keep {r0 : State} (c : Cmd) (s : State) (hs : Keep r0 s) :
    Keep r0 (State.netRollback c s) := by
  unfold State.netRollback; (repeat' (first
    | with_reducible assumption
    | intro _
    | with_reducible apply Cmd.ends_keep
    | with_reducible apply State.endTrial_keep
    | with_reducible apply State.ledgerCommit_keep
    | with_reducible apply State.hbmPut_keep
    | with_reducible apply State.modGroup_keep
    | fail_if_no_progress with_reducible apply keep_mk
    | with_reducible refine keep_fst ‹_ = (_, _)› ?_
    | with_reducible refine keep_of_some ‹_ = some _› ?_
    | with_reducible refine keep_snd ‹_ = (_, _)› ?_
    | split
    | dsimp only
    | with_reducible apply_assumption))

theorem execNetRollback_keep {r0 : State} (pair : BitVec 16) (s : State) (hs : Keep r0 s) :
    KeepO r0 (execNetRollback pair s) := by
  unfold execNetRollback; (repeat' (first
    | with_reducible assumption
    | intro _
    | with_reducible apply onCmd_keep
    | with_reducible apply State.netRollback_keep
    | dsimp only
    | with_reducible apply_assumption))

end Sys2Proof.Machine
end

