-- ==== Sys2Proof/Laws/KeepRadio.lean ====
section
/-! SUPPORT. What the operations and meanings of Machine/Radio keep (Laws/Keep). -/
namespace Sys2Proof.Machine

set_option linter.unusedTactic false
set_option linter.unreachableTactic false

theorem State.registerMap_keep {r0 : State} (s : State) (d m : List Byte) (hs : Keep r0 s) :
    KeepOpt r0 (State.registerMap s d m) := by
  unfold State.registerMap; (repeat' (first
    | with_reducible assumption
    | intro _
    | with_reducible apply State.registerAll_keep
    | with_reducible apply keepOpt_some
    | with_reducible apply keepOpt_none
    | with_reducible refine keepOpt_bind ?_ ?_
    | with_reducible refine keepOpt_bindA ?_
    | with_reducible refine keepOpt_map ?_
    | dsimp only
    | with_reducible apply_assumption))

theorem State.modCarrier_keep {r0 : State} (s : State) (id : Nat) (f : Carrier → Carrier) (hs : Keep r0 s) :
    Keep r0 (State.modCarrier s id f) := by
  unfold State.modCarrier; (repeat' (first
    | with_reducible assumption
    | intro _
    | fail_if_no_progress with_reducible apply keep_mk
    | split
    | dsimp only
    | with_reducible apply_assumption))

theorem State.carrierPlan_keep {r0 : State} (c : Cmd) (p : Nat) (q : Part) (s : State) (d m : List Byte) (hs : Keep r0 s) :
    Keep r0 (State.carrierPlan c p q s d m) := by
  unfold State.carrierPlan; (repeat' (first
    | with_reducible assumption
    | intro _
    | with_reducible apply State.modCarrier_keep
    | with_reducible apply State.modCmd_keep
    | with_reducible apply Cmd.ends_keep
    | with_reducible apply State.registerMap_keep
    | fail_if_no_progress with_reducible apply keep_mk
    | with_reducible refine keep_fst ‹_ = (_, _)› ?_
    | with_reducible refine keep_of_some ‹_ = some _› ?_
    | with_reducible refine keep_snd ‹_ = (_, _)› ?_
    | split
    | dsimp only
    | with_reducible apply_assumption))

theorem State.carrierCfg_keep {r0 : State} (c : Cmd) (s : State) (hs : Keep r0 s) :
    Keep r0 (State.carrierCfg c s) := by
  unfold State.carrierCfg; (repeat' (first
    | with_reducible assumption
    | intro _
    | with_reducible apply Cmd.ends_keep
    | with_reducible apply State.read_keep
    | with_reducible apply State.carrierPlan_keep
    | with_reducible refine keep_fst ‹_ = (_, _)› ?_
    | with_reducible refine keep_of_some ‹_ = some _› ?_
    | with_reducible refine keep_snd ‹_ = (_, _)› ?_
    | split
    | dsimp only
    | with_reducible apply_assumption))

theorem execCarrierCfg_keep {r0 : State} (pair : BitVec 16) (s : State) (hs : Keep r0 s) :
    KeepO r0 (execCarrierCfg pair s) := by
  unfold execCarrierCfg; (repeat' (first
    | with_reducible assumption
    | intro _
    | with_reducible apply onCmd_keep
    | with_reducible apply State.carrierCfg_keep
    | dsimp only
    | with_reducible apply_assumption))

theorem State.carrierSwitch_keep {r0 : State} (s : State) (c : Carrier) (id : Nat × Nat) (p : Nat) (d m : List Byte) (hs : Keep r0 s) :
    Keep r0 (State.carrierSwitch s c id p d m) := by
  unfold State.carrierSwitch; (repeat' (first
    | with_reducible assumption
    | intro _
    | with_reducible apply State.passTime_keep
    | with_reducible apply State.endTrial_keep
    | with_reducible apply State.finish_keep
    | with_reducible apply State.modCarrier_keep
    | fail_if_no_progress with_reducible apply keep_mk
    | with_reducible refine keep_fst ‹_ = (_, _)› ?_
    | with_reducible refine keep_of_some ‹_ = some _› ?_
    | with_reducible refine keep_snd ‹_ = (_, _)› ?_
    | split
    | dsimp only
    | with_reducible apply_assumption))

theorem execCarrierSwitch_keep {r0 : State} (c : Fin 24) (s : State) (hs : Keep r0 s) :
    KeepO r0 (execCarrierSwitch c s) := by
  unfold execCarrierSwitch; (repeat' (first
    | with_reducible assumption
    | intro _
    | with_reducible apply State.carrierSwitch_keep
    | with_reducible apply keepO_next
    | with_reducible refine keep_fst ‹_ = (_, _)› ?_
    | with_reducible refine keep_of_some ‹_ = some _› ?_
    | with_reducible refine keep_snd ‹_ = (_, _)› ?_
    | split
    | dsimp only
    | with_reducible apply_assumption))

theorem State.slotReq_keep {r0 : State} (s : State) (c : Cmd) (dl : Bool) (hs : Keep r0 s) :
    Keep r0 (State.slotReq s c dl).1 := by
  unfold State.slotReq; (repeat' (first
    | with_reducible assumption
    | intro _
    | with_reducible apply State.read_keep
    | with_reducible refine keep_fst ‹_ = (_, _)› ?_
    | with_reducible refine keep_of_some ‹_ = some _› ?_
    | with_reducible refine keep_snd ‹_ = (_, _)› ?_
    | split
    | dsimp only
    | with_reducible apply_assumption))

theorem State.ulSlot_keep {r0 : State} (c : Cmd) (s : State) (hs : Keep r0 s) :
    Keep r0 (State.ulSlot c s) := by
  unfold State.ulSlot; (repeat' (first
    | with_reducible assumption
    | intro _
    | with_reducible apply Cmd.ends_keep
    | with_reducible apply State.slotReq_keep
    | with_reducible apply State.modCmd_keep
    | fail_if_no_progress with_reducible apply keep_mk
    | with_reducible refine keep_fst ‹_ = (_, _)› ?_
    | with_reducible refine keep_of_some ‹_ = some _› ?_
    | with_reducible refine keep_snd ‹_ = (_, _)› ?_
    | split
    | dsimp only
    | with_reducible apply_assumption))

theorem execUlSlot_keep {r0 : State} (pair : BitVec 16) (s : State) (hs : Keep r0 s) :
    KeepO r0 (execUlSlot pair s) := by
  unfold execUlSlot; (repeat' (first
    | with_reducible assumption
    | intro _
    | with_reducible apply onCmd_keep
    | with_reducible apply State.ulSlot_keep
    | dsimp only
    | with_reducible apply_assumption))

theorem State.dlSlot_keep {r0 : State} (c : Cmd) (s : State) (hs : Keep r0 s) :
    Keep r0 (State.dlSlot c s) := by
  unfold State.dlSlot; (repeat' (first
    | with_reducible assumption
    | intro _
    | with_reducible apply State.slotReq_keep
    | with_reducible apply Cmd.ends_keep
    | with_reducible apply State.modCmd_keep
    | fail_if_no_progress with_reducible apply keep_mk
    | with_reducible refine keep_fst ‹_ = (_, _)› ?_
    | with_reducible refine keep_of_some ‹_ = some _› ?_
    | with_reducible refine keep_snd ‹_ = (_, _)› ?_
    | split
    | dsimp only
    | with_reducible apply_assumption))

theorem execDlSlot_keep {r0 : State} (pair : BitVec 16) (s : State) (hs : Keep r0 s) :
    KeepO r0 (execDlSlot pair s) := by
  unfold execDlSlot; (repeat' (first
    | with_reducible assumption
    | intro _
    | with_reducible apply onCmd_keep
    | with_reducible apply State.dlSlot_keep
    | dsimp only
    | with_reducible apply_assumption))

theorem State.endDl_keep {r0 : State} (s : State) (u : DlSlot) (status : Nat) (hs : Keep r0 s) :
    Keep r0 (State.endDl s u status) := by
  unfold State.endDl; (repeat' (first
    | with_reducible assumption
    | intro _
    | with_reducible apply State.finish_keep
    | fail_if_no_progress with_reducible apply keep_mk
    | dsimp only
    | with_reducible apply_assumption))

theorem State.dropSrs_keep {r0 : State} (s : State) (e k : Nat) (hs : Keep r0 s) :
    Keep r0 (State.dropSrs s e k) := by
  unfold State.dropSrs; (repeat' (first
    | with_reducible assumption
    | intro _
    | with_reducible apply State.endDl_keep
    | with_reducible refine keep_foldl ?_ ?_
    | with_reducible refine keep_foldl_fst ?_ ?_
    | with_reducible refine keep_foldl_snd ?_ ?_
    | split
    | dsimp only
    | with_reducible apply_assumption))

theorem State.startStage_keep {r0 : State} (s : State) (e : Fin 8) (kind k : Nat) (hs : Keep r0 s) :
    Keep r0 (State.startStage s e kind k) := by
  unfold State.startStage; (repeat' (first
    | with_reducible assumption
    | intro _
    | with_reducible apply State.capture_keep
    | with_reducible apply State.toIdle_keep
    | with_reducible apply State.launch_keep
    | fail_if_no_progress with_reducible apply keep_mk
    | with_reducible refine keep_fst ‹_ = (_, _)› ?_
    | with_reducible refine keep_of_some ‹_ = some _› ?_
    | with_reducible refine keep_snd ‹_ = (_, _)› ?_
    | split
    | dsimp only
    | with_reducible apply_assumption))

theorem State.runStage_keep {r0 : State} (s : State) (e : Fin 8) (mine : Nat → Bool) (hs : Keep r0 s) :
    Keep r0 (State.runStage s e mine) := by
  unfold State.runStage; (repeat' (first
    | with_reducible assumption
    | intro _
    | with_reducible apply State.collectStages_keep
    | with_reducible apply State.passTime_keep
    | with_reducible apply State.dropSrs_keep
    | with_reducible apply State.killCmdOn_keep
    | with_reducible apply State.startStage_keep
    | with_reducible apply keepO_next
    | with_reducible apply keep_getD
    | with_reducible refine keep_fst ‹_ = (_, _)› ?_
    | with_reducible refine keep_of_some ‹_ = some _› ?_
    | with_reducible refine keep_snd ‹_ = (_, _)› ?_
    | split
    | dsimp only
    | with_reducible apply_assumption))

theorem execEst_keep {r0 : State} (e : Fin 8) (s : State) (hs : Keep r0 s) :
    KeepO r0 (execEst e s) := by
  unfold execEst; (repeat' (first
    | with_reducible assumption
    | intro _
    | with_reducible apply State.runStage_keep
    | with_reducible apply keepO_next
    | dsimp only
    | with_reducible apply_assumption))

theorem execEq_keep {r0 : State} (e : Fin 8) (s : State) (hs : Keep r0 s) :
    KeepO r0 (execEq e s) := by
  unfold execEq; (repeat' (first
    | with_reducible assumption
    | intro _
    | with_reducible apply State.runStage_keep
    | with_reducible apply keepO_next
    | dsimp only
    | with_reducible apply_assumption))

theorem execTx_keep {r0 : State} (e : Fin 8) (s : State) (hs : Keep r0 s) :
    KeepO r0 (execTx e s) := by
  unfold execTx; (repeat' (first
    | with_reducible assumption
    | intro _
    | with_reducible apply State.runStage_keep
    | with_reducible apply keepO_next
    | dsimp only
    | with_reducible apply_assumption))

theorem execDec_keep {r0 : State} (e : Fin 8) (s : State) (hs : Keep r0 s) :
    KeepO r0 (execDec e s) := by
  unfold execDec; (repeat' (first
    | with_reducible assumption
    | intro _
    | with_reducible apply State.passTime_keep
    | fail_if_no_progress with_reducible apply keep_mk
    | with_reducible apply keepO_next
    | with_reducible apply keep_getD
    | with_reducible refine keep_fst ‹_ = (_, _)› ?_
    | with_reducible refine keep_of_some ‹_ = some _› ?_
    | with_reducible refine keep_snd ‹_ = (_, _)› ?_
    | split
    | dsimp only
    | with_reducible apply_assumption))

theorem execStageRerun_keep {r0 : State} (s : State) (hs : Keep r0 s) :
    KeepO r0 (execStageRerun s) := by
  unfold execStageRerun; (repeat' (first
    | with_reducible assumption
    | intro _
    | with_reducible apply State.endDl_keep
    | fail_if_no_progress with_reducible apply keep_mk
    | with_reducible apply keepO_next
    | with_reducible refine keep_foldl ?_ ?_
    | with_reducible refine keep_foldl_fst ?_ ?_
    | with_reducible refine keep_foldl_snd ?_ ?_
    | with_reducible refine keep_fst ‹_ = (_, _)› ?_
    | with_reducible refine keep_of_some ‹_ = some _› ?_
    | with_reducible refine keep_snd ‹_ = (_, _)› ?_
    | split
    | dsimp only
    | with_reducible apply_assumption))

theorem execSlotPublish_keep {r0 : State} (e : Fin 8) (k : BitVec 64) (s : State) (hs : Keep r0 s) :
    KeepO r0 (execSlotPublish e k s) := by
  unfold execSlotPublish; (repeat' (first
    | with_reducible assumption
    | intro _
    | with_reducible apply State.collectStages_keep
    | with_reducible apply State.publishAll_keep
    | with_reducible apply State.trialSlot_keep
    | fail_if_no_progress with_reducible apply keep_mk
    | with_reducible apply keepO_next
    | with_reducible refine keep_fst ‹_ = (_, _)› ?_
    | with_reducible refine keep_of_some ‹_ = some _› ?_
    | with_reducible refine keep_snd ‹_ = (_, _)› ?_
    | split
    | dsimp only
    | with_reducible apply_assumption))

theorem execDlSlotComplete_keep {r0 : State} (c : Fin 24) (n : BitVec 64) (s : State) (hs : Keep r0 s) :
    KeepO r0 (execDlSlotComplete c n s) := by
  unfold execDlSlotComplete; (repeat' (first
    | with_reducible assumption
    | intro _
    | with_reducible apply State.collectStages_keep
    | with_reducible apply State.endDl_keep
    | fail_if_no_progress with_reducible apply keep_mk
    | with_reducible apply keepO_next
    | with_reducible refine keep_fst ‹_ = (_, _)› ?_
    | with_reducible refine keep_of_some ‹_ = some _› ?_
    | with_reducible refine keep_snd ‹_ = (_, _)› ?_
    | split
    | dsimp only
    | with_reducible apply_assumption))

end Sys2Proof.Machine
end

