-- ==== Sys2Proof/Laws/KeepFront.lean ====
section
/-! SUPPORT. What the operations and meanings of Machine/Front keep (Laws/Keep). -/
namespace Sys2Proof.Machine

set_option linter.unusedTactic false
set_option linter.unreachableTactic false

theorem State.fhCount_keep {r0 : State} (s : State) (p k n : Nat) (hs : Keep r0 s) :
    Keep r0 (State.fhCount s p k n) := by
  unfold State.fhCount; (repeat' (first
    | with_reducible assumption
    | intro _
    | with_reducible apply State.countUp_keep
    | split
    | dsimp only
    | with_reducible apply_assumption))

theorem State.modFront_keep {r0 : State} (s : State) (f : Front → Front) (hs : Keep r0 s) :
    Keep r0 (State.modFront s f) := by
  unfold State.modFront; (repeat' (first
    | with_reducible assumption
    | intro _
    | fail_if_no_progress with_reducible apply keep_mk
    | dsimp only
    | with_reducible apply_assumption))

theorem State.passStamp_keep {r0 : State} (s : State) (t : Nat) (hs : Keep r0 s) :
    Keep r0 (State.passStamp s t) := by
  unfold State.passStamp; (repeat' (first
    | with_reducible assumption
    | intro _
    | fail_if_no_progress with_reducible apply keep_mk
    | dsimp only
    | with_reducible apply_assumption))

theorem State.sendFrame_keep {r0 : State} (s : State) (p : Nat) (f : List Byte) (bad : Bool := false) (hs : Keep r0 s) :
    Keep r0 (State.sendFrame s p f bad) := by
  unfold State.sendFrame; (repeat' (first
    | with_reducible assumption
    | intro _
    | with_reducible apply State.fhCount_keep
    | with_reducible apply State.modFront_keep
    | fail_if_no_progress with_reducible apply keep_mk
    | split
    | dsimp only
    | with_reducible apply_assumption))

theorem State.forward_keep {r0 : State} (s : State) (p g : Nat) (f : List Byte) (good : Bool) (stamp : Option Int) (tx : Nat) (hs : Keep r0 s) :
    Keep r0 (State.forward s p g f good stamp tx) := by
  unfold State.forward; (repeat' (first
    | with_reducible assumption
    | intro _
    | with_reducible apply State.sendFrame_keep
    | with_reducible apply State.fhCount_keep
    | with_reducible apply State.modFront_keep
    | fail_if_no_progress with_reducible apply keep_mk
    | split
    | dsimp only
    | with_reducible apply_assumption))

theorem execStoredFrameSend_keep {r0 : State} (port : Fin 16) (tx : BitVec 96) (s : State) (hs : Keep r0 s) :
    KeepO r0 (execStoredFrameSend port tx s) := by
  unfold execStoredFrameSend; (repeat' (first
    | with_reducible assumption
    | intro _
    | with_reducible apply State.passStamp_keep
    | with_reducible apply State.modFront_keep
    | with_reducible apply State.sendFrame_keep
    | fail_if_no_progress with_reducible apply keep_mk
    | with_reducible apply keepO_next
    | with_reducible refine keep_fst ‹_ = (_, _)› ?_
    | with_reducible refine keep_of_some ‹_ = some _› ?_
    | with_reducible refine keep_snd ‹_ = (_, _)› ?_
    | split
    | dsimp only
    | with_reducible apply_assumption))

theorem State.modRx_keep {r0 : State} (s : State) (c n : Nat) (f : RxSlot → RxSlot) (hs : Keep r0 s) :
    Keep r0 (State.modRx s c n f) := by
  unfold State.modRx; (repeat' (first
    | with_reducible assumption
    | intro _
    | fail_if_no_progress with_reducible apply keep_mk
    | split
    | dsimp only
    | with_reducible apply_assumption))

theorem State.blockReady_keep {r0 : State} (s : State) (p : Nat) (c : Carrier) (n blk : Nat) (bytes : List Byte) (damaged : Bool) (hs : Keep r0 s) :
    Keep r0 (State.blockReady s p c n blk bytes damaged) := by
  unfold State.blockReady; (repeat' (first
    | with_reducible assumption
    | intro _
    | with_reducible apply State.modRx_keep
    | with_reducible apply State.modFront_keep
    | fail_if_no_progress with_reducible apply keep_mk
    | split
    | dsimp only
    | with_reducible apply_assumption))

theorem State.putPrb_keep {r0 : State} (s : State) (p : Nat) (c : Carrier) (n blk i : Nat) (b : List Byte) (hs : Keep r0 s) :
    Keep r0 (State.putPrb s p c n blk i b) := by
  unfold State.putPrb; (repeat' (first
    | with_reducible assumption
    | intro _
    | with_reducible apply State.fhCount_keep
    | with_reducible apply State.modFront_keep
    | with_reducible apply State.blockReady_keep
    | fail_if_no_progress with_reducible apply keep_mk
    | with_reducible refine keep_fst ‹_ = (_, _)› ?_
    | with_reducible refine keep_of_some ‹_ = some _› ?_
    | with_reducible refine keep_snd ‹_ = (_, _)› ?_
    | split
    | dsimp only
    | with_reducible apply_assumption))

theorem State.uplaneSection_keep {r0 : State} (s : State) (p : Nat) (c : Carrier) (i n sym : Nat) (good : Bool) (x : USect) (hs : Keep r0 s) :
    Keep r0 (State.uplaneSection s p c i n sym good x) := by
  unfold State.uplaneSection; (repeat' (first
    | with_reducible assumption
    | intro _
    | with_reducible apply State.fhCount_keep
    | with_reducible apply State.blockReady_keep
    | with_reducible apply State.take_keep
    | with_reducible apply State.putPrb_keep
    | with_reducible refine keep_foldl ?_ ?_
    | with_reducible refine keep_foldl_fst ?_ ?_
    | with_reducible refine keep_foldl_snd ?_ ?_
    | with_reducible apply keep_getD
    | split
    | dsimp only
    | with_reducible apply_assumption))

theorem State.startClock_keep {r0 : State} (s : State) (c : Carrier) (n t : Nat) (hs : Keep r0 s) :
    Keep r0 (State.startClock s c n t) := by
  unfold State.startClock; (repeat' (first
    | with_reducible assumption
    | intro _
    | with_reducible apply State.modRx_keep
    | fail_if_no_progress with_reducible apply keep_mk
    | with_reducible refine keep_fst ‹_ = (_, _)› ?_
    | with_reducible refine keep_of_some ‹_ = some _› ?_
    | with_reducible refine keep_snd ‹_ = (_, _)› ?_
    | split
    | dsimp only
    | with_reducible apply_assumption))

theorem State.uplane_keep {r0 : State} (s : State) (p : Nat) (c : Carrier) (i n sym t : Nat) (good : Bool) (xs : List USect) (hs : Keep r0 s) :
    Keep r0 (State.uplane s p c i n sym t good xs) := by
  unfold State.uplane; (repeat' (first
    | with_reducible assumption
    | intro _
    | with_reducible apply State.journalCarrier_keep
    | with_reducible apply State.uplaneSection_keep
    | with_reducible apply State.startClock_keep
    | with_reducible refine keep_foldl ?_ ?_
    | with_reducible refine keep_foldl_fst ?_ ?_
    | with_reducible refine keep_foldl_snd ?_ ?_
    | dsimp only
    | with_reducible apply_assumption))

theorem State.oran_keep {r0 : State} (s : State) (p : Nat) (c : Carrier) (i : Nat) (b : List Byte) (good : Bool) (t : Nat) (hs : Keep r0 s) :
    Keep r0 (State.oran s p c i b good t) := by
  unfold State.oran; (repeat' (first
    | with_reducible assumption
    | intro _
    | with_reducible apply State.fhCount_keep
    | with_reducible apply State.journalCarrier_keep
    | with_reducible apply State.uplane_keep
    | with_reducible apply keep_getD
    | split
    | dsimp only
    | with_reducible apply_assumption))

theorem State.ecpri_keep {r0 : State} (s : State) (p : Nat) (f : List Byte) (good : Bool) (t : Nat) (hs : Keep r0 s) :
    Keep r0 (State.ecpri s p f good t) := by
  unfold State.ecpri; (repeat' (first
    | with_reducible assumption
    | intro _
    | with_reducible apply State.fhCount_keep
    | with_reducible apply State.modFront_keep
    | with_reducible apply State.oran_keep
    | fail_if_no_progress with_reducible apply keep_mk
    | with_reducible refine keep_fst ‹_ = (_, _)› ?_
    | with_reducible refine keep_of_some ‹_ = some _› ?_
    | with_reducible refine keep_snd ‹_ = (_, _)› ?_
    | split
    | dsimp only
    | with_reducible apply_assumption))

theorem State.journalPtp_keep {r0 : State} (s : State) (p : Nat) (f : List Byte) (stamp : Int) (hs : Keep r0 s) :
    Keep r0 (State.journalPtp s p f stamp) := by
  unfold State.journalPtp; (repeat' (first
    | with_reducible assumption
    | intro _
    | with_reducible apply State.journal_keep
    | split
    | dsimp only
    | with_reducible apply_assumption))

theorem execFrameReceive_keep {r0 : State} (port : Fin 16) (frame : List Byte) (good : Bool) (t : BitVec 96) (tx : BitVec 96) (s : State) (hs : Keep r0 s) :
    KeepO r0 (execFrameReceive port frame good t tx s) := by
  unfold execFrameReceive; (repeat' (first
    | with_reducible assumption
    | intro _
    | with_reducible apply State.passStamp_keep
    | with_reducible apply State.fhCount_keep
    | with_reducible apply State.modFront_keep
    | with_reducible apply State.journalPtp_keep
    | with_reducible apply State.forward_keep
    | with_reducible apply State.ecpri_keep
    | fail_if_no_progress with_reducible apply keep_mk
    | with_reducible apply keepO_next
    | with_reducible refine keep_foldl ?_ ?_
    | with_reducible refine keep_foldl_fst ?_ ?_
    | with_reducible refine keep_foldl_snd ?_ ?_
    | with_reducible refine keep_fst ‹_ = (_, _)› ?_
    | with_reducible refine keep_of_some ‹_ = some _› ?_
    | with_reducible refine keep_snd ‹_ = (_, _)› ?_
    | split
    | dsimp only
    | with_reducible apply_assumption))

theorem execBlockDelivery_keep {r0 : State} (port : Fin 16) (s : State) (hs : Keep r0 s) :
    KeepO r0 (execBlockDelivery port s) := by
  unfold execBlockDelivery; (repeat' (first
    | with_reducible assumption
    | intro _
    | with_reducible apply State.modFront_keep
    | with_reducible apply State.abandon_keep
    | with_reducible apply State.pushItems_keep
    | fail_if_no_progress with_reducible apply keep_mk
    | with_reducible apply keepO_next
    | with_reducible refine keep_foldl ?_ ?_
    | with_reducible refine keep_foldl_fst ?_ ?_
    | with_reducible refine keep_foldl_snd ?_ ?_
    | with_reducible refine keep_fst ‹_ = (_, _)› ?_
    | with_reducible refine keep_of_some ‹_ = some _› ?_
    | with_reducible refine keep_snd ‹_ = (_, _)› ?_
    | split
    | dsimp only
    | with_reducible apply_assumption))

theorem State.closeWindow_keep {r0 : State} (s : State) (c : Carrier) (n sym : Nat) (hs : Keep r0 s) :
    Keep r0 (State.closeWindow s c n sym) := by
  unfold State.closeWindow; (repeat' (first
    | with_reducible assumption
    | intro _
    | with_reducible apply State.blockReady_keep
    | with_reducible apply State.modRx_keep
    | with_reducible apply State.journalCarrier_keep
    | with_reducible apply State.startClock_keep
    | fail_if_no_progress with_reducible apply keep_mk
    | with_reducible refine keep_foldl ?_ ?_
    | with_reducible refine keep_foldl_fst ?_ ?_
    | with_reducible refine keep_foldl_snd ?_ ?_
    | with_reducible apply keep_getD
    | split
    | dsimp only
    | with_reducible apply_assumption))

theorem execRxWindowClose_keep {r0 : State} (c : Fin 24) (n : BitVec 64) (sym : Fin 14) (s : State) (hs : Keep r0 s) :
    KeepO r0 (execRxWindowClose c n sym s) := by
  unfold execRxWindowClose; (repeat' (first
    | with_reducible assumption
    | intro _
    | with_reducible apply State.passTime_keep
    | with_reducible apply State.closeWindow_keep
    | with_reducible apply keepO_next
    | with_reducible refine keep_fst ‹_ = (_, _)› ?_
    | with_reducible refine keep_of_some ‹_ = some _› ?_
    | with_reducible refine keep_snd ‹_ = (_, _)› ?_
    | split
    | dsimp only
    | with_reducible apply_assumption))

theorem State.sendEcpri_keep {r0 : State} (s : State) (p type eaxc : Nat) (body : List Byte) (hs : Keep r0 s) :
    Keep r0 (State.sendEcpri s p type eaxc body) := by
  unfold State.sendEcpri; (repeat' (first
    | with_reducible assumption
    | intro _
    | with_reducible apply State.modFront_keep
    | with_reducible apply State.sendFrame_keep
    | fail_if_no_progress with_reducible apply keep_mk
    | with_reducible apply keep_getD
    | dsimp only
    | with_reducible apply_assumption))

theorem State.sendSymbol_keep {r0 : State} (s : State) (c : Carrier) (n i sym : Nat) (hs : Keep r0 s) :
    Keep r0 (State.sendSymbol s c n i sym) := by
  unfold State.sendSymbol; (repeat' (first
    | with_reducible assumption
    | intro _
    | with_reducible apply State.sendEcpri_keep
    | with_reducible refine keep_foldl ?_ ?_
    | with_reducible refine keep_foldl_fst ?_ ?_
    | with_reducible refine keep_foldl_snd ?_ ?_
    | dsimp only
    | with_reducible apply_assumption))

theorem execUplaneSend_keep {r0 : State} (c : Fin 24) (n : BitVec 64) (i : Fin 16) (sym : Fin 14) (complete : Bool) (s : State) (hs : Keep r0 s) :
    KeepO r0 (execUplaneSend c n i sym complete s) := by
  unfold execUplaneSend; (repeat' (first
    | with_reducible assumption
    | intro _
    | with_reducible apply State.passTime_keep
    | with_reducible apply State.sendSymbol_keep
    | fail_if_no_progress with_reducible apply keep_mk
    | with_reducible apply keepO_next
    | with_reducible refine keep_fst ‹_ = (_, _)› ?_
    | with_reducible refine keep_of_some ‹_ = some _› ?_
    | with_reducible refine keep_snd ‹_ = (_, _)› ?_
    | split
    | dsimp only
    | with_reducible apply_assumption))

theorem State.sendCplane_keep {r0 : State} (s : State) (c : Carrier) (n : Nat) (dl : Bool) (req : List Byte) (hs : Keep r0 s) :
    Keep r0 (State.sendCplane s c n dl req) := by
  unfold State.sendCplane; (repeat' (first
    | with_reducible assumption
    | intro _
    | with_reducible apply State.journalCarrier_keep
    | with_reducible apply State.fhCount_keep
    | with_reducible refine keep_foldl ?_ ?_
    | with_reducible refine keep_foldl_fst ?_ ?_
    | with_reducible refine keep_foldl_snd ?_ ?_
    | split
    | dsimp only
    | with_reducible apply_assumption))

theorem execCplaneSend_keep {r0 : State} (c : Fin 24) (n : BitVec 64) (s : State) (hs : Keep r0 s) :
    KeepO r0 (execCplaneSend c n s) := by
  unfold execCplaneSend; (repeat' (first
    | with_reducible assumption
    | intro _
    | with_reducible apply State.sendCplane_keep
    | fail_if_no_progress with_reducible apply keep_mk
    | with_reducible apply keepO_next
    | with_reducible refine keep_foldl ?_ ?_
    | with_reducible refine keep_foldl_fst ?_ ?_
    | with_reducible refine keep_foldl_snd ?_ ?_
    | with_reducible refine keep_fst ‹_ = (_, _)› ?_
    | with_reducible refine keep_of_some ‹_ = some _› ?_
    | with_reducible refine keep_snd ‹_ = (_, _)› ?_
    | split
    | dsimp only
    | with_reducible apply_assumption))

theorem State.fhConfig_keep {r0 : State} (c : Cmd) (s : State) (hs : Keep r0 s) :
    Keep r0 (State.fhConfig c s) := by
  unfold State.fhConfig; (repeat' (first
    | with_reducible assumption
    | intro _
    | with_reducible apply Cmd.ends_keep
    | with_reducible apply State.finish_keep
    | with_reducible apply State.setRegN_keep
    | with_reducible apply State.modFront_keep
    | fail_if_no_progress with_reducible apply keep_mk
    | with_reducible refine keep_foldl ?_ ?_
    | with_reducible refine keep_foldl_fst ?_ ?_
    | with_reducible refine keep_foldl_snd ?_ ?_
    | split
    | dsimp only
    | with_reducible apply_assumption))

theorem execFhConfig_keep {r0 : State} (pair : BitVec 16) (s : State) (hs : Keep r0 s) :
    KeepO r0 (execFhConfig pair s) := by
  unfold execFhConfig; (repeat' (first
    | with_reducible assumption
    | intro _
    | with_reducible apply onCmd_keep
    | with_reducible apply State.fhConfig_keep
    | dsimp only
    | with_reducible apply_assumption))

theorem execPortLinkChange_keep {r0 : State} (port : Fin 16) (up : Bool) (s : State) (hs : Keep r0 s) :
    KeepO r0 (execPortLinkChange port up s) := by
  unfold execPortLinkChange; (repeat' (first
    | with_reducible assumption
    | intro _
    | with_reducible apply State.setRegN_keep
    | with_reducible apply keepO_next
    | split
    | dsimp only
    | with_reducible apply_assumption))

theorem State.fhClr_keep {r0 : State} (s : State) (p : Nat) (hs : Keep r0 s) :
    Keep r0 (State.fhClr s p) := by
  unfold State.fhClr; (repeat' (first
    | with_reducible assumption
    | intro _
    | with_reducible apply State.setRegN_keep
    | with_reducible refine keep_foldl ?_ ?_
    | with_reducible refine keep_foldl_fst ?_ ?_
    | with_reducible refine keep_foldl_snd ?_ ?_
    | dsimp only
    | with_reducible apply_assumption))

theorem execFhCntClr_keep {r0 : State} (src : BitVec 8) (port : Fin 16) (s : State) (hs : Keep r0 s) :
    KeepO r0 (execFhCntClr src port s) := by
  unfold execFhCntClr; (repeat' (first
    | with_reducible assumption
    | intro _
    | with_reducible apply anchorReg_keep
    | with_reducible apply State.fhClr_keep
    | with_reducible apply keepO_next
    | dsimp only
    | with_reducible apply_assumption))

end Sys2Proof.Machine
end

