-- ==== Sys2Proof/Laws/KeepTime.lean ====
section
/-! SUPPORT. What the operations and meanings of Machine/Time keep (Laws/Keep). -/
namespace Sys2Proof.Machine

set_option linter.unusedTactic false
set_option linter.unreachableTactic false

theorem execPtpSecLatch_keep {r0 : State} (s : State) (hs : Keep r0 s) :
    KeepO r0 (execPtpSecLatch s) := by
  unfold execPtpSecLatch; (repeat' (first
    | with_reducible assumption
    | intro _
    | with_reducible apply State.ptpLatch_keep
    | with_reducible apply keepO_next
    | split
    | dsimp only
    | with_reducible apply_assumption))

theorem State.ptpStep_keep {r0 : State} (s : State) (off : Int) (hs : Keep r0 s) :
    Keep r0 (State.ptpStep s off) := by
  unfold State.ptpStep; (repeat' (first
    | with_reducible assumption
    | intro _
    | fail_if_no_progress with_reducible apply keep_mk
    | dsimp only
    | with_reducible apply_assumption))

theorem State.ptpApply_keep {r0 : State} (s : State) (off : Int) (hs : Keep r0 s) :
    Keep r0 (State.ptpApply s off) := by
  unfold State.ptpApply; (repeat' (first
    | with_reducible assumption
    | intro _
    | with_reducible apply State.modFront_keep
    | with_reducible apply State.setFld_keep
    | with_reducible apply State.ptpStep_keep
    | fail_if_no_progress with_reducible apply keep_mk
    | split
    | dsimp only
    | with_reducible apply_assumption))

theorem State.ptpAdjWrite_keep {r0 : State} (s : State) (v : Nat) (hs : Keep r0 s) :
    Keep r0 (State.ptpAdjWrite s v) := by
  unfold State.ptpAdjWrite; (repeat' (first
    | with_reducible assumption
    | intro _
    | with_reducible apply State.setRegN_keep
    | with_reducible apply State.ptpApply_keep
    | with_reducible apply State.setFld_keep
    | with_reducible apply State.setReg64_keep
    | with_reducible apply State.modFront_keep
    | fail_if_no_progress with_reducible apply keep_mk
    | split
    | dsimp only
    | with_reducible apply_assumption))

theorem execPtpAdj_keep {r0 : State} (src : BitVec 8) (v : Reg32) (s : State) (hs : Keep r0 s) :
    KeepO r0 (execPtpAdj src v s) := by
  unfold execPtpAdj; (repeat' (first
    | with_reducible assumption
    | intro _
    | with_reducible apply anchorReg_keep
    | with_reducible apply State.ptpAdjWrite_keep
    | with_reducible apply keepO_next
    | dsimp only
    | with_reducible apply_assumption))

theorem execSlewEnd_keep {r0 : State} (s : State) (hs : Keep r0 s) :
    KeepO r0 (execSlewEnd s) := by
  unfold execSlewEnd; (repeat' (first
    | with_reducible assumption
    | intro _
    | with_reducible apply State.ptpStep_keep
    | with_reducible apply State.modFront_keep
    | with_reducible apply State.setFld_keep
    | fail_if_no_progress with_reducible apply keep_mk
    | with_reducible apply keepO_next
    | split
    | dsimp only
    | with_reducible apply_assumption))

theorem State.ptpCtlWrite_keep {r0 : State} (s : State) (v : Nat) (hs : Keep r0 s) :
    Keep r0 (State.ptpCtlWrite s v) := by
  unfold State.ptpCtlWrite; (repeat' (first
    | with_reducible assumption
    | intro _
    | with_reducible apply State.setRegN_keep
    | with_reducible apply State.setFld_keep
    | dsimp only
    | with_reducible apply_assumption))

theorem execPtpHold_keep {r0 : State} (src : BitVec 8) (hold : Bool) (s : State) (hs : Keep r0 s) :
    KeepO r0 (execPtpHold src hold s) := by
  unfold execPtpHold; (repeat' (first
    | with_reducible assumption
    | intro _
    | with_reducible apply anchorReg_keep
    | with_reducible apply State.ptpCtlWrite_keep
    | with_reducible apply State.hold_keep
    | with_reducible apply keepO_next
    | dsimp only
    | with_reducible apply_assumption))

theorem State.ptpConfig_keep {r0 : State} (c : Cmd) (s : State) (hs : Keep r0 s) :
    Keep r0 (State.ptpConfig c s) := by
  unfold State.ptpConfig; (repeat' (first
    | with_reducible assumption
    | intro _
    | with_reducible apply Cmd.ends_keep
    | with_reducible apply State.finish_keep
    | with_reducible apply State.setRegN_keep
    | with_reducible apply State.ptpCtlWrite_keep
    | with_reducible apply State.modFront_keep
    | with_reducible apply State.ptpApply_keep
    | fail_if_no_progress with_reducible apply keep_mk
    | with_reducible refine keep_foldl ?_ ?_
    | with_reducible refine keep_foldl_fst ?_ ?_
    | with_reducible refine keep_foldl_snd ?_ ?_
    | with_reducible refine keep_fst ‹_ = (_, _)› ?_
    | with_reducible refine keep_of_some ‹_ = some _› ?_
    | with_reducible refine keep_snd ‹_ = (_, _)› ?_
    | split
    | dsimp only
    | with_reducible apply_assumption))

theorem execPtpConfig_keep {r0 : State} (pair : BitVec 16) (s : State) (hs : Keep r0 s) :
    KeepO r0 (execPtpConfig pair s) := by
  unfold execPtpConfig; (repeat' (first
    | with_reducible assumption
    | intro _
    | with_reducible apply onCmd_keep
    | with_reducible apply State.ptpConfig_keep
    | dsimp only
    | with_reducible apply_assumption))

theorem execTriggerFire_keep {r0 : State} (time : Word) (addr : Word) (stream : BitVec 16) (tinc : BitVec 16) (s : State) (hs : Keep r0 s) :
    KeepO r0 (execTriggerFire time addr stream tinc s) := by
  unfold execTriggerFire; (repeat' (first
    | with_reducible assumption
    | intro _
    | with_reducible apply State.pushItems_keep
    | fail_if_no_progress with_reducible apply keep_mk
    | with_reducible apply keepO_next
    | split
    | dsimp only
    | with_reducible apply_assumption))

theorem execPpsOut_keep {r0 : State} (s : State) (hs : Keep r0 s) :
    KeepO r0 (execPpsOut s) := by
  unfold execPpsOut; (repeat' (first
    | with_reducible assumption
    | intro _
    | with_reducible apply State.modFront_keep
    | fail_if_no_progress with_reducible apply keep_mk
    | with_reducible apply keepO_next
    | split
    | dsimp only
    | with_reducible apply_assumption))

theorem execTodSend_keep {r0 : State} (s : State) (hs : Keep r0 s) :
    KeepO r0 (execTodSend s) := by
  unfold execTodSend; (repeat' (first
    | with_reducible assumption
    | intro _
    | with_reducible apply State.modFront_keep
    | fail_if_no_progress with_reducible apply keep_mk
    | with_reducible apply keepO_next
    | with_reducible refine keep_fst ‹_ = (_, _)› ?_
    | with_reducible refine keep_of_some ‹_ = some _› ?_
    | with_reducible refine keep_snd ‹_ = (_, _)› ?_
    | split
    | dsimp only
    | with_reducible apply_assumption))

theorem execPpsIn_keep {r0 : State} (t : BitVec 96) (s : State) (hs : Keep r0 s) :
    KeepO r0 (execPpsIn t s) := by
  unfold execPpsIn; (repeat' (first
    | with_reducible assumption
    | intro _
    | with_reducible apply State.passStamp_keep
    | with_reducible apply State.setRegN_keep
    | with_reducible apply State.setFld_keep
    | with_reducible apply keepO_next
    | split
    | dsimp only
    | with_reducible apply_assumption))

theorem execTodReceive_keep {r0 : State} (sentence : List Byte) (s : State) (hs : Keep r0 s) :
    KeepO r0 (execTodReceive sentence s) := by
  unfold execTodReceive; (repeat' (first
    | with_reducible assumption
    | intro _
    | with_reducible apply State.modFront_keep
    | fail_if_no_progress with_reducible apply keep_mk
    | with_reducible apply keepO_next
    | split
    | dsimp only
    | with_reducible apply_assumption))

theorem execPtpEgress_keep {r0 : State} (port : Fin 16) (frame : List Byte) (t : BitVec 96) (s : State) (hs : Keep r0 s) :
    KeepO r0 (execPtpEgress port frame t s) := by
  unfold execPtpEgress; (repeat' (first
    | with_reducible assumption
    | intro _
    | with_reducible apply State.passStamp_keep
    | with_reducible apply State.sendFrame_keep
    | with_reducible apply State.journalPtp_keep
    | with_reducible apply keepO_next
    | split
    | dsimp only
    | with_reducible apply_assumption))

end Sys2Proof.Machine
end

