-- ==== Sys2Proof/Laws/KeepFacet.lean ====
section
/-! SUPPORT. What the operations and meanings of Machine/Facet keep (Laws/Keep). -/
namespace Sys2Proof.Machine

set_option linter.unusedTactic false
set_option linter.unreachableTactic false

theorem State.fctErr_keep {r0 : State} (s : State) (f q seq cause fcause : Nat) (hs : Keep r0 s) :
    Keep r0 (State.fctErr s f q seq cause fcause) := by
  unfold State.fctErr; (repeat' (first
    | with_reducible assumption
    | intro _
    | with_reducible apply State.setRegN_keep
    | with_reducible apply State.killCmd_keep
    | with_reducible refine keep_fst ‹_ = (_, _)› ?_
    | with_reducible refine keep_of_some ‹_ = some _› ?_
    | with_reducible refine keep_snd ‹_ = (_, _)› ?_
    | split
    | dsimp only
    | with_reducible apply_assumption))

theorem State.fctFail_keep {r0 : State} (s : State) (f cause fcause : Nat) (hs : Keep r0 s) :
    Keep r0 (State.fctFail s f cause fcause) := by
  unfold State.fctFail; (repeat' (first
    | with_reducible assumption
    | intro _
    | with_reducible apply State.fctUndef_keep
    | with_reducible apply State.modFct_keep
    | with_reducible apply State.fctErr_keep
    | fail_if_no_progress with_reducible apply keep_mk
    | with_reducible refine keep_fst ‹_ = (_, _)› ?_
    | with_reducible refine keep_of_some ‹_ = some _› ?_
    | with_reducible refine keep_snd ‹_ = (_, _)› ?_
    | split
    | dsimp only
    | with_reducible apply_assumption))

theorem State.unitRead_keep {r0 : State} (s : State) (u stream addr n : Nat) (hs : Keep r0 s) :
    Keep r0 (State.unitRead s u stream addr n).1 := by
  unfold State.unitRead; (repeat' (first
    | with_reducible assumption
    | intro _
    | with_reducible apply State.failOp_keep
    | with_reducible apply State.reachAt_keep
    | with_reducible apply State.targetRead_keep
    | fail_if_no_progress with_reducible apply keep_mk
    | with_reducible refine keep_fst ‹_ = (_, _)› ?_
    | with_reducible refine keep_of_some ‹_ = some _› ?_
    | with_reducible refine keep_snd ‹_ = (_, _)› ?_
    | split
    | dsimp only
    | with_reducible apply_assumption))

theorem State.fctRead_keep {r0 : State} (s : State) (f stream addr n : Nat) (hs : Keep r0 s) :
    Keep r0 (State.fctRead s f stream addr n).1 := by
  unfold State.fctRead; (repeat' (first
    | with_reducible assumption
    | intro _
    | with_reducible apply State.unitRead_keep
    | dsimp only
    | with_reducible apply_assumption))

theorem State.fctRan_keep {r0 : State} (s : State) (f : Fin 8) (w : FctWork) (o : FctOut) (hs : Keep r0 s) :
    Keep r0 (State.fctRan s f w o) := by
  unfold State.fctRan; (repeat' (first
    | with_reducible assumption
    | intro _
    | with_reducible apply State.pushItems_keep
    | with_reducible apply State.modFct_keep
    | with_reducible apply State.countUp_keep
    | fail_if_no_progress with_reducible apply keep_mk
    | split
    | dsimp only
    | with_reducible apply_assumption))

theorem fctWork_keep {r0 : State} (k : Nat) (f : Fin 8) (body : FctWork → State → State × ((Nat × Nat) ⊕ FctOut)) (s : State) (hs : Keep r0 s) (hbody : ∀ x0 t, Keep r0 t → Keep r0 (body x0 t).1) :
    KeepO r0 (fctWork k f body s) := by
  unfold fctWork; (repeat' (first
    | with_reducible assumption
    | intro _
    | with_reducible apply State.fctFail_keep
    | with_reducible apply State.fctRan_keep
    | with_reducible apply keepO_next
    | with_reducible refine keep_fst ‹_ = (_, _)› ?_
    | with_reducible refine keep_of_some ‹_ = some _› ?_
    | with_reducible refine keep_snd ‹_ = (_, _)› ?_
    | split
    | dsimp only
    | with_reducible apply_assumption))

theorem execFacetFetch_keep {r0 : State} (f : Fin 8) (s : State) (hs : Keep r0 s) :
    KeepO r0 (execFacetFetch f s) := by
  unfold execFacetFetch; (repeat' (first
    | with_reducible assumption
    | intro _
    | with_reducible apply State.modFct_keep
    | with_reducible apply State.fctRead_keep
    | with_reducible apply State.fctErr_keep
    | fail_if_no_progress with_reducible apply keep_mk
    | with_reducible apply keepO_next
    | with_reducible refine keep_fst ‹_ = (_, _)› ?_
    | with_reducible refine keep_of_some ‹_ = some _› ?_
    | with_reducible refine keep_snd ‹_ = (_, _)› ?_
    | split
    | dsimp only
    | with_reducible apply_assumption))

theorem execFacetAging_keep {r0 : State} (f : Fin 8) (q : BitVec 5) (s : State) (hs : Keep r0 s) :
    KeepO r0 (execFacetAging f q s) := by
  unfold execFacetAging; (repeat' (first
    | with_reducible assumption
    | intro _
    | with_reducible apply State.modFct_keep
    | fail_if_no_progress with_reducible apply keep_mk
    | with_reducible apply keepO_next
    | split
    | dsimp only
    | with_reducible apply_assumption))

theorem State.weightSet_keep {r0 : State} (s : State) (f stream : Nat) (d : List Byte) (hs : Keep r0 s) :
    Keep r0 (State.weightSet s f stream d).1 := by
  unfold State.weightSet; (repeat' (first
    | with_reducible assumption
    | intro _
    | with_reducible apply State.fctRead_keep
    | with_reducible apply keep_getD
    | with_reducible refine keep_fst ‹_ = (_, _)› ?_
    | with_reducible refine keep_of_some ‹_ = some _› ?_
    | with_reducible refine keep_snd ‹_ = (_, _)› ?_
    | split
    | dsimp only
    | with_reducible apply_assumption))

theorem ldpcBody_keep {r0 : State} (f : Fin 8) (w : FctWork) (s : State) (hs : Keep r0 s) :
    Keep r0 (ldpcBody f w s).1 := by
  unfold ldpcBody; (repeat' (first
    | with_reducible assumption
    | intro _
    | with_reducible apply State.weightSet_keep
    | with_reducible apply State.fctRead_keep
    | with_reducible apply State.draw_keep
    | with_reducible refine keep_fst ‹_ = (_, _)› ?_
    | with_reducible refine keep_of_some ‹_ = some _› ?_
    | with_reducible refine keep_snd ‹_ = (_, _)› ?_
    | split
    | dsimp only
    | with_reducible apply_assumption))

theorem execLdpcDec_keep {r0 : State} (f : Fin 8) (s : State) (hs : Keep r0 s) :
    KeepO r0 (execLdpcDec f s) := by
  unfold execLdpcDec; (repeat' (first
    | with_reducible assumption
    | intro _
    | with_reducible apply fctWork_keep
    | with_reducible apply ldpcBody_keep
    | dsimp only
    | with_reducible apply_assumption))

theorem fctBody_keep {r0 : State} (f : Fin 8) (n : Nat) (k : List Byte → Word → FctOut) (w : FctWork) (s : State) (hs : Keep r0 s) :
    Keep r0 (fctBody f n k w s).1 := by
  unfold fctBody; (repeat' (first
    | with_reducible assumption
    | intro _
    | with_reducible apply State.fctRead_keep
    | with_reducible apply State.draw_keep
    | with_reducible refine keep_fst ‹_ = (_, _)› ?_
    | with_reducible refine keep_of_some ‹_ = some _› ?_
    | with_reducible refine keep_snd ‹_ = (_, _)› ?_
    | split
    | dsimp only
    | with_reducible apply_assumption))

theorem execLdpcEnc_keep {r0 : State} (f : Fin 8) (s : State) (hs : Keep r0 s) :
    KeepO r0 (execLdpcEnc f s) := by
  unfold execLdpcEnc; (repeat' (first
    | with_reducible assumption
    | intro _
    | with_reducible apply fctWork_keep
    | with_reducible apply fctBody_keep
    | split
    | dsimp only
    | with_reducible apply_assumption))

theorem execPolarDec_keep {r0 : State} (f : Fin 8) (s : State) (hs : Keep r0 s) :
    KeepO r0 (execPolarDec f s) := by
  unfold execPolarDec; (repeat' (first
    | with_reducible assumption
    | intro _
    | with_reducible apply fctWork_keep
    | with_reducible apply fctBody_keep
    | dsimp only
    | with_reducible apply_assumption))

theorem execPolarEnc_keep {r0 : State} (f : Fin 8) (s : State) (hs : Keep r0 s) :
    KeepO r0 (execPolarEnc f s) := by
  unfold execPolarEnc; (repeat' (first
    | with_reducible assumption
    | intro _
    | with_reducible apply fctWork_keep
    | with_reducible apply fctBody_keep
    | dsimp only
    | with_reducible apply_assumption))

theorem execTbcrc_keep {r0 : State} (f : Fin 8) (s : State) (hs : Keep r0 s) :
    KeepO r0 (execTbcrc f s) := by
  unfold execTbcrc; (repeat' (first
    | with_reducible assumption
    | intro _
    | with_reducible apply fctWork_keep
    | with_reducible apply fctBody_keep
    | split
    | dsimp only
    | with_reducible apply_assumption))

theorem execFacetStatusRecord_keep {r0 : State} (f : Fin 8) (s : State) (hs : Keep r0 s) :
    KeepO r0 (execFacetStatusRecord f s) := by
  unfold execFacetStatusRecord; (repeat' (first
    | with_reducible assumption
    | intro _
    | with_reducible apply State.pushItems_keep
    | with_reducible apply State.modFct_keep
    | fail_if_no_progress with_reducible apply keep_mk
    | with_reducible apply keepO_next
    | with_reducible refine keep_fst ‹_ = (_, _)› ?_
    | with_reducible refine keep_of_some ‹_ = some _› ?_
    | with_reducible refine keep_snd ‹_ = (_, _)› ?_
    | split
    | dsimp only
    | with_reducible apply_assumption))

theorem execFctFlush_keep {r0 : State} (src : BitVec 8) (f : Fin 8) (q : BitVec 5) (s : State) (hs : Keep r0 s) :
    KeepO r0 (execFctFlush src f q s) := by
  unfold execFctFlush; (repeat' (first
    | with_reducible assumption
    | intro _
    | with_reducible apply anchorReg_keep
    | with_reducible apply State.fctFlush_keep
    | with_reducible apply keepO_next
    | dsimp only
    | with_reducible apply_assumption))

theorem State.fctClr_keep {r0 : State} (s : State) (f : Nat) (hs : Keep r0 s) :
    Keep r0 (State.fctClr s f) := by
  unfold State.fctClr; (repeat' (first
    | with_reducible assumption
    | intro _
    | with_reducible apply State.setRegN_keep
    | with_reducible refine keep_foldl ?_ ?_
    | with_reducible refine keep_foldl_fst ?_ ?_
    | with_reducible refine keep_foldl_snd ?_ ?_
    | dsimp only
    | with_reducible apply_assumption))

theorem execFctCntClr_keep {r0 : State} (src : BitVec 8) (f : Fin 8) (s : State) (hs : Keep r0 s) :
    KeepO r0 (execFctCntClr src f s) := by
  unfold execFctCntClr; (repeat' (first
    | with_reducible assumption
    | intro _
    | with_reducible apply anchorReg_keep
    | with_reducible apply State.fctClr_keep
    | with_reducible apply keepO_next
    | dsimp only
    | with_reducible apply_assumption))

theorem execFacetShareWindow_keep {r0 : State} (s : State) (hs : Keep r0 s) :
    KeepO r0 (execFacetShareWindow s) := by
  unfold execFacetShareWindow; (repeat' (first
    | with_reducible assumption
    | intro _
    | fail_if_no_progress with_reducible apply keep_mk
    | with_reducible apply keepO_next
    | split
    | dsimp only
    | with_reducible apply_assumption))

theorem State.setWeights_keep {r0 : State} (s : State) (w : Weights) (hs : Keep r0 s) :
    Keep r0 (State.setWeights s w) := by
  unfold State.setWeights; (repeat' (first
    | with_reducible assumption
    | intro _
    | fail_if_no_progress with_reducible apply keep_mk
    | dsimp only
    | with_reducible apply_assumption))

theorem State.revertWeights_keep {r0 : State} (c : Cmd) (s : State) (hs : Keep r0 s) :
    Keep r0 (State.revertWeights c s) := by
  unfold State.revertWeights; (repeat' (first
    | with_reducible assumption
    | intro _
    | with_reducible apply Cmd.ends_keep
    | with_reducible apply State.digest_keep
    | with_reducible apply State.finish_keep
    | with_reducible apply State.setWeights_keep
    | with_reducible apply State.poke_keep
    | with_reducible refine keep_fst ‹_ = (_, _)› ?_
    | with_reducible refine keep_of_some ‹_ = some _› ?_
    | with_reducible refine keep_snd ‹_ = (_, _)› ?_
    | split
    | dsimp only
    | with_reducible apply_assumption))

theorem State.loadWeights_keep {r0 : State} (c : Cmd) (s : State) (hs : Keep r0 s) :
    Keep r0 (State.loadWeights c s) := by
  unfold State.loadWeights; (repeat' (first
    | with_reducible assumption
    | intro _
    | with_reducible apply Cmd.ends_keep
    | with_reducible apply State.revertWeights_keep
    | with_reducible apply State.read_keep
    | with_reducible apply State.modCmd_keep
    | fail_if_no_progress with_reducible apply keep_mk
    | with_reducible refine keep_foldl ?_ ?_
    | with_reducible refine keep_foldl_fst ?_ ?_
    | with_reducible refine keep_foldl_snd ?_ ?_
    | with_reducible refine keep_fst ‹_ = (_, _)› ?_
    | with_reducible refine keep_of_some ‹_ = some _› ?_
    | with_reducible refine keep_snd ‹_ = (_, _)› ?_
    | split
    | dsimp only
    | with_reducible apply_assumption))

theorem execLoadWeights_keep {r0 : State} (pair : BitVec 16) (s : State) (hs : Keep r0 s) :
    KeepO r0 (execLoadWeights pair s) := by
  unfold execLoadWeights; (repeat' (first
    | with_reducible assumption
    | intro _
    | with_reducible apply onCmd_keep
    | with_reducible apply State.loadWeights_keep
    | dsimp only
    | with_reducible apply_assumption))

theorem execWeightsCommit_keep {r0 : State} (p : Fin 8) (s : State) (hs : Keep r0 s) :
    KeepO r0 (execWeightsCommit p s) := by
  unfold execWeightsCommit; (repeat' (first
    | with_reducible assumption
    | intro _
    | with_reducible apply State.read_keep
    | with_reducible apply Cmd.ends_keep
    | with_reducible apply State.digest_keep
    | with_reducible apply State.poke_keep
    | with_reducible apply State.finish_keep
    | with_reducible apply State.setWeights_keep
    | with_reducible apply keepO_next
    | with_reducible refine keep_fst ‹_ = (_, _)› ?_
    | with_reducible refine keep_of_some ‹_ = some _› ?_
    | with_reducible refine keep_snd ‹_ = (_, _)› ?_
    | split
    | dsimp only
    | with_reducible apply_assumption))

end Sys2Proof.Machine
end

