-- ==== Sys2Proof/Laws/KeepBrivel.lean ====
section
/-! SUPPORT. What the operations and meanings of Machine/Brivel keep (Laws/Keep). -/
namespace Sys2Proof.Machine

set_option linter.unusedTactic false
set_option linter.unreachableTactic false

theorem State.setBrv_keep {r0 : State} (s : State) (p v : Nat) (hs : Keep r0 s) :
    Keep r0 (State.setBrv s p v) := by
  unfold State.setBrv; (repeat' (first
    | with_reducible assumption
    | intro _
    | with_reducible apply State.setFld_keep
    | dsimp only
    | with_reducible apply_assumption))

theorem State.modBrv_keep {r0 : State} (s : State) (f : Brivel → Brivel) (hs : Keep r0 s) :
    Keep r0 (State.modBrv s f) := by
  unfold State.modBrv; (repeat' (first
    | with_reducible assumption
    | intro _
    | fail_if_no_progress with_reducible apply keep_mk
    | dsimp only
    | with_reducible apply_assumption))

theorem State.failLink_keep {r0 : State} (s : State) (p : Nat) (hs : Keep r0 s) :
    Keep r0 (State.failLink s p) := by
  unfold State.failLink; (repeat' (first
    | with_reducible assumption
    | intro _
    | with_reducible apply State.failOp_keep
    | fail_if_no_progress with_reducible apply keep_mk
    | with_reducible refine keep_foldl ?_ ?_
    | with_reducible refine keep_foldl_fst ?_ ?_
    | with_reducible refine keep_foldl_snd ?_ ?_
    | dsimp only
    | with_reducible apply_assumption))

theorem State.linkDown_keep {r0 : State} (s : State) (p : Nat) (hs : Keep r0 s) :
    Keep r0 (State.linkDown s p) := by
  unfold State.linkDown; (repeat' (first
    | with_reducible assumption
    | intro _
    | with_reducible apply State.failLink_keep
    | with_reducible apply State.setBrv_keep
    | with_reducible apply State.setFld_keep
    | split
    | dsimp only
    | with_reducible apply_assumption))

theorem execBrvLinkDown_keep {r0 : State} (port : Fin 2) (s : State) (hs : Keep r0 s) :
    KeepO r0 (execBrvLinkDown port s) := by
  unfold execBrvLinkDown; (repeat' (first
    | with_reducible assumption
    | intro _
    | with_reducible apply State.linkDown_keep
    | with_reducible apply keepO_next
    | split
    | dsimp only
    | with_reducible apply_assumption))

theorem State.brvApply_keep {r0 : State} (s : State) (c : Cmd) (hs : Keep r0 s) :
    Keep r0 (State.brvApply s c) := by
  unfold State.brvApply; (repeat' (first
    | with_reducible assumption
    | intro _
    | with_reducible apply State.setRegN_keep
    | with_reducible apply State.setReg64_keep
    | with_reducible apply State.modBrv_keep
    | fail_if_no_progress with_reducible apply keep_mk
    | split
    | dsimp only
    | with_reducible apply_assumption))

theorem State.brvConfig_keep {r0 : State} (c : Cmd) (s : State) (hs : Keep r0 s) :
    Keep r0 (State.brvConfig c s) := by
  unfold State.brvConfig; (repeat' (first
    | with_reducible assumption
    | intro _
    | with_reducible apply Cmd.ends_keep
    | with_reducible apply State.brvApply_keep
    | with_reducible apply State.modCmd_keep
    | with_reducible apply State.finish_keep
    | with_reducible apply State.setBrv_keep
    | with_reducible apply State.linkDown_keep
    | fail_if_no_progress with_reducible apply keep_mk
    | split
    | dsimp only
    | with_reducible apply_assumption))

theorem execBrvConfig_keep {r0 : State} (pair : BitVec 16) (s : State) (hs : Keep r0 s) :
    KeepO r0 (execBrvConfig pair s) := by
  unfold execBrvConfig; (repeat' (first
    | with_reducible assumption
    | intro _
    | with_reducible apply onCmd_keep
    | with_reducible apply State.brvConfig_keep
    | dsimp only
    | with_reducible apply_assumption))

theorem State.brvEnd_keep {r0 : State} (s : State) (p status detail value : Nat) (hs : Keep r0 s) :
    Keep r0 (State.brvEnd s p status detail value) := by
  unfold State.brvEnd; (repeat' (first
    | with_reducible assumption
    | intro _
    | with_reducible apply State.finish_keep
    | with_reducible refine keep_foldl ?_ ?_
    | with_reducible refine keep_foldl_fst ?_ ?_
    | with_reducible refine keep_foldl_snd ?_ ?_
    | dsimp only
    | with_reducible apply_assumption))

theorem execBrvLinkUp_keep {r0 : State} (port : Fin 2) (nbr : BitVec 4) (size : BitVec 5) (id : Word) (major : BitVec 16) (s : State) (hs : Keep r0 s) :
    KeepO r0 (execBrvLinkUp port nbr size id major s) := by
  unfold execBrvLinkUp; (repeat' (first
    | with_reducible assumption
    | intro _
    | with_reducible apply State.setRegN_keep
    | with_reducible apply State.brvEnd_keep
    | with_reducible apply State.setBrv_keep
    | with_reducible apply State.setFld_keep
    | with_reducible apply keepO_next
    | with_reducible refine keep_fst ‹_ = (_, _)› ?_
    | with_reducible refine keep_of_some ‹_ = some _› ?_
    | with_reducible refine keep_snd ‹_ = (_, _)› ?_
    | split
    | dsimp only
    | with_reducible apply_assumption))

theorem execBrvLinkTimeout_keep {r0 : State} (port : Fin 2) (s : State) (hs : Keep r0 s) :
    KeepO r0 (execBrvLinkTimeout port s) := by
  unfold execBrvLinkTimeout; (repeat' (first
    | with_reducible assumption
    | intro _
    | with_reducible apply State.brvEnd_keep
    | with_reducible apply keepO_next
    | dsimp only
    | with_reducible apply_assumption))

theorem execRouteChange_keep {r0 : State} (s : State) (hs : Keep r0 s) :
    KeepO r0 (execRouteChange s) := by
  unfold execRouteChange; (repeat' (first
    | with_reducible assumption
    | intro _
    | with_reducible apply State.setRegN_keep
    | with_reducible apply State.modBrv_keep
    | with_reducible apply State.finish_keep
    | fail_if_no_progress with_reducible apply keep_mk
    | with_reducible apply keepO_next
    | with_reducible refine keep_foldl ?_ ?_
    | with_reducible refine keep_foldl_fst ?_ ?_
    | with_reducible refine keep_foldl_snd ?_ ?_
    | with_reducible refine keep_fst ‹_ = (_, _)› ?_
    | with_reducible refine keep_of_some ‹_ = some _› ?_
    | with_reducible refine keep_snd ‹_ = (_, _)› ?_
    | split
    | dsimp only
    | with_reducible apply_assumption))

theorem State.transitErr_keep {r0 : State} (s : State) (p : Nat) (h : Hdr) (cause : Nat) (hs : Keep r0 s) :
    Keep r0 (State.transitErr s p h cause) := by
  unfold State.transitErr; (repeat' (first
    | with_reducible assumption
    | intro _
    | with_reducible apply State.modBrv_keep
    | fail_if_no_progress with_reducible apply keep_mk
    | dsimp only
    | with_reducible apply_assumption))

theorem execTransit_keep {r0 : State} (port : Fin 2) (vc : BitVec 2) (op : BitVec 8) (h : Hdr) (payload : List Byte) (s : State) (hs : Keep r0 s) :
    KeepO r0 (execTransit port vc op h payload s) := by
  unfold execTransit; (repeat' (first
    | with_reducible assumption
    | intro _
    | with_reducible apply State.transitErr_keep
    | with_reducible apply State.modBrv_keep
    | fail_if_no_progress with_reducible apply keep_mk
    | with_reducible apply keepO_next
    | with_reducible refine keep_fst ‹_ = (_, _)› ?_
    | with_reducible refine keep_of_some ‹_ = some _› ?_
    | with_reducible refine keep_snd ‹_ = (_, _)› ?_
    | split
    | dsimp only
    | with_reducible apply_assumption))

theorem State.brvCount_keep {r0 : State} (s : State) (p k : Nat) (hs : Keep r0 s) :
    Keep r0 (State.brvCount s p k) := by
  unfold State.brvCount; (repeat' (first
    | with_reducible assumption
    | intro _
    | with_reducible apply State.countUp_keep
    | dsimp only
    | with_reducible apply_assumption))

theorem execBrvReplay_keep {r0 : State} (port : Fin 2) (crc : Bool) (ns : BitVec 16) (s : State) (hs : Keep r0 s) :
    KeepO r0 (execBrvReplay port crc ns s) := by
  unfold execBrvReplay; (repeat' (first
    | with_reducible assumption
    | intro _
    | with_reducible apply State.passNclk_keep
    | with_reducible apply State.brvCount_keep
    | with_reducible apply State.modBrv_keep
    | fail_if_no_progress with_reducible apply keep_mk
    | with_reducible apply keepO_next
    | split
    | dsimp only
    | with_reducible apply_assumption))

theorem execBrvRetrain_keep {r0 : State} (port : Fin 2) (s : State) (hs : Keep r0 s) :
    KeepO r0 (execBrvRetrain port s) := by
  unfold execBrvRetrain; (repeat' (first
    | with_reducible assumption
    | intro _
    | with_reducible apply State.setBrv_keep
    | with_reducible apply State.brvCount_keep
    | with_reducible apply State.modBrv_keep
    | with_reducible apply State.event_keep
    | fail_if_no_progress with_reducible apply keep_mk
    | with_reducible apply keepO_next
    | split
    | dsimp only
    | with_reducible apply_assumption))

theorem execBrvRetrainEnd_keep {r0 : State} (port : Fin 2) (ok : Bool) (s : State) (hs : Keep r0 s) :
    KeepO r0 (execBrvRetrainEnd port ok s) := by
  unfold execBrvRetrainEnd; (repeat' (first
    | with_reducible assumption
    | intro _
    | with_reducible apply State.setBrv_keep
    | with_reducible apply State.linkDown_keep
    | with_reducible apply keepO_next
    | split
    | dsimp only
    | with_reducible apply_assumption))

theorem State.brvClr_keep {r0 : State} (s : State) (p : Nat) (hs : Keep r0 s) :
    Keep r0 (State.brvClr s p) := by
  unfold State.brvClr; (repeat' (first
    | with_reducible assumption
    | intro _
    | with_reducible apply State.setRegN_keep
    | with_reducible refine keep_foldl ?_ ?_
    | with_reducible refine keep_foldl_fst ?_ ?_
    | with_reducible refine keep_foldl_snd ?_ ?_
    | dsimp only
    | with_reducible apply_assumption))

theorem execBrvCntClr_keep {r0 : State} (src : BitVec 8) (port : Fin 2) (s : State) (hs : Keep r0 s) :
    KeepO r0 (execBrvCntClr src port s) := by
  unfold execBrvCntClr; (repeat' (first
    | with_reducible assumption
    | intro _
    | with_reducible apply anchorReg_keep
    | with_reducible apply State.brvClr_keep
    | with_reducible apply keepO_next
    | dsimp only
    | with_reducible apply_assumption))

end Sys2Proof.Machine
end

