-- ==== Sys2Proof/Laws/KeepModem.lean ====
section
/-! SUPPORT. What the operations and meanings of Machine/Modem keep (Laws/Keep). -/
namespace Sys2Proof.Machine

set_option linter.unusedTactic false
set_option linter.unreachableTactic false

theorem State.setModCh_keep {r0 : State} (s : State) (c : Nat) (f : ModCh → ModCh) (hs : Keep r0 s) :
    Keep r0 (State.setModCh s c f) := by
  unfold State.setModCh; (repeat' (first
    | with_reducible assumption
    | intro _
    | fail_if_no_progress with_reducible apply keep_mk
    | dsimp only
    | with_reducible apply_assumption))

theorem State.lost_keep {r0 : State} (s : State) (c : Nat) (hs : Keep r0 s) :
    Keep r0 (State.lost s c) := by
  unfold State.lost; (repeat' (first
    | with_reducible assumption
    | intro _
    | with_reducible apply State.countUp_keep
    | dsimp only
    | with_reducible apply_assumption))

theorem State.modLoad_keep {r0 : State} (s : State) (offs : List Nat) (b : List Byte) (hs : Keep r0 s) :
    Keep r0 (State.modLoad s offs b) := by
  unfold State.modLoad; (repeat' (first
    | with_reducible assumption
    | intro _
    | with_reducible apply State.setRegN_keep
    | with_reducible refine keep_foldl ?_ ?_
    | with_reducible refine keep_foldl_fst ?_ ?_
    | with_reducible refine keep_foldl_snd ?_ ?_
    | split
    | dsimp only
    | with_reducible apply_assumption))

theorem State.cfgCheck_keep {r0 : State} (s : State) (c : Nat) (hs : Keep r0 s) :
    Keep r0 (State.cfgCheck s c) := by
  unfold State.cfgCheck; (repeat' (first
    | with_reducible assumption
    | intro _
    | with_reducible apply State.setFld_keep
    | split
    | dsimp only
    | with_reducible apply_assumption))

theorem State.modCtlSet_keep {r0 : State} (s : State) (hs : Keep r0 s) :
    Keep r0 (State.modCtlSet s) := by
  unfold State.modCtlSet; (repeat' (first
    | with_reducible assumption
    | intro _
    | with_reducible apply State.cfgCheck_keep
    | with_reducible apply State.setFld_keep
    | fail_if_no_progress with_reducible apply keep_mk
    | with_reducible refine keep_foldl ?_ ?_
    | with_reducible refine keep_foldl_fst ?_ ?_
    | with_reducible refine keep_foldl_snd ?_ ?_
    | split
    | dsimp only
    | with_reducible apply_assumption))

theorem State.configure_keep {r0 : State} (s : State) (u : Nat) (hs : Keep r0 s) :
    Keep r0 (State.configure s u) := by
  unfold State.configure; (repeat' (first
    | with_reducible assumption
    | intro _
    | fail_if_no_progress with_reducible apply keep_mk
    | split
    | dsimp only
    | with_reducible apply_assumption))

theorem State.modConfig_keep {r0 : State} (c : Cmd) (s : State) (hs : Keep r0 s) :
    Keep r0 (State.modConfig c s) := by
  unfold State.modConfig; (repeat' (first
    | with_reducible assumption
    | intro _
    | with_reducible apply Cmd.ends_keep
    | with_reducible apply State.read_keep
    | with_reducible apply State.finish_keep
    | with_reducible apply State.modLoad_keep
    | with_reducible apply State.configure_keep
    | with_reducible apply State.modCtlSet_keep
    | with_reducible apply State.setModCh_keep
    | with_reducible apply State.cfgCheck_keep
    | fail_if_no_progress with_reducible apply keep_mk
    | with_reducible refine keep_fst ‹_ = (_, _)› ?_
    | with_reducible refine keep_of_some ‹_ = some _› ?_
    | with_reducible refine keep_snd ‹_ = (_, _)› ?_
    | split
    | dsimp only
    | with_reducible apply_assumption))

theorem execModConfig_keep {r0 : State} (pair : BitVec 16) (s : State) (hs : Keep r0 s) :
    KeepO r0 (execModConfig pair s) := by
  unfold execModConfig; (repeat' (first
    | with_reducible assumption
    | intro _
    | with_reducible apply onCmd_keep
    | with_reducible apply State.modConfig_keep
    | dsimp only
    | with_reducible apply_assumption))

theorem State.linkUp_keep {r0 : State} (s : State) (hs : Keep r0 s) :
    Keep r0 (State.linkUp s) := by
  unfold State.linkUp; (repeat' (first
    | with_reducible assumption
    | intro _
    | with_reducible apply State.setFld_keep
    | dsimp only
    | with_reducible apply_assumption))

theorem State.dropFrames_keep {r0 : State} (s : State) (hs : Keep r0 s) :
    Keep r0 (State.dropFrames s) := by
  unfold State.dropFrames; (repeat' (first
    | with_reducible assumption
    | intro _
    | with_reducible apply State.lost_keep
    | with_reducible apply State.setModCh_keep
    | fail_if_no_progress with_reducible apply keep_mk
    | with_reducible refine keep_foldl ?_ ?_
    | with_reducible refine keep_foldl_fst ?_ ?_
    | with_reducible refine keep_foldl_snd ?_ ?_
    | split
    | dsimp only
    | with_reducible apply_assumption))

theorem execJesdLinkLoss_keep {r0 : State} (s : State) (hs : Keep r0 s) :
    KeepO r0 (execJesdLinkLoss s) := by
  unfold execJesdLinkLoss; (repeat' (first
    | with_reducible assumption
    | intro _
    | with_reducible apply State.dropFrames_keep
    | with_reducible apply State.setFld_keep
    | with_reducible apply State.linkUp_keep
    | fail_if_no_progress with_reducible apply keep_mk
    | with_reducible apply keepO_next
    | split
    | dsimp only
    | with_reducible apply_assumption))

theorem execJesdLinkAlign_keep {r0 : State} (s : State) (hs : Keep r0 s) :
    KeepO r0 (execJesdLinkAlign s) := by
  unfold execJesdLinkAlign; (repeat' (first
    | with_reducible assumption
    | intro _
    | with_reducible apply State.linkUp_keep
    | fail_if_no_progress with_reducible apply keep_mk
    | with_reducible apply keepO_next
    | split
    | dsimp only
    | with_reducible apply_assumption))

theorem State.dropBursts_keep {r0 : State} (s : State) (hs : Keep r0 s) :
    Keep r0 (State.dropBursts s) := by
  unfold State.dropBursts; (repeat' (first
    | with_reducible assumption
    | intro _
    | fail_if_no_progress with_reducible apply keep_mk
    | split
    | dsimp only
    | with_reducible apply_assumption))

theorem execTransmitLinkLoss_keep {r0 : State} (s : State) (hs : Keep r0 s) :
    KeepO r0 (execTransmitLinkLoss s) := by
  unfold execTransmitLinkLoss; (repeat' (first
    | with_reducible assumption
    | intro _
    | with_reducible apply State.dropBursts_keep
    | with_reducible apply State.linkUp_keep
    | fail_if_no_progress with_reducible apply keep_mk
    | with_reducible apply keepO_next
    | split
    | dsimp only
    | with_reducible apply_assumption))

theorem State.journalModem_keep {r0 : State} (s : State) (c : Nat) (blocks : List (List Byte)) (hs : Keep r0 s) :
    Keep r0 (State.journalModem s c blocks) := by
  unfold State.journalModem; (repeat' (first
    | with_reducible assumption
    | intro _
    | with_reducible apply State.journal_keep
    | with_reducible refine keep_foldl ?_ ?_
    | with_reducible refine keep_foldl_fst ?_ ?_
    | with_reducible refine keep_foldl_snd ?_ ?_
    | split
    | dsimp only
    | with_reducible apply_assumption))

theorem execPeriscopeDetect_keep {r0 : State} (c : Fin 8) (dets : List (Fin 8 × List Int)) (t : Word) (blocks : List (List Byte)) (s : State) (hs : Keep r0 s) :
    KeepO r0 (execPeriscopeDetect c dets t blocks s) := by
  unfold execPeriscopeDetect; (repeat' (first
    | with_reducible assumption
    | intro _
    | with_reducible apply State.journalModem_keep
    | with_reducible apply State.countUp_keep
    | with_reducible apply State.lost_keep
    | with_reducible apply State.setModCh_keep
    | fail_if_no_progress with_reducible apply keep_mk
    | with_reducible apply keepO_next
    | with_reducible refine keep_fst ‹_ = (_, _)› ?_
    | with_reducible refine keep_of_some ‹_ = some _› ?_
    | with_reducible refine keep_snd ‹_ = (_, _)› ?_
    | split
    | dsimp only
    | with_reducible apply_assumption))

theorem execSyncFound_keep {r0 : State} (c : Fin 8) (word : BitVec 32) (t : Word) (s : State) (hs : Keep r0 s) :
    KeepO r0 (execSyncFound c word t s) := by
  unfold execSyncFound; (repeat' (first
    | with_reducible assumption
    | intro _
    | with_reducible apply State.setModCh_keep
    | fail_if_no_progress with_reducible apply keep_mk
    | with_reducible apply keepO_next
    | with_reducible refine keep_fst ‹_ = (_, _)› ?_
    | with_reducible refine keep_of_some ‹_ = some _› ?_
    | with_reducible refine keep_snd ‹_ = (_, _)› ?_
    | split
    | dsimp only
    | with_reducible apply_assumption))

theorem execSyncTimeout_keep {r0 : State} (c : Fin 8) (s : State) (hs : Keep r0 s) :
    KeepO r0 (execSyncTimeout c s) := by
  unfold execSyncTimeout; (repeat' (first
    | with_reducible assumption
    | intro _
    | with_reducible apply State.lost_keep
    | with_reducible apply State.setModCh_keep
    | fail_if_no_progress with_reducible apply keep_mk
    | with_reducible apply keepO_next
    | with_reducible refine keep_fst ‹_ = (_, _)› ?_
    | with_reducible refine keep_of_some ‹_ = some _› ?_
    | with_reducible refine keep_snd ‹_ = (_, _)› ?_
    | split
    | dsimp only
    | with_reducible apply_assumption))

theorem execRxRecord_keep {r0 : State} (c : Fin 8) (frame : List Byte) (rssi : BitVec 16) (fofs : BitVec 32) (blocks : List (List Byte)) (s : State) (hs : Keep r0 s) :
    KeepO r0 (execRxRecord c frame rssi fofs blocks s) := by
  unfold execRxRecord; (repeat' (first
    | with_reducible assumption
    | intro _
    | with_reducible apply State.take_keep
    | with_reducible apply State.journalModem_keep
    | with_reducible apply State.setModCh_keep
    | with_reducible apply State.lost_keep
    | with_reducible apply State.pushItems_keep
    | fail_if_no_progress with_reducible apply keep_mk
    | with_reducible apply keepO_next
    | with_reducible apply keep_getD
    | with_reducible refine keep_fst ‹_ = (_, _)› ?_
    | with_reducible refine keep_of_some ‹_ = some _› ?_
    | with_reducible refine keep_snd ‹_ = (_, _)› ?_
    | split
    | dsimp only
    | with_reducible apply_assumption))

theorem execModTxFetch_keep {r0 : State} (c : Fin 8) (s : State) (hs : Keep r0 s) :
    KeepO r0 (execModTxFetch c s) := by
  unfold execModTxFetch; (repeat' (first
    | with_reducible assumption
    | intro _
    | with_reducible apply State.setModCh_keep
    | with_reducible apply State.unitRead_keep
    | fail_if_no_progress with_reducible apply keep_mk
    | with_reducible apply keepO_next
    | with_reducible refine keep_fst ‹_ = (_, _)› ?_
    | with_reducible refine keep_of_some ‹_ = some _› ?_
    | with_reducible refine keep_snd ‹_ = (_, _)› ?_
    | split
    | dsimp only
    | with_reducible apply_assumption))

theorem execTxBurstStart_keep {r0 : State} (c : Fin 8) (mask : Bool) (s : State) (hs : Keep r0 s) :
    KeepO r0 (execTxBurstStart c mask s) := by
  unfold execTxBurstStart; (repeat' (first
    | with_reducible assumption
    | intro _
    | with_reducible apply State.setModCh_keep
    | with_reducible apply State.setFld_keep
    | fail_if_no_progress with_reducible apply keep_mk
    | with_reducible apply keepO_next
    | with_reducible refine keep_fst ‹_ = (_, _)› ?_
    | with_reducible refine keep_of_some ‹_ = some _› ?_
    | with_reducible refine keep_snd ‹_ = (_, _)› ?_
    | split
    | dsimp only
    | with_reducible apply_assumption))

theorem execTxBurstComplete_keep {r0 : State} (c : Fin 8) (t : Word) (sat : BitVec 16) (s : State) (hs : Keep r0 s) :
    KeepO r0 (execTxBurstComplete c t sat s) := by
  unfold execTxBurstComplete; (repeat' (first
    | with_reducible assumption
    | intro _
    | with_reducible apply State.countUp_keep
    | with_reducible apply State.pushItems_keep
    | with_reducible apply State.setModCh_keep
    | fail_if_no_progress with_reducible apply keep_mk
    | with_reducible apply keepO_next
    | with_reducible refine keep_fst ‹_ = (_, _)› ?_
    | with_reducible refine keep_of_some ‹_ = some _› ?_
    | with_reducible refine keep_snd ‹_ = (_, _)› ?_
    | split
    | dsimp only
    | with_reducible apply_assumption))

theorem State.modClr_keep {r0 : State} (s : State) (hs : Keep r0 s) :
    Keep r0 (State.modClr s) := by
  unfold State.modClr; (repeat' (first
    | with_reducible assumption
    | intro _
    | with_reducible apply State.setRegN_keep
    | with_reducible refine keep_foldl ?_ ?_
    | with_reducible refine keep_foldl_fst ?_ ?_
    | with_reducible refine keep_foldl_snd ?_ ?_
    | dsimp only
    | with_reducible apply_assumption))

theorem execModCntClr_keep {r0 : State} (src : BitVec 8) (s : State) (hs : Keep r0 s) :
    KeepO r0 (execModCntClr src s) := by
  unfold execModCntClr; (repeat' (first
    | with_reducible assumption
    | intro _
    | with_reducible apply anchorReg_keep
    | with_reducible apply State.modClr_keep
    | with_reducible apply keepO_next
    | dsimp only
    | with_reducible apply_assumption))

end Sys2Proof.Machine
end

