-- ==== Sys2Proof/Laws/KeepMirror.lean ====
section
/-! SUPPORT. What the operations and meanings of Machine/Mirror keep (Laws/Keep). -/
namespace Sys2Proof.Machine

set_option linter.unusedTactic false
set_option linter.unreachableTactic false

theorem State.replayHost.blocks_keep {r0 : State} (n : Nat) : ∀ (b : List Byte) (t : State), Keep r0 t →
    Keep r0 (State.replayHost.blocks b n t) := by
  induction n with
  | zero => exact fun _ _ h => h
  | succ n ih =>
    intro b t h; unfold State.replayHost.blocks; split
    · exact h
    · exact ih _ _ (State.poke_keep _ _ _ h)

theorem State.mirrorStart_keep {r0 : State} (c : Cmd) (s : State) (hs : Keep r0 s) :
    Keep r0 (State.mirrorStart c s) := by
  unfold State.mirrorStart; (repeat' (first
    | with_reducible assumption
    | intro _
    | with_reducible apply Cmd.ends_keep
    | with_reducible apply State.finish_keep
    | with_reducible apply State.setFld_keep
    | with_reducible apply State.setReg64_keep
    | with_reducible apply State.setRegN_keep
    | with_reducible apply State.journal_keep
    | fail_if_no_progress with_reducible apply keep_mk
    | split
    | dsimp only
    | with_reducible apply_assumption))

theorem execMirrorStart_keep {r0 : State} (pair : BitVec 16) (s : State) (hs : Keep r0 s) :
    KeepO r0 (execMirrorStart pair s) := by
  unfold execMirrorStart; (repeat' (first
    | with_reducible assumption
    | intro _
    | with_reducible apply onCmd_keep
    | with_reducible apply State.mirrorStart_keep
    | dsimp only
    | with_reducible apply_assumption))

theorem State.mirrorStop_keep {r0 : State} (c : Cmd) (s : State) (hs : Keep r0 s) :
    Keep r0 (State.mirrorStop c s) := by
  unfold State.mirrorStop; (repeat' (first
    | with_reducible assumption
    | intro _
    | with_reducible apply Cmd.ends_keep
    | with_reducible apply State.journalEnd_keep
    | with_reducible apply State.finish_keep
    | split
    | dsimp only
    | with_reducible apply_assumption))

theorem execMirrorStop_keep {r0 : State} (pair : BitVec 16) (s : State) (hs : Keep r0 s) :
    KeepO r0 (execMirrorStop pair s) := by
  unfold execMirrorStop; (repeat' (first
    | with_reducible assumption
    | intro _
    | with_reducible apply onCmd_keep
    | with_reducible apply State.mirrorStop_keep
    | dsimp only
    | with_reducible apply_assumption))

theorem execMirrorFull_keep {r0 : State} (len : BitVec 32) (s : State) (hs : Keep r0 s) :
    KeepO r0 (execMirrorFull len s) := by
  unfold execMirrorFull; (repeat' (first
    | with_reducible assumption
    | intro _
    | with_reducible apply State.setFld_keep
    | with_reducible apply State.journalEnd_keep
    | with_reducible apply keepO_next
    | split
    | dsimp only
    | with_reducible apply_assumption))

theorem execGap_keep {r0 : State} (s : State) (hs : Keep r0 s) :
    KeepO r0 (execGap s) := by
  unfold execGap; (repeat' (first
    | with_reducible assumption
    | intro _
    | with_reducible apply State.journal_keep
    | fail_if_no_progress with_reducible apply keep_mk
    | with_reducible apply keepO_next
    | split
    | dsimp only
    | with_reducible apply_assumption))

theorem State.replayStart_keep {r0 : State} (c : Cmd) (s : State) (hs : Keep r0 s) :
    Keep r0 (State.replayStart c s) := by
  unfold State.replayStart; (repeat' (first
    | with_reducible assumption
    | intro _
    | with_reducible apply Cmd.ends_keep
    | with_reducible apply State.modCmd_keep
    | with_reducible apply State.setFld_keep
    | fail_if_no_progress with_reducible apply keep_mk
    | with_reducible refine keep_fst ‹_ = (_, _)› ?_
    | with_reducible refine keep_of_some ‹_ = some _› ?_
    | with_reducible refine keep_snd ‹_ = (_, _)› ?_
    | split
    | dsimp only
    | with_reducible apply_assumption))

theorem execReplayStart_keep {r0 : State} (pair : BitVec 16) (s : State) (hs : Keep r0 s) :
    KeepO r0 (execReplayStart pair s) := by
  unfold execReplayStart; (repeat' (first
    | with_reducible assumption
    | intro _
    | with_reducible apply onCmd_keep
    | with_reducible apply State.replayStart_keep
    | dsimp only
    | with_reducible apply_assumption))

theorem execReplayHold_keep {r0 : State} (s : State) (hs : Keep r0 s) :
    KeepO r0 (execReplayHold s) := by
  unfold execReplayHold; (repeat' (first
    | with_reducible assumption
    | intro _
    | with_reducible apply State.endReplay_keep
    | fail_if_no_progress with_reducible apply keep_mk
    | with_reducible apply keepO_next
    | with_reducible refine keep_fst ‹_ = (_, _)› ?_
    | with_reducible refine keep_of_some ‹_ = some _› ?_
    | with_reducible refine keep_snd ‹_ = (_, _)› ?_
    | split
    | dsimp only
    | with_reducible apply_assumption))

theorem State.releaseHeld_keep {r0 : State} (s : State) (id : Nat × Nat) (hs : Keep r0 s) :
    Keep r0 (State.releaseHeld s id) := by
  unfold State.releaseHeld; (repeat' (first
    | with_reducible assumption
    | intro _
    | with_reducible apply State.modEng_keep
    | with_reducible apply State.finish_keep
    | fail_if_no_progress with_reducible apply keep_mk
    | with_reducible refine keep_foldl ?_ ?_
    | with_reducible refine keep_foldl_fst ?_ ?_
    | with_reducible refine keep_foldl_snd ?_ ?_
    | dsimp only
    | with_reducible apply_assumption))

theorem State.replayRelease_keep {r0 : State} (c : Cmd) (s : State) (hs : Keep r0 s) :
    Keep r0 (State.replayRelease c s) := by
  unfold State.replayRelease; (repeat' (first
    | with_reducible assumption
    | intro _
    | with_reducible apply Cmd.ends_keep
    | with_reducible apply State.releaseHeld_keep
    | with_reducible refine keep_fst ‹_ = (_, _)› ?_
    | with_reducible refine keep_of_some ‹_ = some _› ?_
    | with_reducible refine keep_snd ‹_ = (_, _)› ?_
    | split
    | dsimp only
    | with_reducible apply_assumption))

theorem execReplayRelease_keep {r0 : State} (pair : BitVec 16) (s : State) (hs : Keep r0 s) :
    KeepO r0 (execReplayRelease pair s) := by
  unfold execReplayRelease; (repeat' (first
    | with_reducible assumption
    | intro _
    | with_reducible apply onCmd_keep
    | with_reducible apply State.replayRelease_keep
    | dsimp only
    | with_reducible apply_assumption))

theorem State.replayHost_keep {r0 : State} (s : State) (r : Replay) (b : List Byte) (hs : Keep r0 s) :
    Keep r0 (State.replayHost s r b) := by
  unfold State.replayHost; dsimp only
  split
  · exact State.preempt_keep _ _ (keep_mk (State.replayHost.blocks_keep _ _ _ hs))
  · exact hs

theorem State.replayUplane_keep {r0 : State} (s : State) (r : Replay) (src time : Nat) (b : List Byte) (hs : Keep r0 s) :
    Keep r0 (State.replayUplane s r src time b) := by
  unfold State.replayUplane; (repeat' (first
    | with_reducible assumption
    | intro _
    | with_reducible apply State.uplane_keep
    | with_reducible refine keep_fst ‹_ = (_, _)› ?_
    | with_reducible refine keep_of_some ‹_ = some _› ?_
    | with_reducible refine keep_snd ‹_ = (_, _)› ?_
    | split
    | dsimp only
    | with_reducible apply_assumption))

theorem State.replayClose_keep {r0 : State} (s : State) (r : Replay) (b : List Byte) (hs : Keep r0 s) :
    Keep r0 (State.replayClose s r b) := by
  unfold State.replayClose; (repeat' (first
    | with_reducible assumption
    | intro _
    | with_reducible apply State.closeWindow_keep
    | with_reducible apply State.abandon_keep
    | with_reducible refine keep_fst ‹_ = (_, _)› ?_
    | with_reducible refine keep_of_some ‹_ = some _› ?_
    | with_reducible refine keep_snd ‹_ = (_, _)› ?_
    | split
    | dsimp only
    | with_reducible apply_assumption))

theorem State.replayOne_keep {r0 : State} (s : State) (r : Replay) (kind src time : Nat) (b : List Byte) (hs : Keep r0 s) :
    Keep r0 (State.replayOne s r kind src time b) := by
  unfold State.replayOne; (repeat' (first
    | with_reducible assumption
    | intro _
    | with_reducible apply State.replayHost_keep
    | with_reducible apply State.replayUplane_keep
    | with_reducible apply State.replayClose_keep
    | split
    | dsimp only
    | with_reducible apply_assumption))

theorem execReplayRecord_keep {r0 : State} (s : State) (hs : Keep r0 s) :
    KeepO r0 (execReplayRecord s) := by
  unfold execReplayRecord; (repeat' (first
    | with_reducible assumption
    | intro _
    | with_reducible apply State.endReplay_keep
    | with_reducible apply State.modReplay_keep
    | with_reducible apply State.replayOne_keep
    | fail_if_no_progress with_reducible apply keep_mk
    | with_reducible apply keepO_next
    | with_reducible refine keep_fst ‹_ = (_, _)› ?_
    | with_reducible refine keep_of_some ‹_ = some _› ?_
    | with_reducible refine keep_snd ‹_ = (_, _)› ?_
    | split
    | dsimp only
    | with_reducible apply_assumption))

end Sys2Proof.Machine
end

