-- ==== Sys2Proof/Laws/KeepObserve.lean ====
section
/-! SUPPORT. What the operations and meanings of Machine/Observe keep (Laws/Keep). -/
namespace Sys2Proof.Machine

set_option linter.unusedTactic false
set_option linter.unreachableTactic false

theorem State.pmcLookAll_keep {r0 : State} (s : State) (u b : Nat) (hs : Keep r0 s) :
    Keep r0 (State.pmcLookAll s u b) := by
  unfold State.pmcLookAll; (repeat' (first
    | with_reducible assumption
    | intro _
    | with_reducible apply State.pmcLook_keep
    | with_reducible refine keep_foldl ?_ ?_
    | with_reducible refine keep_foldl_fst ?_ ?_
    | with_reducible refine keep_foldl_snd ?_ ?_
    | dsimp only
    | with_reducible apply_assumption))

theorem State.pmcClear_keep {r0 : State} (s : State) (u b : Nat) (hs : Keep r0 s) :
    Keep r0 (State.pmcClear s u b) := by
  unfold State.pmcClear; (repeat' (first
    | with_reducible assumption
    | intro _
    | with_reducible apply State.pmcPut_keep
    | with_reducible apply State.setRegN_keep
    | with_reducible refine keep_foldl ?_ ?_
    | with_reducible refine keep_foldl_fst ?_ ?_
    | with_reducible refine keep_foldl_snd ?_ ?_
    | dsimp only
    | with_reducible apply_assumption))

theorem State.pmcCtlWrite_keep {r0 : State} (s : State) (u b v : Nat) (hs : Keep r0 s) :
    Keep r0 (State.pmcCtlWrite s u b v) := by
  unfold State.pmcCtlWrite; (repeat' (first
    | with_reducible assumption
    | intro _
    | with_reducible apply State.pmcLookAll_keep
    | with_reducible apply State.setRegN_keep
    | with_reducible apply State.pmcClear_keep
    | split
    | dsimp only
    | with_reducible apply_assumption))

theorem State.pmcSelWrite_keep {r0 : State} (s : State) (u b k v : Nat) (hs : Keep r0 s) :
    Keep r0 (State.pmcSelWrite s u b k v) := by
  unfold State.pmcSelWrite; (repeat' (first
    | with_reducible assumption
    | intro _
    | with_reducible apply State.pmcLook_keep
    | with_reducible apply State.setRegN_keep
    | dsimp only
    | with_reducible apply_assumption))

theorem State.pmcCarry_keep {r0 : State} (s : State) (u b : Nat) (fuel : Nat) (k : Nat) (hs : Keep r0 s) :
    Keep r0 (State.pmcCarry s u b fuel k) := by
  revert hs
  fun_induction State.pmcCarry s u b fuel k
  all_goals (intros; (repeat' (first
    | with_reducible assumption
    | intro _
    | with_reducible apply State.pmcPut_keep
    | with_reducible apply State.setFld_keep
    | with_reducible refine keep_fst ‹_ = (_, _)› ?_
    | with_reducible refine keep_of_some ‹_ = some _› ?_
    | with_reducible refine keep_snd ‹_ = (_, _)› ?_
    | split
    | dsimp only
    | with_reducible apply_assumption)))

theorem execCounterOverflow_keep {r0 : State} (unit : BitVec 8) (n : Fin 16) (k : Fin 16) (s : State) (hs : Keep r0 s) :
    KeepO r0 (execCounterOverflow unit n k s) := by
  unfold execCounterOverflow; (repeat' (first
    | with_reducible assumption
    | intro _
    | with_reducible apply State.pmcPut_keep
    | with_reducible apply State.pmcCarry_keep
    | with_reducible apply keepO_next
    | split
    | dsimp only
    | with_reducible apply_assumption))

theorem execPmcClr_keep {r0 : State} (src : BitVec 8) (unit : BitVec 8) (n : Fin 16) (v : Reg32) (s : State) (hs : Keep r0 s) :
    KeepO r0 (execPmcClr src unit n v s) := by
  unfold execPmcClr; (repeat' (first
    | with_reducible assumption
    | intro _
    | with_reducible apply anchorReg_keep
    | with_reducible apply State.pmcCtlWrite_keep
    | with_reducible apply keepO_next
    | split
    | dsimp only
    | with_reducible apply_assumption))

theorem execPmcLoLatch_keep {r0 : State} (unit : BitVec 8) (n : Fin 16) (k : Fin 16) (s : State) (hs : Keep r0 s) :
    KeepO r0 (execPmcLoLatch unit n k s) := by
  unfold execPmcLoLatch; (repeat' (first
    | with_reducible assumption
    | intro _
    | with_reducible apply State.pmcLatch_keep
    | with_reducible apply keepO_next
    | split
    | dsimp only
    | with_reducible apply_assumption))

theorem perf_keep {r0 : State} (op : Nat) (pair : BitVec 16) (k : Cmd → Nat → Nat → State → State) (s : State) (hk : ∀ x0 x1 x2 t, Keep r0 t → Keep r0 (k x0 x1 x2 t)) (hs : Keep r0 s) :
    KeepO r0 (perf op pair k s) := by
  unfold perf; (repeat' (first
    | with_reducible assumption
    | intro _
    | with_reducible apply onCmd_keep
    | with_reducible apply Cmd.ends_keep
    | with_reducible apply keepO_next
    | with_reducible refine keep_fst ‹_ = (_, _)› ?_
    | with_reducible refine keep_of_some ‹_ = some _› ?_
    | with_reducible refine keep_snd ‹_ = (_, _)› ?_
    | split
    | dsimp only
    | with_reducible apply_assumption))

theorem State.perfProgram_keep {r0 : State} (c : Cmd) (u b : Nat) (s : State) (hs : Keep r0 s) :
    Keep r0 (State.perfProgram c u b s) := by
  unfold State.perfProgram; (repeat' (first
    | with_reducible assumption
    | intro _
    | with_reducible apply State.read_keep
    | with_reducible apply Cmd.ends_keep
    | with_reducible apply State.finish_keep
    | with_reducible apply State.pmcSelWrite_keep
    | with_reducible apply State.setRegN_keep
    | with_reducible refine keep_foldl ?_ ?_
    | with_reducible refine keep_foldl_fst ?_ ?_
    | with_reducible refine keep_foldl_snd ?_ ?_
    | with_reducible refine keep_fst ‹_ = (_, _)› ?_
    | with_reducible refine keep_of_some ‹_ = some _› ?_
    | with_reducible refine keep_snd ‹_ = (_, _)› ?_
    | split
    | dsimp only
    | with_reducible apply_assumption))

theorem execPerfProgram_keep {r0 : State} (pair : BitVec 16) (s : State) (hs : Keep r0 s) :
    KeepO r0 (execPerfProgram pair s) := by
  unfold execPerfProgram; (repeat' (first
    | with_reducible assumption
    | intro _
    | with_reducible apply perf_keep
    | with_reducible apply State.perfProgram_keep
    | dsimp only
    | with_reducible apply_assumption))

theorem execPerfClear_keep {r0 : State} (pair : BitVec 16) (s : State) (hs : Keep r0 s) :
    KeepO r0 (execPerfClear pair s) := by
  unfold execPerfClear; (repeat' (first
    | with_reducible assumption
    | intro _
    | with_reducible apply perf_keep
    | with_reducible apply State.finish_keep
    | with_reducible apply State.pmcClear_keep
    | dsimp only
    | with_reducible apply_assumption))

theorem execPerfFreeze_keep {r0 : State} (pair : BitVec 16) (s : State) (hs : Keep r0 s) :
    KeepO r0 (execPerfFreeze pair s) := by
  unfold execPerfFreeze; (repeat' (first
    | with_reducible assumption
    | intro _
    | with_reducible apply perf_keep
    | with_reducible apply State.finish_keep
    | with_reducible apply State.pmcCtlWrite_keep
    | dsimp only
    | with_reducible apply_assumption))

theorem execPerfRun_keep {r0 : State} (pair : BitVec 16) (s : State) (hs : Keep r0 s) :
    KeepO r0 (execPerfRun pair s) := by
  unfold execPerfRun; (repeat' (first
    | with_reducible assumption
    | intro _
    | with_reducible apply perf_keep
    | with_reducible apply State.finish_keep
    | with_reducible apply State.pmcCtlWrite_keep
    | dsimp only
    | with_reducible apply_assumption))

theorem State.perfSnapshot_keep {r0 : State} (c : Cmd) (u b : Nat) (s : State) (hs : Keep r0 s) :
    Keep r0 (State.perfSnapshot c u b s) := by
  unfold State.perfSnapshot; (repeat' (first
    | with_reducible assumption
    | intro _
    | with_reducible apply State.pmcLookAll_keep
    | with_reducible apply State.finish_keep
    | with_reducible apply State.hostWrite_keep
    | split
    | dsimp only
    | with_reducible apply_assumption))

theorem execPerfSnapshot_keep {r0 : State} (pair : BitVec 16) (s : State) (hs : Keep r0 s) :
    KeepO r0 (execPerfSnapshot pair s) := by
  unfold execPerfSnapshot; (repeat' (first
    | with_reducible assumption
    | intro _
    | with_reducible apply perf_keep
    | with_reducible apply State.perfSnapshot_keep
    | dsimp only
    | with_reducible apply_assumption))

theorem State.loupeCfg_keep {r0 : State} (c : Cmd) (s : State) (hs : Keep r0 s) :
    Keep r0 (State.loupeCfg c s) := by
  unfold State.loupeCfg; (repeat' (first
    | with_reducible assumption
    | intro _
    | with_reducible apply Cmd.ends_keep
    | with_reducible apply State.finish_keep
    | with_reducible apply State.setRegN_keep
    | with_reducible apply State.setReg64_keep
    | with_reducible refine keep_fst ‹_ = (_, _)› ?_
    | with_reducible refine keep_of_some ‹_ = some _› ?_
    | with_reducible refine keep_snd ‹_ = (_, _)› ?_
    | split
    | dsimp only
    | with_reducible apply_assumption))

theorem execLoupeCfg_keep {r0 : State} (pair : BitVec 16) (s : State) (hs : Keep r0 s) :
    KeepO r0 (execLoupeCfg pair s) := by
  unfold execLoupeCfg; (repeat' (first
    | with_reducible assumption
    | intro _
    | with_reducible apply onCmd_keep
    | with_reducible apply State.loupeCfg_keep
    | dsimp only
    | with_reducible apply_assumption))

theorem execLoupeRecord_keep {r0 : State} (e : Fin 8) (k : Fin 16) (issue : Word) (ready : Option Word) (start : Option Word) (commit : Option Word) (s : State) (hs : Keep r0 s) :
    KeepO r0 (execLoupeRecord e k issue ready start commit s) := by
  unfold execLoupeRecord; (repeat' (first
    | with_reducible assumption
    | intro _
    | with_reducible apply State.modEng_keep
    | with_reducible apply State.countUp_keep
    | with_reducible apply State.setRegN_keep
    | with_reducible apply State.pushItems_keep
    | with_reducible apply State.issue_keep
    | fail_if_no_progress with_reducible apply keep_mk
    | with_reducible apply keepO_next
    | with_reducible refine keep_fst ‹_ = (_, _)› ?_
    | with_reducible refine keep_of_some ‹_ = some _› ?_
    | with_reducible refine keep_snd ‹_ = (_, _)› ?_
    | split
    | dsimp only
    | with_reducible apply_assumption))

theorem State.tapLoad_keep {r0 : State} (s : State) (ir : Nat) (hs : Keep r0 s) :
    Keep r0 (State.tapLoad s ir) := by
  unfold State.tapLoad; (repeat' (first
    | with_reducible assumption
    | intro _
    | fail_if_no_progress with_reducible apply keep_mk
    | with_reducible refine keep_fst ‹_ = (_, _)› ?_
    | with_reducible refine keep_of_some ‹_ = some _› ?_
    | with_reducible refine keep_snd ‹_ = (_, _)› ?_
    | split
    | dsimp only
    | with_reducible apply_assumption))

theorem State.tapScan_keep {r0 : State} (s : State) (balls cells : BitVec 412) (hs : Keep r0 s) :
    Keep r0 (State.tapScan s balls cells) := by
  unfold State.tapScan; (repeat' (first
    | with_reducible assumption
    | intro _
    | fail_if_no_progress with_reducible apply keep_mk
    | dsimp only
    | with_reducible apply_assumption))

theorem execTapReset_keep {r0 : State} (s : State) (hs : Keep r0 s) :
    KeepO r0 (execTapReset s) := by
  unfold execTapReset; (repeat' (first
    | with_reducible assumption
    | intro _
    | with_reducible apply State.tapLoad_keep
    | with_reducible apply keepO_next
    | dsimp only
    | with_reducible apply_assumption))

theorem execIdcode_keep {r0 : State} (s : State) (hs : Keep r0 s) :
    KeepO r0 (execIdcode s) := by
  unfold execIdcode; (repeat' (first
    | with_reducible assumption
    | intro _
    | with_reducible apply State.tapLoad_keep
    | with_reducible apply keepO_next
    | dsimp only
    | with_reducible apply_assumption))

theorem execSamplePreload_keep {r0 : State} (balls : BitVec 412) (cells : BitVec 412) (s : State) (hs : Keep r0 s) :
    KeepO r0 (execSamplePreload balls cells s) := by
  unfold execSamplePreload; (repeat' (first
    | with_reducible assumption
    | intro _
    | with_reducible apply State.tapLoad_keep
    | with_reducible apply State.tapScan_keep
    | with_reducible apply keepO_next
    | dsimp only
    | with_reducible apply_assumption))

theorem execExtest_keep {r0 : State} (balls : BitVec 412) (cells : BitVec 412) (s : State) (hs : Keep r0 s) :
    KeepO r0 (execExtest balls cells s) := by
  unfold execExtest; (repeat' (first
    | with_reducible assumption
    | intro _
    | with_reducible apply State.tapLoad_keep
    | with_reducible apply State.tapScan_keep
    | with_reducible apply keepO_next
    | split
    | dsimp only
    | with_reducible apply_assumption))

theorem execClamp_keep {r0 : State} (s : State) (hs : Keep r0 s) :
    KeepO r0 (execClamp s) := by
  unfold execClamp; (repeat' (first
    | with_reducible assumption
    | intro _
    | with_reducible apply State.tapLoad_keep
    | with_reducible apply keepO_next
    | dsimp only
    | with_reducible apply_assumption))

theorem execHighz_keep {r0 : State} (s : State) (hs : Keep r0 s) :
    KeepO r0 (execHighz s) := by
  unfold execHighz; (repeat' (first
    | with_reducible assumption
    | intro _
    | with_reducible apply State.tapLoad_keep
    | with_reducible apply keepO_next
    | dsimp only
    | with_reducible apply_assumption))

theorem execDebug_keep {r0 : State} (s : State) (hs : Keep r0 s) :
    KeepO r0 (execDebug s) := by
  unfold execDebug; (repeat' (first
    | with_reducible assumption
    | intro _
    | with_reducible apply State.tapLoad_keep
    | with_reducible apply keepO_next
    | dsimp only
    | with_reducible apply_assumption))

theorem execBypass_keep {r0 : State} (code : BitVec 8) (s : State) (hs : Keep r0 s) :
    KeepO r0 (execBypass code s) := by
  unfold execBypass; (repeat' (first
    | with_reducible assumption
    | intro _
    | with_reducible apply State.tapLoad_keep
    | with_reducible apply keepO_next
    | split
    | dsimp only
    | with_reducible apply_assumption))

end Sys2Proof.Machine
end

