-- ==== Sys2Proof/Laws/KeepRegWrite.lean ====
section
/-! SUPPORT. What the operations and meanings of Machine/RegWrite keep (Laws/Keep). -/
namespace Sys2Proof.Machine

set_option linter.unusedTactic false
set_option linter.unreachableTactic false

theorem State.mergeReg_keep {r0 : State} (s : State) (a v : Nat) (hs : Keep r0 s) :
    Keep r0 (State.mergeReg s a v) := by
  unfold State.mergeReg; (repeat' (first
    | with_reducible assumption
    | intro _
    | with_reducible apply State.setRegN_keep
    | with_reducible refine keep_fst ‹_ = (_, _)› ?_
    | with_reducible refine keep_of_some ‹_ = some _› ?_
    | with_reducible refine keep_snd ‹_ = (_, _)› ?_
    | split
    | dsimp only
    | with_reducible apply_assumption))

theorem State.crdW0Write_keep {r0 : State} (s : State) (u k v : Nat) (hs : Keep r0 s) :
    Keep r0 (State.crdW0Write s u k v) := by
  unfold State.crdW0Write; (repeat' (first
    | with_reducible assumption
    | intro _
    | with_reducible apply State.setRegN_keep
    | split
    | dsimp only
    | with_reducible apply_assumption))

theorem State.crdW1Write_keep {r0 : State} (s : State) (u k v : Nat) (hs : Keep r0 s) :
    Keep r0 (State.crdW1Write s u k v) := by
  unfold State.crdW1Write; (repeat' (first
    | with_reducible assumption
    | intro _
    | with_reducible apply State.setRegN_keep
    | with_reducible apply State.dropHeld_keep
    | split
    | dsimp only
    | with_reducible apply_assumption))

theorem State.doorbells_keep {r0 : State} (s s0 : State) (u : Nat) (hs : Keep r0 s) (hs0 : Keep r0 s0) :
    Keep r0 (State.doorbells s s0 u) := by
  unfold State.doorbells; (repeat' (first
    | with_reducible assumption
    | intro _
    | with_reducible apply State.msix_keep
    | split
    | dsimp only
    | with_reducible apply_assumption))

theorem State.raiseDb_keep {r0 : State} (s : State) (u v : Nat) (hs : Keep r0 s) :
    Keep r0 (State.raiseDb s u v) := by
  unfold State.raiseDb; (repeat' (first
    | with_reducible assumption
    | intro _
    | with_reducible apply State.setReg_keep
    | with_reducible apply State.doorbells_keep
    | dsimp only
    | with_reducible apply_assumption))

theorem State.mbxPost_keep {r0 : State} (s : State) (src u n : Nat) (hs : Keep r0 s) :
    Keep r0 (State.mbxPost s src u n) := by
  unfold State.mbxPost; (repeat' (first
    | with_reducible assumption
    | intro _
    | with_reducible apply State.setFld_keep
    | with_reducible apply State.raiseDb_keep
    | split
    | dsimp only
    | with_reducible apply_assumption))

theorem State.mbxAck_keep {r0 : State} (s : State) (u n v : Nat) (hs : Keep r0 s) :
    Keep r0 (State.mbxAck s u n v) := by
  unfold State.mbxAck; (repeat' (first
    | with_reducible assumption
    | intro _
    | with_reducible apply State.setRegN_keep
    | with_reducible apply State.setFld_keep
    | with_reducible apply State.pushItems_keep
    | split
    | dsimp only
    | with_reducible apply_assumption))

theorem State.mbxData_keep {r0 : State} (s : State) (u n i v : Nat) (hs : Keep r0 s) :
    Keep r0 (State.mbxData s u n i v) := by
  unfold State.mbxData; (repeat' (first
    | with_reducible assumption
    | intro _
    | with_reducible apply State.setFld_keep
    | with_reducible apply State.setRegN_keep
    | split
    | dsimp only
    | with_reducible apply_assumption))

theorem State.mboxWrite_keep {r0 : State} (s : State) (src u o v : Nat) (hs : Keep r0 s) :
    Keep r0 (State.mboxWrite s src u o v) := by
  unfold State.mboxWrite; (repeat' (first
    | with_reducible assumption
    | intro _
    | with_reducible apply State.mbxData_keep
    | with_reducible apply State.mergeReg_keep
    | with_reducible apply State.mbxPost_keep
    | with_reducible apply State.mbxAck_keep
    | with_reducible apply State.raiseDb_keep
    | with_reducible apply State.doorbells_keep
    | split
    | dsimp only
    | with_reducible apply_assumption))

theorem State.engRegWrite_keep {r0 : State} (s : State) (e : Fin 8) (o v : Nat) (hs : Keep r0 s) :
    KeepOpt r0 (State.engRegWrite s e o v) := by
  unfold State.engRegWrite; (repeat' (first
    | with_reducible assumption
    | intro _
    | with_reducible apply State.ctlWrite_keep
    | with_reducible apply State.arrClr_keep
    | with_reducible apply State.qntClr_keep
    | with_reducible apply State.vecClr_keep
    | with_reducible apply State.prismClr_keep
    | with_reducible apply State.pairCtl_keep
    | with_reducible apply State.mergeReg_keep
    | with_reducible apply State.setRegN_keep
    | with_reducible apply keepOpt_some
    | with_reducible apply keepOpt_none
    | with_reducible refine keepOpt_bind ?_ ?_
    | with_reducible refine keepOpt_bindA ?_
    | with_reducible refine keepOpt_map ?_
    | split
    | dsimp only
    | with_reducible apply_assumption))

theorem State.unitRegWrite_keep {r0 : State} (s : State) (u o v : Nat) (hs : Keep r0 s) :
    KeepOpt r0 (State.unitRegWrite s u o v) := by
  unfold State.unitRegWrite; (repeat' (first
    | with_reducible assumption
    | intro _
    | with_reducible apply State.engRegWrite_keep
    | with_reducible apply State.fctFlush_keep
    | with_reducible apply State.fctClr_keep
    | with_reducible apply State.fhClr_keep
    | with_reducible apply State.ptpCtlWrite_keep
    | with_reducible apply State.setRegN_keep
    | with_reducible apply State.ptpAdjWrite_keep
    | with_reducible apply State.modClr_keep
    | with_reducible apply State.mergeReg_keep
    | with_reducible apply State.modCtlSet_keep
    | with_reducible apply State.brvClr_keep
    | with_reducible apply State.setBrv_keep
    | with_reducible apply State.linkDown_keep
    | with_reducible apply keepOpt_some
    | with_reducible apply keepOpt_none
    | with_reducible refine keepOpt_bind ?_ ?_
    | with_reducible refine keepOpt_bindA ?_
    | with_reducible refine keepOpt_map ?_
    | with_reducible refine keep_fst ‹_ = (_, _)› ?_
    | with_reducible refine keep_of_some ‹_ = some _› ?_
    | with_reducible refine keep_snd ‹_ = (_, _)› ?_
    | split
    | dsimp only
    | with_reducible apply_assumption))

theorem State.pmcRegWrite_keep {r0 : State} (s : State) (u o v : Nat) (hs : Keep r0 s) :
    KeepOpt r0 (State.pmcRegWrite s u o v) := by
  unfold State.pmcRegWrite; (repeat' (first
    | with_reducible assumption
    | intro _
    | with_reducible apply State.pmcCtlWrite_keep
    | with_reducible apply State.pmcSelWrite_keep
    | with_reducible apply keepOpt_some
    | with_reducible apply keepOpt_none
    | with_reducible refine keepOpt_bind ?_ ?_
    | with_reducible refine keepOpt_bindA ?_
    | with_reducible refine keepOpt_map ?_
    | with_reducible refine keep_fst ‹_ = (_, _)› ?_
    | with_reducible refine keep_of_some ‹_ = some _› ?_
    | with_reducible refine keep_snd ‹_ = (_, _)› ?_
    | split
    | dsimp only
    | with_reducible apply_assumption))

theorem State.regWrite_keep {r0 : State} (s : State) (du u o v : Nat) (hs : Keep r0 s) :
    Keep r0 (State.regWrite s du u o v) := by
  unfold State.regWrite; (repeat' (first
    | with_reducible assumption
    | intro _
    | with_reducible apply State.crdW0Write_keep
    | with_reducible apply State.crdW1Write_keep
    | with_reducible apply State.mboxWrite_keep
    | with_reducible apply State.mergeReg_keep
    | with_reducible apply State.eccClr_keep
    | with_reducible apply State.injWrite_keep
    | with_reducible apply State.unitRegWrite_keep
    | with_reducible apply State.pmcRegWrite_keep
    | with_reducible apply State.cfgCheck_keep
    | with_reducible refine keep_fst ‹_ = (_, _)› ?_
    | with_reducible refine keep_of_some ‹_ = some _› ?_
    | with_reducible refine keep_snd ‹_ = (_, _)› ?_
    | split
    | dsimp only
    | with_reducible apply_assumption))

theorem State.ctlPut_keep {r0 : State} (s : State) (du u o : Nat) (bs : List Byte) (hs : Keep r0 s) :
    Keep r0 (State.ctlPut s du u o bs) := by
  unfold State.ctlPut; (repeat' (first
    | with_reducible assumption
    | intro _
    | with_reducible apply State.regWrite_keep
    | with_reducible refine keep_foldl ?_ ?_
    | with_reducible refine keep_foldl_fst ?_ ?_
    | with_reducible refine keep_foldl_snd ?_ ?_
    | dsimp only
    | with_reducible apply_assumption))

theorem State.regPut_keep {r0 : State} (s : State) (src u o v : Nat) (hs : Keep r0 s) :
    Keep r0 (State.regPut s src u o v) := by
  unfold State.regPut; (repeat' (first
    | with_reducible assumption
    | intro _
    | with_reducible apply State.failOp_keep
    | with_reducible apply State.reach_keep
    | with_reducible apply State.regWrite_keep
    | split
    | dsimp only
    | with_reducible apply_assumption))

theorem State.msixWrite_keep {r0 : State} (s : State) (o v : Nat) (hs : Keep r0 s) :
    Keep r0 (State.msixWrite s o v) := by
  unfold State.msixWrite; (repeat' (first
    | with_reducible assumption
    | intro _
    | with_reducible apply State.mergeReg_keep
    | with_reducible apply State.msix_keep
    | split
    | dsimp only
    | with_reducible apply_assumption))

theorem State.barWrite_keep {r0 : State} (s : State) (o v : Nat) (hs : Keep r0 s) :
    Keep r0 (State.barWrite s o v) := by
  unfold State.barWrite; (repeat' (first
    | with_reducible assumption
    | intro _
    | with_reducible apply State.tailWrite_keep
    | with_reducible apply State.cheadWrite_keep
    | with_reducible apply State.setFld_keep
    | with_reducible apply State.acceptStep_keep
    | with_reducible apply State.admWrite_keep
    | with_reducible apply State.msixWrite_keep
    | with_reducible apply State.mergeReg_keep
    | split
    | dsimp only
    | with_reducible apply_assumption))

theorem State.hostWriteReg_keep {r0 : State} (s : State) (o v : Nat) (hs : Keep r0 s) :
    Keep r0 (State.hostWriteReg s o v) := by
  unfold State.hostWriteReg; (repeat' (first
    | with_reducible assumption
    | intro _
    | with_reducible apply State.regWrite_keep
    | with_reducible apply hostReg_keep
    | with_reducible apply State.barWrite_keep
    | split
    | dsimp only
    | with_reducible apply_assumption))

theorem execRegisterWrite_keep {r0 : State} (src : BitVec 8) (unit : BitVec 9) (off : BitVec 52) (v : Reg32) (s : State) (hs : Keep r0 s) :
    KeepO r0 (execRegisterWrite src unit off v s) := by
  unfold execRegisterWrite; (repeat' (first
    | with_reducible assumption
    | intro _
    | with_reducible apply State.hostWriteReg_keep
    | with_reducible apply State.regPut_keep
    | with_reducible apply keepO_next
    | split
    | dsimp only
    | with_reducible apply_assumption))

theorem execFabCrdW0Write_keep {r0 : State} (src : BitVec 8) (unit : BitVec 8) (k : BitVec 10) (v : Reg32) (s : State) (hs : Keep r0 s) :
    KeepO r0 (execFabCrdW0Write src unit k v s) := by
  unfold execFabCrdW0Write; (repeat' (first
    | with_reducible assumption
    | intro _
    | with_reducible apply State.regPut_keep
    | with_reducible apply keepO_next
    | dsimp only
    | with_reducible apply_assumption))

theorem execFabCrdW1Write_keep {r0 : State} (src : BitVec 8) (unit : BitVec 8) (k : BitVec 10) (v : Reg32) (s : State) (hs : Keep r0 s) :
    KeepO r0 (execFabCrdW1Write src unit k v s) := by
  unfold execFabCrdW1Write; (repeat' (first
    | with_reducible assumption
    | intro _
    | with_reducible apply State.regPut_keep
    | with_reducible apply keepO_next
    | dsimp only
    | with_reducible apply_assumption))

theorem execMbxPost_keep {r0 : State} (src : BitVec 8) (unit : BitVec 8) (n : Fin 32) (s : State) (hs : Keep r0 s) :
    KeepO r0 (execMbxPost src unit n s) := by
  unfold execMbxPost; (repeat' (first
    | with_reducible assumption
    | intro _
    | with_reducible apply State.hostWriteReg_keep
    | with_reducible apply State.regPut_keep
    | with_reducible apply keepO_next
    | split
    | dsimp only
    | with_reducible apply_assumption))

theorem execMbxAck_keep {r0 : State} (src : BitVec 8) (unit : BitVec 8) (n : Fin 32) (v : Reg32) (s : State) (hs : Keep r0 s) :
    KeepO r0 (execMbxAck src unit n v s) := by
  unfold execMbxAck; (repeat' (first
    | with_reducible assumption
    | intro _
    | with_reducible apply State.hostWriteReg_keep
    | with_reducible apply State.regPut_keep
    | with_reducible apply keepO_next
    | split
    | dsimp only
    | with_reducible apply_assumption))

theorem execDbSet_keep {r0 : State} (src : BitVec 8) (unit : BitVec 8) (v : Reg32) (s : State) (hs : Keep r0 s) :
    KeepO r0 (execDbSet src unit v s) := by
  unfold execDbSet; (repeat' (first
    | with_reducible assumption
    | intro _
    | with_reducible apply State.hostWriteReg_keep
    | with_reducible apply State.regPut_keep
    | with_reducible apply keepO_next
    | split
    | dsimp only
    | with_reducible apply_assumption))

end Sys2Proof.Machine
end

