-- ==== Sys2Proof/Laws/KeepFabRun.lean ====
section
/-! SUPPORT. What the operations and meanings of Machine/FabRun keep (Laws/Keep). -/
namespace Sys2Proof.Machine

set_option linter.unusedTactic false
set_option linter.unreachableTactic false

theorem State.races_keep {r0 : State} (s : State) (u off n : Nat) (hs : Keep r0 s) :
    Keep r0 (State.races s u off n) := by
  unfold State.races; (repeat' (first
    | with_reducible assumption
    | intro _
    | with_reducible apply State.raceRow_keep
    | with_reducible refine keep_foldl ?_ ?_
    | with_reducible refine keep_foldl_fst ?_ ?_
    | with_reducible refine keep_foldl_snd ?_ ?_
    | with_reducible refine keep_fst ‹_ = (_, _)› ?_
    | with_reducible refine keep_of_some ‹_ = some _› ?_
    | with_reducible refine keep_snd ‹_ = (_, _)› ?_
    | split
    | dsimp only
    | with_reducible apply_assumption))

theorem State.putAt_keep {r0 : State} (s : State) (du u off : Nat) (bs : List Byte) (hs : Keep r0 s) :
    Keep r0 (State.putAt s du u off bs).1 := by
  unfold State.putAt; (repeat' (first
    | with_reducible assumption
    | intro _
    | with_reducible apply State.write_keep
    | with_reducible apply State.races_keep
    | with_reducible apply State.ctlPut_keep
    | with_reducible refine keep_fst ‹_ = (_, _)› ?_
    | with_reducible refine keep_of_some ‹_ = some _› ?_
    | with_reducible refine keep_snd ‹_ = (_, _)› ?_
    | split
    | dsimp only
    | with_reducible apply_assumption))

theorem State.signalAt_keep {r0 : State} (s : State) (u : Nat) (x : FabItem) (pass : Bool) (hs : Keep r0 s) :
    Keep r0 (State.signalAt s u x pass) := by
  unfold State.signalAt; (repeat' (first
    | with_reducible assumption
    | intro _
    | with_reducible apply State.addTok_keep
    | split
    | dsimp only
    | with_reducible apply_assumption))

theorem State.pairAt_keep {r0 : State} (s : State) (u : Nat) (x : FabItem) (hs : Keep r0 s) :
    Keep r0 (State.pairAt s u x).1 := by
  unfold State.pairAt; (repeat' (first
    | with_reducible assumption
    | intro _
    | with_reducible apply State.pairCheck_keep
    | with_reducible refine keep_fst ‹_ = (_, _)› ?_
    | with_reducible refine keep_of_some ‹_ = some _› ?_
    | with_reducible refine keep_snd ‹_ = (_, _)› ?_
    | split
    | dsimp only
    | with_reducible apply_assumption))

theorem State.sendReturn_keep {r0 : State} (s : State) (x : FabItem) (u : Nat) (data : List Byte) (hs : Keep r0 s) :
    Keep r0 (State.sendReturn s x u data) := by
  unfold State.sendReturn; (repeat' (first
    | with_reducible assumption
    | intro _
    | fail_if_no_progress with_reducible apply keep_mk
    | split
    | dsimp only
    | with_reducible apply_assumption))

theorem State.applyFadd_keep {r0 : State} (s : State) (x : FabItem) (u : Nat) (hs : Keep r0 s) :
    Keep r0 (State.applyFadd s x u).1 := by
  unfold State.applyFadd; (repeat' (first
    | with_reducible assumption
    | intro _
    | with_reducible apply State.targetRead_keep
    | with_reducible apply State.putAt_keep
    | with_reducible apply State.signalAt_keep
    | with_reducible refine keep_fst ‹_ = (_, _)› ?_
    | with_reducible refine keep_of_some ‹_ = some _› ?_
    | with_reducible refine keep_snd ‹_ = (_, _)› ?_
    | split
    | dsimp only
    | with_reducible apply_assumption))

theorem State.landFadd_keep {r0 : State} (s : State) (x : FabItem) (u k : Nat) (hs : Keep r0 s) :
    Keep r0 (State.landFadd s x u k).1 := by
  unfold State.landFadd; (repeat' (first
    | with_reducible assumption
    | intro _
    | with_reducible apply State.applyFadd_keep
    | with_reducible apply State.dynChoice_keep
    | with_reducible apply State.setFld_keep
    | fail_if_no_progress with_reducible apply keep_mk
    | with_reducible apply keepO_next
    | with_reducible refine keep_fst ‹_ = (_, _)› ?_
    | with_reducible refine keep_of_some ‹_ = some _› ?_
    | with_reducible refine keep_snd ‹_ = (_, _)› ?_
    | split
    | dsimp only
    | with_reducible apply_assumption))

theorem State.landAtomic_keep {r0 : State} (s : State) (x : FabItem) (u n : Nat) (f : List Byte → Option (List Byte)) (hs : Keep r0 s) :
    Keep r0 (State.landAtomic s x u n f).1 := by
  unfold State.landAtomic; (repeat' (first
    | with_reducible assumption
    | intro _
    | with_reducible apply State.targetRead_keep
    | with_reducible apply State.putAt_keep
    | with_reducible apply State.sendReturn_keep
    | with_reducible refine keep_fst ‹_ = (_, _)› ?_
    | with_reducible refine keep_of_some ‹_ = some _› ?_
    | with_reducible refine keep_snd ‹_ = (_, _)› ?_
    | split
    | dsimp only
    | with_reducible apply_assumption))

theorem State.land_keep {r0 : State} (s0 : State) (x : FabItem) (u : Nat) (hs0 : Keep r0 s0) :
    Keep r0 (State.land s0 x u).1 := by
  unfold State.land; (repeat' (first
    | with_reducible assumption
    | intro _
    | with_reducible apply State.reachAt_keep
    | with_reducible apply State.putAt_keep
    | with_reducible apply State.pairAt_keep
    | with_reducible apply State.signalAt_keep
    | with_reducible apply State.targetRead_keep
    | with_reducible apply State.sendReturn_keep
    | with_reducible apply State.landAtomic_keep
    | with_reducible apply State.take_keep
    | with_reducible apply State.landFadd_keep
    | with_reducible refine keep_fst ‹_ = (_, _)› ?_
    | with_reducible refine keep_of_some ‹_ = some _› ?_
    | with_reducible refine keep_snd ‹_ = (_, _)› ?_
    | split
    | dsimp only
    | with_reducible apply_assumption))

theorem State.deliver_keep {r0 : State} (s : State) (x : FabItem) (u : Nat) (hs : Keep r0 s) :
    Keep r0 (State.deliver s x u) := by
  unfold State.deliver; (repeat' (first
    | with_reducible assumption
    | intro _
    | with_reducible apply State.land_keep
    | with_reducible apply State.arrive_keep
    | with_reducible apply State.failItem_keep
    | with_reducible refine keep_fst ‹_ = (_, _)› ?_
    | with_reducible refine keep_of_some ‹_ = some _› ?_
    | with_reducible refine keep_snd ‹_ = (_, _)› ?_
    | split
    | dsimp only
    | with_reducible apply_assumption))

theorem State.deliverAll_keep {r0 : State} (s : State) (x : FabItem) (tgts : List Nat) (hs : Keep r0 s) :
    Keep r0 (State.deliverAll s x tgts) := by
  unfold State.deliverAll; (repeat' (first
    | with_reducible assumption
    | intro _
    | with_reducible apply State.deliver_keep
    | with_reducible refine keep_foldl ?_ ?_
    | with_reducible refine keep_foldl_fst ?_ ?_
    | with_reducible refine keep_foldl_snd ?_ ?_
    | dsimp only
    | with_reducible apply_assumption))

theorem State.arriveOp_keep {r0 : State} (s : State) (o : FabOp) (h : Hdr) (payload : List Byte) (hs : Keep r0 s) :
    Keep r0 (State.arriveOp s o h payload) := by
  unfold State.arriveOp; (repeat' (first
    | with_reducible assumption
    | intro _
    | with_reducible apply State.take_keep
    | with_reducible apply State.deliverAll_keep
    | with_reducible apply State.failItem_keep
    | fail_if_no_progress with_reducible apply keep_mk
    | with_reducible refine keep_fst ‹_ = (_, _)› ?_
    | with_reducible refine keep_of_some ‹_ = some _› ?_
    | with_reducible refine keep_snd ‹_ = (_, _)› ?_
    | split
    | dsimp only
    | with_reducible apply_assumption))

theorem execPut_keep {r0 : State} (h : Hdr) (payload : List Byte) (s : State) (hs : Keep r0 s) :
    KeepO r0 (execPut h payload s) := by
  unfold execPut; (repeat' (first
    | with_reducible assumption
    | intro _
    | with_reducible apply State.arriveOp_keep
    | with_reducible apply keepO_next
    | dsimp only
    | with_reducible apply_assumption))

theorem execGet_keep {r0 : State} (h : Hdr) (s : State) (hs : Keep r0 s) :
    KeepO r0 (execGet h s) := by
  unfold execGet; (repeat' (first
    | with_reducible assumption
    | intro _
    | with_reducible apply State.arriveOp_keep
    | with_reducible apply keepO_next
    | dsimp only
    | with_reducible apply_assumption))

theorem execPutSignal_keep {r0 : State} (h : Hdr) (payload : List Byte) (s : State) (hs : Keep r0 s) :
    KeepO r0 (execPutSignal h payload s) := by
  unfold execPutSignal; (repeat' (first
    | with_reducible assumption
    | intro _
    | with_reducible apply State.arriveOp_keep
    | with_reducible apply keepO_next
    | dsimp only
    | with_reducible apply_assumption))

theorem execSignal_keep {r0 : State} (h : Hdr) (s : State) (hs : Keep r0 s) :
    KeepO r0 (execSignal h s) := by
  unfold execSignal; (repeat' (first
    | with_reducible assumption
    | intro _
    | with_reducible apply State.arriveOp_keep
    | with_reducible apply keepO_next
    | dsimp only
    | with_reducible apply_assumption))

theorem execAtomicAdd_keep {r0 : State} (h : Hdr) (payload : List Byte) (s : State) (hs : Keep r0 s) :
    KeepO r0 (execAtomicAdd h payload s) := by
  unfold execAtomicAdd; (repeat' (first
    | with_reducible assumption
    | intro _
    | with_reducible apply State.arriveOp_keep
    | with_reducible apply keepO_next
    | dsimp only
    | with_reducible apply_assumption))

theorem execFetchAdd_keep {r0 : State} (h : Hdr) (payload : List Byte) (s : State) (hs : Keep r0 s) :
    KeepO r0 (execFetchAdd h payload s) := by
  unfold execFetchAdd; (repeat' (first
    | with_reducible assumption
    | intro _
    | with_reducible apply State.arriveOp_keep
    | with_reducible apply keepO_next
    | dsimp only
    | with_reducible apply_assumption))

theorem execCas_keep {r0 : State} (h : Hdr) (payload : List Byte) (s : State) (hs : Keep r0 s) :
    KeepO r0 (execCas h payload s) := by
  unfold execCas; (repeat' (first
    | with_reducible assumption
    | intro _
    | with_reducible apply State.arriveOp_keep
    | with_reducible apply keepO_next
    | dsimp only
    | with_reducible apply_assumption))

theorem execOrderedFadd_keep {r0 : State} (h : Hdr) (payload : List Byte) (s : State) (hs : Keep r0 s) :
    KeepO r0 (execOrderedFadd h payload s) := by
  unfold execOrderedFadd; (repeat' (first
    | with_reducible assumption
    | intro _
    | with_reducible apply State.arriveOp_keep
    | with_reducible apply keepO_next
    | dsimp only
    | with_reducible apply_assumption))

theorem execOrderedFaddRelease_keep {r0 : State} (unit : BitVec 8) (stream : BitVec 16) (s : State) (hs : Keep r0 s) :
    KeepO r0 (execOrderedFaddRelease unit stream s) := by
  unfold execOrderedFaddRelease; (repeat' (first
    | with_reducible assumption
    | intro _
    | with_reducible apply State.applyFadd_keep
    | with_reducible apply State.setFld_keep
    | with_reducible apply State.arrive_keep
    | with_reducible apply State.failItem_keep
    | fail_if_no_progress with_reducible apply keep_mk
    | with_reducible apply keepO_next
    | with_reducible refine keep_fst ‹_ = (_, _)› ?_
    | with_reducible refine keep_of_some ‹_ = some _› ?_
    | with_reducible refine keep_snd ‹_ = (_, _)› ?_
    | split
    | dsimp only
    | with_reducible apply_assumption))

theorem State.opDone_keep {r0 : State} (s : State) (w : Owner) (hs : Keep r0 s) :
    Keep r0 (State.opDone s w) := by
  unfold State.opDone; (repeat' (first
    | with_reducible assumption
    | intro _
    | with_reducible apply State.modEng_keep
    | with_reducible apply State.modFct_keep
    | fail_if_no_progress with_reducible apply keep_mk
    | with_reducible refine keep_fst ‹_ = (_, _)› ?_
    | with_reducible refine keep_of_some ‹_ = some _› ?_
    | with_reducible refine keep_snd ‹_ = (_, _)› ?_
    | split
    | dsimp only
    | with_reducible apply_assumption))

theorem execReturnDelivery_keep {r0 : State} (src : BitVec 12) (dst : BitVec 8) (stream : BitVec 16) (s : State) (hs : Keep r0 s) :
    KeepO r0 (execReturnDelivery src dst stream s) := by
  unfold execReturnDelivery; (repeat' (first
    | with_reducible assumption
    | intro _
    | with_reducible apply State.arrive_keep
    | with_reducible apply State.land_keep
    | with_reducible apply State.opDone_keep
    | with_reducible apply State.failOp_keep
    | fail_if_no_progress with_reducible apply keep_mk
    | with_reducible apply keepO_next
    | with_reducible refine keep_fst ‹_ = (_, _)› ?_
    | with_reducible refine keep_of_some ‹_ = some _› ?_
    | with_reducible refine keep_snd ‹_ = (_, _)› ?_
    | split
    | dsimp only
    | with_reducible apply_assumption))

theorem State.descFail_keep {r0 : State} (s : State) (e : Fin 8) (id cause fcause : Nat) (hs : Keep r0 s) :
    Keep r0 (State.descFail s e id cause fcause) := by
  unfold State.descFail; (repeat' (first
    | with_reducible assumption
    | intro _
    | with_reducible apply State.modEng_keep
    | with_reducible apply State.strmError_keep
    | fail_if_no_progress with_reducible apply keep_mk
    | with_reducible refine keep_fst ‹_ = (_, _)› ?_
    | with_reducible refine keep_of_some ‹_ = some _› ?_
    | with_reducible refine keep_snd ‹_ = (_, _)› ?_
    | split
    | dsimp only
    | with_reducible apply_assumption))

theorem State.answerErr_keep {r0 : State} (s : State) (r : ErrItem) (hs : Keep r0 s) :
    Keep r0 (State.answerErr s r) := by
  unfold State.answerErr; (repeat' (first
    | with_reducible assumption
    | intro _
    | with_reducible apply State.recordErr_keep
    | with_reducible apply State.descFail_keep
    | with_reducible apply State.faultKill_keep
    | with_reducible apply State.fctFail_keep
    | with_reducible refine keep_fst ‹_ = (_, _)› ?_
    | with_reducible refine keep_of_some ‹_ = some _› ?_
    | with_reducible refine keep_snd ‹_ = (_, _)› ?_
    | split
    | dsimp only
    | with_reducible apply_assumption))

theorem execErrorResponse_keep {r0 : State} (unit : BitVec 8) (far : Bool) (stream : BitVec 16) (cause : BitVec 4) (s : State) (hs : Keep r0 s) :
    KeepO r0 (execErrorResponse unit far stream cause s) := by
  unfold execErrorResponse; (repeat' (first
    | with_reducible assumption
    | intro _
    | with_reducible apply State.answerErr_keep
    | fail_if_no_progress with_reducible apply keep_mk
    | with_reducible apply keepO_next
    | with_reducible apply keep_getD
    | with_reducible refine keep_fst ‹_ = (_, _)› ?_
    | with_reducible refine keep_of_some ‹_ = some _› ?_
    | with_reducible refine keep_snd ‹_ = (_, _)› ?_
    | split
    | dsimp only
    | with_reducible apply_assumption))

theorem State.farReturn_keep {r0 : State} (s : State) (x : FabItem) (hs : Keep r0 s) :
    Keep r0 (State.farReturn s x) := by
  unfold State.farReturn; (repeat' (first
    | with_reducible assumption
    | intro _
    | fail_if_no_progress with_reducible apply keep_mk
    | dsimp only
    | with_reducible apply_assumption))

theorem execCreditReturn_keep {r0 : State} (unit : BitVec 12) (stream : BitVec 16) (s : State) (hs : Keep r0 s) :
    KeepO r0 (execCreditReturn unit stream s) := by
  unfold execCreditReturn; (repeat' (first
    | with_reducible assumption
    | intro _
    | with_reducible apply State.opDone_keep
    | with_reducible apply State.farReturn_keep
    | fail_if_no_progress with_reducible apply keep_mk
    | with_reducible apply keepO_next
    | with_reducible apply keep_getD
    | with_reducible refine keep_fst ‹_ = (_, _)› ?_
    | with_reducible refine keep_of_some ‹_ = some _› ?_
    | with_reducible refine keep_snd ‹_ = (_, _)› ?_
    | split
    | dsimp only
    | with_reducible apply_assumption))

theorem State.takeCredits_keep {r0 : State} (s : State) (t stream n : Nat) (owner : Owner) (hs : Keep r0 s) :
    KeepOpt r0 (State.takeCredits s t stream n owner) := by
  unfold State.takeCredits; (repeat' (first
    | with_reducible assumption
    | intro _
    | with_reducible apply State.hold_keep
    | with_reducible apply keepOpt_some
    | with_reducible apply keepOpt_none
    | with_reducible refine keepOpt_bind ?_ ?_
    | with_reducible refine keepOpt_bindA ?_
    | with_reducible refine keepOpt_map ?_
    | with_reducible refine keep_fst ‹_ = (_, _)› ?_
    | with_reducible refine keep_of_some ‹_ = some _› ?_
    | with_reducible refine keep_snd ‹_ = (_, _)› ?_
    | split
    | dsimp only
    | with_reducible apply_assumption))

theorem State.takeAll_keep {r0 : State} (s : State) (stream n : Nat) (owner : Owner) (l0 : List Nat) (hs : Keep r0 s) :
    KeepOpt r0 (State.takeAll s stream n owner l0) := by
  revert hs
  fun_induction State.takeAll s stream n owner l0
  all_goals (intros; (repeat' (first
    | with_reducible assumption
    | intro _
    | with_reducible apply State.takeCredits_keep
    | with_reducible apply keepOpt_some
    | with_reducible apply keepOpt_none
    | with_reducible refine keepOpt_bind ?_ ?_
    | with_reducible refine keepOpt_bindA ?_
    | with_reducible refine keepOpt_map ?_
    | with_reducible refine keep_fst ‹_ = (_, _)› ?_
    | with_reducible refine keep_of_some ‹_ = some _› ?_
    | with_reducible refine keep_snd ‹_ = (_, _)› ?_
    | split
    | dsimp only
    | with_reducible apply_assumption)))

theorem State.creditsFor_keep {r0 : State} (s : State) (x : FabItem) (ts : List Nat) (hs : Keep r0 s) :
    KeepOpt r0 (State.creditsFor s x ts) := by
  unfold State.creditsFor; (repeat' (first
    | with_reducible assumption
    | intro _
    | with_reducible apply State.takeAll_keep
    | with_reducible apply keepOpt_some
    | with_reducible apply keepOpt_none
    | with_reducible refine keepOpt_bind ?_ ?_
    | with_reducible refine keepOpt_bindA ?_
    | with_reducible refine keepOpt_map ?_
    | dsimp only
    | with_reducible apply_assumption))

theorem State.addOps_keep {r0 : State} (s : State) (w : Owner) (more less : Nat) (hs : Keep r0 s) :
    Keep r0 (State.addOps s w more less) := by
  unfold State.addOps; (repeat' (first
    | with_reducible assumption
    | intro _
    | with_reducible apply State.modEng_keep
    | fail_if_no_progress with_reducible apply keep_mk
    | with_reducible refine keep_fst ‹_ = (_, _)› ?_
    | with_reducible refine keep_of_some ‹_ = some _› ?_
    | with_reducible refine keep_snd ‹_ = (_, _)› ?_
    | split
    | dsimp only
    | with_reducible apply_assumption))

theorem State.nextHead_keep {r0 : State} (s : State) (x : FabItem) (hs : Keep r0 s) :
    Keep r0 (State.nextHead s x) := by
  unfold State.nextHead; (repeat' (first
    | with_reducible assumption
    | intro _
    | with_reducible apply State.modEng_keep
    | fail_if_no_progress with_reducible apply keep_mk
    | with_reducible refine keep_fst ‹_ = (_, _)› ?_
    | with_reducible refine keep_of_some ‹_ = some _› ?_
    | with_reducible refine keep_snd ‹_ = (_, _)› ?_
    | split
    | dsimp only
    | with_reducible apply_assumption))

theorem State.lateErr_keep {r0 : State} (s : State) (w : Owner) (hs : Keep r0 s) :
    Keep r0 (State.lateErr s w) := by
  unfold State.lateErr; (repeat' (first
    | with_reducible assumption
    | intro _
    | with_reducible apply State.descFail_keep
    | with_reducible refine keep_fst ‹_ = (_, _)› ?_
    | with_reducible refine keep_of_some ‹_ = some _› ?_
    | with_reducible refine keep_snd ‹_ = (_, _)› ?_
    | split
    | dsimp only
    | with_reducible apply_assumption))

theorem State.mcgStall_keep {r0 : State} (s : State) (x : FabItem) (hs : Keep r0 s) :
    Keep r0 (State.mcgStall s x) := by
  unfold State.mcgStall; (repeat' (first
    | with_reducible assumption
    | intro _
    | with_reducible apply State.countUp_keep
    | split
    | dsimp only
    | with_reducible apply_assumption))

theorem State.sendOut_keep {r0 : State} (s : State) (x : FabItem) (p : Nat) (hs : Keep r0 s) :
    Keep r0 (State.sendOut s x p) := by
  unfold State.sendOut; (repeat' (first
    | with_reducible assumption
    | intro _
    | with_reducible apply State.failOp_keep
    | with_reducible apply State.addOps_keep
    | with_reducible apply State.creditsFor_keep
    | with_reducible apply State.mcgStall_keep
    | fail_if_no_progress with_reducible apply keep_mk
    | with_reducible refine keep_foldl ?_ ?_
    | with_reducible refine keep_foldl_fst ?_ ?_
    | with_reducible refine keep_foldl_snd ?_ ?_
    | with_reducible refine keep_fst ‹_ = (_, _)› ?_
    | with_reducible refine keep_of_some ‹_ = some _› ?_
    | with_reducible refine keep_snd ‹_ = (_, _)› ?_
    | split
    | dsimp only
    | with_reducible apply_assumption))

theorem State.issueOp_keep {r0 : State} (s : State) (u q : Nat) (hs : Keep r0 s) :
    Keep r0 (State.issueOp s u q) := by
  unfold State.issueOp; (repeat' (first
    | with_reducible assumption
    | intro _
    | with_reducible apply State.read_keep
    | with_reducible apply State.nextHead_keep
    | with_reducible apply State.descFail_keep
    | with_reducible apply State.sendOut_keep
    | with_reducible apply State.lateErr_keep
    | with_reducible apply State.creditsFor_keep
    | with_reducible apply State.countUp_keep
    | with_reducible apply State.addOps_keep
    | fail_if_no_progress with_reducible apply keep_mk
    | with_reducible apply keepO_next
    | with_reducible refine keep_fst ‹_ = (_, _)› ?_
    | with_reducible refine keep_of_some ‹_ = some _› ?_
    | with_reducible refine keep_snd ‹_ = (_, _)› ?_
    | split
    | dsimp only
    | with_reducible apply_assumption))

theorem execFabricOpIssue_keep {r0 : State} (unit : BitVec 8) (queue : BitVec 14) (s : State) (hs : Keep r0 s) :
    KeepO r0 (execFabricOpIssue unit queue s) := by
  unfold execFabricOpIssue; (repeat' (first
    | with_reducible assumption
    | intro _
    | with_reducible apply State.issueOp_keep
    | with_reducible apply keepO_next
    | dsimp only
    | with_reducible apply_assumption))

theorem State.modHead_keep {r0 : State} (s : State) (u q : Nat) (f : FabItem → FabItem) (hs : Keep r0 s) :
    Keep r0 (State.modHead s u q f) := by
  unfold State.modHead; (repeat' (first
    | with_reducible assumption
    | intro _
    | fail_if_no_progress with_reducible apply keep_mk
    | with_reducible refine keep_fst ‹_ = (_, _)› ?_
    | with_reducible refine keep_of_some ‹_ = some _› ?_
    | with_reducible refine keep_snd ‹_ = (_, _)› ?_
    | split
    | dsimp only
    | with_reducible apply_assumption))

theorem execStall_keep {r0 : State} (unit : BitVec 8) (queue : BitVec 14) (s : State) (hs : Keep r0 s) :
    KeepO r0 (execStall unit queue s) := by
  unfold execStall; (repeat' (first
    | with_reducible assumption
    | intro _
    | with_reducible apply State.passNclk_keep
    | with_reducible apply State.modHead_keep
    | with_reducible apply State.setFld_keep
    | with_reducible apply State.event_keep
    | fail_if_no_progress with_reducible apply keep_mk
    | with_reducible apply keepO_next
    | with_reducible refine keep_fst ‹_ = (_, _)› ?_
    | with_reducible refine keep_of_some ‹_ = some _› ?_
    | with_reducible refine keep_snd ‹_ = (_, _)› ?_
    | split
    | dsimp only
    | with_reducible apply_assumption))

theorem execMcastSlow_keep {r0 : State} (group : Fin 32) (s : State) (hs : Keep r0 s) :
    KeepO r0 (execMcastSlow group s) := by
  unfold execMcastSlow; (repeat' (first
    | with_reducible assumption
    | intro _
    | with_reducible apply State.passNclk_keep
    | with_reducible apply State.setFld_keep
    | with_reducible apply keepO_next
    | with_reducible refine keep_fst ‹_ = (_, _)› ?_
    | with_reducible refine keep_of_some ‹_ = some _› ?_
    | with_reducible refine keep_snd ‹_ = (_, _)› ?_
    | split
    | dsimp only
    | with_reducible apply_assumption))

theorem execPriorityAging_keep {r0 : State} (unit : BitVec 8) (queue : BitVec 14) (s : State) (hs : Keep r0 s) :
    KeepO r0 (execPriorityAging unit queue s) := by
  unfold execPriorityAging; (repeat' (first
    | with_reducible assumption
    | intro _
    | with_reducible apply State.passNclk_keep
    | with_reducible apply State.modHead_keep
    | fail_if_no_progress with_reducible apply keep_mk
    | with_reducible apply keepO_next
    | with_reducible refine keep_fst ‹_ = (_, _)› ?_
    | with_reducible refine keep_of_some ‹_ = some _› ?_
    | with_reducible refine keep_snd ‹_ = (_, _)› ?_
    | split
    | dsimp only
    | with_reducible apply_assumption))

theorem execClockWake_keep {r0 : State} (unit : BitVec 8) (st : Fin 4) (s : State) (hs : Keep r0 s) :
    KeepO r0 (execClockWake unit st s) := by
  unfold execClockWake; (repeat' (first
    | with_reducible assumption
    | intro _
    | with_reducible apply State.wakeEng_keep
    | with_reducible apply State.wakeStack_keep
    | with_reducible apply keepO_next
    | with_reducible refine keep_fst ‹_ = (_, _)› ?_
    | with_reducible refine keep_of_some ‹_ = some _› ?_
    | with_reducible refine keep_snd ‹_ = (_, _)› ?_
    | split
    | dsimp only
    | with_reducible apply_assumption))

theorem State.winMiss_keep {r0 : State} (s : State) (o : Nat) (hs : Keep r0 s) :
    Keep r0 (State.winMiss s o) := by
  unfold State.winMiss; (repeat' (first
    | with_reducible assumption
    | intro _
    | with_reducible apply State.setFld_keep
    | with_reducible apply State.setReg64_keep
    | split
    | dsimp only
    | with_reducible apply_assumption))

theorem State.winFail_keep {r0 : State} (s : State) (o c code a : Nat) (hs : Keep r0 s) :
    Keep r0 (State.winFail s o c code a) := by
  unfold State.winFail; (repeat' (first
    | with_reducible assumption
    | intro _
    | with_reducible apply State.recordErr_keep
    | with_reducible apply State.winMiss_keep
    | dsimp only
    | with_reducible apply_assumption))

theorem State.winRead_keep {r0 : State} (s : State) (o n : Nat) (hs : Keep r0 s) :
    Keep r0 (State.winRead s o n).1 := by
  unfold State.winRead; (repeat' (first
    | with_reducible assumption
    | intro _
    | with_reducible apply State.winMiss_keep
    | with_reducible apply State.winFail_keep
    | with_reducible apply State.reachAt_keep
    | with_reducible apply State.targetRead_keep
    | with_reducible refine keep_fst ‹_ = (_, _)› ?_
    | with_reducible refine keep_of_some ‹_ = some _› ?_
    | with_reducible refine keep_snd ‹_ = (_, _)› ?_
    | split
    | dsimp only
    | with_reducible apply_assumption))

theorem State.winWrite_keep {r0 : State} (s : State) (o : Nat) (b : List Byte) (hs : Keep r0 s) :
    Keep r0 (State.winWrite s o b) := by
  unfold State.winWrite; (repeat' (first
    | with_reducible assumption
    | intro _
    | with_reducible apply State.winMiss_keep
    | with_reducible apply State.setFld_keep
    | with_reducible apply State.winFail_keep
    | with_reducible apply State.land_keep
    | with_reducible refine keep_fst ‹_ = (_, _)› ?_
    | with_reducible refine keep_of_some ‹_ = some _› ?_
    | with_reducible refine keep_snd ‹_ = (_, _)› ?_
    | split
    | dsimp only
    | with_reducible apply_assumption))

theorem execWindowRead_keep {r0 : State} (o : BitVec 64) (len : BitVec 13) (s : State) (hs : Keep r0 s) :
    KeepO r0 (execWindowRead o len s) := by
  unfold execWindowRead; (repeat' (first
    | with_reducible assumption
    | intro _
    | with_reducible apply State.winRead_keep
    | fail_if_no_progress with_reducible apply keep_mk
    | with_reducible apply keepO_next
    | with_reducible refine keep_foldl ?_ ?_
    | with_reducible refine keep_foldl_fst ?_ ?_
    | with_reducible refine keep_foldl_snd ?_ ?_
    | split
    | dsimp only
    | with_reducible apply_assumption))

theorem execWindowWrite_keep {r0 : State} (o : BitVec 64) (data : List Byte) (s : State) (hs : Keep r0 s) :
    KeepO r0 (execWindowWrite o data s) := by
  unfold execWindowWrite; (repeat' (first
    | with_reducible assumption
    | intro _
    | with_reducible apply State.winWrite_keep
    | with_reducible apply keepO_next
    | with_reducible refine keep_foldl ?_ ?_
    | with_reducible refine keep_foldl_fst ?_ ?_
    | with_reducible refine keep_foldl_snd ?_ ?_
    | split
    | dsimp only
    | with_reducible apply_assumption))

end Sys2Proof.Machine
end

