-- ==== Sys2Proof/Laws/KeepPower.lean ====
section
/-! SUPPORT. What the operations and meanings of Machine/Power keep (Laws/Keep). -/
namespace Sys2Proof.Machine

set_option linter.unusedTactic false
set_option linter.unreachableTactic false

theorem State.modPower_keep {r0 : State} (s : State) (f : Power → Power) (hs : Keep r0 s) :
    Keep r0 (State.modPower s f) := by
  unfold State.modPower; (repeat' (first
    | with_reducible assumption
    | intro _
    | fail_if_no_progress with_reducible apply keep_mk
    | dsimp only
    | with_reducible apply_assumption))

theorem State.resetRegs_keep {r0 : State} (s : State) (cov : Nat → Bool) (hs : Keep r0 s) :
    Keep r0 (State.resetRegs s cov) := by
  unfold State.resetRegs; extract_lets s1 ps s2
  have h1 : Keep r0 s1 := ⟨hs.pending, hs.fuse, hs.mem, hs.host, fun x => Sparse.wf_clear _ _ _ (hs.regs x), hs.ecc⟩
  have h2 : Keep r0 s2 := keep_foldl (fun _ _ h => State.setFld_keep _ _ _ _ _ h) h1
  exact keep_foldl (fun _ _ h => State.setFld_keep _ _ _ _ _ h) h2

theorem State.zeroMem_keep {r0 : State} (s : State) (cov keep : Nat → Bool) (hs : Keep r0 s) :
    Keep r0 (State.zeroMem s cov keep) := by
  exact ⟨hs.pending, hs.fuse, fun x => Sparse.wf_clear _ _ _ (hs.mem x), hs.host, hs.regs, fun x => Sparse.wf_clear _ _ _ (hs.ecc x)⟩

theorem State.freshEng_keep {r0 : State} (s : State) (e : Fin 8) (p : EngPower) (hs : Keep r0 s) :
    Keep r0 (State.freshEng s e p) := by
  unfold State.freshEng; (repeat' (first
    | with_reducible assumption
    | intro _
    | with_reducible apply State.zeroMem_keep
    | with_reducible apply State.resetRegs_keep
    | with_reducible apply State.modEng_keep
    | fail_if_no_progress with_reducible apply keep_mk
    | with_reducible apply keepO_next
    | dsimp only
    | with_reducible apply_assumption))

theorem State.leaveIdle_keep {r0 : State} (s : State) (hs : Keep r0 s) :
    Keep r0 (State.leaveIdle s) := by
  unfold State.leaveIdle; (repeat' (first
    | with_reducible assumption
    | intro _
    | with_reducible apply State.modPower_keep
    | with_reducible apply State.wakeMask_keep
    | fail_if_no_progress with_reducible apply keep_mk
    | split
    | dsimp only
    | with_reducible apply_assumption))

theorem State.enterIdle_keep {r0 : State} (s : State) (hs : Keep r0 s) :
    Keep r0 (State.enterIdle s) := by
  unfold State.enterIdle; (repeat' (first
    | with_reducible assumption
    | intro _
    | with_reducible apply State.engOff_keep
    | with_reducible apply State.modPower_keep
    | fail_if_no_progress with_reducible apply keep_mk
    | with_reducible refine keep_foldl ?_ ?_
    | with_reducible refine keep_foldl_fst ?_ ?_
    | with_reducible refine keep_foldl_snd ?_ ?_
    | dsimp only
    | with_reducible apply_assumption))

theorem State.capTail_keep {r0 : State} (s : State) (c : Cmd) (hs : Keep r0 s) :
    Keep r0 (State.capTail s c) := by
  unfold State.capTail; (repeat' (first
    | with_reducible assumption
    | intro _
    | with_reducible apply State.setFld_keep
    | with_reducible apply State.leaveIdle_keep
    | with_reducible apply State.enterIdle_keep
    | split
    | dsimp only
    | with_reducible apply_assumption))

theorem State.flushPair_keep {r0 : State} (s : State) (p : Nat) (l0 : Nat) (hs : Keep r0 s) :
    Keep r0 (State.flushPair s p l0) := by
  revert hs
  fun_induction State.flushPair s p l0
  all_goals (intros; (repeat' (first
    | with_reducible assumption
    | intro _
    | with_reducible apply State.writeCompletion_keep
    | with_reducible refine keep_fst ‹_ = (_, _)› ?_
    | with_reducible refine keep_of_some ‹_ = some _› ?_
    | with_reducible refine keep_snd ‹_ = (_, _)› ?_
    | split
    | dsimp only
    | with_reducible apply_assumption)))

theorem State.standby_keep {r0 : State} (s t : State) (c : Cmd) (hs : Keep r0 s) (ht : Keep r0 t) :
    Keep r0 (State.standby s t c) := by
  unfold State.standby; (repeat' (first
    | with_reducible assumption
    | intro _
    | with_reducible apply State.flushPair_keep
    | with_reducible apply State.modPower_keep
    | fail_if_no_progress with_reducible apply keep_mk
    | split
    | dsimp only
    | with_reducible apply_assumption))

theorem State.killForCap_keep {r0 : State} (s : State) (hs : Keep r0 s) :
    Keep r0 (State.killForCap s) := by
  unfold State.killForCap; (repeat' (first
    | with_reducible assumption
    | intro _
    | with_reducible apply State.killCmd_keep
    | with_reducible refine keep_foldl ?_ ?_
    | with_reducible refine keep_foldl_fst ?_ ?_
    | with_reducible refine keep_foldl_snd ?_ ?_
    | dsimp only
    | with_reducible apply_assumption))

theorem State.powerCap_keep {r0 : State} (c : Cmd) (s : State) (hs : Keep r0 s) :
    Keep r0 (State.powerCap c s) := by
  unfold State.powerCap; (repeat' (first
    | with_reducible assumption
    | intro _
    | with_reducible apply Cmd.ends_keep
    | with_reducible apply State.modCmd_keep
    | with_reducible apply State.killForCap_keep
    | with_reducible apply State.modPower_keep
    | with_reducible apply State.standby_keep
    | with_reducible apply State.finish_keep
    | with_reducible apply State.capTail_keep
    | fail_if_no_progress with_reducible apply keep_mk
    | split
    | dsimp only
    | with_reducible apply_assumption))

theorem execPowerCap_keep {r0 : State} (pair : BitVec 16) (s : State) (hs : Keep r0 s) :
    KeepO r0 (execPowerCap pair s) := by
  unfold execPowerCap; (repeat' (first
    | with_reducible assumption
    | intro _
    | with_reducible apply onCmd_keep
    | with_reducible apply State.powerCap_keep
    | dsimp only
    | with_reducible apply_assumption))

theorem State.capDone_keep {r0 : State} (s : State) (hs : Keep r0 s) :
    Keep r0 (State.capDone s) := by
  unfold State.capDone; (repeat' (first
    | with_reducible assumption
    | intro _
    | with_reducible apply State.modPower_keep
    | fail_if_no_progress with_reducible apply keep_mk
    | dsimp only
    | with_reducible apply_assumption))

theorem execCapSwitch_keep {r0 : State} (quiet : Bool) (s : State) (hs : Keep r0 s) :
    KeepO r0 (execCapSwitch quiet s) := by
  unfold execCapSwitch; (repeat' (first
    | with_reducible assumption
    | intro _
    | with_reducible apply State.capDone_keep
    | with_reducible apply State.finish_keep
    | with_reducible apply State.modPower_keep
    | with_reducible apply State.standby_keep
    | with_reducible apply State.capTail_keep
    | fail_if_no_progress with_reducible apply keep_mk
    | with_reducible apply keepO_next
    | with_reducible refine keep_fst ‹_ = (_, _)› ?_
    | with_reducible refine keep_of_some ‹_ = some _› ?_
    | with_reducible refine keep_snd ‹_ = (_, _)› ?_
    | split
    | dsimp only
    | with_reducible apply_assumption))

theorem execPowerWindow_keep {r0 : State} (watts : BitVec 16) (s : State) (hs : Keep r0 s) :
    KeepO r0 (execPowerWindow watts s) := by
  unfold execPowerWindow; (repeat' (first
    | with_reducible assumption
    | intro _
    | with_reducible apply State.setFld_keep
    | with_reducible apply State.modPower_keep
    | fail_if_no_progress with_reducible apply keep_mk
    | with_reducible apply keepO_next
    | split
    | dsimp only
    | with_reducible apply_assumption))

theorem execEIdleEntry_keep {r0 : State} (e : Fin 8) (s : State) (hs : Keep r0 s) :
    KeepO r0 (execEIdleEntry e s) := by
  unfold execEIdleEntry; (repeat' (first
    | with_reducible assumption
    | intro _
    | with_reducible apply State.passAclk_keep
    | with_reducible apply State.modEng_keep
    | fail_if_no_progress with_reducible apply keep_mk
    | with_reducible apply keepO_next
    | split
    | dsimp only
    | with_reducible apply_assumption))

theorem execPowerUpGrant_keep {r0 : State} (s : State) (hs : Keep r0 s) :
    KeepO r0 (execPowerUpGrant s) := by
  unfold execPowerUpGrant; (repeat' (first
    | with_reducible assumption
    | intro _
    | with_reducible apply State.modPower_keep
    | with_reducible apply State.freshEng_keep
    | with_reducible apply State.partCreate_keep
    | fail_if_no_progress with_reducible apply keep_mk
    | with_reducible apply keepO_next
    | with_reducible refine keep_foldl ?_ ?_
    | with_reducible refine keep_foldl_fst ?_ ?_
    | with_reducible refine keep_foldl_snd ?_ ?_
    | with_reducible refine keep_fst ‹_ = (_, _)› ?_
    | with_reducible refine keep_of_some ‹_ = some _› ?_
    | with_reducible refine keep_snd ‹_ = (_, _)› ?_
    | split
    | dsimp only
    | with_reducible apply_assumption))

theorem execDIdleExit_keep {r0 : State} (s : State) (hs : Keep r0 s) :
    KeepO r0 (execDIdleExit s) := by
  unfold execDIdleExit; (repeat' (first
    | with_reducible assumption
    | intro _
    | with_reducible apply State.leaveIdle_keep
    | with_reducible apply keepO_next
    | split
    | dsimp only
    | with_reducible apply_assumption))

theorem execSelfRefreshReturn_keep {r0 : State} (st : Fin 4) (s : State) (hs : Keep r0 s) :
    KeepO r0 (execSelfRefreshReturn st s) := by
  unfold execSelfRefreshReturn; (repeat' (first
    | with_reducible assumption
    | intro _
    | with_reducible apply State.modPower_keep
    | fail_if_no_progress with_reducible apply keep_mk
    | with_reducible apply keepO_next
    | with_reducible refine keep_fst ‹_ = (_, _)› ?_
    | with_reducible refine keep_of_some ‹_ = some _› ?_
    | with_reducible refine keep_snd ‹_ = (_, _)› ?_
    | split
    | dsimp only
    | with_reducible apply_assumption))

theorem State.flushAll_keep {r0 : State} (s : State) (hs : Keep r0 s) :
    Keep r0 (State.flushAll s) := by
  unfold State.flushAll; (repeat' (first
    | with_reducible assumption
    | intro _
    | with_reducible apply State.flushPair_keep
    | with_reducible refine keep_foldl ?_ ?_
    | with_reducible refine keep_foldl_fst ?_ ?_
    | with_reducible refine keep_foldl_snd ?_ ?_
    | dsimp only
    | with_reducible apply_assumption))

theorem execPerstAssert_keep {r0 : State} (s : State) (hs : Keep r0 s) :
    KeepO r0 (execPerstAssert s) := by
  unfold execPerstAssert
  exact keepO_next (State.modPower_keep _ _ (keep_regs hs _ (Sparse.wf_clear _ _ _)))

theorem execPerstRelease_keep {r0 : State} (s : State) (hs : Keep r0 s) :
    KeepO r0 (execPerstRelease s) := by
  unfold execPerstRelease; (repeat' (first
    | with_reducible assumption
    | intro _
    | with_reducible apply State.modPower_keep
    | fail_if_no_progress with_reducible apply keep_mk
    | with_reducible apply keepO_next
    | dsimp only
    | with_reducible apply_assumption))

theorem execBusMasterEnable_keep {r0 : State} (s : State) (hs : Keep r0 s) :
    KeepO r0 (execBusMasterEnable s) := by
  unfold execBusMasterEnable; (repeat' (first
    | with_reducible assumption
    | intro _
    | with_reducible apply State.modPower_keep
    | with_reducible apply State.flushAll_keep
    | with_reducible apply State.msix_keep
    | fail_if_no_progress with_reducible apply keep_mk
    | with_reducible apply keepO_next
    | with_reducible refine keep_foldl ?_ ?_
    | with_reducible refine keep_foldl_fst ?_ ?_
    | with_reducible refine keep_foldl_snd ?_ ?_
    | split
    | dsimp only
    | with_reducible apply_assumption))

end Sys2Proof.Machine
end

