-- ==== Sys2Proof/Laws/KeepImage.lean ====
section
/-! SUPPORT. What the operations and meanings of Machine/Image keep (Laws/Keep). -/
namespace Sys2Proof.Machine

set_option linter.unusedTactic false
set_option linter.unreachableTactic false

theorem State.acceptImage_keep {r0 : State} (s : State) (b : List Byte) (advance : Bool) (hs : Keep r0 s) :
    Keep r0 (State.acceptImage s b advance) := by
  cases advance with
  | false => exact ⟨hs.pending, hs.fuse, hs.mem, hs.host, hs.regs, hs.ecc⟩
  | true =>
    exact ⟨hs.pending, hs.fuse.trans ⟨rfl, rfl, rfl, rfl, Nat.le_max_left _ _⟩, hs.mem, hs.host, hs.regs, hs.ecc⟩

theorem State.enterSafe_keep {r0 : State} (s : State) (code : Nat) (hs : Keep r0 s) :
    Keep r0 (State.enterSafe s code) := by
  unfold State.enterSafe; (repeat' (first
    | with_reducible assumption
    | intro _
    | with_reducible apply State.setDev_keep
    | with_reducible apply State.setRegN_keep
    | with_reducible apply State.setFld_keep
    | dsimp only
    | with_reducible apply_assumption))

theorem State.runImage_keep {r0 : State} (s : State) (i : Image) (hs : Keep r0 s) :
    Keep r0 (State.runImage s i) := by
  unfold State.runImage; (repeat' (first
    | with_reducible assumption
    | intro _
    | with_reducible apply State.setDev_keep
    | with_reducible apply State.setRegN_keep
    | with_reducible apply State.setFld_keep
    | fail_if_no_progress with_reducible apply keep_mk
    | split
    | dsimp only
    | with_reducible apply_assumption))

theorem State.bootErr_keep {r0 : State} (s : State) (cause : Nat) (hs : Keep r0 s) :
    Keep r0 (State.bootErr s cause) := by
  unfold State.bootErr; (repeat' (first
    | with_reducible assumption
    | intro _
    | with_reducible apply State.setRegN_keep
    | dsimp only
    | with_reducible apply_assumption))

theorem State.selfTest_keep {r0 : State} (s : State) (kind : Nat) (t : Tests) (hs : Keep r0 s) :
    Keep r0 (State.selfTest s kind t) := by
  unfold State.selfTest; (repeat' (first
    | with_reducible assumption
    | intro _
    | with_reducible apply State.setRegN_keep
    | with_reducible refine keep_fst ‹_ = (_, _)› ?_
    | with_reducible refine keep_of_some ‹_ = some _› ?_
    | with_reducible refine keep_snd ‹_ = (_, _)› ?_
    | split
    | dsimp only
    | with_reducible apply_assumption))

end Sys2Proof.Machine
end

