-- ==== Sys2Proof/Laws/KeepReset.lean ====
section
/-! SUPPORT. What the operations and meanings of Machine/Reset keep (Laws/Keep). -/
namespace Sys2Proof.Machine

set_option linter.unusedTactic false
set_option linter.unreachableTactic false

theorem State.rstMark_keep {r0 : State} (s : State) (kind src target : Nat) (hs : Keep r0 s) :
    Keep r0 (State.rstMark s kind src target) := by
  unfold State.rstMark; (repeat' (first
    | with_reducible assumption
    | intro _
    | with_reducible apply State.setRegN_keep
    | with_reducible apply State.countUp_keep
    | dsimp only
    | with_reducible apply_assumption))

theorem State.dropTrials_keep {r0 : State} (s : State) (es : List (Fin 8)) (hs : Keep r0 s) :
    Keep r0 (State.dropTrials s es) := by
  unfold State.dropTrials; (repeat' (first
    | with_reducible assumption
    | intro _
    | with_reducible apply State.clearTrial_keep
    | with_reducible refine keep_foldl ?_ ?_
    | with_reducible refine keep_foldl_fst ?_ ?_
    | with_reducible refine keep_foldl_snd ?_ ?_
    | split
    | dsimp only
    | with_reducible apply_assumption))

theorem State.restartCmds_keep {r0 : State} (s : State) (kind : Nat) (es : List (Fin 8)) (hs : Keep r0 s) :
    Keep r0 (State.restartCmds s kind es) := by
  unfold State.restartCmds; (repeat' (first
    | with_reducible assumption
    | intro _
    | with_reducible apply State.dropTrials_keep
    | fail_if_no_progress with_reducible apply keep_mk
    | split
    | dsimp only
    | with_reducible apply_assumption))

theorem State.stopCmd_keep {r0 : State} (s : State) (es : List (Fin 8)) (id : Nat × Nat) (hs : Keep r0 s) :
    Keep r0 (State.stopCmd s es id) := by
  unfold State.stopCmd; (repeat' (first
    | with_reducible assumption
    | intro _
    | with_reducible apply State.killEng_keep
    | with_reducible apply State.modEng_keep
    | with_reducible apply State.settle_keep
    | fail_if_no_progress with_reducible apply keep_mk
    | with_reducible refine keep_foldl ?_ ?_
    | with_reducible refine keep_foldl_fst ?_ ?_
    | with_reducible refine keep_foldl_snd ?_ ?_
    | with_reducible apply keep_getD
    | split
    | dsimp only
    | with_reducible apply_assumption))

theorem State.stopCmds_keep {r0 : State} (s : State) (es : List (Fin 8)) (hs : Keep r0 s) :
    Keep r0 (State.stopCmds s es) := by
  unfold State.stopCmds; (repeat' (first
    | with_reducible assumption
    | intro _
    | with_reducible apply State.stopCmd_keep
    | with_reducible refine keep_foldl ?_ ?_
    | with_reducible refine keep_foldl_fst ?_ ?_
    | with_reducible refine keep_foldl_snd ?_ ?_
    | dsimp only
    | with_reducible apply_assumption))

theorem State.resetFab_keep {r0 : State} (s : State) (cov : Nat → Bool) (hs : Keep r0 s) :
    Keep r0 (State.resetFab s cov) := by
  unfold State.resetFab; (repeat' (first
    | with_reducible assumption
    | intro _
    | with_reducible apply State.undefAll_keep
    | with_reducible apply State.failItem_keep
    | fail_if_no_progress with_reducible apply keep_mk
    | with_reducible refine keep_foldl ?_ ?_
    | with_reducible refine keep_foldl_fst ?_ ?_
    | with_reducible refine keep_foldl_snd ?_ ?_
    | split
    | dsimp only
    | with_reducible apply_assumption))

theorem State.resetRadio_keep {r0 : State} (s : State) (es : List (Fin 8)) (hs : Keep r0 s) :
    Keep r0 (State.resetRadio s es) := by
  unfold State.resetRadio; (repeat' (first
    | with_reducible assumption
    | intro _
    | fail_if_no_progress with_reducible apply keep_mk
    | with_reducible refine keep_fst ‹_ = (_, _)› ?_
    | with_reducible refine keep_of_some ‹_ = some _› ?_
    | with_reducible refine keep_snd ‹_ = (_, _)› ?_
    | split
    | dsimp only
    | with_reducible apply_assumption))

theorem State.endLeft_keep {r0 : State} (s : State) (es : List (Fin 8)) (hs : Keep r0 s) :
    Keep r0 (State.endLeft s es) := by
  unfold State.endLeft; (repeat' (first
    | with_reducible assumption
    | intro _
    | with_reducible apply State.endDl_keep
    | with_reducible refine keep_foldl ?_ ?_
    | with_reducible refine keep_foldl_fst ?_ ?_
    | with_reducible refine keep_foldl_snd ?_ ?_
    | dsimp only
    | with_reducible apply_assumption))

theorem State.dropReplayed_keep {r0 : State} (s : State) (es : List (Fin 8)) (hs : Keep r0 s) :
    Keep r0 (State.dropReplayed s es) := by
  unfold State.dropReplayed; (repeat' (first
    | with_reducible assumption
    | intro _
    | fail_if_no_progress with_reducible apply keep_mk
    | split
    | dsimp only
    | with_reducible apply_assumption))

theorem State.undefJob_keep {r0 : State} (s : State) (j : Job) (hs : Keep r0 s) :
    Keep r0 (State.undefJob s j) := by
  unfold State.undefJob; (repeat' (first
    | with_reducible assumption
    | intro _
    | with_reducible apply State.draw_keep
    | with_reducible apply State.modJob_keep
    | fail_if_no_progress with_reducible apply keep_mk
    | dsimp only
    | with_reducible apply_assumption))

theorem State.undefPart_keep {r0 : State} (s : State) (p : Fin 8) (hs : Keep r0 s) :
    Keep r0 (State.undefPart s p) := by
  unfold State.undefPart; (repeat' (first
    | with_reducible assumption
    | intro _
    | with_reducible apply State.undefJob_keep
    | with_reducible apply State.undef_keep
    | with_reducible refine keep_foldl ?_ ?_
    | with_reducible refine keep_foldl_fst ?_ ?_
    | with_reducible refine keep_foldl_snd ?_ ?_
    | with_reducible refine keep_fst ‹_ = (_, _)› ?_
    | with_reducible refine keep_of_some ‹_ = some _› ?_
    | with_reducible refine keep_snd ‹_ = (_, _)› ?_
    | split
    | dsimp only
    | with_reducible apply_assumption))

theorem State.abortReplay_keep {r0 : State} (s : State) (es : List (Fin 8)) (hs : Keep r0 s) :
    Keep r0 (State.abortReplay s es) := by
  unfold State.abortReplay; (repeat' (first
    | with_reducible assumption
    | intro _
    | with_reducible apply State.finish_keep
    | with_reducible apply State.setFld_keep
    | with_reducible apply State.undefPart_keep
    | fail_if_no_progress with_reducible apply keep_mk
    | with_reducible refine keep_foldl ?_ ?_
    | with_reducible refine keep_foldl_fst ?_ ?_
    | with_reducible refine keep_foldl_snd ?_ ?_
    | with_reducible refine keep_fst ‹_ = (_, _)› ?_
    | with_reducible refine keep_of_some ‹_ = some _› ?_
    | with_reducible refine keep_snd ‹_ = (_, _)› ?_
    | split
    | dsimp only
    | with_reducible apply_assumption))

theorem State.dieStop_keep {r0 : State} (s : State) (hs : Keep r0 s) :
    Keep r0 (State.dieStop s) := by
  unfold State.dieStop; (repeat' (first
    | with_reducible assumption
    | intro _
    | with_reducible apply State.fctUndef_keep
    | with_reducible apply State.linkDown_keep
    | with_reducible refine keep_foldl ?_ ?_
    | with_reducible refine keep_foldl_fst ?_ ?_
    | with_reducible refine keep_foldl_snd ?_ ?_
    | with_reducible refine keep_fst ‹_ = (_, _)› ?_
    | with_reducible refine keep_of_some ‹_ = some _› ?_
    | with_reducible refine keep_snd ‹_ = (_, _)› ?_
    | split
    | dsimp only
    | with_reducible apply_assumption))

theorem State.resetModem_keep {r0 : State} (s : State) (hs : Keep r0 s) :
    Keep r0 (State.resetModem s) := by
  unfold State.resetModem; (repeat' (first
    | with_reducible assumption
    | intro _
    | with_reducible apply State.dropBursts_keep
    | fail_if_no_progress with_reducible apply keep_mk
    | dsimp only
    | with_reducible apply_assumption))

theorem State.dieClear_keep {r0 : State} (s : State) (hbm : Bool) (hs : Keep r0 s) :
    Keep r0 (State.dieClear s hbm) := by
  unfold State.dieClear; (repeat' (first
    | with_reducible assumption
    | intro _
    | with_reducible apply State.zeroMem_keep
    | with_reducible apply State.resetModem_keep
    | with_reducible apply State.setBrv_keep
    | fail_if_no_progress with_reducible apply keep_mk
    | dsimp only
    | with_reducible apply_assumption))

theorem State.resetClock_keep {r0 : State} (s : State) (limit : Nat) (die : Bool) (hs : Keep r0 s) :
    Keep r0 (State.resetClock s limit die) := by
  unfold State.resetClock; (repeat' (first
    | with_reducible assumption
    | intro _
    | with_reducible apply State.draw_keep
    | with_reducible apply State.setFld_keep
    | fail_if_no_progress with_reducible apply keep_mk
    | split
    | dsimp only
    | with_reducible apply_assumption))

theorem State.applyReset_keep {r0 : State} (s : State) (kind : Nat) (es : List (Fin 8)) (hbm : Bool) (hs : Keep r0 s) :
    Keep r0 (State.applyReset s kind es hbm) := by
  unfold State.applyReset; (repeat' (first
    | with_reducible assumption
    | intro _
    | with_reducible apply State.dropReplayed_keep
    | with_reducible apply State.restartCmds_keep
    | with_reducible apply State.stopCmds_keep
    | with_reducible apply State.abortUnits_keep
    | with_reducible apply State.dieStop_keep
    | with_reducible apply State.resetFab_keep
    | with_reducible apply State.resetRadio_keep
    | with_reducible apply State.resetRegs_keep
    | with_reducible apply State.dieClear_keep
    | with_reducible apply State.freshEng_keep
    | with_reducible refine keep_foldl ?_ ?_
    | with_reducible refine keep_foldl_fst ?_ ?_
    | with_reducible refine keep_foldl_snd ?_ ?_
    | split
    | dsimp only
    | with_reducible apply_assumption))

theorem State.resetValue_keep {r0 : State} (s : State) (id : Option (Nat × Nat)) (n : Nat) (hs : Keep r0 s) :
    Keep r0 (State.resetValue s id n) := by
  unfold State.resetValue; (repeat' (first
    | with_reducible assumption
    | intro _
    | fail_if_no_progress with_reducible apply keep_mk
    | split
    | dsimp only
    | with_reducible apply_assumption))

theorem State.recover_keep {r0 : State} (s : State) (r : Recovery) (es : List (Fin 8)) (hs : Keep r0 s) :
    Keep r0 (State.recover s r es) := by
  unfold State.recover; (repeat' (first
    | with_reducible assumption
    | intro _
    | with_reducible apply State.modPower_keep
    | with_reducible apply State.modLedger_keep
    | with_reducible apply State.endLeft_keep
    | with_reducible apply State.abortReplay_keep
    | with_reducible apply State.resetValue_keep
    | with_reducible apply State.flushAll_keep
    | with_reducible apply State.ledgerCommit_keep
    | fail_if_no_progress with_reducible apply keep_mk
    | split
    | dsimp only
    | with_reducible apply_assumption))

theorem State.anchorClear_keep {r0 : State} (s : State) (hs : Keep r0 s) :
    Keep r0 (State.anchorClear s) := by
  unfold State.anchorClear; (repeat' (first
    | with_reducible assumption
    | intro _
    | with_reducible apply State.setRegN_keep
    | with_reducible apply State.modLedger_keep
    | with_reducible apply State.modPower_keep
    | fail_if_no_progress with_reducible apply keep_mk
    | with_reducible refine keep_foldl ?_ ?_
    | with_reducible refine keep_foldl_fst ?_ ?_
    | with_reducible refine keep_foldl_snd ?_ ?_
    | dsimp only
    | with_reducible apply_assumption))

theorem State.boot_keep {r0 : State} (s : State) (kind : Nat) (t : Tests) (r : Recovery) (hs : Keep r0 s) :
    Keep r0 (State.boot s kind t r) := by
  unfold State.boot; (repeat' (first
    | with_reducible assumption
    | intro _
    | with_reducible apply State.selfTest_keep
    | with_reducible apply State.enterSafe_keep
    | with_reducible apply State.modPower_keep
    | with_reducible apply State.runImage_keep
    | with_reducible apply State.recover_keep
    | with_reducible apply State.bootErr_keep
    | fail_if_no_progress with_reducible apply keep_mk
    | with_reducible refine keep_fst ‹_ = (_, _)› ?_
    | with_reducible refine keep_of_some ‹_ = some _› ?_
    | with_reducible refine keep_snd ‹_ = (_, _)› ?_
    | split
    | dsimp only
    | with_reducible apply_assumption))

theorem State.warmReset_keep {r0 : State} (s : State) (kind src : Nat) (t : Tests) (id : Option (Nat × Nat)) (hs : Keep r0 s) :
    Keep r0 (State.warmReset s kind src t id) := by
  unfold State.warmReset; (repeat' (first
    | with_reducible assumption
    | intro _
    | with_reducible apply State.rstMark_keep
    | with_reducible apply State.applyReset_keep
    | with_reducible apply State.anchorClear_keep
    | with_reducible apply State.modLedger_keep
    | with_reducible apply State.retest_keep
    | with_reducible apply State.resetClock_keep
    | with_reducible apply State.boot_keep
    | split
    | dsimp only
    | with_reducible apply_assumption))

theorem State.computeReset_keep {r0 : State} (s : State) (src : Nat) (t : Tests) (id : Option (Nat × Nat)) (hs : Keep r0 s) :
    Keep r0 (State.computeReset s src t id) := by
  unfold State.computeReset; (repeat' (first
    | with_reducible assumption
    | intro _
    | with_reducible apply State.rstMark_keep
    | with_reducible apply State.applyReset_keep
    | with_reducible apply State.modPower_keep
    | with_reducible apply State.resetClock_keep
    | with_reducible apply State.boot_keep
    | fail_if_no_progress with_reducible apply keep_mk
    | dsimp only
    | with_reducible apply_assumption))

theorem State.holdDie_keep {r0 : State} (s : State) (hs : Keep r0 s) :
    Keep r0 (State.holdDie s) := by
  unfold State.holdDie; (repeat' (first
    | with_reducible assumption
    | intro _
    | with_reducible apply State.applyReset_keep
    | with_reducible apply State.modPower_keep
    | fail_if_no_progress with_reducible apply keep_mk
    | dsimp only
    | with_reducible apply_assumption))

theorem execUcieRetrainEnd_keep {r0 : State} (ok : Bool) (tests : Tests) (s : State) (hs : Keep r0 s) :
    KeepO r0 (execUcieRetrainEnd ok tests s) := by
  unfold execUcieRetrainEnd; (repeat' (first
    | with_reducible assumption
    | intro _
    | with_reducible apply State.computeReset_keep
    | fail_if_no_progress with_reducible apply keep_mk
    | with_reducible apply keepO_next
    | split
    | dsimp only
    | with_reducible apply_assumption))

theorem resetCmd_keep {r0 : State} (kind : Nat) (pair : BitVec 16) (k : Cmd → Nat → State → State) (s : State) (hk : ∀ x0 x1 t, Keep r0 t → Keep r0 (k x0 x1 t)) (hs : Keep r0 s) :
    KeepO r0 (resetCmd kind pair k s) := by
  unfold resetCmd; (repeat' (first
    | with_reducible assumption
    | intro _
    | with_reducible apply onCmd_keep
    | with_reducible apply Cmd.ends_keep
    | split
    | dsimp only
    | with_reducible apply_assumption))

theorem execHostWarmReset_keep {r0 : State} (src : BitVec 4) (pair : BitVec 16) (tests : Tests) (s : State) (hs : Keep r0 s) :
    KeepO r0 (execHostWarmReset src pair tests s) := by
  unfold execHostWarmReset; (repeat' (first
    | with_reducible assumption
    | intro _
    | with_reducible apply resetCmd_keep
    | with_reducible apply State.finish_keep
    | with_reducible apply State.warmReset_keep
    | with_reducible apply keepO_next
    | split
    | dsimp only
    | with_reducible apply_assumption))

theorem execPinReset_keep {r0 : State} (tests : Tests) (s : State) (hs : Keep r0 s) :
    KeepO r0 (execPinReset tests s) := by
  unfold execPinReset; (repeat' (first
    | with_reducible assumption
    | intro _
    | with_reducible apply State.warmReset_keep
    | with_reducible apply keepO_next
    | split
    | dsimp only
    | with_reducible apply_assumption))

theorem execComputeReset_keep {r0 : State} (pair : BitVec 16) (tests : Tests) (s : State) (hs : Keep r0 s) :
    KeepO r0 (execComputeReset pair tests s) := by
  unfold execComputeReset; (repeat' (first
    | with_reducible assumption
    | intro _
    | with_reducible apply resetCmd_keep
    | with_reducible apply State.finish_keep
    | with_reducible apply State.computeReset_keep
    | dsimp only
    | with_reducible apply_assumption))

theorem State.flushShare_keep {r0 : State} (s : State) (p : Nat) (hs : Keep r0 s) :
    Keep r0 (State.flushShare s p) := by
  unfold State.flushShare; (repeat' (first
    | with_reducible assumption
    | intro _
    | with_reducible apply State.fctFlush_keep
    | with_reducible refine keep_foldl ?_ ?_
    | with_reducible refine keep_foldl_fst ?_ ?_
    | with_reducible refine keep_foldl_snd ?_ ?_
    | split
    | dsimp only
    | with_reducible apply_assumption))

theorem State.resetShare_keep {r0 : State} (s : State) (q : Part) (hs : Keep r0 s) :
    Keep r0 (State.resetShare s q) := by
  unfold State.resetShare; (repeat' (first
    | with_reducible assumption
    | intro _
    | with_reducible apply State.zeroMem_keep
    | dsimp only
    | with_reducible apply_assumption))

theorem execPartitionReset_keep {r0 : State} (pair : BitVec 16) (s : State) (hs : Keep r0 s) :
    KeepO r0 (execPartitionReset pair s) := by
  unfold execPartitionReset; (repeat' (first
    | with_reducible assumption
    | intro _
    | with_reducible apply resetCmd_keep
    | with_reducible apply Cmd.ends_keep
    | with_reducible apply State.finish_keep
    | with_reducible apply State.rstMark_keep
    | with_reducible apply State.flushShare_keep
    | with_reducible apply State.applyReset_keep
    | with_reducible apply State.resetShare_keep
    | with_reducible apply State.resetClock_keep
    | with_reducible apply State.recover_keep
    | with_reducible refine keep_fst ‹_ = (_, _)› ?_
    | with_reducible refine keep_of_some ‹_ = some _› ?_
    | with_reducible refine keep_snd ‹_ = (_, _)› ?_
    | split
    | dsimp only
    | with_reducible apply_assumption))

theorem execEngineReset_keep {r0 : State} (pair : BitVec 16) (s : State) (hs : Keep r0 s) :
    KeepO r0 (execEngineReset pair s) := by
  unfold execEngineReset; (repeat' (first
    | with_reducible assumption
    | intro _
    | with_reducible apply resetCmd_keep
    | with_reducible apply Cmd.ends_keep
    | with_reducible apply State.finish_keep
    | with_reducible apply State.rstMark_keep
    | with_reducible apply State.applyReset_keep
    | with_reducible apply State.resetClock_keep
    | with_reducible apply State.recover_keep
    | with_reducible refine keep_fst ‹_ = (_, _)› ?_
    | with_reducible refine keep_of_some ‹_ = some _› ?_
    | with_reducible refine keep_snd ‹_ = (_, _)› ?_
    | split
    | dsimp only
    | with_reducible apply_assumption))

theorem State.porState_keep {r0 : State} (s : State) (cap smb : Nat) (test : Bool) (t : Tests) (hs : Keep r0 s) :
    Keep r0 (State.porState s cap smb test t) := by
  exact ⟨hs.pending, hs.fuse.trans ⟨rfl, rfl, rfl, rfl, Nat.le_refl _⟩, fun _ => rfl, hs.host, fun _ => rfl, fun _ => rfl⟩

theorem execPor_keep {r0 : State} (cap : BitVec 2) (smb : BitVec 3) (test : Bool) (tests : Tests) (s : State) (hs : Keep r0 s) :
    KeepO r0 (execPor cap smb test tests s) := by
  unfold execPor; (repeat' (first
    | with_reducible assumption
    | intro _
    | with_reducible apply State.porState_keep
    | with_reducible apply State.selfTest_keep
    | with_reducible apply State.enterSafe_keep
    | with_reducible apply keepO_next
    | split
    | dsimp only
    | with_reducible apply_assumption))

theorem execPwrGoodFall_keep {r0 : State} (s : State) (hs : Keep r0 s) :
    KeepO r0 (execPwrGoodFall s) := by
  unfold execPwrGoodFall; (repeat' (first
    | with_reducible assumption
    | intro _
    | with_reducible apply State.holdDie_keep
    | with_reducible apply State.modPower_keep
    | with_reducible apply State.enterSafe_keep
    | fail_if_no_progress with_reducible apply keep_mk
    | with_reducible apply keepO_next
    | dsimp only
    | with_reducible apply_assumption))

theorem execThermtrip_keep {r0 : State} (mdeg : Int) (s : State) (hs : Keep r0 s) :
    KeepO r0 (execThermtrip mdeg s) := by
  unfold execThermtrip; (repeat' (first
    | with_reducible assumption
    | intro _
    | with_reducible apply State.holdDie_keep
    | with_reducible apply State.modPower_keep
    | fail_if_no_progress with_reducible apply keep_mk
    | with_reducible apply keepO_next
    | split
    | dsimp only
    | with_reducible apply_assumption))

end Sys2Proof.Machine
end

