-- ==== Sys2Proof/Laws/KeepBoot.lean ====
section
/-! SUPPORT. What the operations and meanings of Machine/Boot keep (Laws/Keep). -/
namespace Sys2Proof.Machine

set_option linter.unusedTactic false
set_option linter.unreachableTactic false

theorem State.startImage_keep {r0 : State} (s : State) (hs : Keep r0 s) :
    Keep r0 (State.startImage s) := by
  unfold State.startImage; (repeat' (first
    | with_reducible assumption
    | intro _
    | with_reducible apply State.runImage_keep
    | with_reducible apply State.recover_keep
    | with_reducible refine keep_fst ‹_ = (_, _)› ?_
    | with_reducible refine keep_of_some ‹_ = some _› ?_
    | with_reducible refine keep_snd ‹_ = (_, _)› ?_
    | split
    | dsimp only
    | with_reducible apply_assumption))

theorem execRomLoad_keep {r0 : State} (s : State) (hs : Keep r0 s) :
    KeepO r0 (execRomLoad s) := by
  unfold execRomLoad; (repeat' (first
    | with_reducible assumption
    | intro _
    | with_reducible apply State.mbxAck_keep
    | with_reducible apply State.bootErr_keep
    | with_reducible apply State.acceptImage_keep
    | with_reducible apply State.startImage_keep
    | with_reducible apply keepO_next
    | split
    | dsimp only
    | with_reducible apply_assumption))

theorem State.fwLoad_keep {r0 : State} (t : Tests) (c : Cmd) (s : State) (hs : Keep r0 s) :
    Keep r0 (State.fwLoad t c s) := by
  unfold State.fwLoad; (repeat' (first
    | with_reducible assumption
    | intro _
    | with_reducible apply Cmd.ends_keep
    | with_reducible apply State.finish_keep
    | with_reducible apply State.acceptImage_keep
    | with_reducible apply State.warmReset_keep
    | split
    | dsimp only
    | with_reducible apply_assumption))

theorem execFwLoad_keep {r0 : State} (pair : BitVec 16) (tests : Tests) (s : State) (hs : Keep r0 s) :
    KeepO r0 (execFwLoad pair tests s) := by
  unfold execFwLoad; (repeat' (first
    | with_reducible assumption
    | intro _
    | with_reducible apply onCmd_keep
    | with_reducible apply State.fwLoad_keep
    | dsimp only
    | with_reducible apply_assumption))

theorem State.attest_keep {r0 : State} (c : Cmd) (s : State) (hs : Keep r0 s) :
    Keep r0 (State.attest c s) := by
  unfold State.attest; (repeat' (first
    | with_reducible assumption
    | intro _
    | with_reducible apply Cmd.ends_keep
    | with_reducible apply State.finish_keep
    | with_reducible apply State.hostWrite_keep
    | split
    | dsimp only
    | with_reducible apply_assumption))

theorem execAttest_keep {r0 : State} (pair : BitVec 16) (s : State) (hs : Keep r0 s) :
    KeepO r0 (execAttest pair s) := by
  unfold execAttest; (repeat' (first
    | with_reducible assumption
    | intro _
    | with_reducible apply onCmd_keep
    | with_reducible apply State.attest_keep
    | dsimp only
    | with_reducible apply_assumption))

theorem State.alarmCfg_keep {r0 : State} (holding : Nat) (c : Cmd) (s : State) (hs : Keep r0 s) :
    Keep r0 (State.alarmCfg holding c s) := by
  unfold State.alarmCfg; (repeat' (first
    | with_reducible assumption
    | intro _
    | with_reducible apply Cmd.ends_keep
    | with_reducible apply State.finish_keep
    | with_reducible apply State.setRegN_keep
    | fail_if_no_progress with_reducible apply keep_mk
    | split
    | dsimp only
    | with_reducible apply_assumption))

theorem execAlarmCfg_keep {r0 : State} (pair : BitVec 16) (holding : BitVec 5) (s : State) (hs : Keep r0 s) :
    KeepO r0 (execAlarmCfg pair holding s) := by
  unfold execAlarmCfg; (repeat' (first
    | with_reducible assumption
    | intro _
    | with_reducible apply onCmd_keep
    | with_reducible apply State.alarmCfg_keep
    | dsimp only
    | with_reducible apply_assumption))

theorem State.haltDev_keep {r0 : State} (s : State) (hs : Keep r0 s) :
    Keep r0 (State.haltDev s) := by
  unfold State.haltDev; (repeat' (first
    | with_reducible assumption
    | intro _
    | with_reducible apply State.holdDie_keep
    | with_reducible apply State.setDev_keep
    | dsimp only
    | with_reducible apply_assumption))

theorem State.erase_keep {r0 : State} (s : State) (hs : Keep r0 s) :
    Keep r0 (State.erase s) := by
  unfold State.erase; extract_lets s1 l
  have h : Keep r0 s1 := State.haltDev_keep _ hs
  clear_value s1
  exact ⟨h.pending, h.fuse, h.mem, h.host, fun x => Sparse.wf_clear _ _ _ (h.regs x), h.ecc⟩

theorem execAlarm_keep {r0 : State} (sources : BitVec 5) (s : State) (hs : Keep r0 s) :
    KeepO r0 (execAlarm sources s) := by
  unfold execAlarm; (repeat' (first
    | with_reducible assumption
    | intro _
    | with_reducible apply State.setRegN_keep
    | with_reducible apply State.event_keep
    | with_reducible apply State.erase_keep
    | with_reducible apply State.haltDev_keep
    | fail_if_no_progress with_reducible apply keep_mk
    | with_reducible apply keepO_next
    | with_reducible refine keep_foldl ?_ ?_
    | with_reducible refine keep_foldl_fst ?_ ?_
    | with_reducible refine keep_foldl_snd ?_ ?_
    | split
    | dsimp only
    | with_reducible apply_assumption))

theorem execSmbusBlockRead_keep {r0 : State} (code : BitVec 8) (s : State) (hs : Keep r0 s) :
    KeepO r0 (execSmbusBlockRead code s) := by
  unfold execSmbusBlockRead; (repeat' (first
    | with_reducible assumption
    | intro _
    | fail_if_no_progress with_reducible apply keep_mk
    | with_reducible apply keepO_next
    | split
    | dsimp only
    | with_reducible apply_assumption))

end Sys2Proof.Machine
end

