-- ==== Sys2Proof/Laws/KeepSignal.lean ====
section
/-! SUPPORT. What the operations and meanings of Machine/Signal keep (Laws/Keep). -/
namespace Sys2Proof.Machine

set_option linter.unusedTactic false
set_option linter.unreachableTactic false

theorem State.sigFlag_keep {r0 : State} (s : State) (e : Fin 8) (k : Nat) (c : Bool) (hs : Keep r0 s) :
    Keep r0 (State.sigFlag s e k c) := by
  unfold State.sigFlag; (repeat' (first
    | with_reducible assumption
    | intro _
    | with_reducible apply State.setFld_keep
    | split
    | dsimp only
    | with_reducible apply_assumption))

theorem State.putSamples_keep {r0 : State} (s : State) (e : Fin 8) (xs : List (Nat × List Byte)) (hs : Keep r0 s) :
    Keep r0 (State.putSamples s e xs).1 := by
  unfold State.putSamples; (repeat' (first
    | with_reducible assumption
    | intro _
    | with_reducible apply State.storeAll_keep
    | with_reducible apply State.undefAll_keep
    | with_reducible refine keep_fst ‹_ = (_, _)› ?_
    | with_reducible refine keep_of_some ‹_ = some _› ?_
    | with_reducible refine keep_snd ‹_ = (_, _)› ?_
    | split
    | dsimp only
    | with_reducible apply_assumption))

theorem State.sigStep_keep {r0 : State} (s : State) (e : Fin 8) (p : SigProg) (ln : Lane) (o : SigOp) (hs : Keep r0 s) :
    Keep r0 (State.sigStep s e p ln o).1 := by
  unfold State.sigStep; (repeat' (first
    | with_reducible assumption
    | intro _
    | with_reducible apply State.take_keep
    | with_reducible apply State.putSamples_keep
    | with_reducible apply State.sigFlag_keep
    | with_reducible apply State.checkLines_keep
    | fail_if_no_progress with_reducible apply keep_mk
    | with_reducible apply keep_getD
    | with_reducible refine keep_fst ‹_ = (_, _)› ?_
    | with_reducible refine keep_of_some ‹_ = some _› ?_
    | with_reducible refine keep_snd ‹_ = (_, _)› ?_
    | split
    | dsimp only
    | with_reducible apply_assumption))

theorem State.sigRun_keep {r0 : State} (s : State) (e : Fin 8) (p : SigProg) (fuel : Nat) (l0 : Lane) (l1 : List (Nat × Nat)) (hs : Keep r0 s) :
    Keep r0 (State.sigRun s e p fuel l0 l1).1 := by
  revert hs
  fun_induction State.sigRun s e p fuel l0 l1
  all_goals (intros; (repeat' (first
    | with_reducible assumption
    | intro _
    | with_reducible apply State.sigStep_keep
    | fail_if_no_progress with_reducible apply keep_mk
    | with_reducible refine keep_fst ‹_ = (_, _)› ?_
    | with_reducible refine keep_of_some ‹_ = some _› ?_
    | with_reducible refine keep_snd ‹_ = (_, _)› ?_
    | split
    | dsimp only
    | with_reducible apply_assumption)))

theorem State.sigError_keep {r0 : State} (s : State) (e : Fin 8) (d : Queued) (cause opidx : Nat) (hs : Keep r0 s) :
    Keep r0 (State.sigError s e d cause opidx) := by
  unfold State.sigError; (repeat' (first
    | with_reducible assumption
    | intro _
    | with_reducible apply State.unitError_keep
    | split
    | dsimp only
    | with_reducible apply_assumption))

theorem State.startProgram_keep {r0 : State} (s : State) (e : Fin 8) (d : Queued) (hs : Keep r0 s) :
    Keep r0 (State.startProgram s e d) := by
  unfold State.startProgram; (repeat' (first
    | with_reducible assumption
    | intro _
    | with_reducible apply State.sigError_keep
    | with_reducible apply State.addTok_keep
    | with_reducible apply State.read_keep
    | with_reducible apply State.sigRun_keep
    | with_reducible apply State.startDesc_keep
    | with_reducible refine keep_foldl ?_ ?_
    | with_reducible refine keep_foldl_fst ?_ ?_
    | with_reducible refine keep_foldl_snd ?_ ?_
    | with_reducible refine keep_fst ‹_ = (_, _)› ?_
    | with_reducible refine keep_of_some ‹_ = some _› ?_
    | with_reducible refine keep_snd ‹_ = (_, _)› ?_
    | split
    | dsimp only
    | with_reducible apply_assumption))

theorem execProgram_keep {r0 : State} (e : Fin 8) (s : State) (hs : Keep r0 s) :
    KeepO r0 (execProgram e s) := by
  unfold execProgram; (repeat' (first
    | with_reducible assumption
    | intro _
    | with_reducible apply State.dequeue_keep
    | with_reducible apply State.startProgram_keep
    | with_reducible apply keepO_next
    | with_reducible refine keep_fst ‹_ = (_, _)› ?_
    | with_reducible refine keep_of_some ‹_ = some _› ?_
    | with_reducible refine keep_snd ‹_ = (_, _)› ?_
    | split
    | dsimp only
    | with_reducible apply_assumption))

theorem execProgramComplete_keep {r0 : State} (e : Fin 8) (s : State) (hs : Keep r0 s) :
    KeepO r0 (execProgramComplete e s) := by
  unfold execProgramComplete; (repeat' (first
    | with_reducible assumption
    | intro _
    | with_reducible apply State.completeDesc_keep
    | with_reducible apply keepO_next
    | with_reducible refine keep_fst ‹_ = (_, _)› ?_
    | with_reducible refine keep_of_some ‹_ = some _› ?_
    | with_reducible refine keep_snd ‹_ = (_, _)› ?_
    | split
    | dsimp only
    | with_reducible apply_assumption))

end Sys2Proof.Machine
end

