-- ==== Sys2Proof/WellFormed.lean ====
section
/-! DEFINITION. Which commands are well formed: the operands keep to what the row's rule allows them. A command that is not still has a
meaning (the machine answers it as the spec says it answers such an operand). -/
namespace Sys2Proof

/-- Why a command is ill formed. -/
inductive IllFormed where
  /-- a LEN that Table 2.5 does not allow for the operation, or a length outside the access's range -/
  | length
  /-- a payload whose length is not LEN (R42) -/
  | payload
  /-- a reserved field that is not 0, or a reserved value of a field (Tables 3.4, 3.6, 7.4) -/
  | reserved
  /-- a unit number above 256 (256 stands for BAR0) -/
  | unit
  /-- a register offset that is not a multiple of 4 (R7) -/
  | offset
  /-- a reset source that is none of the row's, or an alarm of no source -/
  | source
  /-- a code that belongs to another row -/
  | code
  deriving DecidableEq, Repr

/-- The check fails when `b` holds. -/
def when (b : Bool) (p : IllFormed) : Option IllFormed := if b then some p else none

/-- The checks of a remote memory operation: LEN by Table 2.5, then the payload's length. -/
def Hdr.problem (h : Hdr) (b : List Byte) (lenOk : Bool) : Option IllFormed :=
  when (!lenOk) .length <|> when (decide (b.length ≠ h.len.toNat)) .payload

/-- The first check that a command fails, if any. -/
def Instr.problem (i : Instr) : Option IllFormed :=
  match i with
  | .put h b | .putSignal h b => Hdr.problem h b (decide (h.len.toNat ≤ 4096))
  | .get h => Hdr.problem { h with len := 0 } [] (decide (h.len.toNat ≤ 4096))
  | .signal h => Hdr.problem h [] (decide (h.len = 0))
  | .atomicAdd h b | .fetchAdd h b => Hdr.problem h b (decide (h.len = 4) || decide (h.len = 8))
  | .cas h b => Hdr.problem h b (decide (h.len = 8) || decide (h.len = 16))
  | .orderedFadd h b => Hdr.problem h b (decide (4 ≤ h.len.toNat) && decide (h.len.toNat ≤ 4096) && decide (h.len.toNat % 4 = 0))
  | .scAdd _ f | .scSub _ f | .scAnd _ f | .scOr _ f | .scXor _ f | .scShl _ f | .scShr _ f | .scSra _ f | .scMul _ f | .scMovhi _ f |
    .scSlt _ f | .scSltu _ f | .scSeq _ f | .scLd _ f | .scSt _ f | .scB _ f | .scBeq _ f | .scBne _ f | .scBlt _ f | .scBge _ f | .scMovsum
    _ f | .scBsum _ f => when (decide (f.rsv ≠ 0)) .reserved
  | .streamIssue _ f | .arrayIssue _ f | .vectorIssue _ f | .signalIssue _ f => when (decide (f.rsv ≠ 0)) .reserved
  | .vecAdd _ f | .vecSub _ f | .vecMul _ f | .vecFma _ f | .vecMin _ f | .vecMax _ f | .vecAbs _ f | .vecNeg _ f | .vecCeq _ f | .vecClt _
    f | .vecCle _ f | .vecSel _ f | .vecAnd _ f | .vecOr _ f | .vecXor _ f | .vecShl _ f | .vecShr _ f | .cvt _ f | .scalb _ f | .recip _ f
    | .rsqrt _ f | .sqrt _ f | .exp _ f | .log _ f | .sin _ f | .cos _ f | .atan2 _ f | .vbcast _ f | .vld _ f | .vst _ f | .vldt _ f |
    .vstt _ f | .vtget _ f | .vtput _ f | .vperm _ f | .vgather _ f | .vscatter _ f | .vredt _ f | .vsumm _ f | .vsetvl _ f | .vsetbnd _ f |
    .vsetsr _ f => when (decide (f.rnd = 3)) .reserved
  | .registerWrite _ u off _ => when (decide (256 < u.toNat)) .unit <|> when (decide (off.toNat % 4 ≠ 0)) .offset
  | .windowRead _ n => when (decide (n = 0) || decide (4096 < n.toNat)) .length
  | .windowWrite _ b => when (b.isEmpty || decide (4096 < b.length)) .length
  | .hostWarmReset src _ _ => when (!(decide (src = 0) || decide (src = 2) || decide (src = 4))) .source
  | .alarm b => when (decide (b = 0)) .source
  | .bypass code => when (decide (code.toNat ∈ [1, 2, 3, 4, 5, 0x80])) .code
  | .transit _ _ op h b => when (decide (op.toNat = 0) || decide (8 < op.toNat)) .code <|> when (decide (op.toNat ≠ 2) && decide (b.length ≠
    h.len.toNat)) .payload
  | .rxRecord _ f _ _ _ => when f.isEmpty .length
  | .orderedFaddRelease _ _ | .returnDelivery _ _ _ | .errorResponse _ _ _ _ | .creditReturn _ _ | .fabricOpIssue _ _ | .stall _ _ |
    .mcastSlow _ | .priorityAging _ _ | .fabCrdW0Write _ _ _ _ | .fabCrdW1Write _ _ _ _ | .clockWake _ _ | .issueStallRelease _ | .syWait _
    _ | .syWaitt _ _ | .waitSatisfied _ | .waittGiveUp _ | .syFence _ _ | .fenceRelease _ | .sySig _ _ | .syWaitdb _ _ | .waitdbWake _ |
    .syNop _ _ | .syEnd _ _ | .syTrap _ _ | .trapAbortEnd _ | .overblock _ | .engRun _ _ | .engHalt _ _ | .engKill _ _ | .killComplete _ |
    .matmul _ | .matmulComplete _ _ | .drain _ | .drainComplete _ _ | .arrClrClamp _ _ _ _ | .arrClrFlags _ _ _ _ | .pairCtlWrite _ _ _ _ |
    .vecQntClr _ _ | .directInstrComplete _ _ | .elementProgram _ _ | .reduce _ _ | .bquant _ _ | .cquant _ _ | .dequant _ _ | .qacc _ _ |
    .vectorDescComplete _ _ _ | .crc _ | .sum64 _ | .fill _ | .compare _ | .collimatorComplete _ _ | .vecCntClr _ _ | .program _ |
    .programComplete _ | .load _ _ | .store _ _ | .pload _ _ | .pstore _ _ | .rmo _ _ | .streamDescComplete _ _ | .queueAging _ _ |
    .prismCntClr _ _ | .carrierCfg _ | .carrierSwitch _ | .blockDelivery _ | .rxWindowClose _ _ _ | .ulSlot _ | .dlSlot _ | .est _ | .eq _ |
    .dec _ | .stageRerun | .slotPublish _ _ | .tx _ | .cplaneSend _ _ | .uplaneSend _ _ _ _ _ | .dlSlotComplete _ _ | .facetFetch _ |
    .ldpcDec _ | .ldpcEnc _ | .polarDec _ | .polarEnc _ | .tbcrc _ | .facetStatusRecord _ | .facetAging _ _ | .fctFlush _ _ _ | .fctCntClr _
    _ | .loadWeights _ | .weightsCommit _ | .shadowConfig _ | .shadowCapWindow | .netTrial _ | .trialDecide _ | .trialTimeout _ |
    .netRollback _ | .qTailWrite _ _ | .commandAccept _ | .qCheadWrite _ _ | .resume _ | .qAdmEnable _ | .completionWrite _ | .nop _ |
    .queueConfig _ | .windowOpen _ | .windowClose _ | .mbxPost _ _ _ | .mbxAck _ _ _ _ | .dbSet _ _ _ | .partCreate _ | .partDestroy _ |
    .jobLoad _ | .jobCmd _ | .jobUnload _ | .jobAbort _ | .commandStart _ | .commandCommit _ | .ledgerCommit _ _ | .ledgerRead _ |
    .mirrorStart _ | .mirrorStop _ | .mirrorFull _ | .gap | .replayStart _ | .replayHold | .replayRelease _ | .eccWriteback | .scrubRead _ |
    .hbmRefresh _ | .eccInjArm _ _ _ | .eccCntClr _ _ | .ucieRetry _ | .ucieRetrain | .ucieRetrainEnd _ _ | .fhConfig _ | .ptpConfig _ |
    .portLinkChange _ _ | .frameReceive _ _ _ _ _ | .storedFrameSend _ _ | .fhCntClr _ _ | .ptpSecLatch | .ptpAdj _ _ | .slewEnd | .ptpHold
    _ _ | .triggerFire _ _ _ _ | .ppsOut | .todSend | .ppsIn _ | .brvConfig _ | .brvLinkUp _ _ _ _ _ | .brvLinkTimeout _ | .routeChange |
    .brvReplay _ _ _ | .brvRetrain _ | .brvRetrainEnd _ _ | .brvLinkDown _ | .brvCntClr _ _ | .modConfig _ | .jesdLinkLoss |
    .periscopeDetect _ _ _ _ | .syncFound _ _ _ | .syncTimeout _ | .modTxFetch _ | .txBurstStart _ _ | .txBurstComplete _ _ _ | .modCntClr _
    | .romLoad | .fwLoad _ _ | .attest _ | .alarmCfg _ _ | .smbusBlockRead _ | .por _ _ _ _ | .pinReset _ | .computeReset _ _ |
    .partitionReset _ | .engineReset _ | .perstAssert | .perstRelease | .pwrGoodFall | .thermtrip _ | .powerCap _ | .capSwitch _ |
    .powerWindow _ | .eIdleEntry _ | .powerUpGrant | .dIdleExit | .perfProgram _ | .perfClear _ | .perfFreeze _ | .perfRun _ | .perfSnapshot
    _ | .pmcClr _ _ _ _ | .pmcLoLatch _ _ _ | .loupeCfg _ | .loupeRecord _ _ _ _ _ _ | .tapReset | .idcode | .samplePreload _ _ | .extest _
    _ | .clamp | .highz | .debug | .jesdLinkAlign | .transmitLinkLoss | .selfRefreshReturn _ | .busMasterEnable | .todReceive _ | .ptpEgress
    _ _ _ | .counterOverflow _ _ _ | .facetShareWindow | .replayRecord => none

/-- The command passes every check. -/
def Instr.wellFormed (i : Instr) : Bool := i.problem.isNone

end Sys2Proof
end

