-- ==== Sys2Proof/Tests/Slice0.lean ====
section
/-! SUPPORT. Small tests of the definitions, and for each statement with hypotheses a witness: concrete states and operands that meet them. -/
namespace Sys2Proof.Tests
open Sys2Proof Sys2Proof.Machine
set_option Elab.async false

/-! ### States of the witnesses -/

/-- Of a unit's rows the one at the injection register, if any, resets to 0. -/
def injOff : Nat := CTL + 0x11C
theorem fabric_no_inj (c : UnitClass) : (fabricRows c).find? (fun r => r.hits injOff) = none := by
  cases c <;> decide +kernel
theorem ecc_inj : (eccRows.find? fun r => r.hits injOff).map (fun r => bits (BitVec.ofNat 32 r.reset).toNat 3 3) = some 0 := by decide +kernel
theorem find_inj (c : UnitClass) (x : List RegRow) :
    (((fabricRows c ++ eccRows) ++ x).find? fun r => r.hits injOff).map (fun r => bits (BitVec.ofNat 32 r.reset).toNat 3 3) = some 0 := by
  rw [List.find?_append, List.find?_append, fabric_no_inj, Option.none_or]
  have h := ecc_inj
  cases hf : eccRows.find? fun r => r.hits injOff with
  | none => rw [hf] at h; cases h
  | some r => rw [hf] at h; exact h
theorem rows_inj (u : Nat) : ((unitRows u).find? fun r => r.hits injOff).map (fun r => bits (BitVec.ofNat 32 r.reset).toNat 3 3) = some 0 ∨
    (unitRows u).find? (fun r => r.hits injOff) = none := by
  have hl : (fabricRows .ledger ++ ledgerRows).find? (fun r => r.hits injOff) = none := by decide +kernel
  have hb : (bar0Rows ++ secRows).find? (fun r => r.hits injOff) = none := by decide +kernel
  have hp := find_inj .pool []
  rw [List.append_nil] at hp
  unfold unitRows
  cases unitClass u
  all_goals first
    | exact .inr hl
    | exact .inr hb
    | exact .inr (fabric_no_inj _)
    | exact .inr rfl
    | exact .inl hp
theorem key_div (u o : Nat) (h : o < 2 ^ 52) : key u o / 2 ^ 52 = u := by
  unfold key; rw [Nat.mul_comm, Nat.mul_add_div (Nat.two_pow_pos 52), Nat.div_eq_of_lt h, Nat.add_zero]
theorem key_mod (u o : Nat) (h : o < 2 ^ 52) : key u o % 2 ^ 52 = o := by
  unfold key; rw [Nat.mul_comm, Nat.mul_add_mod, Nat.mod_eq_of_lt h]
theorem inj_lt : injOff < 2 ^ 52 := by decide +kernel

theorem regReset_bit (a : Nat) (h : (regRow a).map (fun r => bits (BitVec.ofNat 32 r.reset).toNat 3 3) = some 0 ∨ regRow a = none) :
    bits (regReset a).toNat 3 3 = 0 := by
  unfold regReset
  generalize regRow a = x at h
  cases x with
  | none => rfl
  | some r =>
    rcases h with h | h
    · exact Option.some.inj h
    · cases h
theorem regRow_at (a u o : Nat) (hu : a / 2 ^ 52 = u) (ho : a % 2 ^ 52 = o) : regRow a = (unitRows u).find? fun r => r.hits o := by
  subst hu ho; rfl

/-- No register row has ARM set at reset. -/
theorem reset_disarmed (u : Nat) : bits (regReset (key u injOff)).toNat 3 3 = 0 := by
  have h := rows_inj u
  rw [← regRow_at (key u injOff) u injOff (key_div u injOff inj_lt) (key_mod u injOff inj_lt)] at h
  exact regReset_bit _ h

/-- A state without bad bits whose listed registers hold no injection register is clean. -/
theorem clean_of_list (s : State) (he : s.ecc = []) (h : (s.regs.all fun x => decide (x.1 % 2 ^ 52 ≠ injOff)) = true) : s.clean := by
  refine ⟨he, fun u => ?_⟩
  have hg : ∀ (a : Nat) (m : List (Nat × Reg32)), a % 2 ^ 52 = injOff → (m.all fun x => decide (x.1 % 2 ^ 52 ≠ injOff)) = true →
      Sparse.get regReset m a = regReset a := by
    intro a m ha
    induction m with
    | nil => intro _; rfl
    | cons x r ih =>
      intro hm
      rw [List.all_cons, Bool.and_eq_true] at hm
      have hx : x.1 ≠ a := fun hx => of_decide_eq_true hm.1 (by rw [hx, ha])
      unfold Sparse.get
      rw [if_neg hx]
      exact ih hm.2
  have hs := hg (key u injOff) s.regs (key_mod _ _ inj_lt) h
  have hd := reset_disarmed u
  rw [← hs] at hd
  exact hd

/-- The device RUNNING with every engine on. -/
def base : State := { State.reset.setFld secState 2 0 4 with eng := Vector.replicate 8 { Engine.reset with power := .on } }

/-- An engine runs at the start of a code region of 256 bytes. -/
def runs (e : Fin 8) : State :=
  (base.setRegN (key e.val (CTU + 0x10)) 0x100).modEng e fun x => { x with state := .running }

theorem runs_issues : (runs 0).issues 0 ∧ (runs 7).issues 7 := by
  unfold State.issues; decide +kernel

/-- A partition of class `cls` with engines `mask` and all of HBM. -/
def partOf (cls mask : Nat) : Part := ⟨cls, 0, 3, mask, 0, 0xFF, 0, 0x1800000000, 0, 0x4000000, 100, 0, 0, 0⟩

/-- `s` with partition 0. -/
def owned (s : State) (q : Part) : State := { s with parts := (Vector.replicate 8 none).set 0 (some q) }

/-- A descriptor of queue `q` with bytes `b` from its first one on. -/
def queuedIn (q : EngQ) (b : List Byte) : Queued := ⟨q, 0, 0, 0, b ++ List.replicate (64 - b.length) 0, none⟩

/-- Engine `e` with `ds` in its queues. -/
def queues (e : Fin 8) (ds : List Queued) (s : State) : State := s.modEng e fun x => { x with queue := ds }

/-- Bytes of a descriptor: `b` at offset `o` of 64 zero bytes, over `d`. -/
def patch (d : List Byte) (o : Nat) (b : List Byte) : List Byte := d.take o ++ b ++ d.drop (o + b.length)


/-! ### StepRunsTheFrontCommand -/

theorem wit_StepRunsTheFrontCommand_front : ({ State.reset with pending := [.tapReset] } : State).pending = .tapReset :: [] := rfl
theorem wit_StepRunsTheFrontCommand_empty : State.reset.pending = [] := rfl

/-! ### EveryStepKeepsCanonicalForm -/

theorem wit_EveryStepKeepsCanonicalForm : State.reset.canonical = true ∧ step State.reset = .next State.reset := by
  exact ⟨by decide, rfl⟩

/-! ### ScalarOperationsWriteXd -/

theorem wit_ScalarOperationsWriteXd : (runs 0).issues 0 ∧ (runs 7).issues 7 ∧ (⟨31, 1, 2, 0, 0⟩ : ScalarF).rsv = 0 :=
  ⟨runs_issues.1, runs_issues.2, rfl⟩

/-! ### ScalarBranchesMoveThePc -/

theorem wit_ScalarBranchesMoveThePc : (runs 7).issues 7 ∧ (⟨0, 1, 2, 0, 0xFFFFFFFF⟩ : ScalarF).rsv = 0 := ⟨runs_issues.2, rfl⟩

/-! ### SummaryReadsAndBranches -/

theorem wit_SummaryReadsAndBranches : (runs 0).issues 0 ∧ (⟨0, 31, 0, 0, 0xFFFFFFF⟩ : ScalarF).rsv = 0 ∧ (0xFFFFFFF : BitVec 32).toNat < 2 ^ 28 :=
  ⟨runs_issues.1, rfl, by decide⟩

/-! ### ScalarLoadsAndStores -/

/-- X1 of engine 0 holds `v`. -/
def x1Is (v : Word) : State := (runs 0).modEng 0 fun x => { x with x := x.x.set 1 v }
theorem wit_ScalarLoadsAndStores_scratchpad : (x1Is 0).issues 0 ∧
    (let o := ((x1Is 0).eng[(0 : Fin 8)].rx 1 + (0x27FFFF8 : BitVec 32).signExtend 64).toNat;
      o % 8 = 0 ∧ o + 8 = SPAD ∧ (x1Is 0).dirtyBlocks (key 0 o) 8 = []) := by
  unfold State.issues; decide +kernel
theorem wit_ScalarLoadsAndStores_forward : (x1Is 0xFFFFFFF440100).issues 0 ∧ (x1Is 0xFFFFFFF440100).eng[(0 : Fin 8)].rx 1 % 4 = 0 ∧
    (0xFFFFFFF440100 + (0x7C : BitVec 32).signExtend 64 : Word).toNat ≤ 0xFFFFFFF44017F := by
  unfold State.issues; decide +kernel

/-! ### IssueQueuesTheDescriptor -/

theorem wit_IssueQueuesTheDescriptor :
    let s := owned (runs 0) (partOf 1 1)
    let f : IssueF := ⟨1023, 0, 0, 0, 0⟩
    let a : IssueF := ⟨0, 0, 0, 0, 0⟩
    let full := queues 0 (List.replicate 32 (queuedIn .array [])) (runs 0)
    (s.issues 0 ∧ issueLegal 1 f = true ∧ descOff s.eng[(0 : Fin 8)] f = 0 ∧ s.dirtyBlocks (key 0 0) 64 = [] ∧ s.queueOk 0 f.queue.toNat = true) ∧
    ((runs 7).issues 7 ∧ issueLegal 2 a = true ∧ (runs 7).room 7 .array = true) ∧
    (full.issues 0 ∧ full.room 0 (issueQueue 2 0) = false) ∧
    (let w := (runs 0).modEng 0 fun x => { x with state := .waiting, wait := .issue 4 a };
      w.eng[(0 : Fin 8)].state = .waiting ∧ w.eng[(0 : Fin 8)].wait = .issue 4 a ∧ issueLegal 4 a = true ∧ w.room 0 (issueQueue 4 0) = true) := by
  unfold State.issues; decide +kernel
theorem wit_IssueQueuesTheDescriptor_streamRoom (e : Fin 8) (q : Nat) : (runs 0).eng[(0 : Fin 8)].queue = [] ∧ 0 < (owned (runs 0) (partOf 1 1)).depth e (.stream q) :=
  ⟨by decide +kernel, Nat.two_pow_pos _⟩

/-! ### SyncInstructionsWaitOrProceed -/

theorem wit_SyncInstructionsWaitOrProceed :
    (runs 0).issues 0 ∧ (⟨0, 4095, 0, 0⟩ : SyncF).xd = 0 ∧
    ((runs 0).tok 0 4095 - 0).toNat < 2 ^ 31 ∧ ¬ ((runs 0).tok 0 4095 - 1).toNat < 2 ^ 31 ∧
    ((runs 0).eng[(0 : Fin 8)].queue = [] ∧ (runs 0).eng[(0 : Fin 8)].started = []) ∧
    (let b := queues 0 [queuedIn .array []] (runs 0);
      b.issues 0 ∧ ¬ (b.eng[(0 : Fin 8)].queue = [] ∧ b.eng[(0 : Fin 8)].started = [])) := by
  unfold State.issues; decide +kernel

/-! ### SyncInstructionsThatActOutside -/

theorem wit_SyncInstructionsThatActOutside :
    (runs 0).issues 0 ∧ (runs 0).reg (dbRaw 0) &&& ~~~((runs 0).reg (dbMask 0)) = 0 ∧
    (let r := ((runs 0).setRegN (dbRaw 0) 0x80000000).setRegN (dbMask 0) 0;
      r.issues 0 ∧ r.reg (dbRaw 0) &&& ~~~(r.reg (dbMask 0)) ≠ 0) ∧
    ((runs 0).tok 0 4095 - 0).toNat < 2 ^ 31 ∧ ¬ ((runs 0).tok 0 4095 - 1).toNat < 2 ^ 31 ∧ (runs 0).eng[(0 : Fin 8)].rx 0 = 0 ∧
    ((x1Is 1).issues 0 ∧ (x1Is 1).eng[(0 : Fin 8)].rx 1 ≠ 0) ∧ (runs 0).fld (key 0 (CTU + 0x1C)) 8 8 = 0 := by
  unfold State.issues; decide +kernel

/-! ### WaitsEndWhenTheirConditionHolds -/

/-- Engine 0 waits for `w`. -/
def waits (w : Wait) : State := (runs 0).modEng 0 fun x => { x with state := .waiting, wait := w }
theorem wit_WaitsEndWhenTheirConditionHolds :
    ((waits (.token 4095 0)).eng[(0 : Fin 8)].state = .waiting ∧ (waits (.token 4095 0)).eng[(0 : Fin 8)].wait = .token 4095 0 ∧
      ((waits (.token 4095 0)).tok 0 4095 - 0).toNat < 2 ^ 31) ∧
    ((waits (.tokenLimit 0 0 31 1)).eng[(0 : Fin 8)].wait = .tokenLimit 0 0 31 1 ∧ ((waits (.tokenLimit 0 0 31 1)).tok 0 0 - 0).toNat < 2 ^ 31) ∧
    ((waits (.tokenLimit 0 1 31 1)).eng[(0 : Fin 8)].wait = .tokenLimit 0 1 31 1 ∧ ¬ ((waits (.tokenLimit 0 1 31 1)).tok 0 0 - 1).toNat < 2 ^ 31) ∧
    ((waits .fence).eng[(0 : Fin 8)].wait = .fence ∧ (waits .fence).eng[(0 : Fin 8)].queue = [] ∧ (waits .fence).eng[(0 : Fin 8)].started = []) ∧
    (waits .endCmd).eng[(0 : Fin 8)].wait = .endCmd ∧
    (let r := ((waits (.doorbell 31)).setRegN (dbRaw 0) 1).setRegN (dbMask 0) 0;
      r.eng[(0 : Fin 8)].wait = .doorbell 31 ∧ r.reg (dbRaw 0) &&& ~~~(r.reg (dbMask 0)) ≠ 0) := by
  decide +kernel

/-! ### AnchorRunsHaltsAndKills -/

theorem wit_AnchorRunsHaltsAndKills :
    base.engPresent 0 = true ∧ base.engPresent 7 = true ∧ base.eng[(7 : Fin 8)].state = .idle ∧
    (runs 7).engPresent 7 = true ∧ (runs 7).eng[(7 : Fin 8)].state = .running ∧
    (let s (x : EngState) := base.modEng 0 fun y => { y with state := x };
      (s .halted).engPresent 0 = true ∧ (s .halted).eng[(0 : Fin 8)].state = .halted ∧ (s .killing).engPresent 0 = true ∧
      (s .killing).eng[(0 : Fin 8)].state = .killing) ∧ (0x5F : BitVec 8) ≠ 0x60 := by
  decide +kernel

/-! ### StopsOfAnEngineEnd -/

theorem wit_StopsOfAnEngineEnd :
    (let s := base.modEng 0 fun y => { y with state := .trapped, aborting := true, killReq := true };
      s.eng[(0 : Fin 8)].state = .trapped ∧ s.eng[(0 : Fin 8)].aborting = true) ∧
    (let s := (waits (.token 0 1)).setRegN (key 0 (CTU + 0x24)) 0xFFFFFFFE;
      s.eng[(0 : Fin 8)].state = .waiting ∧ s.eng[(0 : Fin 8)].wait = .token 0 1 ∧ s.eng[(0 : Fin 8)].cmd = none ∧
      s.regN (key 0 (CTU + 0x24)) ≠ 0xFFFFFFFF ∧ s.fld (key 0 (CTU + 8)) 3 3 = 0) := by
  decide +kernel

/-! ### CounterClearsZeroTheCountsAlone -/

theorem wit_CounterClearsZeroTheCountsAlone :
    base.engPresent 7 = true ∧ base.unitCause 0x17 0x60 = 0 ∧ base.unitCause 0 0x60 = 0 ∧ (regRow (key 0 (CTL + 0x10C)) ≠ none) ∧
    ({ base with configured := [0x2F, 0x31] } : State).unitCause 0x2F 0x60 = 0 ∧ base.unitCause 0x35 0x60 = 0 ∧ ({ base with configured := [0x2F, 0x31] } : State).unitCause 0x31 0x60 = 0 := by
  refine ⟨by decide +kernel, by decide +kernel, by decide +kernel, ?_, by decide +kernel, by decide +kernel, by decide +kernel⟩
  intro h
  have : (regRow (key 0 (CTL + 0x10C))).isSome = true := by decide +kernel
  rw [h] at this
  cases this

/-! ### CompletionsApplyTheirIncrement -/

/-- A descriptor in progress on queue `q` whose byte 0 is `b`. -/
def inProgress (q : EngQ) (b : Byte) : Started := ⟨q, 9, some 4095, 0, b :: List.replicate 63 0, none, [], 0, [(key 0 (CTU + 0x40), 1)], []⟩
theorem wit_CompletionsApplyTheirIncrement :
    let s (x : Started) := base.modEng 0 fun y => { y with started := [x] }
    let ok (x : Started) (sel : Started → Bool) := ((s x).eng[(0 : Fin 8)].started.filter sel)[0]? = some x ∧ x.stores = [] ∧
      (∀ r ∈ x.result, r.1 ≠ colMiss 0) ∧ x.ops = 0 ∧ x.err = none
    ok (inProgress .array 1) (fun x => decide (x.q = .array) && decide (fieldLE x.desc 0 1 % 16 = 1)) ∧
    ok (inProgress .array 2) (fun x => decide (x.q = .array) && decide (fieldLE x.desc 0 1 % 16 = 2)) ∧
    ok (inProgress .direct 0) (fun x => decide (x.q = .direct)) ∧ ok (inProgress (.pipe 3) 1) (fun x => decide (x.q = .pipe 3)) ∧
    ok (inProgress .col 8) (fun x => decide (x.q = .col)) ∧ ok (inProgress (.stream 1023) 1) (fun x => decide (x.q = .stream 1023)) ∧
    ok (inProgress .signal 1) (fun x => decide (x.q = .signal)) := by
  decide +kernel

/-! ### MatmulsAndDrainsRunFromTheQueueHead -/

/-- A MATMUL of `n` rows on the arrays of mask byte `a`, and a DRAIN of them. -/
def matBytes (n a : Byte) : List Byte := [0x01, 0, 0, 0, n, 0, 0, 0, a] ++ List.replicate 19 0 ++ List.replicate 4 0xFF ++ List.replicate 4 0 ++ List.replicate 4 0xFF
def drainBytes (n a : Byte) : List Byte := [0x02, 0, 0, 0, n, 0, 0, 0, a] ++ List.replicate 15 0 ++ [0x80]
/-- Engine 0 with one descriptor in its queues. -/
def one (q : EngQ) (b : List Byte) : State := queues 0 [queuedIn q b] base
theorem one_clean (q : EngQ) (b : List Byte) : (one q b).clean := clean_of_list _ rfl (by show (base.regs.all _) = true; decide +kernel)
theorem one_head (q : EngQ) (b : List Byte) : (one q b).headOf 0 q = some (queuedIn q b) := by
  unfold State.headOf one queues
  rw [State.modEng_get]
  simp [queuedIn]
theorem wit_MatmulsAndDrainsRunFromTheQueueHead :
    let m (n a : Byte) := MatD.parse (queuedIn .array (matBytes n a)).desc
    let x (n a : Byte) := DrainD.parse (queuedIn .array (drainBytes n a)).desc
    base.tokensOk 0 (queuedIn .array (matBytes 1 1)).desc = true ∧ base.tokensOk 0 (queuedIn .array (drainBytes 1 1)).desc = true ∧
    ((m 0 1).kind = 1 ∧ (m 0 1).n = 0) ∧ ((m 1 0).kind = 1 ∧ (m 1 0).amask = 0) ∧ ((x 0 1).kind = 2 ∧ (x 0 1).n = 0) ∧ (x 1 0).amask = 0 ∧
    ((m 1 1).kind = 1 ∧ (m 1 1).n ≠ 0 ∧ (m 1 1).amask ≠ 0 ∧ (m 1 1).pair ∉ [1, 2, 3] ∧
      (one .array (matBytes 1 1)).matCheck 0 (m 1 1) none = none ∧ (m 1 1).dt = false) ∧
    ((x 1 1).kind = 2 ∧ (x 1 1).n ≠ 0 ∧ (x 1 1).amask ≠ 0 ∧ drainCheck (x 1 1) = none) := by
  decide +kernel

/-! ### ArrayFlagClearsAndPairTableWrites -/

theorem wit_ArrayFlagClearsAndPairTableWrites : base.engPresent 0 = true ∧ base.engPresent 7 = true := by decide +kernel

/-! ### VectorArithmeticWritesVd -/

/-- A direct instruction on VD 63, VA 1, VB 2 with format `c` and address register 0. -/
def dirF (c : BitVec 4) : DirectF := ⟨63, 1, 2, c, 0, false, false, 0, false, 0, 0, 0⟩
theorem wit_VectorArithmeticWritesVd :
    let s := (runs 7).modEng 7 fun x => { x with vl := 0xFFFFFFFF }
    s.issues 7 ∧ s.headOf 7 (.pipe 0) = none ∧ (vfmt 0).isSome = true ∧ (vfmt 7).isSome = true ∧
    (∀ op ∈ List.range 27, directLegal (op + 16) (dirF (if 12 ≤ op ∧ op ≤ 16 then 7 else 0)) = true ∧
      opFmtOk op (dirF (if 12 ≤ op ∧ op ≤ 16 then 7 else 0)).fmt.toNat ((dirF 0).vb.toNat % 16) = true) ∧ (vfmt 2).isSome = true := by
  unfold State.issues; decide +kernel

/-! ### VectorMovesReadAndWriteWhatTheyName -/

theorem runs_clean (e : Fin 8) : (runs e).clean := clean_of_list _ rfl (by
  show ((base.setRegN (key e.val (CTU + 0x10)) 0x100).regs.all _) = true
  revert e; decide +kernel)
theorem wit_VectorMovesReadAndWriteWhatTheyName :
    (runs 0).issues 0 ∧ (runs 0).clean ∧ (runs 0).headOf 0 (.pipe 0) = none ∧ (vfmt (dirF 7).fmt.toNat).isSome = true ∧ (dirF 7).fmt.toNat < 8 ∧
    (∀ op ∈ [0x30, 0x31, 0x32, 0x35, 0x36, 0x37, 0x38, 0x39, 0x3A], directLegal op (dirF 7) = true) ∧
    directLegal 0x3B { dirF 7 with sumen := true, ten := true, slot := 7 } = true ∧
    (let o := ((runs 0).eng[(0 : Fin 8)].rx 0 + 64 * (dirF 7).imm.setWidth 64).toNat;
      o % 64 = 0 ∧ o + 512 ≤ SPAD) ∧
    (let g := (runs 0).modEng 0 fun x => { x with vl := 128, vbound := 1 };
      g.eng[(0 : Fin 8)].vbound.toNat ≠ 0 ∧
      ∀ i ∈ elems 32 (min (min g.eng[(0 : Fin 8)].vl.toNat (4096 / 32)) 128) (g.eng[(0 : Fin 8)].vr 2), min i 0 * 4 + 4 ≤ SPAD) := by
  refine ⟨runs_issues.1, runs_clean 0, ?_⟩
  decide +kernel

/-! ### VectorSettingsAndTileMoves -/

theorem wit_VectorSettingsAndTileMoves :
    (runs 7).issues 7 ∧ (runs 7).headOf 7 (.pipe 0) = none ∧ (runs 7).clean ∧
    (∀ op ∈ [0x33, 0x34, 0x3C, 0x3D, 0x3E], directLegal op { dirF 15 with vd := 7 } = true) ∧
    (let o := ((runs 7).eng[(7 : Fin 8)].rx 0 + 64 * (dirF 15).imm.setWidth 64).toNat;
      o % 64 = 0 ∧ o + 4096 ≤ SPAD) := by
  refine ⟨runs_issues.2, ?_, runs_clean 7, ?_⟩ <;> decide +kernel

/-! ### ElementProgramsRunOverTheirTensors -/

/-- `s` with bytes put into engine 0's scratchpad. -/
def withMem (l : List (Nat × List Byte)) (s : State) : State := { s with mem := l.foldl (fun m x => putBytes m x.1 x.2) s.mem }
theorem one_mem_clean (l : List (Nat × List Byte)) (q : EngQ) (b : List Byte) : (withMem l (one q b)).clean := clean_of_list _ rfl
  (by show (base.regs.all _) = true; decide +kernel)
theorem one_mem_head (l : List (Nat × List Byte)) (q : EngQ) (b : List Byte) : (withMem l (one q b)).headOf 0 q = some (queuedIn q b) := one_head q b
/-- An element program of one ABS over 16 elements, and its descriptor. -/
def epDesc : List Byte := [0x01, 9, 0, 0, 0, 0, 0, 0] ++ toLE 4 0x1000 ++ toLE 4 16 ++ toLE 4 0x2000 ++ toLE 12 0 ++ toLE 4 0x3000
def epState : State := withMem [(0x1000, [1, 0] ++ List.replicate 62 0 ++ toLE 4 (6 * 2 ^ 26 + 0x14 * 2 ^ 21 + 0x10 * 2 ^ 16))] (one (.pipe 0) epDesc)
theorem wit_ElementProgramsRunOverTheirTensors :
    epState.headOf 0 (.pipe 0) = some (queuedIn (.pipe 0) epDesc) ∧ epState.clean ∧ epState.tokensOk 0 (queuedIn (.pipe 0) epDesc).desc = true ∧
    (∀ x ∈ epState.eng[(0 : Fin 8)].queue, x.dir = none) ∧ fieldLE (queuedIn (.pipe 0) epDesc).desc 0 1 % 16 = 1 ∧
    progFits epState 0 (queuedIn (.pipe 0) epDesc).desc := by
  refine ⟨one_mem_head _ _ _, one_mem_clean _ _ _, ?_⟩
  unfold progFits
  decide +kernel

/-! ### ReductionsWriteTheirResults -/

/-- A REDUCE of one whole tile, to 32 results or to one. -/
def reduceDesc (full : Byte) : List Byte := [0x02, full, 32, 32, 0, 0, 1, 0] ++ toLE 4 0x1000 ++ toLE 4 (SPAD - 128)
theorem wit_ReductionsWriteTheirResults :
    (one .col (reduceDesc 16)).headOf 0 .col = some (queuedIn .col (reduceDesc 16)) ∧ (one (.pipe 3) (reduceDesc 0)).clean ∧
    ∀ f ∈ [(0 : Byte), 16], (one (.pipe 3) (reduceDesc f)).tokensOk 0 (queuedIn (.pipe 3) (reduceDesc f)).desc = true ∧
      (∀ x ∈ (one (.pipe 3) (reduceDesc f)).eng[(0 : Fin 8)].queue, x.dir = none) ∧
      (let b := (queuedIn (.pipe 3) (reduceDesc f)).desc;
        fieldLE b 0 1 % 16 = 2 ∧ (vfmt (fieldLE b 0 1 / 16)).map (·.width) = some 32 ∧ fieldLE b 1 1 % 8 ≤ 4 ∧ fieldLE b 6 2 ≠ 0 ∧ fieldLE b 2 1 % 64 = 32 ∧
        fieldLE b 3 1 % 64 = 32 ∧ inPad (d26 b 8) (fieldLE b 6 2 * 1024 * 4) = true ∧ inPad (d26 b 12) (if bit (fieldLE b 1 1) 4 then 4 else 128) = true) := by
  refine ⟨one_head _ _, one_clean _ _, ?_⟩
  decide +kernel

/-! ### QuantisersWriteTheirTensors -/

/-- A quantiser descriptor of kind `k` over 32 elements. -/
def quantDesc (k : Byte) : List Byte := [k, 0, 0, 0] ++ toLE 4 32 ++ toLE 4 0x1000 ++ toLE 4 0x4000 ++ toLE 4 0x8000 ++ toLE 4 64
/-- A scale record of 32 elements with sequence 0 at 0x8000. -/
def quantState (k : Byte) : State := withMem [(0x8000, toLE 4 0 ++ [1, 0, 0, 0])] (one (.pipe 2) (quantDesc k))
theorem wit_QuantisersWriteTheirTensors :
    (quantState 3).headOf 0 (.pipe 2) = some (queuedIn (.pipe 2) (quantDesc 3)) ∧ (quantState 6).clean ∧
    (∀ k ∈ [(3 : Byte), 4, 5, 6],
      (∀ x ∈ (quantState k).eng[(0 : Fin 8)].queue, x.dir = none) ∧ (quantState k).tokensOk 0 (queuedIn (.pipe 2) (quantDesc k)).desc = true ∧
      (let q := QntD.parse (queuedIn (.pipe 2) (quantDesc k)).desc;
        q.kind = k.toNat ∧ q.formatOk = true ∧ (∀ x ∈ q.spans, inPad x.1 x.2 = true) ∧
        q.spans.Pairwise (fun x y => x.1 + x.2 ≤ y.1 ∨ y.1 + y.2 ≤ x.1))) ∧
    (∀ k ∈ [(5 : Byte), 6], let q := QntD.parse (queuedIn (.pipe 2) (quantDesc k)).desc;
      ∀ b, b < q.blocks → recOk ((quantState k).bytes (key 0 (q.dscale + b * recBytes q.skind)) (recBytes q.skind)) ((q.base + b) % 2 ^ 16) q.skind q.efmt = true) := by
  refine ⟨one_mem_head _ _ _, one_mem_clean _ _ _, ?_⟩
  decide +kernel

/-! ### CollimatorChecksAndFills -/

/-- A Collimator descriptor of kind `k` over `n` bytes. -/
def colDesc (k pm n : Byte) : List Byte := [k, pm, 0, 0] ++ [n, 0, 0, 0] ++ toLE 4 0x1000 ++ toLE 4 0x2000 ++ toLE 8 0 ++ toLE 4 0x3000
theorem wit_CollimatorChecksAndFills :
    (one .col (colDesc 8 0 64)).headOf 0 .col = some (queuedIn .col (colDesc 8 0 64)) ∧ (one .col (colDesc 8 0 64)).clean ∧
    ∀ k ∈ [(8 : Byte), 9, 10, 11], ∀ n ∈ [(0 : Byte), 64],
      (∀ x ∈ (one .col (colDesc k 2 n)).eng[(0 : Fin 8)].queue, x.dir = none) ∧ (one .col (colDesc k 2 n)).tokensOk 0 (queuedIn .col (colDesc k 2 n)).desc = true ∧
      (let b := (queuedIn .col (colDesc k 2 n)).desc;
        fieldLE b 4 4 % 64 = 0 ∧ fieldLE b 8 4 % 64 = 0 ∧ fieldLE b 24 4 % 8 = 0 ∧ colRange (fieldLE b 8 4) (fieldLE b 4 4) = true ∧
        fieldLE b 0 1 % 16 = k.toNat ∧ colRange (fieldLE b 24 4) 8 = true ∧ fieldLE b 12 4 % 64 = 0 ∧ colRange (fieldLE b 12 4) (fieldLE b 4 4) = true ∧
        fieldLE b 1 1 % 4 ≠ 3) := by
  refine ⟨one_head _ _, one_clean _ _, ?_⟩
  decide +kernel

/-! ### SignalProgramsRunTheirOps -/

/-- A PROGRAM of `n` ops whose generators span signal memory; the op is a multiply-accumulate. -/
def sigDesc (n : Byte) : List Byte := [0x01, 0, n, 0] ++ toLE 4 0x1000 ++ List.replicate 20 0 ++ toLE 4 131072 ++ List.replicate 12 0 ++ toLE 4 131072
def sigState (n : Byte) : State := withMem [(0x1000, toLE 8 (1 * 2 ^ 58))] (one .signal (sigDesc n))
theorem wit_SignalProgramsRunTheirOps :
    (sigState 1).headOf 0 .signal = some (queuedIn .signal (sigDesc 1)) ∧ (sigState 1).clean ∧
    (sigState 0).tokensOk 0 (queuedIn .signal (sigDesc 0)).desc = true ∧ fieldLE (queuedIn .signal (sigDesc 0)).desc 2 1 % 128 = 0 ∧
    (let b := (queuedIn .signal (sigDesc 1)).desc;
      (sigState 1).tokensOk 0 b = true ∧ fieldLE b 0 1 % 16 = 1 ∧ fieldLE b 2 1 % 128 = 1 ∧ loopsOk 1 (List.replicate 4 ⟨0, 0, 0⟩) = true ∧
      (AgD.parse b 24).ok = true ∧ (AgD.parse b 40).ok = true ∧ inPad (d26 b 4) 8 = true ∧
      (SigOp.mk (leNat ((sigState 1).bytes (key 0 (d26 b 4)) 8))).ok = true) := by
  refine ⟨one_mem_head _ _ _, one_mem_clean _ _ _, ?_⟩
  decide +kernel
theorem wit_SignalProgramsRunTheirOps_samples :
    samplesFit ⟨false, [SigOp.mk (2 ^ 58)], List.replicate 4 ⟨0, 0, 0⟩, AgD.parse (queuedIn .signal (sigDesc 1)).desc 24, AgD.parse (queuedIn .signal (sigDesc 1)).desc 40⟩
      (SigOp.mk (2 ^ 58)) := by
  intro it hl hk
  have h0 : it = [0, 0, 0, 0] := by
    match it, hl with
    | [a, b, c, d], _ =>
      have ha := hk 0 (by decide)
      have hb := hk 1 (by decide)
      have hc := hk 2 (by decide)
      have hd := hk 3 (by decide)
      simp at ha hb hc hd
      simp [ha, hb, hc, hd]
  subst h0
  decide +kernel

/-! ### LoadsAndStoresMoveTensors -/

/-- A LOAD (kind 1) or STORE (kind 2) of 8-bit elements, shape record at 0x1000, remote side at the fabric address `r`, local side at 0x4000, on
stream 5. -/
def moveDesc (k : Byte) (sig : Nat) (r : Nat) : List Byte :=
  patch (List.replicate 64 0) 0 ([0x10 + k, 0, 0, 0] ++ toLE 8 r ++ toLE 4 0x4000 ++ toLE 4 0x1000 ++ toLE 2 5 ++ toLE 2 (sig * 4096) ++ toLE 2 1) |> fun b =>
    patch b 36 (toLE 4 64)
/-- A shape record of `w1` rows of 64 elements. -/
def shapeRec (w1 : Nat) : List Byte :=
  patch (List.replicate 64 0) 0 (toLE 4 64 ++ toLE 4 2 ++ toLE 4 1 ++ toLE 4 1 ++ toLE 4 64) |> fun b => patch b 36 (toLE 4 64 ++ toLE 4 w1)
def moveState (k : Byte) (sig r w1 : Nat) : State := withMem [(0x1000, shapeRec w1), (0x2000, [7, 8])] (one (.stream 1023) (moveDesc k sig r))
def ownAddr : Nat := 0xF * 2 ^ 60 + 0x2000
def hbmAddr : Nat := 0xF * 2 ^ 60 + 0x40 * 2 ^ 52 + 0x2000
theorem move_clean (k : Byte) (sig r w1 : Nat) : (moveState k sig r w1).clean := one_mem_clean _ _ _
theorem move_head (k : Byte) (sig r w1 : Nat) : (moveState k sig r w1).headOf 0 (.stream 1023) = some (queuedIn (.stream 1023) (moveDesc k sig r)) :=
  one_mem_head _ _ _
theorem wit_LoadsAndStoresMoveTensors_start (k : Byte) (hk : k ∈ [(1 : Byte), 2]) :
    mayStart (moveState k 0 ownAddr 2) 0 1023 (queuedIn (.stream 1023) (moveDesc k 0 ownAddr)) k.toNat := by
  refine ⟨move_head _ _ _ _, ?_, ?_, ?_, move_clean _ _ _ _, ?_⟩ <;> (revert k; decide +kernel)
theorem wit_LoadsAndStoresMoveTensors :
    let x (k : Byte) (sig r : Nat) := StrmD.parse (queuedIn (.stream 1023) (moveDesc k sig r)).desc
    let g (w1 : Nat) := Shape.parse ((moveState 1 0 ownAddr w1).bytes (key 0 0x1000) 64)
    (x 1 0 ownAddr).shape = 0x1000 ∧ (g 0).empty = true ∧ (g 2).empty = false ∧
    (moveState 1 0 ownAddr 2).sideOf 0 ownAddr = .own ∧
    (x 1 0 ownAddr).check (g 2) ((moveState 1 0 ownAddr 2).fillG 0 0) true = 0 ∧
    (x 2 0 ownAddr).sigmode ∉ [1, 2] ∧ (x 2 2 hbmAddr).sigmode ∈ [1, 2] ∧
    (x 2 1 hbmAddr).check (g 2) ((moveState 2 1 hbmAddr 2).fillG 0 0) false = 0 := by
  decide +kernel
/-- The engine and the HBM have stream 5. -/
def streams (s : State) : State :=
  (((s.setRegN (crdW0 0 0) 5).setRegN (crdW1 0 0) (2 ^ 31)).setRegN (crdW0 0x40 0) 5).setRegN (crdW1 0x40 0) (2 ^ 31)
theorem wit_LoadsAndStoresMoveTensors_unit :
    let s := streams (moveState 1 0 hbmAddr 2)
    let x := StrmD.parse (queuedIn (.stream 1023) (moveDesc 1 0 hbmAddr)).desc
    let g := Shape.parse (s.bytes (key 0 0x1000) 64)
    s.sideOf 0 hbmAddr = .unit 0x40 ∧ x.raddr = hbmAddr ∧ x.check g (s.fillG 0 0) false = 0 ∧ s.sideCause 0 (.unit 0x40) x.stream x.raddr = none ∧
    s.pairOf 0 x.stream = none ∧ s.winOk 0x40 0x2000 128 = true := by
  decide +kernel

/-! ### PairedTransfersMoveBlocksWithRecords -/

/-- A PLOAD (kind 3) or PSTORE (kind 4) of `n` blocks: remote data at 0x8000 and records at 0xA000, local data at 0x4000 and records at 0x6000. -/
def pairDesc (k n : Byte) : List Byte :=
  patch (List.replicate 64 0) 0 ([k, 0, 0, 0] ++ toLE 8 (0xF * 2 ^ 60 + 0x8000) ++ toLE 4 0x4000 ++ [n, 0]) |> fun b =>
    patch b 40 (toLE 2 6 ++ [0, 0] ++ toLE 8 (0xF * 2 ^ 60 + 0xA000) ++ toLE 4 0x6000)
/-- Its scale records carry sequences 0 and 1. -/
def pairState (k n : Byte) : State :=
  withMem [(0x6000, [0, 0, 0, 0, 1, 0, 0, 0]), (0x6040, [1, 0, 0, 0, 1, 0, 0, 0]), (0xA000, [0, 0, 0, 0, 1, 0, 0, 0]), (0xA040, [1, 0, 0, 0, 1, 0, 0, 0])]
    (one (.stream 0) (pairDesc k n))
theorem wit_PairedTransfersMoveBlocksWithRecords_start (k n : Byte) (hk : k ∈ [(3 : Byte), 4]) (hn : n ∈ [(0 : Byte), 2]) :
    mayStart (pairState k n) 0 0 (queuedIn (.stream 0) (pairDesc k n)) k.toNat := by
  refine ⟨one_mem_head _ _ _, ?_, ?_, ?_, one_mem_clean _ _ _, ?_⟩ <;> (revert k n; decide +kernel)
theorem wit_PairedTransfersMoveBlocksWithRecords :
    let s := pairState 3 2
    let x := StrmD.parse (queuedIn (.stream 0) (pairDesc 3 2)).desc
    let y := StrmD.parse (queuedIn (.stream 0) (pairDesc 4 2)).desc
    let nb := x.nblk * x.blockB
    let nr := x.nblk * x.recB
    x.nblk = 2 ∧ s.sideOf 0 x.raddr = .own ∧ s.sideOf 0 x.sraddr = .own ∧ x.pairedCheck true true = 0 ∧
    [(x.laddr, nb), (x.sladdr, nr), (offOf x.raddr, nb)].Pairwise (fun a b => a.1 + a.2 ≤ b.1 ∨ b.1 + b.2 ≤ a.1) ∧
    [(x.laddr, nb), (x.sladdr, nr), (offOf x.sraddr, nr)].Pairwise (fun a b => a.1 + a.2 ≤ b.1 ∨ b.1 + b.2 ≤ a.1) ∧
    x.raddr % 2 ^ 52 + nb < 2 ^ 52 ∧ x.sraddr % 2 ^ 52 + nr < 2 ^ 52 ∧
    (∀ i, i < x.nblk → x.recCheck i (s.bytes (key 0 (offOf x.sraddr + i * x.recB)) x.recB) = none) ∧
    y.nblk = 2 ∧ y.pairedCheck false false = 0 ∧
    (∀ i, i < y.nblk → y.recCheck i ((pairState 4 2).bytes (key 0 (y.sladdr + i * y.recB)) y.recB) = none) := by
  decide +kernel

/-! ### RemoteOperationsAreQueuedAndQueuesAge -/

/-- An RMO with operation code `op` of 8 bytes whose payload ends at the scratchpad's end. -/
def rmoDesc (op : Nat) : List Byte := [BitVec.ofNat 8 (5 + 16 * op), 0, 8, 0] ++ toLE 8 hbmAddr ++ toLE 4 (SPAD - 8) ++ toLE 4 (SPAD - 8)
theorem wit_RemoteOperationsAreQueuedAndQueuesAge_start (op : Fin 9) :
    mayStart (one (.stream 0) (rmoDesc op.val)) 0 0 (queuedIn (.stream 0) (rmoDesc op.val)) 5 := by
  refine ⟨one_head _ _, ?_, ?_, ?_, one_clean _ _, ?_⟩ <;> (revert op; decide +kernel)
theorem wit_RemoteOperationsAreQueuedAndQueuesAge :
    (∀ op ∈ [1, 2, 3, 4, 5, 6, 7, 8], let b := (queuedIn (.stream 0) (rmoDesc op)).desc;
      ((FabOp.ofCode (fieldLE b 0 1 / 16)).map fun o => o.returns || !o.returns) = some true ∧ d26 b 12 % 8 = 0 ∧
      d26 b 12 + fieldLE b 2 2 % 2 ^ 13 = SPAD ∧ d26 b 16 % 8 = 0 ∧
      (∀ o, FabOp.ofCode (fieldLE b 0 1 / 16) = some o → d26 b 16 + o.retLen (fieldLE b 2 2 % 2 ^ 13) ≤ SPAD)) ∧
    (let s := (owned base (partOf 1 1)).setRegN (key 0 (CTU + 0x4000C)) 1;
      let x : FabItem := ⟨.signal, ⟨0, 0, false, false, 0, 0, 0, 0, 0, 0, 0, 0, 0⟩, [], .none, streamQueue 0 0, 0, 0, [], false⟩;
      let t : State := { s with fab := { s.fab with waiting := [x] } };
      (t.queueDesc (streamQueue 0 0)).level ≤ 5 ∧ t.fld (key 0 (CTU + 0x4000C)) 15 0 ≠ 0 ∧ t.effLevel 0 0 < 6 ∧ ∃ i ∈ t.fab.waiting, i.queue = streamQueue 0 0) := by
  constructor
  · intro op hop
    have : ∀ op ∈ [1, 2, 3, 4, 5, 6, 7, 8], let b := (queuedIn (.stream 0) (rmoDesc op)).desc;
      ((FabOp.ofCode (fieldLE b 0 1 / 16)).map fun o => o.returns || !o.returns) = some true ∧ d26 b 12 % 8 = 0 ∧
      d26 b 12 + fieldLE b 2 2 % 2 ^ 13 = SPAD ∧ d26 b 16 % 8 = 0 ∧
      ((FabOp.ofCode (fieldLE b 0 1 / 16)).all fun o => decide (d26 b 16 + o.retLen (fieldLE b 2 2 % 2 ^ 13) ≤ SPAD)) = true := by decide +kernel
    have h := this op hop
    refine ⟨h.1, h.2.1, h.2.2.1, h.2.2.2.1, fun o ho => ?_⟩
    have h5 := h.2.2.2.2
    rw [ho] at h5
    exact of_decide_eq_true h5
  · decide +kernel

/-! ### RingCommandsCompleteWithTheirStatus -/

/-- A packet of opcode `op` of partition `part` (0xFF: the device) with parameter bytes `ps`, and its command on pair 1. -/
def pkt (op part : Nat) (ps : List Byte) : List Byte := patch (List.replicate 64 0) 0 (toLE 1 op ++ [0] ++ toLE 1 part ++ toLE 5 0 ++ toLE 8 5 ++ ps)
def cmd (op part : Nat) (ps : List Byte) : Cmd := ⟨1, 5, pkt op part ps, .accepted, 0, 0, 0, 0, 0, false, [], []⟩
/-- `s` with that command accepted. -/
def given (c : Cmd) (s : State) : State := { s with cmds := [c] }
theorem ready (s : State) (c : Cmd) (op : Nat) (h : (decide (s.nextCmd 1 = some c) && decide (c.op = op) && s.barrierOk c && s.fullIf && s.ledger.up &&
    decide (s.cmdOf c.id = some c) && !c.replay) = true) : Ready s 1 op c := by
  simp only [Bool.and_eq_true, decide_eq_true_eq, Bool.not_eq_true'] at h
  obtain ⟨⟨⟨⟨⟨⟨h1, h2⟩, h3⟩, h4⟩, h5⟩, h6⟩, h7⟩ := h
  exact ⟨h1, h2, h3, h4, h5, h6, h7⟩
theorem wit_RingCommandsCompleteWithTheirStatus_nop : Ready (given (cmd 0 0xFF []) base) 1 0 (cmd 0 0xFF []) := ready _ _ _ (by decide +kernel)
/-- The parameters of QUEUE_CONFIG for pair 2047, building it or (`del`) removing it. -/
def queuePs (del : Byte) : List Byte := toLE 2 2047 ++ [del, 7] ++ [4, 20] ++ toLE 2 0xFFFF ++ toLE 8 0x1000 ++ toLE 8 0x2000 ++ toLE 8 0xFFFFFFFFFFFFFFFF
theorem wit_RingCommandsCompleteWithTheirStatus_queue (del : Byte) (h : del ∈ [(0 : Byte), 1]) :
    let c := cmd 1 0xFF (queuePs del)
    let b := c.pkt.drop 16
    Ready (given c base) 1 1 c ∧ fieldLE b 0 2 = 2047 ∧ fieldLE b 0 2 ≠ c.pair ∧ fieldLE b 3 1 ≤ 7 ∧ (given c base).openCmds 2047 = [] ∧ pairOk b = true ∧
    bit (fieldLE b 2 1) 0 = decide (del = 1) ∧ fieldLE b 8 8 % 64 = 0 ∧ fieldLE b 16 8 % 64 = 0 := by
  refine ⟨ready _ _ _ ?_, ?_⟩ <;> (revert del; decide +kernel)
/-- A window of `2 ^ 32` bytes on HBM, which partition 0 owns. -/
theorem wit_RingCommandsCompleteWithTheirStatus_window :
    let c := cmd 2 0 ([15, 32, 1, 0, 0, 0, 0, 0] ++ toLE 8 (0xF * 2 ^ 60 + 0x40 * 2 ^ 52))
    let s := given c (owned base (partOf 1 0xFF))
    Ready s 1 2 c ∧ c.param 0 1 ≤ 15 ∧ c.param 1 1 = 32 ∧ c.param 8 8 / 2 ^ 60 = 0xF ∧ c.param 8 8 % 2 ^ 32 = 0 ∧
    (∀ p, c.partNo = some p → s.ownsRange p (unitOf (c.param 8 8)) (offOf (c.param 8 8)) (2 ^ 32) = true) := by
  refine ⟨ready _ _ _ ?_, ?_⟩ <;> decide +kernel
theorem wit_RingCommandsCompleteWithTheirStatus_close (en : Nat) (h : en ∈ [0, 1]) :
    let c := cmd 3 0 [15]
    let s := given c (base.setRegN (winKey 15 + 8) en)
    Ready s 1 3 c ∧ c.param 0 1 = 15 ∧ s.fld (winKey 15 + 8) 0 0 = en := by
  refine ⟨ready _ _ _ ?_, ?_⟩ <;> (revert en; decide +kernel)

/-! ### HostWritesOfRingPointers -/

/-- Pair 1 with rings of 16 entries for partition 0xFF. -/
def paired (s : State) : State := (s.setQueue 2 ⟨0x10000, 4, 0xFF, 0, true, 0, 0, 0xFFFF, 0⟩).setQueue 3 ⟨0x20000, 4, 0xFF, 0, true, 1, 0, 7, 0⟩
theorem wit_HostWritesOfRingPointers :
    (paired base).hostUp = true ∧ (paired base).fullIf = true ∧ (paired base).pairValid 1 = true ∧
    ringDist 16 ((paired base).regN (qAcc 1)) = 2 ^ ((paired base).queueDesc 2).log2size ∧
    2 ^ ((paired base).queueDesc 2).log2size < ringDist 17 ((paired base).regN (qAcc 1)) ∧
    ringDist 0 ((paired base).regN (qChead 1)) ≤ ringDist ((paired base).regN (qCtail 1)) ((paired base).regN (qChead 1)) ∧
    ringDist ((paired base).regN (qCtail 1)) ((paired base).regN (qChead 1)) < ringDist 1 ((paired base).regN (qChead 1)) ∧
    base.openCmds 0 = [] ∧
    (let s := (base.setRegN (key BAR0 0x1004) 0x0404).setRegN (key BAR0 0x1008) 0x40; pairOk s.admBytes = true ∧ fieldLE s.admBytes 0 2 = 0) := by
  decide +kernel

/-! ### AcceptanceAndCompletionOfRingEntries -/

/-- Pair 1 with a NOP of sequence `n` in its first entry. -/
def entry (n : Nat) : State :=
  let s := { paired base with power := { base.power with busMaster := true } }
  (s.hostWrite 0x10000 (patch (pkt 0 0xFF []) 8 (toLE 8 n))).setRegN (qTail 1) 1
theorem wit_AcceptanceAndCompletionOfRingEntries_accept (n : Nat) (h : n ∈ [0, 1]) :
    (entry n).fullIf = true ∧ (entry n).master = true ∧ (entry n).pairValid 1 = true ∧ (entry n).ledger.up = true ∧
    (entry n).regN (qAcc 1) ≠ (entry n).regN (qTail 1) ∧ (entry n).ledgerReserve < (entry n).ledger.free ∧ (entry n).cmdOf (1, n) = none ∧
    fieldLE ((entry n).entryAt 1) 8 8 = n ∧ (entry n).reg64 (qNextseq 1) = 0 ∧ (entry n).fld (qStatus 1) 0 0 = 0 := by
  revert n; decide +kernel
theorem wit_AcceptanceAndCompletionOfRingEntries_complete :
    let c : Completion := ⟨1, 5, 0, 0, 0, true⟩
    let s := { paired base with completions := [c], power := { base.power with busMaster := true } }
    s.master = true ∧ s.regN (qAcc 1) = s.regN (qTail 1) ∧ s.completions.find? (fun c => decide (c.pair = 1)) = some c ∧ s.ringFull 1 = false ∧
    (s.queueDesc 3).msix ≤ 2047 ∧ s.fld (msixEntry 7 + 0xC) 0 0 = 1 ∧ (s.setRegN (msixEntry 7 + 0xC) 0).fld (msixEntry 7 + 0xC) 0 0 = 0 := by
  decide +kernel

/-! ### HostAccessesThroughWindows -/

/-- Window 0 of 4 KiB on HBM, writable or (`w` 1) not; unit 0x62's stream is known there. -/
def window (w : Nat) : State :=
  let s := (base.setReg64 (winKey 0) (0xF * 2 ^ 60 + 0x40 * 2 ^ 52)).setRegN (winKey 0 + 8) (w + 4 * 12)
  (s.setRegN (crdW0 0x40 0) 0xFFFD).setRegN (crdW1 0x40 0) (2 ^ 31)
theorem wit_HostAccessesThroughWindows :
    let s := window 3
    let a := 0x40 * 2 ^ 52
    s.hostUp = true ∧ s.fullIf = true ∧ s.ucie.retraining = false ∧ s.winAt 0 = some (0, a) ∧ devOf a = s.ownChain ∧
    s.landCause (s.winItem .get a 4096 []) (unitOf a) = 0 ∧ offOf a < CTL ∧ s.winAt 0x1000 = none ∧ (0x1000 % 4096 + 4096 ≤ 4096) ∧
    (window 1).winAt 0 = some (0, a) ∧ (window 1).fld (winKey 0 + 8) 1 1 = 0 ∧ s.fld (winKey 0 + 8) 1 1 = 1 ∧
    s.landCause (s.winItem .put a 1 [1]) (unitOf a) = 0 ∧ offOf a + 1 ≤ CTL ∧ engOf (unitOf a) = none := by
  decide +kernel
theorem wit_HostAccessesThroughWindows_clean : (window 3).clean := clean_of_list _ rfl (by decide +kernel)

/-! ### MailboxesAndDoorbells -/

theorem wit_MailboxesAndDoorbells :
    Answers base 0 0x60 (CTM + 0x40) ∧ Answers base 0x60 7 (CTM + 0x80 * 31 + 0x44) ∧ Answers base 0x60 7 (CTM + 0x1004) ∧
    base.fld (key 0x60 (CTM + 0x40)) 0 0 = 0 ∧
    (let s := base.setRegN (key 7 (CTM + 0x80 * 31 + 0x40)) 1; Answers s 0x60 7 (CTM + 0x80 * 31 + 0x44) ∧ Answers s 0x60 7 (CTM + 0x80 * 31 + 0x40) ∧
      s.fld (key 7 (CTM + 0x80 * 31 + 0x40)) 0 0 = 1 ∧ s.fld (key 7 (CTM + 0x80 * 31 + 0x48)) 31 31 = 0 ∧
      (s.setRegN (key 7 (CTM + 0x80 * 31 + 0x48)) (2 ^ 31)).fld (key 7 (CTM + 0x80 * 31 + 0x48)) 31 31 = 1) := by
  unfold Answers; decide +kernel

/-! ### PartitionsAreCreatedAndDestroyed -/

/-- The parameters of PART_CREATE for `partOf cls mask` as partition `n`. -/
def partPs (n cls mask : Nat) : List Byte :=
  toLE 1 n ++ toLE 1 cls ++ [0, 3] ++ toLE 1 mask ++ [0, 0xFF, 0] ++ toLE 8 0 ++ toLE 8 0x1800000000 ++ toLE 4 0 ++ toLE 4 0x4000000 ++ toLE 2 100
theorem wit_PartitionsAreCreatedAndDestroyed_create (n : Nat) (hn : n ∈ [0, 7]) (cls : Nat) (hc : cls ∈ [0, 3]) (off : Bool) :
    let c := cmd 0x10 n (partPs n cls 0x81)
    let s := given c (if off then { base with eng := Vector.replicate 8 Engine.reset } else base)
    let q := Part.parse (c.pkt.drop 16)
    Ready s 1 0x10 c ∧ fieldLE (c.pkt.drop 16) 0 1 = n ∧ s.partBad c n q = false ∧ s.partBusy n q = false ∧ q = partOf cls 0x81 ∧
    (∀ e : Fin 8, (bit (q.engmask ||| q.borrow) e.val = true ∧ s.eng[e].power = .off) ↔ (off = true ∧ e ∈ [0, 7])) := by
  refine ⟨ready _ _ _ ?_, ?_⟩ <;> (revert n cls off; decide +kernel)
theorem wit_PartitionsAreCreatedAndDestroyed_destroy :
    let c := cmd 0x11 0 [0]
    let s := given c (owned base (partOf 1 0xFF))
    Ready s 1 0x11 c ∧ c.param 0 1 = 0 ∧ s.parts[(0 : Fin 8)] = some (partOf 1 0xFF) ∧ s.jobs = [] ∧ s.partCarriers 0 = [] ∧ s.queues = [] ∧
    (partOf 1 0xFF).lends = false ∧ (∀ k : Fin 8, k ≠ 0 → s.parts[k] = none) := by
  refine ⟨ready _ _ _ ?_, ?_⟩ <;> decide +kernel

/-! ### JobsAreLoadedUnloadedAndAborted -/

/-- An image of one command entry on engine 0, without STATE buffers. -/
def image1 (cls l : Nat) : List Byte :=
  toLE 4 0x534C4A31 ++ toLE 2 0 ++ toLE 1 cls ++ toLE 1 l ++ toLE 2 1 ++ toLE 2 0 ++ toLE 4 0x40000 ++ toLE 4 0xFFFFFFFF ++ toLE 4 0 ++ toLE 4 0
    ++ toLE 4 64 ++ toLE 4 36 ++ List.replicate 28 0 ++ toLE 2 1 ++ [1] ++ List.replicate 61 0
def loaded (cls : Nat) : State := withMem [(0x40 * 2 ^ 52 + 0x1000, image1 cls 8)] (owned base (partOf cls 0xFF))
/-- The parameters of JOB_LOAD for that image in slot 7. -/
def loadPs : List Byte := [7, 7, 0, 0] ++ toLE 4 128 ++ toLE 8 0x1000 ++ toLE 8 (2 ^ 64 - 1) ++ toLE 16 0
/-- All but the signature and the streams, which the spec leaves to the image format's open parts. -/
theorem wit_JobsAreLoadedUnloadedAndAborted_load :
    let c := cmd 0x12 0 loadPs
    let s := given c (loaded 1)
    Ready s 1 0x12 c ∧ s.clean ∧ c.partNo = some 0 ∧ s.parts[(0 : Fin 8)] = some (partOf 1 0xFF) ∧ c.param 0 1 = 7 ∧ c.param 1 1 = 7 ∧ c.param 4 4 = 128 ∧
    (partOf 1 0xFF).inHbm (c.param 8 8) 128 = true ∧ s.imageOk (partOf 1 0xFF) (s.bytes (key 0x40 (c.param 8 8)) 128) = true ∧ s.jobAt 0 7 = none := by
  refine ⟨ready _ _ _ ?_, clean_of_list _ rfl (by show (base.regs.all _) = true; decide +kernel), ?_⟩ <;> decide +kernel
/-- The job of that image in slot 3 of partition 0. -/
def job3 (cls : Nat) : Job := { Job.ofImage 0 3 3 0x1000 128 5 [1, 2, 3, 4] (image1 cls 8) with ctx := 0x40000 }
/-- A JOB_CMD of entry `n` of that job on pair `p` in phase `f`. -/
def jobCommand (p n : Nat) (f : CmdPhase) : Cmd :=
  { cmd 0x13 0 ([3, 0] ++ toLE 2 n ++ toLE 4 0 ++ toLE 8 0x2000 ++ toLE 4 64) with pair := p, phase := f }
def withJob (cls : Nat) (cs : List Cmd) : State := { loaded cls with jobs := [job3 cls], cmds := cs }
theorem wit_JobsAreLoadedUnloadedAndAborted_cmd (n : Nat) (h : n ∈ [0, 1]) :
    let c := jobCommand 1 n .accepted
    Ready (withJob 1 [c]) 1 0x13 c ∧ (withJob 1 [c]).jobCmdCheck c = if n = 0 then none else some 0xC := by
  refine ⟨ready _ _ _ ?_, ?_⟩ <;> (revert n; decide +kernel)
theorem wit_JobsAreLoadedUnloadedAndAborted_unload :
    let c := cmd 0x14 0 [3]
    let s := withJob 1 [c]
    Ready s 1 0x14 c ∧ s.jobAt c.part (c.param 0 1) = some (job3 1) ∧ s.jobCmds 0 3 = [] ∧ s.servesCarrier 0 3 = false := by
  refine ⟨ready _ _ _ ?_, ?_⟩ <;> decide +kernel
/-- One command of the job runs on engine 7 and one waits. -/
def aborts : State :=
  (withJob 1 [jobCommand 2 0 .running, jobCommand 3 0 .waiting, cmd 0x15 0 [3]]).modEng 7 fun x => { x with cmd := some (2, 5), state := .waiting }
theorem wit_JobsAreLoadedUnloadedAndAborted_abort :
    let c := cmd 0x15 0 [3]
    Ready aborts 1 0x15 c ∧ aborts.jobAt c.part (c.param 0 1) = some (job3 1) ∧ aborts.isRealtime c.partNo = false ∧ (aborts.cmds.map Cmd.id).Nodup ∧
    aborts.jobCmds 0 3 = [jobCommand 2 0 .running, jobCommand 3 0 .waiting] ∧ (∀ x ∈ aborts.jobCmds 0 3, x.replay = false) ∧
    aborts.eng[(7 : Fin 8)].cmd = some (jobCommand 2 0 .running).id ∧ aborts.eng[(7 : Fin 8)].state = .waiting := by
  refine ⟨ready _ _ _ ?_, ?_⟩ <;> decide +kernel

/-! ### JobCommandsStartAndCommit -/

theorem wit_JobCommandsStartAndCommit_start (cls : Nat) (h : cls ∈ [0, 2]) :
    let c := jobCommand 2 0 .waiting
    let s := withJob cls [c]
    s.runningJob 0 = none ∧ s.parts[(0 : Fin 8)] = some (partOf cls 0xFF) ∧ s.pickJob 0 = some (job3 cls) ∧
    s.pickCmd (partOf cls 0xFF) (job3 cls) = some (c, false) ∧ s.cmdOf c.id = some c ∧
    (partOf cls 0xFF).startEngines (s.entryOf c) = [0] ∧ s.mayStart (partOf cls 0xFF) [0] (s.entryOf c) = true ∧ s.fullIf = true := by
  revert cls; decide +kernel
/-- A command of the job, replayed or not, that has ended on engine 0. -/
def ended (r : Bool) : State :=
  (withJob 1 [{ jobCommand 2 0 .running with replay := r }]).modEng 0 fun x => { x with cmd := some (2, 5), ended := true, state := .halted }
theorem facet_idle (r : Bool) (u q : Nat) : (ended r).fctBusy (u % 8) (q % 32) = false := by
  have h : ∀ (r : Bool) (u : Fin 8) (q : Fin 32), (ended r).fctBusy u.val q.val = false := by decide +kernel
  exact h r ⟨u % 8, Nat.mod_lt _ (by decide)⟩ ⟨q % 32, Nat.mod_lt _ (by decide)⟩
theorem ended_cmd (r : Bool) : (ended r).cmdEnded { jobCommand 2 0 .running with replay := r } = true := by
  unfold State.cmdEnded
  rw [Bool.and_eq_true]
  refine ⟨by revert r; decide +kernel, List.all_eq_true.2 fun x _ => ?_⟩
  rw [facet_idle]; rfl
theorem wit_JobCommandsStartAndCommit_commit :
    let s := ended false
    let c := jobCommand 2 0 .running
    s.cmds.find? (fun c => decide (c.op = 0x13) && decide (c.part = 0) && s.cmdEnded c && !(s.mustHold c)) = some c ∧
    s.jobOf c = some (job3 1) ∧ s.cmdOf c.id = some c ∧ c.replay = false ∧ s.ledger.up = true := by
  refine ⟨List.find?_cons_of_pos ?_, ?_⟩
  · rw [ended_cmd]; decide +kernel
  · decide +kernel

/-! ### LedgerRecordsAreCommittedAndRead -/

/-- A record of type `type` waits. -/
def recording1 (type : Nat) : State := { base with ledger := { base.ledger with queue := [(type, [1, 2, 3])] } }
theorem wit_LedgerRecordsAreCommittedAndRead_commit (type : Nat) (h : type ∈ [5, 7]) :
    (recording1 type).ledger.up = true ∧ (recording1 type).ledger.queue = [(type, [1, 2, 3])] ∧
    (recording1 type).dropsEvent type [1, 2, 3] = false ∧ (recording1 type).ledger.copy0 = true ∧ (recording1 type).ledger.copy1 = true := by
  revert type; decide +kernel
/-- With `n` commands accepted, 1 KiB of the ledger is kept for each: the 48 MiB leave no space for an EVENT from `n` = 48128 on. -/
def crowded (n : Nat) : State := { recording1 5 with cmds := List.replicate n (cmd 0 0xFF []) }
theorem crowded_reserve (n : Nat) : (crowded n).ledgerReserve = 2 ^ 20 + 1024 * n := by
  unfold State.ledgerReserve crowded
  rw [List.filter_replicate_of_pos rfl, List.length_replicate]
theorem wit_LedgerRecordsAreCommittedAndRead_drop (n : Nat) (h : 48128 ≤ n) :
    (crowded n).ledger.up = true ∧ (crowded n).ledger.queue = [(5, [1, 2, 3])] ∧ (crowded n).dropsEvent 5 [1, 2, 3] = true := by
  have hf : (recording1 5).ledger.free ≤ 0x3000000 := by decide +kernel
  refine ⟨(by decide +kernel : (recording1 5).ledger.up = true), rfl, ?_⟩
  unfold State.dropsEvent
  rw [crowded_reserve, Bool.and_eq_true, decide_eq_true_eq, decide_eq_true_eq]
  have hl : (crowded n).ledger = (recording1 5).ledger := rfl
  have hr : recSize [1, 2, 3] = 64 := rfl
  rw [hl, hr]
  omega
theorem wit_LedgerRecordsAreCommittedAndRead_read (room : Nat) (h : room ∈ [0, 4096]) :
    let c := cmd 0x58 0xFF (toLE 8 0 ++ toLE 8 0x1000 ++ toLE 4 room ++ toLE 4 0xFFFFFFFF)
    let s := given c { base with power := { base.power with busMaster := true } }
    Ready s 1 0x58 c ∧ s.ledger.up = true ∧ c.param 16 4 = room ∧ c.param 0 8 < s.ledger.next ∧ s.ledger.oldest ≤ c.param 0 8 ∧ c.param 8 8 % 64 = 0 ∧
    s.master = true ∧ ((takeFit room (s.ledger.recs.filter fun r => decide (c.param 0 8 ≤ r.lseq) && bit (c.param 20 4) r.type)) ≠ [] ↔ room ≠ 0) := by
  refine ⟨ready _ _ _ ?_, ?_⟩ <;> (revert room; decide +kernel)

/-! ### MirrorRecordsAndStops -/

/-- MIRROR_CTL with OP `op` and a region of 2 MiB at 2 MiB. -/
def mirrorCmd (op : Nat) : Cmd :=
  cmd 0x40 0xFF (toLE 1 op ++ toLE 7 0 ++ toLE 8 0x200000 ++ toLE 8 0x200000 ++ toLE 4 0xFFFFFF ++ [0xFF, 0x3F])
def mirrored (r : Nat) (s : State) : State :=
  { s.setRegN (mirKey 0) r with mirror := { s.mirror with base := 0x200000, size := 0x200000, jseq := 1 } }
theorem wit_MirrorRecordsAndStops_start :
    let c := mirrorCmd 0
    let s := given c base
    Ready s 1 0x40 c ∧ c.param 0 1 = 0 ∧ c.param 8 8 = 0x200000 ∧ c.param 16 8 = 0x200000 ∧ 0x400000 ≤ s.hbmBytes ∧ s.partList = [] ∧
    s.mirrorInUse = false ∧ s.mirrorNoRoom (s.startPayload (c.param 28 1)).length = false := by
  refine ⟨ready _ _ _ ?_, ?_⟩ <;> decide +kernel
theorem wit_MirrorRecordsAndStops_stop (r : Nat) (h : r ∈ [0, 1]) :
    let c := mirrorCmd 1
    let s := given c (mirrored r base)
    Ready s 1 0x40 c ∧ c.param 0 1 = 1 ∧ s.recording = decide (r = 1) := by
  refine ⟨ready _ _ _ ?_, ?_⟩ <;> (revert r; decide +kernel)
theorem wit_MirrorRecordsAndStops_full :
    let s := (mirrored 1 base).setReg64 (mirKey 4) (0x200000 - 96)
    s.recording = true ∧ s.journalFull 1 = true ∧ s.computeUp = true := by decide +kernel
theorem wit_MirrorRecordsAndStops_gap :
    let s := { mirrored 1 base with mirror := { (mirrored 1 base).mirror with gap := 3 } }
    s.recording = true ∧ s.mirror.gap ≠ 0 ∧ s.mirrorNoRoom 4 = false ∧ s.computeUp = true := by decide +kernel

/-! ### ReplaysRunHoldAndRelease -/

/-- A journal at 2 MiB of HBM with a START record for partition 0 without jobs, and a record of kind `k`. -/
def journal2 (k : Nat) : List Byte :=
  journalBytes 1 0x48 0 7 0 (toLE 4 0 ++ [0, 1, 8, 0]) ++ journalBytes k 0x48 0 9 1 [1, 2, 3, 4]
def replayPs (op : Nat) : List Byte :=
  toLE 1 op ++ [0, 1, 0, 0, 0, 0, 0] ++ toLE 8 0x200000 ++ toLE 8 0x200000 ++ toLE 8 (2 ^ 64 - 1) ++ [0]
def replays (k : Nat) (s : State) : State := withMem [(0x40 * 2 ^ 52 + 0x200000, journal2 k)] (owned s (partOf 1 0xFF))
theorem wit_ReplaysRunHoldAndRelease_start :
    let c := cmd 0x41 0xFF (replayPs 0)
    let s := given c (replays 2 base)
    Ready s 1 0x41 c ∧ c.param 0 1 = 0 ∧ c.param 8 8 = 0x200000 ∧ s.hbmN 0x200000 1 = 1 ∧ s.hbmN 0x200004 4 = 8 ∧
    fieldLE (s.hbm 0x200020 8) 2 2 = s.fwVersion / 2 ^ 16 ∧ (List.finRange 8).filter (fun p => bit (c.param 2 1) p.val) = [0] ∧
    s.startAgrees (s.hbm 0x200020 8) 0 = true ∧ s.mirrorInUse = false ∧ s.partCarriers 0 = [] ∧ s.queues = [] := by
  refine ⟨ready _ _ _ ?_, ?_⟩ <;> decide +kernel
/-- A replay that stands after the START record and stops at step 0 of job 3 of partition 0. -/
def replay2 : Replay := ⟨(1, 5), 1, 0x200000, 0x200000, 64, false, false, 0, (3, 0), 7, [], 0, false, false⟩
def replaying (s : State) : State := { s with mirror := { s.mirror with replay := some replay2 } }
theorem wit_ReplaysRunHoldAndRelease_record (k : Nat) (h : k ∈ [0, 1, 2, 0x11, 0x12, 0x30, 0x40]) :
    let s := replaying (replays k base)
    s.mirror.replay = some replay2 ∧ s.computeUp = true ∧ s.replayBusy replay2 = false ∧ replay2.pos + 32 ≤ replay2.size ∧
    s.hbmN (replay2.base + replay2.pos) 1 = k := by
  revert k; decide +kernel
theorem replaying_ended (s : State) (c : Cmd) : (replaying s).cmdEnded c = s.cmdEnded c := rfl
theorem wit_ReplaysRunHoldAndRelease_hold :
    let s := replaying (ended true)
    let c : Cmd := { jobCommand 2 0 .running with replay := true }
    s.mirror.replay = some replay2 ∧ s.cmds.find? (fun c => decide (c.op = 0x13) && c.replay && s.cmdEnded c && s.mustHold c) = some c := by
  refine ⟨rfl, List.find?_cons_of_pos ?_⟩
  rw [replaying_ended, ended_cmd]; decide +kernel
theorem wit_ReplaysRunHoldAndRelease_release (h : Option (Nat × Nat)) (hh : h ∈ [none, some (2, 5)]) :
    let c := cmd 0x41 0xFF (replayPs 1)
    let s := given c { base with mirror := { base.mirror with held := h } }
    Ready s 1 0x41 c ∧ c.param 0 1 = 1 ∧ s.mirror.held = h ∧ (2, 5) ≠ c.id := by
  refine ⟨ready _ _ _ ?_, ?_⟩ <;> (revert h; decide +kernel)

/-! ### OperationsTakeEffectAtTheirTargets -/

/-- An operation of engine 1 for `n` bytes at 0x2000 of unit `u`, on stream 5 with sequence `q`; its data returns to engine 1's 0x3000. -/
def opItem (o : FabOp) (u n q : Nat) (p : List Byte) : FabItem where
  op := o
  hdr := { base.mkHdr 1 (0xF * 2 ^ 60 + u * 2 ^ 52 + 0x2000) n 7 q 5 9 with rctr := 3, prio := 4, raddr := BitVec.ofNat 64 (base.ownChain * 2 ^ 60 + 2 ^ 52 + 0x3000) }
  payload := p
  owner := .none
  queue := 4096 + 1024
  since := 0
  level := 0
  tgts := [base.ownChain * 256 + u]
/-- Stream 5 at engine 0 and, with a reorder window of 4, at the HBM; `xs` in flight. -/
def inFlightS (xs : List FabItem) : State :=
  let s := (streams base).setRegN (crdW1 0x40 0) (2 ^ 31 + 4 * 2 ^ 24 + 16 * 2 ^ 12)
  { s with mem := [(key 0x40 0x2000, 1)], fab := { s.fab with flight := xs } }
/-- Length and payload of each operation. -/
def opForm (o : FabOp) : Nat × List Byte :=
  match o with
  | .put | .putSignal => (3, [1, 2, 3])
  | .get => (3, [])
  | .signal => (0, [])
  | .atomicAdd | .fetchAdd => (4, [255, 0, 0, 0])
  | .cas => (8, [1, 0, 0, 0, 5, 6, 7, 8])
  | .orderedFadd => (8, toLE 4 0x3F800000 ++ toLE 4 0x40000000)
def allOps : List FabOp := [.put, .get, .putSignal, .signal, .atomicAdd, .fetchAdd, .cas, .orderedFadd]
theorem inFlight_clean (xs : List FabItem) : (inFlightS xs).clean :=
  clean_of_list _ rfl (by show (((streams base).setRegN (crdW1 0x40 0) (2 ^ 31 + 4 * 2 ^ 24 + 16 * 2 ^ 12)).regs.all _) = true; decide +kernel)
theorem wit_OperationsTakeEffectAtTheirTargets (o : FabOp) (h : o ∈ allOps) (u : Nat) (hu : u ∈ [0, 0x40]) (far : Bool) :
    let x := opItem o u (opForm o).1 0 (opForm o).2
    let s := inFlightS [if far then { x with hdr := { x.hdr with stream := 6 } } else x]
    let y := if far then { x with hdr := { x.hdr with stream := 6 } } else x
    Arrives s y u (if far then 6 else 0) ∧ s.fromHere y.hdr = true ∧ offOf y.hdr.addr.toNat + y.hdr.len.toNat ≤ SPAD ∧
    devOf y.hdr.raddr.toNat = s.ownChain ∧ (∀ e : Fin 8, s.pairOf e 5 = none) := by
  refine ⟨⟨⟨0, ?_⟩, ?_, ?_, ?_, ?_, ?_, inFlight_clean _⟩, ?_⟩ <;> (revert o u far; decide +kernel)
/-- ORDERED_FADD in its turn, ahead of it inside the window, and outside the window. -/
theorem wit_OperationsTakeEffectAtTheirTargets_order (q : Nat) (h : q ∈ [0, 3, 4]) :
    let x := opItem .orderedFadd 0x40 8 q (opForm .orderedFadd).2
    let s := inFlightS [x]
    x.hdr.unord = false ∧ s.streamEntry 0x40 5 = some 0 ∧ s.crdWin 0x40 0 = 4 ∧ s.holdsSeq 0x40 5 q = false ∧
    (x.hdr.seq.toNat + 2 ^ 16 - s.nextSeq 0x40 0) % 2 ^ 16 = q := by
  revert q; decide +kernel

/-! ### AnswersCreditsAndReleases -/

/-- A return of 3 bytes from the HBM to engine 1's 0x2000. -/
def retItem : RetItem :=
  ⟨{ opItem .putSignal 1 3 0 [1, 2, 3] with hdr := { (opItem .putSignal 1 3 0 []).hdr with srcUnit := 0x40, tinc := 1 } }, 1, .get, 0, false⟩
def returning : State :=
  let s := ((streams base).setRegN (crdW0 1 0) 5).setRegN (crdW1 1 0) (2 ^ 31)
  { s with fab := { s.fab with rets := [retItem] } }
theorem wit_AnswersCreditsAndReleases_return :
    let src := BitVec.ofNat 12 (base.ownChain * 256 + 0x40)
    takeFirst (fun (r : RetItem) => decide (hdrSrc r.item.hdr = src.toNat) && decide (returning.ownChain * 256 + 1 ∈ r.item.tgts) &&
      decide (r.item.hdr.stream = 5)) returning.fab.rets = some (retItem, []) ∧ returning.clean ∧ returning.ucie.retraining = false ∧
    returning.landCause { retItem.item with owner := .none } 1 = 0 ∧ offOf retItem.item.hdr.addr.toNat + 3 ≤ SPAD ∧ returning.pairOf 1 5 = none ∧
    returning.ownerGone retItem.item.owner = false := by
  refine ⟨by decide +kernel, clean_of_list _ rfl ?_, ?_⟩ <;> decide +kernel
/-- An error response for engine 0's descriptor 0 or for nobody; one was recorded before or not (`v`). -/
def erring (w : Owner) (v : Nat) : State :=
  { (queues 0 [] base).setRegN (key 0 CTL) v with fab := { base.fab with errs := [⟨0, 6, 1, 5, 0x2000, w⟩] } }
theorem wit_AnswersCreditsAndReleases_error (w : Owner) (h : w ∈ [Owner.none, .desc 0 0]) (v : Nat) (hv : v ∈ [0, 1]) :
    takeFirst (fun (r : ErrItem) => decide (r.unit = 0)) (erring w v).fab.errs = some (⟨0, 6, 1, 5, 0x2000, w⟩, []) ∧
    (erring w v).fld (key 0 CTL) 0 0 = v := by
  revert w v; decide +kernel
theorem wit_AnswersCreditsAndReleases_credit :
    let i : Ingress := ⟨base.ownChain * 256 + 0x40, 5, 1, false, true, .desc 0 3⟩
    let s := { base with fab := { base.fab with ingress := [i] } }
    takeFirst (fun (i : Ingress) => decide (i.unit = s.ownChain * 256 + 0x40) && decide (i.stream = 5) && i.arrived) s.fab.ingress = some (i, []) := by
  decide +kernel
/-- Held operations of sequence 1 and 0: the second is next. -/
def holding : State :=
  let s := inFlightS []
  { s with fab := { s.fab with held := [1, 0].map fun q => (0x40, opItem .orderedFadd 0x40 8 q (opForm .orderedFadd).2) } }
theorem wit_AnswersCreditsAndReleases_release :
    let x (q : Nat) := opItem .orderedFadd 0x40 8 q (opForm .orderedFadd).2
    holding.streamEntry 0x40 5 = some 0 ∧
    takeFirst (fun (h : Nat × FabItem) => decide (h.1 = 0x40) && decide (h.2.hdr.stream = 5) && decide (h.2.hdr.seq.toNat = holding.nextSeq 0x40 0)) holding.fab.held =
      some ((0x40, x 0), [(0x40, x 1)]) ∧
    holding.unitCause 0x40 (holding.srcOf (x 0).hdr) = 0 ∧ holding.clean := by
  refine ⟨by decide +kernel, by decide +kernel, by decide +kernel, inFlight_clean []⟩

/-! ### QueuesIssueAndAge -/

/-- `xs` wait at their sources. -/
def waiting (xs : List FabItem) : State := { inFlightS [] with fab := { base.fab with waiting := xs } }
theorem wit_QueuesIssueAndAge_issue :
    let x := opItem .put 0x40 3 0 [1, 2, 3]
    let s := waiting [x]
    takeFirst (fun (x : FabItem) => decide (x.hdr.srcUnit.toNat = 1) && decide (x.queue = 5120)) s.fab.waiting = some (x, []) ∧ s.wins 1 x = true ∧
    s.rmoOf x = none ∧ (mergeRun x []).2.2 = 0 ∧ s.targets x.op x.hdr = .inr x.tgts ∧ x.tgts ≠ [] ∧ (∀ t ∈ x.tgts, s.sourceCause x t = 0) ∧
    (s.creditsFor x x.tgts).isSome = true := by
  decide +kernel
/-- An operation of higher priority goes first; a GET to a group has no targets. -/
theorem wit_QueuesIssueAndAge_others :
    let x := { opItem .put 0x40 3 0 [1, 2, 3] with queue := 16000 }
    let y := { x with queue := 16001, hdr := { x.hdr with prio := 5 } }
    let z := { opItem .get 0x40 3 0 [] with hdr := { x.hdr with mc := true } }
    (waiting [x, y]).wins 1 x = false ∧ (waiting [z]).wins 1 z = true ∧ (waiting [z]).rmoOf z = none ∧ (mergeRun z []).2.2 = 0 ∧
    (waiting [z]).targets z.op z.hdr = .inl 4 ∧ z.owner = .none ∧ (waiting [x]).headItem 1 16000 = some x ∧ (waiting [x]).effPrio x < 14 := by
  decide +kernel
/-- The one member of group 31, engine 0, has no credit to give. -/
theorem wit_QueuesIssueAndAge_slow :
    let x := { opItem .put 0x40 3 0 [1, 2, 3] with hdr := { (opItem .put 31 3 0 []).hdr with mc := true } }
    let s := ((waiting [x]).setRegN (key 0x60 (CTL + 0x1100 + 16 * 31)) 1).setRegN (key 0x60 (CTL + 0x1104 + 16 * 31)) 1
    let t : State := { s with fab := { s.fab with ingress := [⟨s.ownChain * 256, 6, 4096, false, false, .none⟩] } }
    t.fab.waiting.find? (fun x => x.hdr.mc && decide (unitOf x.hdr.addr.toNat = 31)
        && decide ((t.headItem x.hdr.srcUnit.toNat x.queue) = some x) && t.waitsCredits x) = some x := by
  decide +kernel
theorem wit_QueuesIssueAndAge_wake :
    let s := base.modEng 7 fun x => { x with power := .idle }
    s.computeUp = true ∧ s.eng[(7 : Fin 8)].power = .idle := by decide +kernel

/-! ### StallIsRaisedAndTheOperationKeepsWaiting -/

theorem wit_StallIsRaisedAndTheOperationKeepsWaiting :
    let x := opItem .put 0x40 3 0 [1, 2, 3]
    let s : State := { waiting [x] with fab := { (waiting [x]).fab with ingress := [⟨base.ownChain * 256 + 0x40, 6, 8192, false, false, .none⟩] } }
    s.headItem 1 5120 = some x ∧ x.stalled = false ∧ s.waitsCredits x = true := by
  decide +kernel

/-! ### RegisterWritesFollowTheirAccessCodes -/

/-- ENG_BLOCK_LIMIT of an engine takes writes from the anchor only, and 0x8C of the fabric's block is no register. -/
theorem wit_RegisterWritesFollowTheirAccessCodes :
    base.unitCause 7 0x60 = 0 ∧ base.unitCause 7 1 = 0 ∧
    base.regDenied (base.ownChain * 256 + 1) 7 (CTU + 0x24) = true ∧ base.regDenied (base.ownChain * 256 + 0x60) 7 (CTU + 0x24) = false ∧
    Plain (base.reach 7) 7 (CTU + 0x24) 5 ∧ (regRow (key 7 (CTU + 0x24))).isSome = true ∧
    Plain (base.reach 7) 7 (CTL + 0x8C) 5 ∧ regRow (key 7 (CTL + 0x8C)) = none ∧ base.regDenied (base.ownChain * 256 + 1) 7 (CTL + 0x8C) = false ∧
    base.unitCause 0x40 0x60 = 0 ∧ 1023 < creditEntries (unitClass 0x40) ∧ base.fld (crdW1 0x40 1023) 31 31 = 0 ∧ holding.fld (crdW1 0x40 0) 31 31 = 1 ∧
    holding.fab.held.all (fun h => decide (h.1 = 0x40) && decide (h.2.hdr.stream.toNat = holding.fld (crdW0 0x40 0) 15 0) && holding.fromHere h.2.hdr) = true := by
  unfold Plain; decide +kernel

/-! ### CarriersWaitForTheirBoundary -/

/-- A carrier of 64 PRBs (or `nprb`) at 30 kHz with one stream each way on engine 0, results at 1 MiB of HBM, its map at 0x2000. -/
def carDesc (nprb : Nat) : List Byte :=
  [0, 1] ++ toLE 2 nprb ++ [1, 1, 0, 0] ++ toLE 4 (2 ^ 13) ++ toLE 4 0 ++ toLE 4 100 ++ toLE 4 100 ++ toLE 4 50 ++ toLE 4 0 ++ toLE 8 0x100000
    ++ toLE 2 4 ++ toLE 2 1 ++ toLE 4 4096 ++ toLE 8 0x2000 ++ toLE 8 0
/-- Its map: an uplink eAxC on stream 5 at 0x10000, a downlink one (or `d`) on stream 6 at 0x40000, both on port 3. -/
def carMap (d : Byte) : List Byte :=
  toLE 2 7 ++ [3, 0] ++ toLE 2 5 ++ toLE 2 9 ++ toLE 8 0x10000 ++ (toLE 2 8 ++ [3, d] ++ toLE 2 6 ++ toLE 2 10 ++ toLE 8 0x40000)
def car0 : Carrier := ⟨0, 0, carDesc 64, carMap 1, some 0, none, none⟩
/-- The REALTIME partition 0 with its radio image and the carriers `cs`. -/
def radio (cs : List Carrier) : State :=
  { withMem [(key 0x40 0x1000, image1 0 8), (key 0x40 0x2000, carMap 1)] (owned base (partOf 0 0xFF)) with jobs := [job3 0], carriers := cs }
theorem radio_clean (s : State) (cs : List Carrier) (he : s.ecc = []) (h : s.regs = (radio cs).regs) : s.clean :=
  clean_of_list _ he (by rw [h]; show (base.regs.all _) = true; decide +kernel)
/-- CARRIER_CFG of carrier 0 with a descriptor at 0x3000 of HBM. -/
def carCmd : Cmd := cmd 0x20 0 ([0, 0, 0, 0, 0, 0, 0, 0] ++ toLE 8 0x3000)
def configured (nprb : Nat) (d : Byte) (cs : List Carrier) : State :=
  given carCmd (withMem [(key 0x40 0x3000, carDesc nprb), (key 0x40 0x2000, carMap d)] (radio cs))
theorem wit_CarriersWaitForTheirBoundary_cfg (nprb : Nat) (h : nprb ∈ [0, 64]) (d : Byte) (hd : d ∈ [(0 : Byte), 1]) (on : Bool) :
    let cs := if on then [car0] else []
    let s := configured nprb d cs
    let q := partOf 0 0xFF
    Ready s 1 0x20 carCmd ∧ carCmd.partNo = some 0 ∧ s.parts[(0 : Fin 8)] = some q ∧ s.clean ∧ carCmd.param 8 8 = 0x3000 ∧
    s.bytes (key 0x40 0x3000) 64 = carDesc nprb ∧ s.bytes (key 0x40 0x2000) 32 = carMap d ∧ carCmd.param 0 1 = 0 ∧
    q.inHbm 0x3000 64 = true ∧ q.cls = 0 ∧ bit q.engmask (cEng (carDesc nprb)) = true ∧ fieldLE (carDesc nprb) 0 1 % 32 = 0 ∧
    ((s.carriers.find? fun x => decide (x.id = 0)).bind (·.base)).isSome = on ∧ (cNprb (carDesc nprb) = 0 ↔ nprb = 0) ∧
    carrierOk (carDesc 64) = true ∧ (mapOk (carDesc nprb) (carMap d) = true ↔ d = 1) := by
  refine ⟨ready _ _ _ ?_, ?_, ?_, ?_, ?_⟩
  · revert nprb d on; decide +kernel
  · decide +kernel
  · revert nprb d on; decide +kernel
  · exact radio_clean _ (if on then [car0] else []) rfl rfl
  · revert nprb d on; decide +kernel
/-- Limits, place and buffers of a new carrier; its streams' reservations are constants that the spec leaves open. -/
theorem wit_CarriersWaitForTheirBoundary_fits :
    let s := { configured 64 1 [] with jobs := [] }
    carrierLimits (carDesc 64) = true ∧ s.carriers.length < s.nCarriers ∧ buffersFit (carDesc 64) (carMap 1) SPAD = true ∧
    (withNext s 0 0 (carDesc 64) (carMap 1) (carCmd.id, 0, carDesc 64, carMap 1)).admits s.power.cap = true := by
  decide +kernel
theorem wit_CarriersWaitForTheirBoundary_switch (nprb : Nat) (h : nprb ∈ [0, 64]) :
    let c := { carCmd with phase := .waiting }
    let x := { car0 with next := some (carCmd.id, 0, carDesc nprb, carMap 1) }
    let s := given c (radio [x])
    s.carriers.find? (fun x => decide (x.id = 0)) = some x ∧ s.ul = [] ∧ s.dl = [] ∧ s.ledger.up = true ∧ s.shadow.groups = [] ∧
    s.cmdOf carCmd.id = some c ∧ c.replay = false ∧ c.phase ≠ .done := by
  revert nprb; decide +kernel

/-! ### SlotRequestsAreAcceptedOrEnd -/

/-- A request block for slot 5 of carrier 0 that schedules nothing. -/
def block5 (dl : Byte) : List Byte := toLE 8 5 ++ [0, dl] ++ List.replicate 54 0
/-- UL_SLOT or DL_SLOT for it, with `len` bytes at 0x4000 of HBM. -/
def slotCmd (dl : Byte) (len : Nat) : Cmd :=
  cmd (if dl = 1 then 0x22 else 0x21) 0 ([0, 0, 0, 0, 0, 0, 0, 0] ++ toLE 8 5 ++ toLE 8 0x4000 ++ toLE 4 len)
/-- It stands accepted at time `t`, the pair's latest uplink slot counter being `m`. -/
def slotState (dl : Byte) (len t m : Nat) : State :=
  { given (slotCmd dl len) (withMem [(key 0x40 0x4000, block5 dl)] (radio [car0])) with ptp := t, lastUl := [(1, m)], jobs := [] }
theorem slot_of_block (s : State) (c : Cmd) (dl : Bool) (x : Carrier) (q : Part) (b : List Byte) (h1 : s.carrier (c.param 0 1) = some x)
    (h2 : (c.partNo.bind fun p => s.parts[p]) = some q) (h3 : x.part = c.part ∧ cQpair x.desc = c.pair % 0x8000 ∧ c.param 24 4 ≠ 0 ∧
      c.param 16 8 % 64 = 0 ∧ q.inHbm (c.param 16 8) (c.param 24 4) = true) (h4 : (s.read (key 0x40 (c.param 16 8)) (c.param 24 4)).2 = some b)
    (h5 : fieldLE b 0 8 = c.param 8 8 ∧ fieldLE b 8 1 = x.id ∧ fieldLE b 9 1 = b2n dl ∧ reqFits dl b = true ∧ reqLimits dl b = true)
    (h6 : reqOptions dl x.desc b = true) : (s.slotReq c dl).2 = .inr (x, c.param 8 8, b) := by
  simp only [State.slotReq, h1, h2]
  generalize s.read (key 0x40 (c.param 16 8)) (c.param 24 4) = r at h4 ⊢
  obtain ⟨s1, o⟩ := r
  simp only at h4
  subst h4
  obtain ⟨a1, a2, a3, a4, a5⟩ := h3
  obtain ⟨b1, b2, b3, b4, b5⟩ := h5
  simp [a1, a2, a3, a4, a5, b1, b2, b3, b4, b5, h6]
theorem wit_SlotRequestsAreAcceptedOrEnd (dl : Byte) (h : dl ∈ [(0 : Byte), 1]) (len : Nat) (hl : len ∈ [0, 64]) (t : Nat) (ht : t ∈ [0, 2 ^ 44 * 10 ^ 18])
    (m : Nat) (hm : m ∈ [4, 5]) :
    let c := slotCmd dl len
    let s := slotState dl len t m
    Ready s 1 (if dl = 1 then 0x22 else 0x21) c ∧ s.clean ∧ (s.prevUl c.pair = some m ∧ c.param 8 8 = 5) ∧
    (len = 0 → (s.slotReq c (decide (dl = 1))).2 = .inl 1) ∧ cResSize car0.desc ≥ resultBytes (block5 dl) ∧
    (s.estTrigger car0.desc (car0.abs 5) ≤ s.timeFor 0 ↔ t ≠ 0) ∧ (s.txTrigger 0 car0.desc (car0.abs 5) ≤ s.timeFor 0 ↔ t ≠ 0) := by
  refine ⟨ready _ _ _ ?_, radio_clean _ [car0] rfl rfl, ?_, ?_, ?_⟩
  · revert dl len t m; decide +kernel
  · revert dl len t m; decide +kernel
  · revert dl len t m; decide +kernel
  · revert dl len t m; decide +kernel
/-- A block whose options the implementation takes (the spec's Table 10.1 leaves some of them to it) is a sound request. -/
theorem wit_SlotRequestsAreAcceptedOrEnd_sound (dl : Byte) (h : dl ∈ [(0 : Byte), 1]) (ho : Config.optionsOk (block5 dl) = true) :
    let c := slotCmd dl 64
    ((slotState dl 64 0 4).slotReq c (decide (dl = 1))).2 = .inr (car0, c.param 8 8, block5 dl) := by
  refine slot_of_block _ _ _ car0 (partOf 0 0xFF) _ ?_ ?_ ?_ ?_ ?_ ?_
  · clear ho; revert dl; decide +kernel
  · clear ho; revert dl; decide +kernel
  · clear ho; revert dl; decide +kernel
  · clear ho; revert dl; decide +kernel
  · clear ho; revert dl; decide +kernel
  · have hr : (reqRecs (decide (dl = 1)) (block5 dl) 0) = [] := by clear ho; revert dl; decide +kernel
    unfold reqOptions
    rw [hr, ho]; rfl

/-! ### StagesRunAtTheirTriggers -/

/-- Carrier 0 holds an uplink request and, with `dl`, a downlink one for slot 5. -/
def requested (dl : Bool) : State :=
  { radio [car0] with
    ul := if dl then [] else [⟨0, 5, (1, 5), block5 0, none, false, false, false, false⟩]
    dl := if dl then [⟨0, 5, (1, 5), block5 1, true, [], false, false⟩] else [] }
/-- `k` of the stages of slot 5 have started. -/
def staged (k : Nat) : State := { requested false with stages := (List.range k).map fun i => ⟨0, i, 5, [0], true, false, false⟩ }
theorem wit_StagesRunAtTheirTriggers (k : Nat) (h : k ∈ [0, 1]) :
    (staged k).collectStages = staged k ∧ (staged k).nextStage 0 = some (5, k) ∧ ((staged k).group 0).head? = some car0 ∧
    (staged k).radioJob 0 = some (job3 0) ∧ (staged k).eng[(0 : Fin 8)].cmd = none ∧ (staged k).engFree 0 = true := by
  revert k; decide +kernel
theorem wit_StagesRunAtTheirTriggers_tx :
    let s := requested true
    s.collectStages = s ∧ s.nextStage 0 = some (5, 30) ∧ (s.dlOf 0 5).map (·.2.req) = [block5 1] ∧ (s.group 0).head? = some car0 ∧ s.engFree 0 = true := by
  decide +kernel
/-- Engine 0, which no REALTIME partition owns, runs a command that is no stage command. -/
theorem wit_StagesRunAtTheirTriggers_kill :
    let s := { (staged 0).modEng 0 fun x => { x with cmd := some (2, 5), state := .running } with
      parts := (Vector.replicate 8 none).set 0 (some (partOf 1 0xFF)) }
    s.collectStages = s ∧ s.nextStage 0 = some (5, 0) ∧ s.eng[(0 : Fin 8)].cmd = some (2, 5) ∧ isStage (2, 5) = false ∧
    s.isRealtime (s.ownerPart 0) = false := by
  decide +kernel
theorem wit_StagesRunAtTheirTriggers_dec :
    (((staged 0).group 0).flatMap fun c => ((staged 0).ul.filter fun u => decide (u.carrier = c.id) && !u.aborted).map fun u => c.abs u.n) = [5] := by
  decide +kernel
/-- EQ_0 of slot 5 was killed for a fault. -/
def rerunState : State := { staged 2 with stageKills := [(stageId 0 1 5, ⟨.final, KILLED, 0⟩)] }
theorem wit_StagesRunAtTheirTriggers_rerun :
    ((stageId 0 1 5).1 - 0x10000) % 32 < 30 ∧ ((stageId 0 1 5).1 - 0x10000) / 32 = cEng car0.desc ∧ rerunState.carrier 0 = some car0 ∧
    car0.abs 5 = (stageId 0 1 5).2 ∧ KillWhy.final ≠ .uncounted := by
  decide +kernel

/-! ### SlotsArePublishedOnce -/

/-- Every stage of slot 5 has ended; its command is open. -/
def publishing : State :=
  { requested false with
    stages := [0, 1, 31].map fun i => ⟨0, i, 5, [0], true, decide (i ≠ 31), false⟩
    cmds := [{ cmd 0x21 0 [] with phase := .waiting }] }
theorem decoders_idle : publishing.decodersIdle 0 = true := by
  have h : ∀ (u : Fin 8) (q : Fin 32), publishing.fctBusy u.val q.val = false := by decide +kernel
  unfold State.decodersIdle
  simp only [List.all_eq_true, List.mem_range]
  intro u hu q hq
  rw [h ⟨u, hu⟩ ⟨q, hq⟩]; simp
theorem wit_SlotsArePublishedOnce_publish :
    let u : UlSlot := ⟨0, 5, (1, 5), block5 0, none, false, false, false, false⟩
    let s := publishing
    s.collectStages = s ∧ s.ledger.up = true ∧ s.fullIf = true ∧ s.ulOf 0 5 = [(car0, u)] ∧ (∀ x ∈ s.ul, x.aborted = false) ∧ s.slotEnded 0 5 = true ∧
    s.carriers.find? (fun y => decide (y.id = car0.id)) = some car0 ∧ s.shGroup 0 = none ∧ s.captures = [] ∧ s.recording = false ∧
    s.cmdOf u.cmd = some { cmd 0x21 0 [] with phase := .waiting } ∧ 64 ≤ cResSize car0.desc := by
  decide +kernel
theorem wit_SlotsArePublishedOnce_clean : publishing.clean := radio_clean _ [car0] rfl rfl
/-- The first block of the last symbol of slot 5 is ready at port 3. -/
def blockReady : State := (radio [car0]).modFront fun r => { r with ready := [⟨3, 0, 5, 13 * 8, List.replicate 3072 1⟩] }
theorem wit_SlotsArePublishedOnce_block :
    takeFirst (fun b => decide (b.port = 3)) blockReady.front.ready = some (⟨3, 0, 5, 13 * 8, List.replicate 3072 1⟩, []) ∧
    blockReady.carrier 0 = some car0 ∧ blockReady.heldSlots 0 5 = [] := by
  decide +kernel
/-- The window of symbol 13 of slot 5 closes: its block is missing, or (`got`) was delivered. -/
def windowS (got : Bool) : State := { radio [car0] with rx := if got then [⟨0, 5, [13 * 8], [], [12], none⟩] else [] }
theorem wit_SlotsArePublishedOnce_window (got : Bool) :
    (windowS got).carrier 0 = some car0 ∧ 13 < cNsym car0.desc ∧ (0, 5) ∉ (windowS got).published ∧ (windowS got).replayOf 0 = none ∧
    (∀ r ∈ (windowS got).rxOf 0 5, 13 ∉ r.closed) := by
  revert got; decide +kernel
/-- Every symbol of the downlink request is done, one of them (`m`) dropped. -/
def finished (m : Bool) : State :=
  { radio [car0] with dl := [⟨0, 5, (1, 5), block5 1, true, List.range 14, m, true⟩], cmds := [{ cmd 0x22 0 [] with phase := .waiting }] }
theorem wit_SlotsArePublishedOnce_complete (m : Bool) :
    (finished m).collectStages = finished m ∧ (finished m).carrier 0 = some car0 ∧
    (finished m).dl.find? (fun u => decide (u.carrier = 0) && decide (u.n = 5)) = some ⟨0, 5, (1, 5), block5 1, true, List.range 14, m, true⟩ ∧
    (∀ i ∈ List.range (cDl car0.desc), ∀ y ∈ List.range (cNsym car0.desc), i * 14 + y ∈ List.range 14) ∧
    (finished m).cmdOf (1, 5) = some { cmd 0x22 0 [] with phase := .waiting } := by
  revert m; decide +kernel

/-! ### DownlinkFramesLeaveInTheirWindow -/

theorem wit_DownlinkFramesLeaveInTheirWindow (late : Bool) :
    let s := { requested true with ptp := if late then 2 ^ 44 * 10 ^ 18 else 0 }
    s.carrier 0 = some car0 ∧ s.replayOf 0 = none ∧
    s.dl.find? (fun u => decide (u.carrier = 0) && decide (u.n = 5)) = some ⟨0, 5, (1, 5), block5 1, true, [], false, false⟩ ∧ 0 < cDl car0.desc ∧
    13 < cNsym car0.desc ∧ (s.airTime car0.desc (car0.abs 5) 13 - nsT (cTxClose car0.desc) < s.ptp ↔ late = true) ∧ s.recording = false := by
  revert late; decide +kernel

/-! ### FacetDecodersWorkThroughTheirDescriptors -/

/-- A partition without decoders and with all of Pool; stream 0 is known at the HBM, at Pool and at decoder 7. -/
def coded : State :=
  let s := (((base.setRegN (crdW1 0x40 0) (2 ^ 31)).setRegN (crdW1 0x41 0) (2 ^ 31)).setRegN (crdW1 0x17 0) (2 ^ 31))
  owned s { partOf 1 0xFF with fmask := 0 }
theorem coded_desc (s : State) (h : s.parts = coded.parts) (f q : Nat) : s.facetDesc f q = QueueDesc.none := by
  have hp : ∀ p : Fin 8, (coded.parts[p]).all (fun r => decide (r.fmask = 0)) = true := by decide +kernel
  have ht : ∀ k, bit 0 k = false := by intro k; simp [bit]
  unfold State.facetDesc
  generalize Config.facetPart f q % 8 = p
  rw [h]
  by_cases hlt : p < 8
  · simp only [hlt, dif_pos]
    have := hp ⟨p, hlt⟩
    revert this
    cases hx : coded.parts[p] with
    | none => intro _; rfl
    | some r =>
      intro h1
      have h3 : r.fmask = 0 := of_decide_eq_true h1
      simp [h3, ht]
  · simp only [hlt, dif_neg, not_false_eq_true]
/-- A descriptor of kind `k`: K' 16, K 16, E 8, inputs at 0x2000 of the HBM, directory at 0 of Pool. -/
def fctDesc (k : Byte) : List Byte :=
  patch (List.replicate 64 0) 0 ([k, 0, 16, 0, 16, 0, 0, 0] ++ toLE 4 8 ++ toLE 4 0 ++ toLE 8 (0xF * 2 ^ 60 + 0x40 * 2 ^ 52 + 0x2000))
/-- Decoder 7 has it in progress. -/
def decoding (k : Byte) (ran : Bool) : State :=
  { coded with mem := [(0x40 * 2 ^ 52 + 0x2000, 5)], facet := coded.facet.set 7 { Facet.reset with cur := some ⟨3, 9, fctDesc k, ran, 0, 0, 0, 0, 0, 0, 0⟩ } }
theorem decoding_clean (k : Byte) (ran : Bool) : (decoding k ran).clean := clean_of_list _ rfl (by show (coded.regs.all _) = true; decide +kernel)
theorem wit_FacetDecodersWorkThroughTheirDescriptors_work (k : Byte) (h : k ∈ [(1 : Byte), 2, 3, 4, 5]) :
    let s := decoding k false
    let w : FctWork := ⟨3, 9, fctDesc k, false, 0, 0, 0, 0, 0, 0, 0⟩
    Working s 7 w k.toNat ∧ ∀ n, n = 2 ∨ n = 8 ∨ n = dE w.desc ∨ n = dLong w.desc → 0 < n ∧
      ReadsAs s (0x10 + 7) (s.facetDesc 7 w.queue).stream (dIn w.desc) n (s.bytes (0x40 * 2 ^ 52 + 0x2000) n) := by
  have h1 : ∀ k ∈ [(1 : Byte), 2, 3, 4, 5], (decoding k false).facet.length = 8 ∧
      ((decoding k false).fct 7).cur = some ⟨3, 9, fctDesc k, false, 0, 0, 0, 0, 0, 0, 0⟩ ∧ fctKind (fctDesc k) = k.toNat ∧ (decoding k false).computeUp = true ∧
      (dE (fctDesc k) = 8 ∧ dLong (fctDesc k) = 8) ∧
      (∀ n ∈ [2, 8], let a := ((decoding k false).translate (BitVec.ofNat 64 (dIn (fctDesc k)))).toNat;
        key (unitOf a) (offOf a) = 0x40 * 2 ^ 52 + 0x2000 ∧ devOf a = (decoding k false).ownChain ∧ (decoding k false).reachCause 0x17 0 a n = 0 ∧
        ((decoding k false).streamEntry 0x17 0).isSome = true ∧ offOf a + n ≤ CTL) := by decide +kernel
  obtain ⟨a1, a2, a3, a4, a5, a6⟩ := h1 k h
  refine ⟨⟨a1, a2, rfl, a3, a4⟩, fun n hn => ?_⟩
  have hn' : n ∈ [2, 8] := by rcases hn with rfl | rfl | rfl | rfl <;> simp [a5.1, a5.2]
  have hs : ((decoding k false).facetDesc 7 3).stream = 0 := by rw [coded_desc (decoding k false) rfl]; rfl
  have hb := a6 n hn'
  refine ⟨by rcases hn with rfl | rfl | rfl | rfl <;> simp [a5.1, a5.2], ?_, decoding_clean k false, ?_⟩
  · show _ = (decoding k false).bytes (key _ _) n
    rw [hb.1]
  · show n = 0 ∨ _
    rw [hs]
    exact .inr hb.2
theorem inr_of {α β : Type} (x : α ⊕ β) (h : (x.elim (fun _ => false) fun _ => true) = true) : ∃ r, x = .inr r := by
  cases x with
  | inl a => cases h
  | inr b => exact ⟨b, rfl⟩
theorem inl_of {α β : Type} (x : α ⊕ β) (h : (x.elim (fun _ => true) fun _ => false) = true) : ∃ r, x = .inl r := by
  cases x with
  | inl a => exact ⟨a, rfl⟩
  | inr b => cases h
theorem wit_FacetDecodersWorkThroughTheirDescriptors_weights :
    ∃ r, ((decoding 1 false).weightSet 7 ((decoding 1 false).facetDesc 7 3).stream (fctDesc 1)).2 = .inr r := by
  have hs : ((decoding 1 false).facetDesc 7 3).stream = 0 := by rw [coded_desc (decoding 1 false) rfl]; rfl
  rw [hs]
  exact inr_of _ (by decide +kernel)
/-- Nothing is known of stream 0: the input cannot be read. -/
theorem wit_FacetDecodersWorkThroughTheirDescriptors_fail :
    let s := { decoding 3 false with regs := base.regs }
    (s.facet.length = 8 ∧ (s.fct 7).cur = some ⟨3, 9, fctDesc 3, false, 0, 0, 0, 0, 0, 0, 0⟩ ∧ s.computeUp = true) ∧
    ∃ c, (s.fctRead 7 (s.facetDesc 7 3).stream (dIn (fctDesc 3)) (dLong (fctDesc 3))).2 = .inl c := by
  refine ⟨by decide +kernel, ?_⟩
  have hs : (({ decoding 3 false with regs := base.regs } : State).facetDesc 7 3).stream = 0 := by
    rw [coded_desc { decoding 3 false with regs := base.regs } rfl]; rfl
  simp only [hs]
  exact inl_of _ (by decide +kernel)
theorem wit_FacetDecodersWorkThroughTheirDescriptors_ends :
    let s := decoding 5 true
    s.facet.length = 8 ∧ s.computeUp = true ∧ ((s.fct 7).cur.map fun w => (w.ran, w.ops, w.queue)) = some (true, 0, 3) ∧ s.unitCause 0x17 0x60 = 0 := by
  decide +kernel
/-- Queue 0 of decoder 7 is partition 0's and has one descriptor, at 0x2000 of the HBM; firmware's choice of the queue is left open. -/
def fetching : State :=
  let s := ((base.setRegN (crdW1 0x40 0) (2 ^ 31)).setRegN (crdW1 0x17 0) (2 ^ 31)).setRegN (fctReg 7 8) 1
  { (owned s (partOf 1 0xFF)).setReg (tokKey 0x17 0) 1 with mem := [(0x40 * 2 ^ 52 + 0x2000, 5)] }
theorem fetching_clean : fetching.clean := clean_of_list _ rfl (by decide +kernel)
theorem wit_FacetDecodersWorkThroughTheirDescriptors_fetch (hp : Config.facetPart 7 0 % 8 = 0)
    (hr : Config.facetRing 7 0 % 2 ^ 58 * 64 = 0xF * 2 ^ 60 + 0x40 * 2 ^ 52 + 0x2000) (hl : Config.facetLevel 7 0 % 8 = 3) (hs : Config.facetStream 7 0 % 2 ^ 16 = 0) :
    let d := fetching.facetDesc 7 0
    fetching.facet.length = 8 ∧ fetching.computeUp = true ∧ 7 < fetching.nEngines ∧ (fetching.fct 7).cur = none ∧ fetching.fctNext 7 = some 0 ∧
    ReadsAs fetching 0x17 d.stream (d.ring + 64 * (fetching.fctTaken 7 0 % 2 ^ d.log2size)) 64 (fetching.bytes (0x40 * 2 ^ 52 + 0x2000) 64) ∧
    d.valid = true ∧ fetching.fctReady 7 0 = true ∧ d.level = 3 ∧ fetching.fld (fctReg 7 8) 15 0 ≠ 0 ∧ fetching.fctLevel 7 0 < 6 := by
  have hq : fetching.parts[(0 : Fin 8)] = some (partOf 1 0xFF) := by decide +kernel
  have hd : fetching.facetDesc 7 0 = ⟨0xF * 2 ^ 60 + 0x40 * 2 ^ 52 + 0x2000, 4 + Config.facetLog2 7 0 % 17, 0, 3, true, 2, 0, 0xFFFF, 0⟩ := by
    unfold State.facetDesc
    simp only [hp, hr, hl, hs]
    have : fetching.parts[0] = some (partOf 1 0xFF) := hq
    simp only [show (0 : Nat) < 8 by decide, dif_pos, this]
    rfl
  have hready : ∀ q ∈ List.range 32, fetching.fctReady 7 q = decide (q = 0) := by decide +kernel
  have hmay : ∀ q ∈ List.range 32, fetching.fctMay 7 q = decide (q = 0) := by
    intro q hm
    unfold State.fctMay
    rw [hready q hm]
    by_cases h0 : q = 0
    · subst h0
      rw [hd]
      simp only [show (0 : Nat) < 8 by decide, dif_pos]
      have : fetching.parts[0] = some (partOf 1 0xFF) := hq
      rw [this]
      decide +kernel
    · simp [h0]
  have hlist : (List.range 32).map (fun i => ((fetching.fct 7).last + 1 + i) % 32) = List.range 32 := by decide +kernel
  have hfilt : ((List.range 32).map fun i => ((fetching.fct 7).last + 1 + i) % 32).filter (fetching.fctMay 7) = [0] := by
    rw [hlist]
    rw [List.filter_congr hmay]
    decide +kernel
  have hlev : fetching.fctLevel 7 0 = 3 := by
    unfold State.fctLevel
    rw [hd]
    decide +kernel
  refine ⟨by decide +kernel, by decide +kernel, by decide +kernel, by decide +kernel, ?_, ?_, by rw [hd], by decide +kernel, by rw [hd], by decide +kernel,
    by rw [hlev]; decide⟩
  · unfold State.fctNext
    simp only [hfilt]
    simp [hlev]
  · have ht : fetching.fctTaken 7 0 = 0 := by decide +kernel
    rw [hd, ht]
    simp only [Nat.zero_mod, Nat.mul_zero, Nat.add_zero]
    refine ⟨?_, fetching_clean, .inr ?_⟩
    · have : key (unitOf (fetching.translate (BitVec.ofNat 64 (0xF * 2 ^ 60 + 0x40 * 2 ^ 52 + 0x2000))).toNat)
          (offOf (fetching.translate (BitVec.ofNat 64 (0xF * 2 ^ 60 + 0x40 * 2 ^ 52 + 0x2000))).toNat) = 0x40 * 2 ^ 52 + 0x2000 := by decide +kernel
      show _ = fetching.bytes _ 64
      rw [this]
    · decide +kernel

/-! ### LearnedParametersAreLoadedTriedAndRolledBack -/

/-- A collection image without sets. -/
def emptyImage (n : Nat) : List Byte := toLE 4 1 ++ toLE 4 0 ++ toLE 4 n ++ List.replicate 52 0
/-- LOAD_WEIGHTS of `len` bytes at `src`, with FLAGS `fl`. -/
def weightsCmd (src len : Nat) (fl : Byte) : Cmd := cmd 0x28 0 (toLE 8 src ++ toLE 4 len ++ [fl])
/-- It stands in phase `ph` in partition 0, which has no decoders; the image at 0x2000 of the HBM gives its length as `n`. -/
def weighed (c : Cmd) (n : Nat) (w : List Weights) : State :=
  { given c coded with mem := putBytes [] (0x40 * 2 ^ 52 + 0x2000) (emptyImage n), weights := w }
theorem weighed_clean (c : Cmd) (n : Nat) (w : List Weights) : (weighed c n w).clean := clean_of_list _ rfl (by show (coded.regs.all _) = true; decide +kernel)
theorem wit_LearnedParametersAreLoadedTriedAndRolledBack_load (src len : Nat) (fl : Byte) (n : Nat)
    (h : (src, len, fl, n) ∈ [(0x2000, 0, (0 : Byte), 64), (0x2000, 64, 0, 64), (0x2000, 64, 0, 65), (0, 0, 1, 64)]) :
    let c := weightsCmd src len fl
    let s := weighed c n [⟨0, 1, 7, 8, some 9, 0⟩]
    Ready s 1 0x28 c ∧ c.partNo = some 0 ∧ (s.parts[(0 : Fin 8)]).isSome = true ∧ (slice c.pkt 29 35).all (fun x => decide (x = 0)) = true ∧
    c.param 12 1 = fl.toNat ∧ c.param 8 4 = len ∧ c.param 0 8 = src ∧ src % 64 = 0 ∧ (partOf 1 0xFF).inHbm src len = true ∧
    (imageSets (s.bytes (key 0x40 0x2000) 64) = if n = 64 then some [] else none) ∧ (s.weightsNow 0).old = some 9 ∧ (coded.weightsNow 0).old = none := by
  have hd : ∀ x ∈ [(0x2000, 0, (0 : Byte), 64), (0x2000, 64, 0, 64), (0x2000, 64, 0, 65), (0, 0, 1, 64)],
      let c := weightsCmd x.1 x.2.1 x.2.2.1
      let s := weighed c x.2.2.2 [⟨0, 1, 7, 8, some 9, 0⟩]
      (decide (s.nextCmd 1 = some c) && decide (c.op = 0x28) && s.barrierOk c && s.fullIf && s.ledger.up && decide (s.cmdOf c.id = some c) && !c.replay) = true ∧
      c.partNo = some 0 ∧ (s.parts[(0 : Fin 8)]).isSome = true ∧ (slice c.pkt 29 35).all (fun x => decide (x = 0)) = true ∧
      c.param 12 1 = x.2.2.1.toNat ∧ c.param 8 4 = x.2.1 ∧ c.param 0 8 = x.1 ∧ x.1 % 64 = 0 ∧ (partOf 1 0xFF).inHbm x.1 x.2.1 = true ∧
      (imageSets (s.bytes (key 0x40 0x2000) 64) = if x.2.2.2 = 64 then some [] else none) ∧ (s.weightsNow 0).old = some 9 ∧ (coded.weightsNow 0).old = none := by
    decide +kernel
  exact ⟨ready _ _ _ (hd _ h).1, (hd _ h).2⟩
theorem names_none (s : State) (h : ∀ f q, s.facetDesc f q = QueueDesc.none) (base m : Nat) : s.namesDir 0 base m = false := by
  have hv : QueueDesc.none.valid = false := rfl
  unfold State.namesDir
  simp only [List.any_eq_false, List.mem_range]
  intro f _
  simp only [Bool.not_eq_true, List.any_eq_false, List.mem_range]
  intro q _
  simp only [h f q, hv, Bool.false_and, Bool.false_eq_true]
theorem weighed_names (c : Cmd) (n : Nat) (w : List Weights) (base m : Nat) : (weighed c n w).namesDir 0 base m = false :=
  names_none _ (coded_desc _ (by unfold weighed given; rfl)) base m
def weightsWait : Cmd := { weightsCmd 0x2000 64 0 with phase := .waiting }
theorem wit_LearnedParametersAreLoadedTriedAndRolledBack_commit :
    let s := weighed weightsWait 64 []
    s.cmds.find? (fun c => decide (c.op = 0x28) && decide (c.part = 0) && decide (c.phase = .waiting)) = some weightsWait ∧ Awaits s weightsWait ∧
    s.computeUp = true ∧ s.oldSlots (s.weightsNow 0) = false ∧
    imageSets (s.bytes (key 0x40 (weightsWait.param 0 8)) (weightsWait.param 8 4)) = some [] := by
  refine ⟨by decide +kernel, ⟨by decide +kernel, by decide +kernel, by decide +kernel, by decide +kernel⟩, by decide +kernel, by decide +kernel, by decide +kernel⟩
/-- SHADOW_CONFIG of engine 7 with CAP `cap` and a ring of 8 KiB at 0x10000. -/
def shadowCmd (cap : Byte) : Cmd :=
  cmd 0x30 0 ([7, cap] ++ toLE 2 4 ++ toLE 4 100 ++ toLE 4 100 ++ toLE 2 10000 ++ toLE 2 5 ++ toLE 8 0x10000 ++ toLE 8 0x2000)
theorem wit_LearnedParametersAreLoadedTriedAndRolledBack_shadow (cap : Nat) (h : cap ∈ [70, 255]) :
    let c := shadowCmd (BitVec.ofNat 8 cap)
    let s := given c (owned base (partOf 1 0xFF))
    Ready s 1 0x30 c ∧ s.clean ∧ c.partNo = some 0 ∧ s.parts[(0 : Fin 8)] = some (partOf 1 0xFF) ∧ c.param 0 1 < s.nEngines ∧ c.param 1 1 = cap ∧
    cap % 185 + s.rtShare ≤ 100 ∧ c.param 4 4 = 100 ∧ c.param 8 4 = 100 ∧ c.param 12 2 = 10000 ∧ 0 < c.param 24 8 ∧ (partOf 1 0xFF).inHbm (c.param 16 8) (c.param 24 8) = true := by
  refine ⟨ready _ _ _ ?_, clean_of_list _ rfl ?_, ?_⟩ <;> (revert cap; decide +kernel)
/-- Engine 0's group has a shadow configuration with trial `t`; its pointer block at 0x8000 has GEN 3 and 2 and `prev` as its previous set. -/
def trialCar : Carrier := { car0 with desc := patch (carDesc 64) 56 (toLE 8 0x8000) }
def group0 (t : Option Trial) : Group := ⟨0, 1, 100, 200, 100, 1, 0x10000, 0x2000, 0, 0, 0, t⟩
def shadowed (c : Cmd) (t : Option Trial) (prev : Nat) : State :=
  let s := given c (radio [trialCar])
  { s with
    mem := putBytes [] (0x40 * 2 ^ 52 + 0x8000) (toLE 8 0x9000 ++ toLE 8 prev ++ toLE 4 3 ++ toLE 4 2 ++ toLE 8 1)
    shadow := { s.shadow with groups := [group0 t] } }
theorem shadowed_clean (c : Cmd) (t : Option Trial) (prev : Nat) : (shadowed c t prev).clean := radio_clean _ [trialCar] rfl rfl
/-- What a trial of a candidate needs beside the candidate's digests. -/
theorem wit_LearnedParametersAreLoadedTriedAndRolledBack_trial :
    let c := cmd 0x31 0xFF ([0, 0, 0, 0, 0, 0, 0, 0] ++ toLE 8 0x100000)
    let s := shadowed c none 0
    Ready s 1 0x31 c ∧ bit (c.param 1 1) 0 = false ∧ s.shGroup (c.param 0 1) = some (group0 none) ∧ s.group (c.param 0 1) = [trialCar] ∧
    (group0 none).trial = none := by
  refine ⟨ready _ _ _ ?_, ?_⟩ <;> decide +kernel
/-- A trial with `n` slots evaluated, that passes its comparisons or not. -/
def trial1 (n : Nat) (good : Bool) : Trial := ⟨(1, 5), 0xA000, 0, n, n, 1, n, 1000, if good then 30 else 0, 10, if good then 5000 else 0, 0, 100⟩
theorem wit_LearnedParametersAreLoadedTriedAndRolledBack_decide (n : Nat) (h : n ∈ [99, 100]) (good : Bool) :
    let c := { cmd 0x31 0xFF [] with phase := .waiting }
    let g := group0 (some (trial1 n good))
    let s := shadowed c g.trial 0
    s.shGroup 0 = some g ∧ c.id = (trial1 n good).cmd ∧ Awaits s c ∧ s.netBlock 0 = some 0x8000 ∧ (g.guard ≤ (trial1 n good).evald ↔ n = 100) ∧
    (trial1 n good).crcOk g.mcrc = good ∧ (trial1 n good).llrOk g.mllr = good := by
  unfold Awaits
  revert n good; decide +kernel
theorem wit_LearnedParametersAreLoadedTriedAndRolledBack_rollback (prev : Nat) (h : prev ∈ [0, 0xB000]) :
    let c := cmd 0x32 0xFF [0]
    let s := shadowed c none prev
    Ready s 1 0x32 c ∧ s.netBlock (c.param 0 1) = some 0x8000 ∧ (s.shGroup (c.param 0 1)).bind (·.trial) = none ∧ s.hbmN (0x8000 + 8) 8 = prev := by
  refine ⟨ready _ _ _ ?_, ?_⟩ <;> (revert prev; decide +kernel)

/-! ### IntegrityEnginesCorrectAndCount -/

/-- The block at offset 0 of engine 0 holds code entry `x` and, with `w`, waits for its write-back; the scrubbers of engine 0, decoder 7
and the last block of Pool run. -/
def worn (x : Ecc) (w : Bool) (o : Nat) : State :=
  let s := [0, 0x17, 0x41].foldl (fun t u => t.setRegN (key u (CTL + 0x114)) 1) base
  { s with ecc := if x = .clean then [] else [(0, x)], writeback := if w then [0] else [], scrub := if o = 0 then [] else [(0, o)] }
theorem wit_IntegrityEnginesCorrectAndCount_writeback :
    let s := worn (.sram 1 2 true) true 0
    s.writeback = [0] ∧ s.blockOf 0 = 0 ∧ (s.eccAt 0).verdict = .fix 0 2 ∧ 0 < s.blockSize 0 := by decide +kernel
/-- A clean block, one with a wrong check bit, one with a wrong bit, and the last block of the pass. -/
theorem wit_IntegrityEnginesCorrectAndCount_scrub (x : Ecc) (h : x ∈ [.clean, .sram 1 0 false, .sram 1 2 true]) (o : Nat) (ho : o ∈ [0, 0x107FFFC0]) :
    let s := worn x false o
    s.fld (key 0 (CTL + 0x114)) 15 0 ≠ 0 ∧ s.unitCause 0 0x60 = 0 ∧ (regRow (key 0 (CTL + 0x114))).isSome = true ∧ sramRanges 0 ≠ [] ∧
    Sparse.get (fun _ => 0) s.scrub 0 = o ∧ (scrubNext 0 o).2 = decide (o ≠ 0) ∧
    (o = 0 → (s.eccAt (key 0 o)).verdict = if x = .clean then .clean else if x = .sram 1 0 false then .check else .fix 0 2) := by
  revert x o; decide +kernel
theorem wit_IntegrityEnginesCorrectAndCount_noWindow :
    let s := worn .clean false 0
    s.fld (key 0x17 (CTL + 0x114)) 15 0 ≠ 0 ∧ s.unitCause 0x17 0x60 = 0 ∧ (regRow (key 0x17 (CTL + 0x114))).isSome = true ∧ sramRanges 0x17 = [] := by
  decide +kernel
theorem wit_IntegrityEnginesCorrectAndCount_refresh :
    base.computeUp = true ∧ base.power.dIdle = false ∧ base.clean := ⟨by decide +kernel, by decide +kernel, clean_of_list _ rfl (by decide +kernel)⟩
theorem wit_IntegrityEnginesCorrectAndCount_inject :
    (regRow (key 7 (CTL + 0x11C))).isSome = true ∧ base.unitCause 7 0x60 = 0 ∧ base.unitRuns 7 = false ∧ bits 0x301 15 8 ∈ memsOf 7 := by decide +kernel
theorem wit_IntegrityEnginesCorrectAndCount_retrain :
    let s (n : Nat) (r : Bool) : State := { base with ucie := ⟨List.replicate n 0, r⟩ }
    (s 9 false).ucie.retraining = false ∧ 8 < (s 9 false).ucie.retries.length ∧ (s 8 false).ucie.retries.length ≤ 8 ∧ (s 0 true).ucie.retraining = true := by
  decide +kernel

/-! ### PortsClassifyForwardAndSendFrames -/

/-- FH_CONFIG of port `p` to `mode`. -/
def fhCmd (p mode : Byte) : Cmd :=
  cmd 0x38 0xFF ([p, mode, 0x1B, 0x55, 15, 5, 7, 0] ++ [2, 0, 0, 0, 0, 9] ++ [2, 0, 0, 0, 0, 8] ++ toLE 4 1 ++ toLE 4 2 ++ toLE 2 4790 ++ toLE 2 0 ++ toLE 4 5 ++ toLE 4 6)
/-- Port 3 in mode `m` carries car0; port 15 is on and up, and port 3 with it. -/
def ported (m : Nat) (cs : List Carrier) : State :=
  (((((radio cs).setRegN (fhKey 3 0) m).setRegN (fhKey 3 4) 3).setRegN (fhKey 15 0) 1).setRegN (fhKey 15 4) 3)
theorem wit_PortsClassifyForwardAndSendFrames_config (i : Fin 6) (on : Bool) :
    let v : Byte × Byte := [(16, 0), (0, 5), (14, 4), (15, 0), (3, 1), (3, 2)].getD i.val (0, 0)
    let c := fhCmd v.1 v.2
    let s := given c (if v.1 = 14 then radio [] else ported 1 (if on then [car0] else []))
    let q := c.param 0 1
    let md := c.param 1 1
    Ready s 1 0x38 c ∧ q = v.1.toNat ∧ md = v.2.toNat ∧ c.param 3 1 % 16 ≤ 5 ∧ c.param 3 1 / 16 ≤ 5 ∧ c.param 4 1 ≤ 15 ∧ c.param 5 1 ≤ 5 ∧
    (q = 0 ∨ ¬ (md = 4 ∧ q % 2 = 1) ∧ ¬ (q % 2 = 1 ∧ s.fhMode (q - 1) = 4) ∧ ¬ (md = 4 ∧ s.fhMode (q + 1) ≠ 0)) ∧
    (v.1 = 3 → s.fhMode 3 = 1 ∧ s.portInUse 3 = on) := by
  refine ⟨ready _ _ _ ?_, ?_⟩ <;> (revert i on; decide +kernel)
theorem wit_PortsClassifyForwardAndSendFrames_link : (ported 1 []).fhMode (15 : Fin 16).val ≠ 0 ∧ (ported 1 []).computeUp = true ∧
    (ported 1 []).fhUp 15 = true ∧ (ported 1 []).fhUp 0 = false := by decide +kernel
/-- A frame from `mac` of EtherType `t` with `n` more bytes. -/
def frame (mac t n : Nat) : List Byte := toBE 6 mac ++ toBE 6 5 ++ toBE 2 t ++ List.replicate n 0
/-- Frames for 2 go from port 3 on to port 15. -/
def forwards : State := ((ported 1 []).setRegN (fhKey 3 0x100) 2).setRegN (fhKey 3 0x104) (2 ^ 31) |>.setRegN (fhKey 3 0x108) 15
theorem wit_PortsClassifyForwardAndSendFrames_frames :
    let s := forwards
    let short := frame 2 0x800 45
    let ptp := frame 0x011B19000000 0x88F7 9582
    let known := frame 2 0x800 46
    let other := frame 7 0x800 46
    s.fhUp 3 = true ∧ s.fhRole 3 ≠ 3 ∧ s.recording = false ∧ short.length = 59 ∧ (60 ≤ ptp.length ∧ ptp.length ≤ 9596 ∧ isPtp ptp = true) ∧
    (known.length = 60 ∧ isPtp known = false ∧ isEsmc known = false ∧ s.isEcpri 3 known = false ∧ s.fwdPort 3 known = some 15 ∧
      s.fld (fhKey 3 0) 7 7 = 0 ∧ s.storedBytes 15 + known.length + 4 ≤ 524288) ∧
    (other.length = 60 ∧ isPtp other = false ∧ isEsmc other = false ∧ s.isEcpri 3 other = false ∧ s.fwdPort 3 other = none) := by
  decide +kernel
theorem wit_PortsClassifyForwardAndSendFrames_send :
    let x : StoredFrame := ⟨15, frame 2 0x800 46, none⟩
    let y : StoredFrame := { x with egress := 3 }
    let s := forwards.modFront fun r => { r with stored := [y, x] }
    s.fhUp (15 : Fin 16).val = true ∧ takeFirst (fun x => decide (x.egress = (15 : Fin 16).val)) s.front.stored = some (x, [y]) ∧ x.stamp = none ∧ s.recording = false := by
  decide +kernel

/-! ### TheClockIsReadCorrectedAndHeard -/

/-- PTP_CTL is `ctl`, the threshold 1 ns, the offset's low word 1; with `on` a carrier is active. -/
def timed (ctl : Nat) (on : Bool) (held : Option Int) : State :=
  let s := ((((radio (if on then [car0] else [])).setRegN (ptpKey 0) ctl).setRegN (ptpKey 0x24) 1).setRegN (ptpKey 0x1C) 1).setRegN (ptpKey 4) 4
  s.modFront fun r => { r with held := held, slew := -5, todDue := some 9 }
/-- Off; on and held; guarded with an offset beyond and within the threshold; unguarded with and without an active carrier. -/
theorem wit_TheClockIsReadCorrectedAndHeard_adjust (on : Bool) :
    (timed 0 on none).computeUp = true ∧ (timed 0 on none).ptpEn = false ∧ (timed 5 on none).ptpEn = true ∧ (timed 5 on none).ptpHeld = true ∧
    (let s := timed 3 on none
     s.ptpEn = true ∧ s.ptpHeld = false ∧ s.ptpGuard = true ∧ s.anyActive = on ∧
      s.regN (ptpKey 0x24) * 2 ^ 16 < (sext 64 (s.regN (ptpKey 0x1C) + 2 ^ 32 * 0xFFFFFFFF)).natAbs ∧
      (sext 64 (s.regN (ptpKey 0x1C) + 2 ^ 32 * 0)).natAbs ≤ s.regN (ptpKey 0x24) * 2 ^ 16) ∧
    (timed 1 on none).ptpGuard = false ∧ (timed 1 on none).fld (ptpKey 4) 2 2 = 1 := by
  revert on; decide +kernel
/-- PTP_CONFIG with flags `b`. -/
def ptpCmd (b d : Byte) : Cmd := cmd 0x39 0xFF ([b, d] ++ toLE 2 37 ++ toLE 4 1000 ++ toLE 4 1 ++ toLE 4 9999999 ++ toLE 4 0 ++ [15])
theorem wit_TheClockIsReadCorrectedAndHeard_config (i : Fin 4) (held : Bool) :
    let v : Byte × Byte := [(32, 24), (31, 44), (15, 24), (31, 43)].getD i.val (0, 0)
    let c := ptpCmd v.1 v.2
    let s := given c (timed 3 false (if held then some 7 else none))
    Ready s 1 0x39 c ∧ ptpBad c = decide (v.1 = 32 ∨ v.2 = 44) ∧ bit (c.param 0 1) 4 = decide (v.1 = 31) ∧
    s.front.held = (if held then some 7 else none) ∧ s.anyActive = false ∧ s.computeUp = true := by
  refine ⟨ready _ _ _ ?_, ?_⟩ <;> (revert i held; decide +kernel)
theorem wit_TheClockIsReadCorrectedAndHeard_signals :
    let s := (timed 0x11 false none).setRegN (ptpKey 0x38) 999999999
    s.computeUp = true ∧ s.ptpEn = true ∧ s.ppsEn = true ∧ s.regN (ptpKey 0x38) < 10 ^ 9 ∧ s.front.todDue = some 9 := by decide +kernel

/-! ### BrivelLinksTrainCarryAndFail -/

/-- BRV_CONFIG of port `p` with flags `fl`: identity 3 of 4, routes 0x55555515. -/
def brvCmd (p fl : Byte) : Cmd := cmd 0x3A 0xFF ([p, fl, 3, 4] ++ toLE 4 0x55555515 ++ toLE 8 0x77)
/-- The device is number 3 of 4, locked; port 1 is in state `n` and enabled; port 0 is up; routes to 0 lie behind port 0, all others behind
port 1. -/
def linked (n : Nat) : State :=
  ((((((base.setRegN devId (3 + 16 * 4 + 2 ^ 31)).setRegN (brvKey 0 0x28) 0x77).setRegN (brvKey 1 0) 3).setRegN (brvKey 1 4) n).setRegN (brvKey 0 4) 2).setRegN
    (brvKey 0 0x20) 0xAAAAAAA9).setRegN (brvKey 1 8) 2
theorem wit_BrivelLinksTrainCarryAndFail_config (i : Fin 5) (n : Nat) (hn : n ∈ [0, 2, 3]) :
    let v : Byte × Byte := [(2, 0), (1, 1), (1, 2), (1, 4), (0, 1)].getD i.val (0, 0)
    let c := brvCmd v.1 v.2
    let s := given c (linked n)
    Ready s 1 0x3A c ∧ s.brvBad c = decide (v.1 = 2) ∧ bit (c.param 1 1) 0 = decide (v.2 = 1) ∧ c.param 1 1 % 16 ≠ 8 ∧
    (v.1 = 1 → s.brvState (c.param 0 1) = n) := by
  refine ⟨ready _ _ _ ?_, ?_⟩ <;> (revert i n; decide +kernel)
/-- New routes are taken when they cross the dateline at most once, which the spec leaves to the implementation's check. -/
theorem wit_BrivelLinksTrainCarryAndFail_routes (h : Config.datelineTwice 3 4 0x55555515 0 = false) :
    let c := brvCmd 1 8
    let s := given c ((linked 2).setRegN (brvKey 1 0) 1)
    Ready s 1 0x3A c ∧ s.brvBad c = false ∧ c.param 1 1 % 16 = 8 := by
  refine ⟨ready _ _ _ (by decide +kernel), ?_, by decide +kernel⟩
  have e : (brvCmd 1 8).param 0 1 = 1 ∧ (brvCmd 1 8).param 1 1 = 8 ∧ (brvCmd 1 8).param 4 4 = 0x55555515 := by decide +kernel
  have f : let s := given (brvCmd 1 8) ((linked 2).setRegN (brvKey 1 0) 1)
      s.devLock = true ∧ s.ownChain = 3 ∧ s.chainSize = 4 ∧ s.dateline 0 = false := by decide +kernel
  obtain ⟨e1, e2, e3⟩ := e
  obtain ⟨f1, f2, f3, f4⟩ := f
  have g0 : bit 8 0 = false := rfl
  have g1 : bit 8 1 = false := rfl
  have g2 : bit 8 2 = false := rfl
  have g3 : bit 8 3 = true := rfl
  simp only [State.brvBad, e1, e2, e3, f1, f2, f3, f4, g0, g1, g2, g3]
  simp [h, b2n]
  decide
/-- A command that waits for port 1. -/
def brvWait : Cmd := { brvCmd 1 1 with phase := .waiting }
theorem wit_BrivelLinksTrainCarryAndFail_train :
    let s := given brvWait (linked 1)
    s.brvWaits (1 : Fin 2).val = [brvWait] ∧ Awaits s brvWait ∧ s.brvState 1 = 1 ∧ s.computeUp = true ∧
    s.chainSize = 4 ∧ s.reg64 (brvKey 0 0x28) = 0x77 ∧ s.fld (key BAR0 0x1C) 31 16 < 2 ^ 16 ∧ s.ownChain = 3 := by
  unfold Awaits; decide +kernel
/-- New routes move numbers 1 and 2; an operation to number 2 is unanswered or none is. -/
theorem wit_BrivelLinksTrainCarryAndFail_change (n : Bool) :
    let s := { linked 2 with brivel := { base.brivel with route := some 0xAAAAAA95 }, fab := { base.fab with ingress := if n then [⟨2 * 256, 5, 1, false, false, .none⟩] else [] } }
    s.brivel.route = some 0xAAAAAA95 ∧ s.computeUp = true ∧ s.routeDiff 0xAAAAAA95 = [1, 2] ∧ s.unanswered (s.routeDiff 0xAAAAAA95) = n := by
  revert n; decide +kernel
/-- From port 1 on to number 0 behind port 0, back through port 1, and to a number without route. -/
theorem wit_BrivelLinksTrainCarryAndFail_transit (d : Nat) (h : d ∈ [0, 1, 2]) :
    let s := (linked 2).setRegN (brvKey 0 0x20) 0xAAAAAA89
    let x : Hdr := { base.mkHdr 1 0 0 0 0 0 0 with prio := 7, addr := BitVec.ofNat 64 (d * 2 ^ 60) }
    s.computeUp = true ∧ s.brvState (1 : Fin 2).val ∈ [2, 3] ∧ devOf x.addr.toNat ≠ s.ownChain ∧ x.prio ≠ 15 ∧
    s.routePort (devOf x.addr.toNat) = (if d = 0 then some 0 else if d = 1 then some 1 else none) := by
  revert d; decide +kernel
theorem wit_BrivelLinksTrainCarryAndFail_replay (n : Nat) (h : n ∈ [4, 5]) :
    let s := { linked 2 with brivel := { base.brivel with replays := List.replicate n (1, 0) } }
    s.brvState 1 = 2 ∧ (s.brivel.replays.filter fun x => decide (x.1 = 1)).length = n ∧ (linked 3).brvState 1 = 3 := by
  revert n; decide +kernel
/-- An operation is in flight through port 1. -/
theorem wit_BrivelLinksTrainCarryAndFail_down :
    let x : FabItem := { opItem .put 0x40 3 0 [1, 2, 3] with tgts := [2 * 256 + 0x40] }
    let s := { linked 2 with fab := { base.fab with flight := [x] } }
    s.brvState 1 ∈ [2, 3] ∧ s.viaPort 1 x = true := by decide +kernel

/-! ### TheModemReceivesAndTransmits -/

/-- MOD_CONFIG of channel `n` from 0x3000 of HBM. -/
def modCmd1 (n : Byte) : Cmd := cmd 0x3B 0xFF ([n, 0, 0, 0, 0, 0, 0, 0] ++ toLE 8 0x3000 ++ toLE 8 0x100000 ++ toLE 8 4096 ++ toLE 2 5 ++ toLE 2 7)
/-- Channel 7 is enabled or not (`en`); the block at 0x3000 has H 16 and PLEN 8, or zeros. -/
def toConfigure (n : Byte) (en good : Bool) : State :=
  given (modCmd1 n) (withMem [(key 0x40 0x3000, toLE 4 (if good then 8 * 2 ^ 20 + 16 * 2 ^ 12 + 1 else 0))] (base.setRegN (chKey 7 0) (b2n en)))
theorem wit_TheModemReceivesAndTransmits_config (n : Byte) (h : n ∈ [(8 : Byte), 7]) (en good : Bool) :
    let c := modCmd1 n
    let s := toConfigure n en good
    Ready s 1 0x3B c ∧ s.clean ∧ s.modem.ch.length = 8 ∧ c.param 0 1 = n.toNat ∧ c.param 8 8 = 0x3000 ∧ 0x3000 + 60 ≤ s.hbmBytes ∧ s.chEn 7 = en ∧
    modBad false (s.bytes (key 0x40 (c.param 8 8)) 60) = !good := by
  refine ⟨ready _ _ _ ?_, clean_of_list _ rfl ?_, ?_⟩ <;> (revert n en good; decide +kernel)
/-- A burst's descriptor: combination 0, 3 payload bytes at 0x2000 of HBM, status at 0x4000; its kind is `k`. -/
def txDesc (k : Byte) : List Byte := [k, 0, 3, 0] ++ toLE 8 0 ++ toLE 8 hbmAddr ++ toLE 8 (hbmAddr + 0x2000) ++ toLE 2 7 ++ List.replicate 34 0
/-- The modem runs at 12.8 MSa/s; channel 7 searches combination 0 of 1,200 symbols/s, PLEN 8, THRESH 200, and is `x`. -/
def modemS (k : Byte) (x : ModCh) : State :=
  let s := [(modKey 0, 1), (chKey 7 0, 8 * 2 ^ 20 + 16 * 2 ^ 12 + 1), (chKey 7 0x10, 200 * 2 ^ 24 + 2 ^ 22 + 1200), (chKey 7 8, 0x0F), (modKey 0x10, 9),
    (modKey 4, 1), (crdW0 0x31 0, 5), (crdW1 0x31 0, 2 ^ 31)].foldl (fun t v => t.setRegN v.1 v.2) (streams base)
  { s.setReg (tokKey 0x31 7) 1 with
    modem := { base.modem with rxUp := true, txUp := true, ch := (List.replicate 7 ModCh.reset) ++ [x] }
    mem := putBytes [] (key 0x40 0x2000) (txDesc k) }
theorem modemS_clean (k : Byte) (x : ModCh) : (modemS k x).clean := by
  refine clean_of_list _ rfl ?_
  show ((modemS 0 ModCh.reset).regs.all _) = true
  decide +kernel
def chan : ModCh := { ModCh.reset with base := hbmAddr, size := 64, wptr := 32, stream := 5, tctr := 7 }
/-- A window equal to the preamble, and a burst at time 500 that is recent at 600 and not at 100,500. -/
theorem wit_TheModemReceivesAndTransmits_detect (rx : Bool) (l : Bool) :
    let x : ModCh := { chan with rx := if rx then some ⟨0, 255, none⟩ else none, lastTx := if l then some 500 else none }
    let s := modemS 1 x
    let dets : List (Fin 8 × List Int) := [(0, (List.range 64).map (preamble 1))]
    s.modem.ch.length = 8 ∧ s.modOn = true ∧ s.modem.rxUp = true ∧ s.modem.txUp = true ∧ s.chEn 7 = true ∧ s.recording = false ∧ s.modCh 7 = x ∧
    winner (s.detections 7 dets) = some (0, 255) ∧ x.lastTx.any (fun y => decide (y ≤ 600) && decide (600 < y + 100000)) = l ∧
    x.lastTx.any (fun y => decide (y ≤ 100500) && decide (100500 < y + 100000)) = false := by
  revert rx l; decide +kernel
theorem wit_TheModemReceivesAndTransmits_sync (k : Bool) :
    let s := modemS 1 { chan with rx := some ⟨0, 255, if k then some 9 else none⟩ }
    (s.modCh 7).rx = some ⟨0, 255, if k then some 9 else none⟩ ∧ syncErrors (s.chFour 7) 0x0C (s.regN (chKey 7 8)) = 2 ∧ s.chFour 7 = false := by
  revert k; decide +kernel
/-- Frames of 0 and 64 bytes: with one record of 32 bytes in the ring of 64, the first's record fits, the second's does not. -/
theorem wit_TheModemReceivesAndTransmits_record (n : Nat) (h : n ∈ [0, 64]) :
    let s := modemS 1 { chan with rx := some ⟨0, 255, some 9⟩ }
    let frame : List Byte := BitVec.ofNat 8 n :: List.replicate n 3
    let x := s.modCh 7
    let used := (x.wptr + 2 ^ 32 - s.regN (chKey 7 0x38)) % 2 ^ 32
    let b := modRecord 7 ⟨0, 255, some 9⟩ true ((frame.take (1 + n)).drop 1) 5 6
    x.rx = some ⟨0, 255, some 9⟩ ∧ s.recording = false ∧ (frame.getD 0 0).toNat = n ∧ s.chCrc 7 = false ∧ frame.length = 1 + n + 0 ∧
    (used + b.length ≤ x.size ↔ n = 0) := by
  revert n; decide +kernel
/-- Firmware's ring and stream of the channel are left open. -/
theorem wit_TheModemReceivesAndTransmits_fetch (hs : Config.modStream 7 % 2 ^ 16 = 5)
    (hr : Config.modRing 7 % 2 ^ 58 * 64 = 0xF * 2 ^ 60 + 0x40 * 2 ^ 52 + 0x2000) (k : Byte) (h : k ∈ [(1 : Byte), 2]) :
    let s := modemS k chan
    s.modOn = true ∧ s.modem.txUp = true ∧ chan.burst = none ∧ s.modCh 7 = chan ∧ (s.tok 0x31 7 - BitVec.ofNat 32 (chan.taken + 1)).toNat < 2 ^ 31 ∧
    ReadsAs s 0x31 (Config.modStream 7 % 2 ^ 16) (Config.modRing 7 % 2 ^ 58 * 64 + 64 * (chan.taken % 2 ^ (4 + Config.modLog2 7 % 17))) 64 (txDesc k) ∧
    s.burstBad 7 (txDesc k) = decide (k = 2) ∧ fieldLE (txDesc k) 3 1 % 2 = 0 ∧
    ReadsAs s 0x31 (Config.modStream 7 % 2 ^ 16) (fieldLE (txDesc k) 12 8) (fieldLE (txDesc k) 2 1) ((txDesc k).take 3) := by
  rw [hs, hr]
  have hz : chan.taken % 2 ^ (4 + Config.modLog2 7 % 17) = 0 := Nat.zero_mod _
  rw [hz]
  refine ⟨?_, ?_, ?_, ?_, ?_, ⟨?_, modemS_clean k chan, .inr ?_⟩, ?_, ?_, ⟨?_, modemS_clean k chan, .inr ?_⟩⟩ <;> (clear hs hr hz; revert k; decide +kernel)
/-- A burst that waits, one that has started, and one that ended before its start. -/
theorem wit_TheModemReceivesAndTransmits_burst (a b : Bool) :
    let s := modemS 1 { chan with burst := some ⟨txDesc 1, 0, 0, a, b⟩ }
    (s.modCh (7 : Fin 8).val).burst = some ⟨txDesc 1, 0, 0, a, b⟩ ∧ s.modOn = true ∧ s.modem.txUp = true ∧ s.masked = true ∧ s.computeUp = true := by
  revert a b; decide +kernel

/-! ### ImagesAreLoadedAttestedAndAlarmsActed -/

theorem slice_host (s : State) (a n i k : Nat) (h : i + k ≤ n) : slice (s.hostBytes a n) i k = s.hostBytes (a + i) k := by
  unfold slice State.hostBytes
  apply List.map_congr_left
  intro j hj
  have hj := List.mem_range.mp hj
  have hlt : i + j < n := by omega
  simp [List.getD, hlt, Nat.add_assoc]
theorem field_host (s : State) (a n i k : Nat) (h : i + k ≤ n) : fieldLE (s.hostBytes a n) i k = leNat (s.hostBytes (a + i) k) := by
  unfold fieldLE; rw [slice_host s a n i k h]
/-- The device in state `d` with the words of a LOAD in mailbox 0: an image at 0x1000 of the host. The host's memory holds the header of an image
of 17,312 bytes (zeros follow). `m`: bus mastering is enabled. -/
def safeS (d cmd len : Nat) (m : Bool) : State :=
  let s := (((((base.setFld secState 2 0 d).setRegN (mbxKey 0x60 0 0x40) 1).setRegN (mbxKey 0x60 0 0) cmd).setRegN (mbxKey 0x60 0 4) 0x1000).setRegN
    (mbxKey 0x60 0 12) len)
  { s with
    host := putBytes [] 0x1000 (toLE 4 0x57465244 ++ toLE 4 7 ++ [5, 0, 0, 0] ++ toLE 4 17312 ++ toLE 4 704)
    power := { s.power with busMaster := m } }
theorem wit_ImagesAreLoadedAttestedAndAlarmsActed_load (cmd : Nat) (h : cmd ∈ [1, 2]) (m f : Bool) :
    let s := if f then (safeS 2 cmd 64 m).setFld (key BAR0 0x14) 15 8 1 else safeS 2 cmd 64 m
    s.devState = 2 ∧ s.power.good = true ∧ s.fld (mbxKey 0x60 0 0x40) 0 0 = 1 ∧ s.loadWord 0 = cmd ∧ s.loadWord 4 ≤ 1 ∧
    (s.loadWord 1 + 2 ^ 32 * s.loadWord 2) % 64 = 0 ∧ (∀ i, i < 11 → s.loadWord (5 + i) = 0) ∧ s.testsPass = !f ∧ s.master = m ∧ s.power.recovery = none ∧
    s.imageCause (s.hostBytes (s.loadWord 1 + 2 ^ 32 * s.loadWord 2) (s.loadWord 3)) = 2 := by
  revert cmd m f; decide +kernel
/-- The image passes when its keys and signatures do, whose check the spec leaves to the algorithms that it names. -/
theorem image_passes (d cmd : Nat) :
    let s := safeS d cmd 17312 true
    let b := s.hostBytes 0x1000 17312
    Config.imageKeyOk 0 (slice b (704 - 448) 384) (slice b (704 - 64) 48) = true → Config.rsaOk (slice b (704 - 448) 384) (b.take 704) (slice b 704 384) = true →
    Config.slhOk (slice b (704 - 64) 48) (b.take 704) (slice b (704 + 384) 16224) = true → s.imageCause b = 0 := by
  intro s b h1 h2 h3
  have hh : s.hostBytes 0x1000 20 = (safeS 0 0 0 true).hostBytes 0x1000 20 := rfl
  have hz : s.hostBytes 0x1014 236 = (safeS 0 0 0 true).hostBytes 0x1014 236 := rfl
  have hl : b.length = 17312 := by simp [b, State.hostBytes]
  have f : ∀ i k, i + k ≤ 20 → fieldLE b i k = leNat ((safeS 0 0 0 true).hostBytes (0x1000 + i) k) := fun i k hi => field_host s 0x1000 17312 i k (by omega)
  have e0 : fieldLE b 0 4 = 0x57465244 := by rw [f 0 4 (by omega)]; decide +kernel
  have e8 : imgSvn b = 5 := by unfold imgSvn; rw [f 8 1 (by omega)]; decide +kernel
  have e9 : fieldLE b 9 1 = 0 := by rw [f 9 1 (by omega)]; decide +kernel
  have e10 : fieldLE b 10 1 = 0 := by rw [f 10 1 (by omega)]; decide +kernel
  have e11 : imgKeyset b = 0 := by unfold imgKeyset; rw [f 11 1 (by omega)]; decide +kernel
  have e12 : fieldLE b 12 4 = 17312 := by rw [f 12 4 (by omega)]; decide +kernel
  have e16 : imgSigoff b = 704 := by unfold imgSigoff; rw [f 16 4 (by omega)]; decide +kernel
  have ez : (slice b 20 236).any (fun x => decide (x ≠ 0)) = false := by
    have : slice b 20 236 = s.hostBytes 0x1014 236 := slice_host s 0x1000 17312 20 236 (by omega)
    rw [this, hz]; decide +kernel
  unfold State.imageCause State.imageKeys
  simp only [e0, e8, e9, e10, e11, e12, e16, ez, hl, h1, h2, h3]
  have hv : s.fuse.svn = 0 := rfl
  rw [hv]
  decide
theorem wit_ImagesAreLoadedAttestedAndAlarmsActed_good :
    let s := safeS 2 1 17312 true
    let a := s.loadWord 1 + 2 ^ 32 * s.loadWord 2
    s.devState = 2 ∧ s.power.good = true ∧ s.fld (mbxKey 0x60 0 0x40) 0 0 = 1 ∧ s.loadWord 0 = 1 ∧ s.loadWord 4 ≤ 1 ∧ a = 0x1000 ∧ s.loadWord 3 = 17312 ∧
    (∀ i, i < 11 → s.loadWord (5 + i) = 0) ∧ s.testsPass = true ∧ s.master = true ∧ s.power.recovery = none ∧ s.fuse.svn = 0 := by
  decide +kernel
/-- FW_LOAD of `n` bytes at 0x1000 in state `d`. -/
def fwCmd (n : Nat) : Cmd := cmd 0x08 0xFF (toLE 8 0x1000 ++ toLE 4 n ++ [1])
theorem wit_ImagesAreLoadedAttestedAndAlarmsActed_fw (d : Nat) (hd : d ∈ [3, 4]) (n : Nat) (hn : n ∈ [0, 64, 17312]) (m : Bool) :
    let c := fwCmd n
    let s := given c (safeS d 0 0 m)
    Ready s 1 0x08 c ∧ s.devState = d ∧ c.param 0 8 = 0x1000 ∧ c.param 8 4 = n ∧ s.master = m ∧ s.fuse.svn = 0 ∧ (n = 64 → s.imageCause (s.hostBytes 0x1000 64) = 2) := by
  refine ⟨ready _ _ _ ?_, ?_⟩ <;> (revert d n m; decide +kernel)
/-- ATTEST to `dest` with room for `room` bytes, without certificates. -/
def attestCmd (dest room : Nat) : Cmd := cmd 0x09 0xFF (List.replicate 32 7 ++ toLE 8 dest ++ toLE 4 room ++ [0])
theorem attest_length (s : State) (h : s.partList = []) (nonce : List Byte) (hn : nonce.length = 32) : (s.attestBody nonce).length = 132 := by
  unfold State.attestBody shaBytes
  have hl : ∀ n v, (toLE n v).length = n := by
    intro n
    induction n with
    | zero => intro _; rfl
    | succ n ih => intro v; simp [toLE, ih]
  simp [h, hl, hn]
theorem wit_ImagesAreLoadedAttestedAndAlarmsActed_attest (dest : Nat) (h : dest ∈ [0x1000, 0x1001]) (room : Nat) (hr : room ∈ [36179, 36180]) (k : Bool) :
    let c := attestCmd dest room
    let s := given c { safeS 3 0 0 true with secure := { base.secure with keys := k } }
    let n := (s.attestBody (slice c.pkt 16 32)).length + 36048 + (if bit (c.param 44 1) 0 then (Config.attestCerts s.fuse.serial.toNat).length else 0)
    Ready s 1 0x09 c ∧ n = 36180 ∧ c.param 32 8 = dest ∧ c.param 40 4 = room ∧ s.secure.keys = k ∧ s.master = true := by
  have hb : bit ((attestCmd dest room).param 44 1) 0 = false := by revert dest room; decide +kernel
  refine ⟨ready _ _ _ ?_, ?_, ?_⟩
  · clear hb; revert dest room k; decide +kernel
  · simp only [hb]
    rw [attest_length _ (by show State.partList (safeS 3 0 0 true) = []; decide +kernel) _ (by simp [slice])]
    rfl
  · clear hb; revert dest room k; decide +kernel
/-- ALARM_CFG: policies `pol`, bits to clear, lock. -/
def alarmCmd (pol : Nat) (l : Byte) : Cmd := cmd 0x0A 0xFF (toLE 2 pol ++ [0x1F, l])
theorem wit_ImagesAreLoadedAttestedAndAlarmsActed_cfg (pol : Nat) (h : pol ∈ [0, 0x300, 0x2AA]) (l : Byte) (hl : l ∈ [(0 : Byte), 1]) (k : Bool) :
    let c := alarmCmd pol l
    let s := given c ((base.setFld secPol 10 10 (b2n k)).setRegN secAlarm 0x1F)
    Ready s 1 0x0A c ∧ c.param 0 2 % 1024 = pol ∧ (s.fld secPol 10 10 = 1 ↔ k = true) ∧ s.fld secPol 9 0 = 0 ∧
    ((∃ b, b < 5 ∧ bits pol (2 * b + 1) (2 * b) = 3) ↔ pol = 0x300) := by
  refine ⟨ready _ _ _ ?_, ?_⟩ <;> (revert pol l k; decide +kernel)
/-- Sources 0, 1 and 2 have the policies LOG, HALT and ERASE. -/
theorem wit_ImagesAreLoadedAttestedAndAlarmsActed_alarm (i : Fin 3) :
    let s := base.setRegN secPol (0x24)
    let src : BitVec 5 := [(1 : BitVec 5), 3, 7].getD i.val 0
    src ≠ 0 ∧ s.power.good = true ∧ (∀ b, b < 5 → bit src.toNat b = true → s.alarmPol b ≤ i.val) ∧
    (∃ b, b < 5 ∧ bit src.toNat b = true ∧ s.alarmPol b = i.val) ∧ s.ledger.up = true := by
  revert i; decide +kernel

/-! ### ResetsAndPowerChangesDoWhatTheirKindSays -/

/-- No test fails; only the logic test of the compute die does. -/
def pass : Tests := ⟨0, 0xFF, 0, 0⟩
def dieFails : Tests := ⟨0x10, 3, 0, 0⟩
/-- An image of the cache, and the device with it. -/
def cached : Image := ⟨7, 0, 0, 0, []⟩
def booted (s : State) : State := { s with secure := { s.secure with image := some cached, cached0 := true, cached1 := true } }
theorem cached_passes (h1 : Config.imageKeyOk 0 (slice [] 0 384) (slice [] 0 48) = true) (h2 : Config.rsaOk (slice [] 0 384) [] (slice [] 0 384) = true)
    (h3 : Config.slhOk (slice [] 0 48) [] (slice [] 384 16224) = true) (s : State) (hs : s.fuse.svn = 0) : s.imageKeys cached.bytes = 0 := by
  have e : imgSigoff [] = 0 := rfl
  have k : imgKeyset [] = 0 := rfl
  have v : imgSvn [] = 0 := rfl
  have p : fieldLE [] 10 1 = 0 := rfl
  show s.imageKeys [] = 0
  unfold State.imageKeys
  simp only [e, k, v, p, hs, List.take_nil, Nat.zero_sub, Nat.zero_add, h1, h2, h3]
  decide
theorem wit_ResetsAndPowerChangesDoWhatTheirKindSays_tests :
    pass.fail = 0 ∧ pass.led = 0 ∧ pass.cache = 0 ∧ bit dieFails.fail.toNat 4 = true ∧ dieFails.fail.toNat % 16 = 0 ∧
    (booted base).secure.image = some cached ∧ (booted base).secure.cached0 = true ∧ (booted base).fuse.svn = 0 ∧ (booted base).power.good = true := by
  decide +kernel
theorem wit_ResetsAndPowerChangesDoWhatTheirKindSays_path :
    let s := { base with ledger := { base.ledger with pathFault := true } }
    s.power.good = true ∧ s.power.dStandby = false ∧ s.devState ≠ 5 ∧ s.ledger.pathFault = true := by decide +kernel
/-- RESET of kind `k` and target `t`; engine 7 is off, partition 0 has all engines. -/
def resetCmdOf (k t : Byte) : Cmd := cmd 0x48 0xFF [k, t]
def toReset (c : Cmd) : State := given c ((booted (owned base (partOf 1 0xFF))).modEng 7 fun x => { x with power := .off })
theorem wit_ResetsAndPowerChangesDoWhatTheirKindSays_reset (k : Byte) (hk : k ∈ [(1 : Byte), 2, 3, 4, 5, 6]) (t : Byte) (ht : t ∈ [(0 : Byte), 7, 8]) :
    let c := resetCmdOf k t
    let s := toReset c
    Ready s 1 0x48 c ∧ c.param 0 1 = k.toNat ∧ c.param 1 1 = t.toNat ∧ s.parts[(0 : Fin 8)] = some (partOf 1 0xFF) ∧ s.nEngines = 8 ∧
    s.eng[(7 : Fin 8)].power = .off ∧ s.eng[(0 : Fin 8)].power ≠ .off ∧ (0 : Fin 8) ∈ (partOf 1 0xFF).members := by
  refine ⟨ready _ _ _ ?_, ?_⟩ <;> (revert k t; decide +kernel)
theorem wit_ResetsAndPowerChangesDoWhatTheirKindSays_trip (x : Bool) :
    let s := { base with fuse := { base.fuse with xSuffix := x } }
    let limit : Int := if s.fuse.xSuffix then 120000 else 115000
    limit < 120001 ∧ (x = false → limit < 115001) ∧ s.power.good = true := by
  revert x; decide +kernel
/-- POWER_CAP. -/
def capCmd (cap st step : Byte) (idle : Nat) : Cmd := cmd 0x49 0xFF ([cap, st, step, 0] ++ toLE 2 idle)
theorem wit_ResetsAndPowerChangesDoWhatTheirKindSays_cap (i : Fin 6) (on : Bool) :
    let p : Byte × Byte × Byte × Nat := [(3, 255, 0, 0), (255, 255, 0, 0xFFFF), (1, 255, 0, 5), (255, 1, 12, 5), (255, 255, 12, 0xFFFF), (2, 255, 13, 5)].getD i.val (0, 0, 0, 0)
    let c := capCmd p.1 p.2.1 p.2.2.1 p.2.2.2
    let s := given c { base with carriers := if on then [car0] else [] }
    Ready s 1 0x49 c ∧ s.power.cap = 0 ∧ c.param 0 1 = p.1.toNat ∧ c.param 1 1 = p.2.1.toNat ∧ c.param 2 1 = p.2.2.1.toNat ∧ c.param 3 1 = 0 ∧
    c.param 4 2 = p.2.2.2 ∧ s.admits 1 = true ∧ s.stateBlocked c = (on && decide (i.val = 3)) := by
  refine ⟨ready _ _ _ ?_, ?_⟩ <;> (revert i on; decide +kernel)
/-- An entry that runs 1,000 times a period does not fit; how often each runs is the image's affair. -/
theorem wit_ResetsAndPowerChangesDoWhatTheirKindSays_refused (h : ∀ i g, Config.entryRuns 3 i 1 g = 1000) :
    let c := capCmd 1 255 0 5
    let s := given c (radio [car0])
    Ready s 1 0x49 c ∧ c.param 0 1 = 1 ∧ s.power.cap = 0 ∧ s.admits 1 = false := by
  refine ⟨ready _ _ _ (by decide +kernel), by decide +kernel, by decide +kernel, ?_⟩
  have hq : (given (capCmd 1 255 0 5) (radio [car0])).parts[(0 : Fin 8)] = some (partOf 0 0xFF) := by decide +kernel
  have hp : (given (capCmd 1 255 0 5) (radio [car0])).planned 0 0 = [carDesc 64] := by decide +kernel
  have hj : (given (capCmd 1 255 0 5) (radio [car0])).jobs = [job3 0] := rfl
  have he : (given (capCmd 1 255 0 5) (radio [car0])).engineFits 0 (partOf 0 0xFF) 1 0 = false := by
    unfold State.engineFits
    simp only [hp, State.periodEntries, hj, List.length_nil]
    have hs : (job3 0).slot = 3 := rfl
    simp only [List.filter_cons, List.filter_nil, show (job3 0).part = 0 from rfl, decide_true, if_true, List.flatMap_cons, List.flatMap_nil, List.append_nil, hs]
    simp only [Nat.zero_add, h]
    decide +kernel
  unfold State.admits
  rw [List.all_eq_false]
  refine ⟨0, List.mem_finRange 0, ?_⟩
  simp only [hq]
  have hall : ((List.range 8).all fun e => !(bit (partOf 0 0xFF).engmask e) ||
      (given (capCmd 1 255 0 5) (radio [car0])).engineFits (0 : Fin 8).val (partOf 0 0xFF) 1 e) = false := by
    rw [List.all_eq_false]
    exact ⟨0, by decide, by rw [show ((0 : Fin 8).val) = 0 from rfl, he]; decide⟩
  simp only [hall]
  decide
theorem wit_ResetsAndPowerChangesDoWhatTheirKindSays_switch (q : Bool) :
    let c := { capCmd 1 255 0 5 with phase := .waiting }
    let s0 := given c { base with power := { base.power with pendingCap := some (1, 5, 1, 0) } }
    let s := if q then s0 else s0.modEng 0 fun x => { x with cmd := some (1, 4) }
    s.power.pendingCap = some (1, 5, 1, 0) ∧ s.cmdOf (1, 5) = some c ∧ c.phase ≠ .done ∧ c.replay = false ∧ s.ledger.up = true ∧ s.fullIf = true ∧
    s.power.cap ≤ 2 ∧ s.quiet = q ∧ s.stateBlocked c = false ∧ c.param 1 1 ≠ 2 := by
  revert q; decide +kernel
theorem wit_ResetsAndPowerChangesDoWhatTheirKindSays_idle :
    let s := base.setRegN (pwrKey 0x10C) 5
    s.fullIf = true ∧ s.computeUp = true ∧ s.eng[(7 : Fin 8)].power = .on ∧ s.eng[(7 : Fin 8)].state = .idle ∧ s.eng[(7 : Fin 8)].queue = [] ∧
    s.eng[(7 : Fin 8)].started = [] ∧ s.fld (pwrKey 0x10C) 15 0 ≠ 0 ∧ s.isRealtime (s.homePart 7) = false := by decide +kernel
theorem wit_ResetsAndPowerChangesDoWhatTheirKindSays_wake :
    let s := { base with power := { base.power with wakeq := [7, 0], dIdle := true, hbmAwake := [(3, 5)] }, cmds := [cmd 0 0xFF []] }
    s.power.wakeq = (7 : Fin 8).val :: [0] ∧ s.computeUp = true ∧ (∀ c ∈ s.cmds, c.op ≠ 0x10) ∧ cmd 0 0xFF [] ∈ s.cmds ∧ (cmd 0 0xFF []).phase ≠ .done ∧
    s.power.dIdle = true ∧ (∃ x ∈ s.power.hbmAwake, x.1 = (3 : Fin 4).val) := by decide +kernel
theorem wit_ResetsAndPowerChangesDoWhatTheirKindSays_master : base.hostUp = true ∧ base.completions = [] ∧ base.pendingVectors = [] := by decide +kernel

/-! ### CountersLoupeAndTheTestPortObserve -/

/-- PERF_CFG `op` of block (kind, index) with mask `m`, words at 0x3000 of HBM, DEST 0x1000. -/
def perfCmd (kind index op : Byte) (m : Nat) : Cmd := cmd 0x50 0xFF ([kind, index, op, 0] ++ toLE 2 m ++ toLE 2 1023 ++ toLE 8 0x3000 ++ toLE 8 0x1000)
/-- Counter 0 of engine 0's block counts cycles when EN is `en`; counter 1 is chained to it and holds 5; engine 7 is off. -/
def counting (en : Nat) : State :=
  let b := pmcBase 0 0
  let s := (((base.setRegN (key 0 b) en).setRegN (key 0 (b + 0x10)) 0x200).setRegN (key 0 (b + 0x20)) 0x300).pmcPut 0 b 1 (2 ^ 40 + 5)
  (s.modEng 7 fun x => { x with power := .off }).modPower fun w => { w with busMaster := true }
theorem counting_clean (en : Nat) (h : en ∈ [0, 1]) : (counting en).clean := clean_of_list _ rfl (by revert en; decide +kernel)
theorem wit_CountersLoupeAndTheTestPortObserve_perf (kind : Byte) (hk : kind ∈ [(0 : Byte), 3, 4]) (index : Byte) (hi : index ∈ [(0 : Byte), 7]) (op : Byte)
    (ho : op ∈ [(0 : Byte), 1, 2, 3, 4]) (m : Nat) (hm : m ∈ [0, 1, 255]) :
    let c := perfCmd kind index op m
    let s := given c (counting 0)
    Ready s 1 0x50 c ∧ c.param 2 1 = op.toNat ∧
    s.pmcBlock (c.param 0 1) (c.param 1 1) = (if kind = 0 then some (index.toNat, 0) else if kind = 3 ∧ index = 0 then some (0x34, 0) else none) ∧
    c.param 4 2 = m ∧ c.param 6 2 ≤ 1023 ∧ s.hbmBytes = 0x1800000000 ∧ c.param 8 8 = 0x3000 ∧ c.param 16 8 % 64 = 0 ∧ s.master = true := by
  refine ⟨ready _ _ _ ?_, ?_⟩ <;> (revert kind index op m; decide +kernel)
theorem wit_CountersLoupeAndTheTestPortObserve_block :
    let s := counting 0
    s.eng[(7 : Fin 8)].power = .off ∧ s.eng[(0 : Fin 8)].power ≠ .off ∧ engOf 0x34 = none ∧ pmcSize 0 = 16 ∧ pmcSize 0x34 = 8 ∧
    (∀ k, k < 16 → s.pmcRuns 0 (pmcBase 0 0) k = false) ∧ selsOk 255 (s.bytes (key 0x40 0x3000) 64) = true := by
  decide +kernel
theorem wit_CountersLoupeAndTheTestPortObserve_counter (en : Nat) (h : en ∈ [0, 1]) :
    let s := counting en
    let b := pmcBase 0 0
    (15 : Nat) < pmcSize 0 ∧ s.unitCause 0 0x60 = 0 ∧ s.pmcRuns 0 b 0 = decide (en = 1) ∧ s.pmcRuns 0 b 1 = false ∧
    (0 + 1 < pmcSize 0 ∧ s.fld (key 0 (b + 0x10 + 16 * 1)) 9 8 = 3) ∧ s.pmcCount 0 b 1 < 2 ^ 48 - 1 ∧
    (let t := s.setRegN (key 0 (b + 0x20)) 0
     t.pmcRuns 0 b 0 = decide (en = 1) ∧ t.fld (key 0 (b + 0x10 + 16 * 1)) 9 8 ≠ 3) := by
  revert en; decide +kernel
/-- LOUPE_CFG of engine 0 at `rate`, with a ring of `size` bytes at 0x4000. -/
def loupeCmd (en rate : Byte) (size : Nat) : Cmd := cmd 0x51 0xFF ([0, en, rate, 0] ++ toLE 4 8 ++ toLE 8 0x4000 ++ toLE 8 size)
theorem wit_CountersLoupeAndTheTestPortObserve_loupe (rate : Byte) (h : rate ∈ [(7 : Byte), 8]) (size : Nat) (hs : size ∈ [4095, 4096]) (rt : Bool) :
    let c := loupeCmd 1 rate size
    let s := given c (owned base { partOf (if rt then 0 else 1) 0xFF with hbmBase := 0x200000, hbmSize := 0x200000 })
    Ready s 1 0x51 c ∧ c.param 0 1 = 0 ∧ 0 < s.nEngines ∧ c.param 2 1 = rate.toNat ∧ bit (c.param 1 1) 0 = true ∧ c.param 8 8 = 0x4000 ∧ c.param 16 8 = size ∧
    0x4000 + size ≤ s.hbmBytes ∧ s.loupeMeets 0x4000 size = false ∧ s.isRealtime (s.homePart 0) = rt := by
  refine ⟨ready _ _ _ ?_, ?_⟩ <;> (revert rate size rt; decide +kernel)
/-- A tagged instruction with a ring of 4,096 bytes that is full or has room. -/
theorem wit_CountersLoupeAndTheTestPortObserve_record (w : Nat) (h : w ∈ [4064, 4065]) :
    let s := ((base.setRegN (loupeKey 0 0x10) 4096).setRegN (loupeKey 0 0x14) w).modEng 0 fun x => { x with tags := [⟨0, 1, 8, 65, false⟩] }
    s.eng[(0 : Fin 8)].tags[0]? = some ⟨0, 1, 8, 65, false⟩ ∧ s.regN (loupeKey 0 0x14) = w ∧
    (ringDist (w + 32) (s.regN (loupeKey 0 0x18)) ≤ s.regN (loupeKey 0 0x10) ↔ w = 4064) := by
  revert w; decide +kernel
theorem wit_CountersLoupeAndTheTestPortObserve_tap : base.devState = 4 ∧ (safeS 2 0 0 true).devState = 2 := by decide +kernel


/-! ### Ill-formed terms, one for each check of WellFormed -/

theorem test_ill_length (h : Hdr) (hl : h.len = 4) : Instr.problem (.signal h) = some .length := by
  unfold Instr.problem Hdr.problem
  simp [hl, when]
theorem test_ill_payload (h : Hdr) (hl : h.len = 4) : Instr.problem (.put h [1, 2, 3]) = some .payload := by
  unfold Instr.problem Hdr.problem
  simp [hl, when]
theorem test_ill_reserved (e : Fin 8) (f : ScalarF) (hf : f.rsv = 1) : Instr.problem (.scAdd e f) = some .reserved := by
  unfold Instr.problem
  simp [hf, when]
theorem test_ill_unit : Instr.problem (.registerWrite 0 257 0 0) = some .unit := by decide +kernel
theorem test_ill_offset : Instr.problem (.registerWrite 0 256 2 0) = some .offset := by decide +kernel
theorem test_ill_source : Instr.problem (.alarm 0) = some .source := by decide +kernel
theorem test_ill_code : Instr.problem (.bypass 5) = some .code := by decide +kernel
theorem test_well_formed : Instr.problem (.registerWrite 0 256 4 0) = none := by decide +kernel

/-! ### The spec's worked examples -/

/-- What `f` reads of the next state that an outcome answers. -/
def inNext {α : Type} (o : Out) (f : State → α) : Option α :=
  match o with
  | .next t => some (f t)
  | _ => none

/-- The products of Table 4.4, with the elements that Table 4.5 changes. -/
def products (w9 x3 : Nat) : List (Nat × Val) :=
  (List.range 32).map fun k =>
    (k, (Fmt.bf16.decode (if k = 3 then 0x71C0 else if k = 9 then w9 else 0x3F80)).mul
      (Fmt.bf16.decode (if k = 3 then x3 else if k = 9 then 0x4000 else 0x3E80)))
/-- Table 4.5: the four results, with the k that each records. -/
theorem test_dot_product :
    ([(0x7FC1, 0x7180, 0x41200000), (0x3F80, 0x7180, 0x41200000), (0x3F80, 0x7180, 0xFF800000), (0x3F80, 0x7F80, 0xFF800000)].map fun c =>
      (dotRule ((products c.1 c.2.1).map (·.2)) c.2.2, badProduct (products c.1 c.2.1))) =
    [(0x7FC00000, 9), (0x7F800000, 32), (0xFF800000, 32), (0x7FC00000, 3)] := by decide +kernel
/-- Table 4.7: a drain to E4M3. -/
def drained (a s b : Nat) (clip : Option (Val × Val)) (m : Rnd) (sat : Bool) : Nat × Bool :=
  fE4M3.convert m sat (drainVal (f32 a) (f32 s) (f32 b) clip)
theorem test_drain_e4m3 :
    [drained 0x43960000 0x40000000 0xC2C80000 none .rne true, drained 0x43960000 0x40000000 0xC2C80000 none .rne false,
      drained 0x43960000 0x40000000 0xC2C80000 (some (f32 0xC3C80000, f32 0x43C80000)) .rne true,
      drained 0xC0400000 0x39800000 0 none .rne true, drained 0x43960000 0x40000000 0xC2C80000 none .rtz true,
      drained 0x43960000 0x40000000 0xC2C80000 none .rtz false, drained 0x7F800000 0x40000000 0xC2C80000 none .rne true,
      drained 0x7FC00000 0x40000000 0xC2C80000 none .rne true] =
    [(0x7E, true), (0x7F, true), (0x7C, false), (0, false), (0x7E, true), (0x7F, true), (0x7E, true), (0x7F, false)] := by decide +kernel
/-- Table 5.10: weight row 0 against stationary column 4 under CONJ_X. -/
def complexParts (part : Nat) : List (Nat × Val) :=
  let m : MatD := { MatD.parse (List.replicate 64 0) with mode := 2, pair := 5, conjX := true, rmask := 7 }
  let tile := patch (patch (patch (List.replicate 512 0xFF) 8 [0x30, 0x28]) 40 [0x38, 0xB8]) 72 [0xB0, 0x00]
  let row := [0x38, 0x30, 0xA8, 0x38, 0x40, 0xB0] ++ List.replicate 26 0x7F
  ((pairInfo 5 false false).map fun p => m.cprods p ⟨5, 2, 0, 7, false, false, 0, tile, []⟩ row 4 part).getD []
theorem test_complex_estimator :
    [0, 1].map (fun p => dotRule ((complexParts p).map (·.2)) 0x80000000) = [0xBFD00000, 0x3F800000] := by decide +kernel
/-- Table 6.3: the scales of three E8M0 groups, and the elements of the second. -/
theorem test_e8m0_groups :
    let g := f32 0x442F0000 :: List.replicate 31 (f32 0x3C23D70A)
    [scaleCode 0 0 (f32 0x80000000 :: List.replicate 31 (f32 0)), scaleCode 0 0 g, scaleCode 0 0 (f32 0x7FC00000 :: g)] = [0, 0x86, 0xFF] ∧
    g.map (fun v => encElem 0 .rne v (e8m0Val 0x86)) = (7, false, false) :: List.replicate 31 (0, false, true) := by decide +kernel
/-- Table 6.4: three channels of an asymmetric quantise. -/
theorem test_channels :
    ([[0x3F400000, 0x3F400000, 0x3F400000, 0x3F400000], [0, 0x80000000, 0, 0], [0xBF800000, 0x3F000000, 0x40000000, 0x40400000]].map fun l =>
      (State.reset.cqChannel 0 { QntD.parse [] with asym := true } 0 (l.map f32)).2) =
    [(0x3F400000, 127, 0, [127, 127, 127, 127]), (0x42FE0000, 127, 0, [0, 0, 0, 0]), (0x40800000, 255, -64, [-128, -32, 64, 127])] := by
  decide +kernel
/-- The REDUCE example of 07: the tree's sum is 4.0, an absent row gives 0, and ARGMAX gives 1. -/
theorem test_reduce_tree :
    let at_ := fun _ c => f32 ([0x3F800000, 0x4B800000, 0x3F800000, 0xCB800000, 0x40400000].getD c 0)
    redResult 0 true (redTree 0 true (redLine false 1 5 0 at_ 0)) = (0x40800000, false) ∧
    redResult 0 true (redTree 0 true (redLine false 1 5 1 at_ 0)) = (0, false) ∧
    redResult 3 true (redTree 3 true (redLine false 1 5 0 at_ 0)) = (1, false) := by decide +kernel
/-- The estimate of 08: lanes 0 and 1 of the first CMUL and STORE. -/
theorem test_estimate_lanes :
    let p0 := accOp 1 (0, 0) (4096, -4096) (conjIf true (23170, -23170))
    let p1 := accOp 1 (0, 0) (32767, 32767) (conjIf true (23170, 23170))
    [storePart 15 true p0.1, storePart 15 true p0.2, storePart 15 true p1.1, storePart 15 true p1.2] =
      [(0x16A0, false, false), (0, false, false), (0x7FFF, true, false), (0, false, false)] := by decide +kernel
/-- The rotated, clamped and padded tile of 09, with its fill group. -/
def turnDesc : List Byte := [0x11, 2, 1, 0x44] ++ toLE 8 0xF400000000200000 ++ toLE 4 0x40000 ++ toLE 4 0x1000 ++ toLE 2 5
def turnShape : List Byte :=
  toLE 4 64 ++ toLE 4 6 ++ toLE 4 1 ++ toLE 4 1 ++ toLE 4 64 ++ toLE 8 0 ++ toLE 4 62 ++ toLE 4 4 ++ toLE 4 4 ++ toLE 4 3 ++
    [0, 0, 0, 0, 1, 0, 0, 0] ++ toLE 12 0
def turnRow (r : Nat) : List Byte := (List.range 64).map fun i => BitVec.ofNat 8 (if 56 ≤ i then 16 * r + (i - 56) else 0)
def turnState : State :=
  (((streams (withMem ([(0x1000, turnShape), (0x40010, [0x3C]), (0x70000, toLE 64 (2 ^ 0x10))] ++
      [4, 5].map fun r => (key 0x40 (0x200000 + 64 * r), turnRow r)) (one (.stream 0) turnDesc))).setRegN
    (key 0 (CTU + 0x40100)) 0x40000).setRegN (key 0 (CTU + 0x40104)) 0x100).setRegN (key 0 (CTU + 0x40108)) 0x70000 |>.setRegN
    (key 0 (CTU + 0x4010C)) 3
/-- Table 9.10, PRISM_OOB_CNT and PRISM_PADSUP_CNT. -/
theorem test_turned_tile :
    inNext (execLoad 0 0 turnState) (fun t =>
      ((List.range 4).flatMap fun k => t.bytes (key 0 (0x40000 + 16 * k)) 4, t.regN (key 0 (CTU + 0x40014)), t.regN (key 0 (CTU + 0x4001C)))) =
    some ([0, 0x56, 0x56, 0x46, 0x3C, 0x57, 0x57, 0x47, 0, 0x57, 0x57, 0x47, 0, 0x57, 0x57, 0x47], 8, 1) := by decide +kernel
/-- The block of 10 whose header Table 2.17 gives. -/
theorem test_block_of_carrier7 :
    let c : Carrier := ⟨7, 0, patch (patch (List.replicate 64 0) 1 [1, 0x11, 1]) 6 [2],
      List.replicate 16 0 ++ toLE 4 0 ++ toLE 2 0x0107 ++ toLE 2 0x40 ++ toLE 4 0xA5000 ++ toLE 4 0, some 0, none, none⟩
    let h := (base.blockItem c ⟨5, 7, 2, 112 + 3 * 8 + 2, List.replicate 3072 0⟩).hdr
    (h.addr, h.srcUnit, h.len, h.tctr) = (0x002000000010B400, 0x25, 3072, 0x40) ∧ (h.stream, h.seq, h.tinc, h.raddr) = (0x0107, 0x0232, 1, 0) := by
  decide +kernel
/-- Table 10.9: the EST trigger and the three EQ triggers of slot 2, in tenths of a microsecond after its air start. -/
theorem test_slot_triggers :
    let d := patch (patch (patch (patch (List.replicate 64 0) 1 [1, 0x11, 1]) 6 [2, 3]) 8 (toLE 2 0x2220)) 12 (toLE 4 25000)
    ([base.estTrigger d 2, base.eqTrigger d 2 0, base.eqTrigger d 2 1, base.eqTrigger d 2 2].map fun x =>
      (x - base.airTime d 2 0 + nsT 50) / nsT 100) = [1682, 2396, 3823, 5250] := by decide +kernel
/-- The directory entries of 11: BG 1 with ZC 384, BG 2 with ZC 176 and 208. -/
theorem test_directory_entries :
    [[1, 8] ++ toLE 2 384, [2, 8] ++ toLE 2 176, [2, 8] ++ toLE 2 208].map (fun b => setIndex b 0) = [50, 92, 94] := by decide +kernel
/-- The trial of 12: both comparisons pass, and the first fails one TB below its threshold. -/
theorem test_trial :
    let t : Trial := ⟨(0, 0), 0, 0, 0, 2000, 0, 0, 24000, 23304, 23088, 72226000000000, 71723000000000, 1200000000⟩
    t.crcOk 50 = true ∧ t.llrOk 256 = true ∧ ({ t with pc := 23207 } : Trial).crcOk 50 = false := by decide +kernel
/-- Completion 2 of the session of 13. -/
theorem test_completion_bytes : completionBytes ⟨3, 0x1002, 0x07, 0, 0x29, false⟩ 1 = [2, 0x10, 0, 0, 0, 0, 0, 0, 7, 1, 0, 0, 0x29, 0, 0, 0] := by
  decide +kernel
/-- The two reads of 16. -/
theorem test_ecc_example :
    (Ecc.sram 0x20 0x2000000000 true).verdict = .fix 44 0x20 ∧ (Ecc.sram 0x44 0 false).verdict = .uncorr := by decide +kernel
/-- Tables 16.2 and 16.7: what a read makes of each injection pattern of a product-code memory; Table 16.9: of a code word of HBM. -/
theorem test_injected_verdicts :
    (List.range 8).map (fun p => (injEcc false p).verdict) =
      [.clean, .fix 0 1, .check, .check, .uncorr, .uncorr, .uncorr, .uncorr] ∧
    (List.range 8).map (fun p => decide ((injEcc true p).verdict = .uncorr)) = [false, false, false, false, true, true, true, true] := by decide +kernel
/-- The sample part of 17, and the correctionField of Table 17.3. -/
theorem test_bfp_example : decompress 1 9 3 0x1F5 = (-88, false) := by decide +kernel
def taggedSync : List Byte := List.replicate 12 0 ++ [0x81, 0, 0, 0, 0x88, 0xF7, 0, 2] ++ List.replicate 6 0 ++ toBE 8 0x38000 ++ List.replicate 28 0
theorem test_correction :
    slice ((base.setRegN (fhKey 4 0x2C) 0xB4000).corrected 4 taggedSync (some (500000091 * 65536 + 0x6000)) (500000412 * 65536 + 0x4000)) 26 8 =
      [0, 0, 0, 0, 1, 0x4F, 0xA0, 0] := by decide +kernel
/-- Table 20.10: SEC_SELFTEST after SERDES has failed, and STATE. -/
theorem test_failing_loopback :
    inNext (execPor 0 0 false ⟨0x80, 0x29, 0, 0⟩ State.reset) (fun t => (t.regN (key BAR0 0x14), t.fld secState 2 0)) = some (0x0029807F, 2) := by
  decide +kernel
/-- 21: stages of a power-up under ISTEP 2 and under its reset value. -/
theorem test_power_stages : (State.reset.setFld (pwrKey 0x108) 3 0 2).powerStages = 6 ∧ State.reset.powerStages = 3 := by decide +kernel
/-- The Loupe record of 22. -/
theorem test_loupe_record :
    Tag.record ⟨0x13A2C, 151, 0x2C40, 4 * 64, false⟩ 1208 (some 1) (some 3) (some 59) =
      [0x2C, 0x3A, 1, 0, 0x97, 0, 0, 0, 0x40, 0x2C, 0, 0, 4, 0, 0, 0, 0xB8, 4, 0, 0, 1, 0, 0, 0, 3, 0, 0, 0, 0x3B, 0, 0, 0] := by decide +kernel

end Sys2Proof.Tests
end

section
/-! SUPPORT. Every command of the block answers a next state and keeps the waiting commands and the fuses: the lemmas of Laws/Keep*.lean,
one for each command, put together over the arms of `exec`. -/
namespace Sys2Proof.Machine

/-- What was kept up to `s` is kept by the answer to every command. -/
theorem exec_keep {r0 : State} (c : Instr) (s : State) (hs : Keep r0 s) : KeepO r0 (exec c s) :=
  match c with
  | .put h payload => execPut_keep h payload s hs
  | .get h => execGet_keep h s hs
  | .putSignal h payload => execPutSignal_keep h payload s hs
  | .signal h => execSignal_keep h s hs
  | .atomicAdd h payload => execAtomicAdd_keep h payload s hs
  | .fetchAdd h payload => execFetchAdd_keep h payload s hs
  | .cas h payload => execCas_keep h payload s hs
  | .orderedFadd h payload => execOrderedFadd_keep h payload s hs
  | .orderedFaddRelease unit stream => execOrderedFaddRelease_keep unit stream s hs
  | .returnDelivery src dst stream => execReturnDelivery_keep src dst stream s hs
  | .errorResponse unit far stream cause => execErrorResponse_keep unit far stream cause s hs
  | .creditReturn unit stream => execCreditReturn_keep unit stream s hs
  | .fabricOpIssue unit queue => execFabricOpIssue_keep unit queue s hs
  | .stall unit queue => execStall_keep unit queue s hs
  | .mcastSlow group => execMcastSlow_keep group s hs
  | .priorityAging unit queue => execPriorityAging_keep unit queue s hs
  | .fabCrdW0Write src unit k v => execFabCrdW0Write_keep src unit k v s hs
  | .fabCrdW1Write src unit k v => execFabCrdW1Write_keep src unit k v s hs
  | .clockWake unit st => execClockWake_keep unit st s hs
  | .scAdd e f => execScAdd_keep e f s hs
  | .scSub e f => execScSub_keep e f s hs
  | .scAnd e f => execScAnd_keep e f s hs
  | .scOr e f => execScOr_keep e f s hs
  | .scXor e f => execScXor_keep e f s hs
  | .scShl e f => execScShl_keep e f s hs
  | .scShr e f => execScShr_keep e f s hs
  | .scSra e f => execScSra_keep e f s hs
  | .scMul e f => execScMul_keep e f s hs
  | .scMovhi e f => execScMovhi_keep e f s hs
  | .scSlt e f => execScSlt_keep e f s hs
  | .scSltu e f => execScSltu_keep e f s hs
  | .scSeq e f => execScSeq_keep e f s hs
  | .scLd e f => execScLd_keep e f s hs
  | .scSt e f => execScSt_keep e f s hs
  | .scB e f => execScB_keep e f s hs
  | .scBeq e f => execScBeq_keep e f s hs
  | .scBne e f => execScBne_keep e f s hs
  | .scBlt e f => execScBlt_keep e f s hs
  | .scBge e f => execScBge_keep e f s hs
  | .scMovsum e f => execScMovsum_keep e f s hs
  | .scBsum e f => execScBsum_keep e f s hs
  | .streamIssue e f => execStreamIssue_keep e f s hs
  | .arrayIssue e f => execArrayIssue_keep e f s hs
  | .vectorIssue e f => execVectorIssue_keep e f s hs
  | .signalIssue e f => execSignalIssue_keep e f s hs
  | .issueStallRelease e => execIssueStallRelease_keep e s hs
  | .syWait e f => execSyWait_keep e f s hs
  | .syWaitt e f => execSyWaitt_keep e f s hs
  | .waitSatisfied e => execWaitSatisfied_keep e s hs
  | .waittGiveUp e => execWaittGiveUp_keep e s hs
  | .syFence e f => execSyFence_keep e f s hs
  | .fenceRelease e => execFenceRelease_keep e s hs
  | .sySig e f => execSySig_keep e f s hs
  | .syWaitdb e f => execSyWaitdb_keep e f s hs
  | .waitdbWake e => execWaitdbWake_keep e s hs
  | .syNop e f => execSyNop_keep e f s hs
  | .syEnd e f => execSyEnd_keep e f s hs
  | .syTrap e f => execSyTrap_keep e f s hs
  | .trapAbortEnd e => execTrapAbortEnd_keep e s hs
  | .overblock e => execOverblock_keep e s hs
  | .engRun src e => execEngRun_keep src e s hs
  | .engHalt src e => execEngHalt_keep src e s hs
  | .engKill src e => execEngKill_keep src e s hs
  | .killComplete e => execKillComplete_keep e s hs
  | .matmul e => execMatmul_keep e s hs
  | .matmulComplete e k => execMatmulComplete_keep e k s hs
  | .drain e => execDrain_keep e s hs
  | .drainComplete e k => execDrainComplete_keep e k s hs
  | .arrClrClamp src e all a => execArrClrClamp_keep src e all a s hs
  | .arrClrFlags src e all a => execArrClrFlags_keep src e all a s hs
  | .pairCtlWrite src e n v => execPairCtlWrite_keep src e n v s hs
  | .vecQntClr src e => execVecQntClr_keep src e s hs
  | .vecAdd e f => execVecAdd_keep e f s hs
  | .vecSub e f => execVecSub_keep e f s hs
  | .vecMul e f => execVecMul_keep e f s hs
  | .vecFma e f => execVecFma_keep e f s hs
  | .vecMin e f => execVecMin_keep e f s hs
  | .vecMax e f => execVecMax_keep e f s hs
  | .vecAbs e f => execVecAbs_keep e f s hs
  | .vecNeg e f => execVecNeg_keep e f s hs
  | .vecCeq e f => execVecCeq_keep e f s hs
  | .vecClt e f => execVecClt_keep e f s hs
  | .vecCle e f => execVecCle_keep e f s hs
  | .vecSel e f => execVecSel_keep e f s hs
  | .vecAnd e f => execVecAnd_keep e f s hs
  | .vecOr e f => execVecOr_keep e f s hs
  | .vecXor e f => execVecXor_keep e f s hs
  | .vecShl e f => execVecShl_keep e f s hs
  | .vecShr e f => execVecShr_keep e f s hs
  | .cvt e f => execCvt_keep e f s hs
  | .scalb e f => execScalb_keep e f s hs
  | .recip e f => execRecip_keep e f s hs
  | .rsqrt e f => execRsqrt_keep e f s hs
  | .sqrt e f => execSqrt_keep e f s hs
  | .exp e f => execExp_keep e f s hs
  | .log e f => execLog_keep e f s hs
  | .sin e f => execSin_keep e f s hs
  | .cos e f => execCos_keep e f s hs
  | .atan2 e f => execAtan2_keep e f s hs
  | .vbcast e f => execVbcast_keep e f s hs
  | .vld e f => execVld_keep e f s hs
  | .vst e f => execVst_keep e f s hs
  | .vldt e f => execVldt_keep e f s hs
  | .vstt e f => execVstt_keep e f s hs
  | .vtget e f => execVtget_keep e f s hs
  | .vtput e f => execVtput_keep e f s hs
  | .vperm e f => execVperm_keep e f s hs
  | .vgather e f => execVgather_keep e f s hs
  | .vscatter e f => execVscatter_keep e f s hs
  | .vredt e f => execVredt_keep e f s hs
  | .vsumm e f => execVsumm_keep e f s hs
  | .vsetvl e f => execVsetvl_keep e f s hs
  | .vsetbnd e f => execVsetbnd_keep e f s hs
  | .vsetsr e f => execVsetsr_keep e f s hs
  | .directInstrComplete e k => execDirectInstrComplete_keep e k s hs
  | .elementProgram e p => execElementProgram_keep e p s hs
  | .reduce e p => execReduce_keep e p s hs
  | .bquant e p => execBquant_keep e p s hs
  | .cquant e p => execCquant_keep e p s hs
  | .dequant e p => execDequant_keep e p s hs
  | .qacc e p => execQacc_keep e p s hs
  | .vectorDescComplete e p k => execVectorDescComplete_keep e p k s hs
  | .crc e => execCrc_keep e s hs
  | .sum64 e => execSum64_keep e s hs
  | .fill e => execFill_keep e s hs
  | .compare e => execCompare_keep e s hs
  | .collimatorComplete e k => execCollimatorComplete_keep e k s hs
  | .vecCntClr src e => execVecCntClr_keep src e s hs
  | .program e => execProgram_keep e s hs
  | .programComplete e => execProgramComplete_keep e s hs
  | .load e q => execLoad_keep e q s hs
  | .store e q => execStore_keep e q s hs
  | .pload e q => execPload_keep e q s hs
  | .pstore e q => execPstore_keep e q s hs
  | .rmo e q => execRmo_keep e q s hs
  | .streamDescComplete e q => execStreamDescComplete_keep e q s hs
  | .queueAging e q => execQueueAging_keep e q s hs
  | .prismCntClr src e => execPrismCntClr_keep src e s hs
  | .carrierCfg pair => execCarrierCfg_keep pair s hs
  | .carrierSwitch c => execCarrierSwitch_keep c s hs
  | .blockDelivery port => execBlockDelivery_keep port s hs
  | .rxWindowClose c n sym => execRxWindowClose_keep c n sym s hs
  | .ulSlot pair => execUlSlot_keep pair s hs
  | .dlSlot pair => execDlSlot_keep pair s hs
  | .est e => execEst_keep e s hs
  | .eq e => execEq_keep e s hs
  | .dec e => execDec_keep e s hs
  | .stageRerun => execStageRerun_keep s hs
  | .slotPublish e k => execSlotPublish_keep e k s hs
  | .tx e => execTx_keep e s hs
  | .cplaneSend c n => execCplaneSend_keep c n s hs
  | .uplaneSend c n ant sym complete => execUplaneSend_keep c n ant sym complete s hs
  | .dlSlotComplete c n => execDlSlotComplete_keep c n s hs
  | .facetFetch f => execFacetFetch_keep f s hs
  | .ldpcDec f => execLdpcDec_keep f s hs
  | .ldpcEnc f => execLdpcEnc_keep f s hs
  | .polarDec f => execPolarDec_keep f s hs
  | .polarEnc f => execPolarEnc_keep f s hs
  | .tbcrc f => execTbcrc_keep f s hs
  | .facetStatusRecord f => execFacetStatusRecord_keep f s hs
  | .facetAging f q => execFacetAging_keep f q s hs
  | .fctFlush src f q => execFctFlush_keep src f q s hs
  | .fctCntClr src f => execFctCntClr_keep src f s hs
  | .loadWeights pair => execLoadWeights_keep pair s hs
  | .weightsCommit p => execWeightsCommit_keep p s hs
  | .shadowConfig pair => execShadowConfig_keep pair s hs
  | .shadowCapWindow => execShadowCapWindow_keep s hs
  | .netTrial pair => execNetTrial_keep pair s hs
  | .trialDecide e => execTrialDecide_keep e s hs
  | .trialTimeout e => execTrialTimeout_keep e s hs
  | .netRollback pair => execNetRollback_keep pair s hs
  | .qTailWrite pair v => execQTailWrite_keep pair v s hs
  | .commandAccept pair => execCommandAccept_keep pair s hs
  | .qCheadWrite pair v => execQCheadWrite_keep pair v s hs
  | .resume pair => execResume_keep pair s hs
  | .qAdmEnable en => execQAdmEnable_keep en s hs
  | .completionWrite pair => execCompletionWrite_keep pair s hs
  | .nop pair => execNop_keep pair s hs
  | .queueConfig pair => execQueueConfig_keep pair s hs
  | .windowOpen pair => execWindowOpen_keep pair s hs
  | .windowClose pair => execWindowClose_keep pair s hs
  | .windowRead o len => execWindowRead_keep o len s hs
  | .windowWrite o data => execWindowWrite_keep o data s hs
  | .mbxPost src unit n => execMbxPost_keep src unit n s hs
  | .mbxAck src unit n v => execMbxAck_keep src unit n v s hs
  | .dbSet src unit v => execDbSet_keep src unit v s hs
  | .partCreate pair => execPartCreate_keep pair s hs
  | .partDestroy pair => execPartDestroy_keep pair s hs
  | .jobLoad pair => execJobLoad_keep pair s hs
  | .jobCmd pair => execJobCmd_keep pair s hs
  | .jobUnload pair => execJobUnload_keep pair s hs
  | .jobAbort pair => execJobAbort_keep pair s hs
  | .commandStart p => execCommandStart_keep p s hs
  | .commandCommit p => execCommandCommit_keep p s hs
  | .ledgerCommit ok0 ok1 => execLedgerCommit_keep ok0 ok1 s hs
  | .ledgerRead pair => execLedgerRead_keep pair s hs
  | .mirrorStart pair => execMirrorStart_keep pair s hs
  | .mirrorStop pair => execMirrorStop_keep pair s hs
  | .mirrorFull len => execMirrorFull_keep len s hs
  | .gap => execGap_keep s hs
  | .replayStart pair => execReplayStart_keep pair s hs
  | .replayHold => execReplayHold_keep s hs
  | .replayRelease pair => execReplayRelease_keep pair s hs
  | .eccWriteback => execEccWriteback_keep s hs
  | .scrubRead unit => execScrubRead_keep unit s hs
  | .hbmRefresh st => execHbmRefresh_keep st s hs
  | .eccInjArm src unit v => execEccInjArm_keep src unit v s hs
  | .eccCntClr src unit => execEccCntClr_keep src unit s hs
  | .ucieRetry ns => execUcieRetry_keep ns s hs
  | .ucieRetrain => execUcieRetrain_keep s hs
  | .ucieRetrainEnd ok tests => execUcieRetrainEnd_keep ok tests s hs
  | .fhConfig pair => execFhConfig_keep pair s hs
  | .ptpConfig pair => execPtpConfig_keep pair s hs
  | .portLinkChange port up => execPortLinkChange_keep port up s hs
  | .frameReceive port frame good t tx => execFrameReceive_keep port frame good t tx s hs
  | .storedFrameSend port tx => execStoredFrameSend_keep port tx s hs
  | .fhCntClr src port => execFhCntClr_keep src port s hs
  | .ptpSecLatch => execPtpSecLatch_keep s hs
  | .ptpAdj src v => execPtpAdj_keep src v s hs
  | .slewEnd => execSlewEnd_keep s hs
  | .ptpHold src hold => execPtpHold_keep src hold s hs
  | .triggerFire time addr stream tinc => execTriggerFire_keep time addr stream tinc s hs
  | .ppsOut => execPpsOut_keep s hs
  | .todSend => execTodSend_keep s hs
  | .ppsIn t => execPpsIn_keep t s hs
  | .brvConfig pair => execBrvConfig_keep pair s hs
  | .brvLinkUp port nbr size id major => execBrvLinkUp_keep port nbr size id major s hs
  | .brvLinkTimeout port => execBrvLinkTimeout_keep port s hs
  | .routeChange => execRouteChange_keep s hs
  | .transit port vc op h payload => execTransit_keep port vc op h payload s hs
  | .brvReplay port crc ns => execBrvReplay_keep port crc ns s hs
  | .brvRetrain port => execBrvRetrain_keep port s hs
  | .brvRetrainEnd port ok => execBrvRetrainEnd_keep port ok s hs
  | .brvLinkDown port => execBrvLinkDown_keep port s hs
  | .brvCntClr src port => execBrvCntClr_keep src port s hs
  | .modConfig pair => execModConfig_keep pair s hs
  | .jesdLinkLoss => execJesdLinkLoss_keep s hs
  | .periscopeDetect c dets t blocks => execPeriscopeDetect_keep c dets t blocks s hs
  | .syncFound c word t => execSyncFound_keep c word t s hs
  | .syncTimeout c => execSyncTimeout_keep c s hs
  | .rxRecord c frame rssi fofs blocks => execRxRecord_keep c frame rssi fofs blocks s hs
  | .modTxFetch c => execModTxFetch_keep c s hs
  | .txBurstStart c mask => execTxBurstStart_keep c mask s hs
  | .txBurstComplete c t sat => execTxBurstComplete_keep c t sat s hs
  | .modCntClr src => execModCntClr_keep src s hs
  | .romLoad => execRomLoad_keep s hs
  | .fwLoad pair tests => execFwLoad_keep pair tests s hs
  | .attest pair => execAttest_keep pair s hs
  | .alarmCfg pair holding => execAlarmCfg_keep pair holding s hs
  | .alarm sources => execAlarm_keep sources s hs
  | .smbusBlockRead code => execSmbusBlockRead_keep code s hs
  | .por cap smb test tests => execPor_keep cap smb test tests s hs
  | .pinReset tests => execPinReset_keep tests s hs
  | .hostWarmReset src pair tests => execHostWarmReset_keep src pair tests s hs
  | .computeReset pair tests => execComputeReset_keep pair tests s hs
  | .partitionReset pair => execPartitionReset_keep pair s hs
  | .engineReset pair => execEngineReset_keep pair s hs
  | .perstAssert => execPerstAssert_keep s hs
  | .perstRelease => execPerstRelease_keep s hs
  | .pwrGoodFall => execPwrGoodFall_keep s hs
  | .thermtrip mdeg => execThermtrip_keep mdeg s hs
  | .powerCap pair => execPowerCap_keep pair s hs
  | .capSwitch quiet => execCapSwitch_keep quiet s hs
  | .powerWindow watts => execPowerWindow_keep watts s hs
  | .eIdleEntry e => execEIdleEntry_keep e s hs
  | .powerUpGrant => execPowerUpGrant_keep s hs
  | .dIdleExit => execDIdleExit_keep s hs
  | .perfProgram pair => execPerfProgram_keep pair s hs
  | .perfClear pair => execPerfClear_keep pair s hs
  | .perfFreeze pair => execPerfFreeze_keep pair s hs
  | .perfRun pair => execPerfRun_keep pair s hs
  | .perfSnapshot pair => execPerfSnapshot_keep pair s hs
  | .pmcClr src unit n v => execPmcClr_keep src unit n v s hs
  | .pmcLoLatch unit n k => execPmcLoLatch_keep unit n k s hs
  | .loupeCfg pair => execLoupeCfg_keep pair s hs
  | .loupeRecord e k issue ready start commit => execLoupeRecord_keep e k issue ready start commit s hs
  | .tapReset => execTapReset_keep s hs
  | .idcode => execIdcode_keep s hs
  | .samplePreload balls cells => execSamplePreload_keep balls cells s hs
  | .extest balls cells => execExtest_keep balls cells s hs
  | .clamp => execClamp_keep s hs
  | .highz => execHighz_keep s hs
  | .debug => execDebug_keep s hs
  | .bypass code => execBypass_keep code s hs
  | .registerWrite src unit off v => execRegisterWrite_keep src unit off v s hs
  | .jesdLinkAlign => execJesdLinkAlign_keep s hs
  | .transmitLinkLoss => execTransmitLinkLoss_keep s hs
  | .selfRefreshReturn st => execSelfRefreshReturn_keep st s hs
  | .busMasterEnable => execBusMasterEnable_keep s hs
  | .todReceive sentence => execTodReceive_keep sentence s hs
  | .ptpEgress port frame t => execPtpEgress_keep port frame t s hs
  | .counterOverflow unit n k => execCounterOverflow_keep unit n k s hs
  | .facetShareWindow => execFacetShareWindow_keep s hs
  | .replayRecord => execReplayRecord_keep s hs

/-- Settles O4: the answer is kept from the state before, and `Keep` says that the queue is the same and the fuses are later ones. -/
theorem everyCommandAnswersAndKeepsTheFuses : Obligations.EveryCommandAnswersAndKeepsTheFuses := by
  intro c s
  obtain ⟨t, ht, hk⟩ := exec_keep c s (Keep.rfl' s)
  obtain ⟨hGrade, hSuffix, hDismap, hSerial, hSvn⟩ := hk.fuse
  exact ⟨t, ht, hk.pending, hGrade, hSuffix, hDismap, hSerial, hSvn⟩

end Sys2Proof.Machine
end

section
/-! SUPPORT. Register writes: when a write is stored, denied or dropped, what the credit tables take, and what the failures of held operations
leave (R7, R8, R10, R57, R58, R79). -/
namespace Sys2Proof.Machine

/-! ### Reaching a unit and failing an operation -/

@[simp] theorem State.reach_reg (s : State) (u a : Nat) : (s.reach u).reg a = s.reg a := by
  unfold State.reach; split <;> rfl

@[simp] theorem State.reach_fab (s : State) (u : Nat) : (s.reach u).fab = s.fab := by
  unfold State.reach; split <;> rfl

@[simp] theorem State.failOp_reg (s : State) (unit cause opcode stream addr : Nat) (owner : Owner) (a : Nat) :
    (s.failOp unit cause opcode stream addr owner).reg a = s.reg a := rfl

@[simp] theorem State.failOp_errs (s : State) (unit cause opcode stream addr : Nat) (owner : Owner) :
    (s.failOp unit cause opcode stream addr owner).fab.errs = s.fab.errs ++ [⟨unit, cause, opcode, stream, addr, owner⟩] := rfl

theorem sameBytes_failOp (s : State) (unit cause opcode stream addr : Nat) (owner : Owner) :
    SameBytes s (s.failOp unit cause opcode stream addr owner) := sameBytes_of rfl rfl rfl rfl

/-- The error response to the source of an operation that fails with `cause` (R79). -/
def FabItem.errWith (x : FabItem) (cause : Nat) : ErrItem :=
  ⟨x.hdr.srcUnit.toNat, cause, x.op.code, x.hdr.stream.toNat, x.hdr.addr.toNat, x.owner⟩

/-- From `s` to `t` failures were put on their way: only the fabric has changed, what waits in reorder windows is the same, and every
error response that was on its way still is. -/
structure OnlyFails (s t : State) : Prop where
  form : ∃ f, t = { s with fab := f }
  held : t.fab.held = s.fab.held
  errs : s.fab.errs ⊆ t.fab.errs

theorem OnlyFails.refl (s : State) : OnlyFails s s := ⟨⟨_, rfl⟩, rfl, fun _ h => h⟩

theorem OnlyFails.trans {s t u : State} (h : OnlyFails s t) (k : OnlyFails t u) : OnlyFails s u where
  form := by
    obtain ⟨_, rfl⟩ := h.form
    obtain ⟨_, rfl⟩ := k.form
    exact ⟨_, rfl⟩
  held := k.held.trans h.held
  errs := List.Subset.trans h.errs k.errs

theorem OnlyFails.reg {s t : State} (h : OnlyFails s t) (a : Nat) : t.reg a = s.reg a := by
  obtain ⟨_, rfl⟩ := h.form; rfl

theorem OnlyFails.sameBytes {s t : State} (h : OnlyFails s t) : SameBytes s t := by
  obtain ⟨_, rfl⟩ := h.form; exact sameBytes_of rfl rfl rfl rfl

/-- Whether a header names the own device depends on the registers alone (R36). -/
theorem fromHere_congr {s t : State} (h : t.reg (key 0x60 (CTL + 0x1000)) = s.reg (key 0x60 (CTL + 0x1000))) (x : Hdr) :
    t.fromHere x = s.fromHere x := by
  unfold State.fromHere State.ownChain State.fld State.regN; rw [h]

theorem onlyFails_arrive (s : State) (du : Nat) (x : FabItem) : OnlyFails s (s.arrive du x) := by
  unfold State.arrive
  split
  · exact ⟨⟨_, rfl⟩, rfl, fun _ h => h⟩
  · exact OnlyFails.refl s

theorem onlyFails_failOp (s : State) (unit cause opcode stream addr : Nat) (owner : Owner) :
    OnlyFails s (s.failOp unit cause opcode stream addr owner) :=
  ⟨⟨_, rfl⟩, rfl, List.subset_append_left _ _⟩

theorem fromHere_arrive (s : State) (du : Nat) (x : FabItem) (h : Hdr) : (s.arrive du x).fromHere h = s.fromHere h :=
  fromHere_congr ((onlyFails_arrive s du x).reg _) h

theorem onlyFails_failItem (s : State) (du : Nat) (x : FabItem) (cause : Nat) : OnlyFails s (s.failItem du x cause) := by
  unfold State.failItem
  dsimp only
  split
  · exact (onlyFails_arrive s du x).trans (onlyFails_failOp ..)
  · exact onlyFails_arrive s du x

/-- An operation of the own device that fails is answered with its cause. -/
theorem errWith_mem_failItem (s : State) (du : Nat) (x : FabItem) (cause : Nat) (h : s.fromHere x.hdr = true) :
    x.errWith cause ∈ (s.failItem du x cause).fab.errs := by
  unfold State.failItem
  dsimp only
  rw [if_pos h, State.failOp_errs]
  exact List.mem_append_right _ (List.mem_singleton_self _)

/-- Held operations that fail one after the other. -/
theorem failItems_does (du cause : Nat) (l : List (Nat × FabItem)) : ∀ s : State,
    OnlyFails s (l.foldl (fun t h => t.failItem du h.2 cause) s) ∧
    ∀ h ∈ l, s.fromHere h.2.hdr = true → h.2.errWith cause ∈ (l.foldl (fun t h => t.failItem du h.2 cause) s).fab.errs := by
  induction l with
  | nil => exact fun s => ⟨OnlyFails.refl s, fun _ h => nomatch h⟩
  | cons x l ih =>
    intro s
    have hx := onlyFails_failItem s du x.2 cause
    obtain ⟨hl, hmem⟩ := ih (s.failItem du x.2 cause)
    refine ⟨hx.trans hl, fun h hh hf => ?_⟩
    rcases List.mem_cons.mp hh with rfl | hh
    · exact hl.errs (errWith_mem_failItem s du h.2 cause hf)
    · exact hmem h hh ((fromHere_congr (hx.reg _) _).trans hf)

/-- Deregistration changes no byte and no register, takes the stream's operations out of the reorder window and answers each of the own
device with NO_STREAM (R58). -/
theorem dropHeld_does (s : State) (u stream : Nat) :
    SameBytes s (s.dropHeld u stream) ∧ (∀ a, (s.dropHeld u stream).reg a = s.reg a) ∧
    (s.dropHeld u stream).fab.held = s.fab.held.filter (fun h => !(decide (h.1 = u) && decide (h.2.hdr.stream.toNat = stream))) ∧
    ∀ h ∈ s.fab.held, h.1 = u → h.2.hdr.stream.toNat = stream → s.fromHere h.2.hdr = true →
      h.2.errWith 6 ∈ (s.dropHeld u stream).fab.errs := by
  unfold State.dropHeld
  extract_lets out window s1
  obtain ⟨hfails, hmem⟩ := failItems_does (s.ownChain * 256 + u) 6 out s1
  have hbytes : SameBytes s s1 := sameBytes_of rfl rfl rfl rfl
  refine ⟨hbytes.trans hfails.sameBytes, hfails.reg, hfails.held, fun h hh hu hs hf => hmem h ?_ hf⟩
  exact List.mem_filter.mpr ⟨hh, by simp [hu, hs]⟩

/-! ### Which writes take effect -/

theorem regPut_misaligned (s : State) (src u o v : Nat) (ho : CTL ≤ o) (hc : s.unitCause u src = 0) (h4 : o % 4 ≠ 0) :
    s.regPut src u o v = s := by
  unfold State.regPut
  dsimp only
  rw [if_neg (Nat.not_lt.mpr ho), if_neg (not_not_intro hc), if_pos h4]

theorem regPut_denied (s : State) (src u o v : Nat) (ho : CTL ≤ o) (hc : s.unitCause u src = 0) (h4 : o % 4 = 0)
    (hd : s.regDenied (s.ownChain * 256 + src) u o = true) :
    s.regPut src u o v = (s.reach u).failOp src 7 1 0 (key u o) .none := by
  unfold State.regPut
  dsimp only
  rw [if_neg (Nat.not_lt.mpr ho), if_neg (not_not_intro hc), if_neg (not_not_intro h4), if_pos hd]

theorem regPut_allowed (s : State) (src u o v : Nat) (ho : CTL ≤ o) (hc : s.unitCause u src = 0) (h4 : o % 4 = 0)
    (hd : s.regDenied (s.ownChain * 256 + src) u o = false) :
    s.regPut src u o v = (s.reach u).regWrite (s.ownChain * 256 + src) u o v := by
  unfold State.regPut
  dsimp only
  rw [if_neg (Nat.not_lt.mpr ho), if_neg (not_not_intro hc), if_neg (not_not_intro h4), if_neg (by rw [hd]; exact Bool.false_ne_true)]

/-- The anchor may write every register (Table 0.4). -/
theorem mayWrite_anchor (s : State) (w : Who) : s.mayWrite w (s.ownChain * 256 + 0x60) = true := by
  have hUnit : (s.ownChain * 256 + 0x60) % 256 = 0x60 := by omega
  have hDevice : (s.ownChain * 256 + 0x60) / 256 = s.ownChain := by omega
  unfold State.mayWrite
  rw [hUnit, hDevice]
  cases w <;> simp

/-- The definition is unfolded as a function, not at a register: the kernel would else compute with `key u o` of an unknown unit, counting
its factor 2^52 down in unary. -/
theorem regDenied_of_mayWrite (s : State) (du u o : Nat) (h : ∀ w, s.mayWrite w du = true) : s.regDenied du u o = false := by
  suffices hf : ∀ f, f = State.regDenied → f s du u o = false from hf _ rfl
  intro f hf
  delta State.regDenied at hf
  subst hf
  beta_reduce
  cases regRow (key u o) with
  | none => rfl
  | some r => exact congrArg not (h r.who)

theorem regDenied_anchor (s : State) (u o : Nat) : s.regDenied (s.ownChain * 256 + 0x60) u o = false :=
  regDenied_of_mayWrite s _ u o (mayWrite_anchor s)

/-- A plain register takes a write by its access codes alone. -/
theorem regWrite_plain (s : State) (du u o v : Nat) (h : Plain s u o v) : s.regWrite du u o v = s.mergeReg (key u o) v := by
  obtain ⟨hUnit, hPmc, hCredit, hMailbox, hEcc, hInject, hMirror⟩ := h
  unfold State.regWrite
  rw [if_neg hCredit, if_neg hMailbox, if_neg (fun x => hEcc x.1), if_neg (fun x => hInject x.1), hUnit, hPmc]
  exact if_neg hMirror

theorem regPut_plain (s : State) (src u o v : Nat) (ho : CTL ≤ o) (hc : s.unitCause u src = 0) (h4 : o % 4 = 0)
    (hd : s.regDenied (s.ownChain * 256 + src) u o = false) (hp : Plain (s.reach u) u o v) :
    s.regPut src u o v = (s.reach u).mergeReg (key u o) v :=
  (regPut_allowed s src u o v ho hc h4 hd).trans (regWrite_plain (s.reach u) _ u o v hp)

/-- A denied write wakes the unit and answers its source with ACCESS (R10). -/
theorem regPut_denied_does (s : State) (src u o v : Nat) (ho : CTL ≤ o) (hc : s.unitCause u src = 0) (h4 : o % 4 = 0)
    (hd : s.regDenied (s.ownChain * 256 + src) u o = true) :
    SameBytes s (s.regPut src u o v) ∧ (∀ a, (s.regPut src u o v).reg a = s.reg a) ∧
    (s.regPut src u o v).fab.errs = s.fab.errs ++ [⟨src, 7, 1, 0, key u o, .none⟩] := by
  rw [regPut_denied s src u o v ho hc h4 hd]
  refine ⟨(sameBytes_reach s u).trans (sameBytes_failOp ..), State.reach_reg s u, ?_⟩
  rw [State.failOp_errs, State.reach_fab]

theorem mergeReg_of_row (s : State) (a v : Nat) {r : RegRow} (h : regRow a = some r) :
    s.mergeReg a v = s.setRegN a (r.merge (s.regN a) v) := by
  unfold State.mergeReg; rw [h]

theorem mergeReg_of_none (s : State) (a v : Nat) (h : regRow a = none) : s.mergeReg a v = s := by
  unfold State.mergeReg; rw [h]

/-- A write of a unit's register is a write through the fabric. -/
theorem exec_registerWrite_unit (src : BitVec 8) (unit : BitVec 9) (off : BitVec 52) (v : Reg32) (s : State) (h : unit.toNat ≠ BAR0) :
    exec (.registerWrite src unit off v) s = .next (s.regPut src.toNat unit.toNat off.toNat v.toNat) := by
  rw [exec_registerWrite, execRegisterWrite, if_neg h]

/-! ### Credit-table writes -/

theorem creditEntries_le (c : UnitClass) : creditEntries c ≤ 1024 := by cases c <;> decide

theorem regWrite_crdW0 (s : State) (du u k v : Nat) (hk : k < creditEntries (unitClass u)) :
    s.regWrite du u (CTC + 8 * k) v = s.crdW0Write u k v := by
  have hle := creditEntries_le (unitClass u)
  have hIndex : (CTC + 8 * k - CTC) / 8 = k := by omega
  have hWord : (CTC + 8 * k) % 8 = 0 := by unfold CTC; omega
  unfold State.regWrite
  rw [if_pos (by omega)]
  dsimp only
  rw [hIndex, if_neg (Nat.not_le.mpr hk), if_pos hWord]

theorem regWrite_crdW1 (s : State) (du u k v : Nat) (hk : k < creditEntries (unitClass u)) :
    s.regWrite du u (CTC + 8 * k + 4) v = s.crdW1Write u k v := by
  have hle := creditEntries_le (unitClass u)
  have hIndex : (CTC + 8 * k + 4 - CTC) / 8 = k := by omega
  have hWord : (CTC + 8 * k + 4) % 8 ≠ 0 := by unfold CTC; omega
  unfold State.regWrite
  rw [if_pos (by omega)]
  dsimp only
  rw [hIndex, if_neg (Nat.not_le.mpr hk), if_neg hWord]

/-- VALID as a field is VALID as a bit. -/
theorem bit_regN_iff (s : State) (a k : Nat) : bit (s.regN a) k = true ↔ s.fld a k k = 1 := by
  unfold bit State.fld bits
  rw [Nat.testBit_eq_decide_div_mod_eq, decide_eq_true_iff, Nat.add_sub_cancel_left, Nat.pow_one]

theorem crdW1_ne_devid (u k : Nat) : key 0x60 (CTL + 0x1000) ≠ crdW1 u k := by
  unfold crdW1 key CTL CTC; omega

/-- From `s` to `t` no byte has changed, and of the registers `b` alone, which holds `v`. -/
def StoresReg (s t : State) (b : Nat) (v : Reg32) : Prop := SameBytes s t ∧ t.reg b = v ∧ ∀ a, a ≠ b → t.reg a = s.reg a

theorem storesReg_setRegN (s : State) (a : Nat) (v : Reg32) : StoresReg s (s.setRegN a v.toNat) a v := by
  unfold State.setRegN
  rw [BitVec.ofNat_toNat, BitVec.setWidth_eq]
  exact ⟨sameBytes_setReg s a v, State.reg_setReg_eq s a v, State.reg_setReg_ne s a v⟩

theorem StoresReg.of_reach {s t : State} {u b : Nat} {v : Reg32} (h : StoresReg (s.reach u) t b v) : StoresReg s t b v := by
  obtain ⟨hBytes, hStored, hOthers⟩ := h
  exact ⟨(sameBytes_reach s u).trans hBytes, hStored, fun a ha => (hOthers a ha).trans (State.reach_reg s u a)⟩

theorem StoresReg.trans_same {s t t' : State} {b : Nat} {v : Reg32} (h : StoresReg s t b v) (hb : SameBytes t t')
    (hr : ∀ a, t'.reg a = t.reg a) : StoresReg s t' b v := by
  obtain ⟨hBytes, hStored, hOthers⟩ := h
  exact ⟨hBytes.trans hb, (hr b).trans hStored, fun a ha => (hr a).trans (hOthers a ha)⟩

theorem State.reach_fld (s : State) (u a hi lo : Nat) : (s.reach u).fld a hi lo = s.fld a hi lo := by
  unfold State.fld; rw [reach_regN]

theorem crdW0Write_valid (s : State) (u k v : Nat) (h : s.fld (crdW1 u k) 31 31 = 1) : s.crdW0Write u k v = s :=
  if_pos ((bit_regN_iff s _ 31).mpr h)

theorem crdW0Write_free (s : State) (u k v : Nat) (h : s.fld (crdW1 u k) 31 31 = 0) :
    s.crdW0Write u k v = s.setRegN (crdW0 u k) v :=
  if_neg fun hb => by rw [bit_regN_iff, h] at hb; exact absurd hb (by decide)

theorem crdW1Write_free (s : State) (u k v : Nat) (h : s.fld (crdW1 u k) 31 31 = 0) :
    s.crdW1Write u k v = s.setRegN (crdW1 u k) v :=
  if_neg fun hb => by rw [bit_regN_iff, h] at hb; exact absurd hb (by decide)

theorem crdW1Write_stays (s : State) (u k v : Nat) (h : s.fld (crdW1 u k) 31 31 = 1) (hv : bit v 31 = true) : s.crdW1Write u k v = s := by
  unfold State.crdW1Write
  rw [if_pos ((bit_regN_iff s _ 31).mpr h), if_pos hv]

theorem crdW1Write_clears (s : State) (u k v : Nat) (h : s.fld (crdW1 u k) 31 31 = 1) (hv : bit v 31 = false) :
    s.crdW1Write u k v = (s.setRegN (crdW1 u k) v).dropHeld u (s.fld (crdW0 u k) 15 0) := by
  unfold State.crdW1Write
  rw [if_pos ((bit_regN_iff s _ 31).mpr h), if_neg (by rw [hv]; exact Bool.false_ne_true)]

/-- A write that clears VALID is stored, and the stream's held operations fail with NO_STREAM (R58). -/
theorem crdW1Write_clears_does (s : State) (u k : Nat) (v : Reg32) (h : s.fld (crdW1 u k) 31 31 = 1) (hv : v.getLsbD 31 = false) :
    StoresReg s (s.crdW1Write u k v.toNat) (crdW1 u k) v ∧
    (s.crdW1Write u k v.toNat).fab.held =
      s.fab.held.filter (fun h => !(decide (h.1 = u) && decide (h.2.hdr.stream.toNat = s.fld (crdW0 u k) 15 0))) ∧
    ∀ h ∈ s.fab.held, h.1 = u → h.2.hdr.stream.toNat = s.fld (crdW0 u k) 15 0 → s.fromHere h.2.hdr = true →
      h.2.errWith 6 ∈ (s.crdW1Write u k v.toNat).fab.errs := by
  have hStored := storesReg_setRegN s (crdW1 u k) v
  obtain ⟨-, -, hOthers⟩ := storesReg_setRegN s (crdW1 u k) v
  have hHere := fromHere_congr (hOthers _ (crdW1_ne_devid u k))
  obtain ⟨hBytes, hRegs, hHeld, hErrs⟩ := dropHeld_does (s.setRegN (crdW1 u k) v.toNat) u (s.fld (crdW0 u k) 15 0)
  rw [State.setRegN_fab] at hHeld hErrs
  rw [crdW1Write_clears s u k v.toNat h hv]
  exact ⟨hStored.trans_same hBytes hRegs, hHeld, fun x hx hu hs hf => hErrs x hx hu hs ((hHere _).trans hf)⟩

/-- The anchor's write of FAB_CRD_k_W0 reaches the unit and its credit table. -/
theorem exec_fabCrdW0Write_anchor (unit : BitVec 8) (k : BitVec 10) (v : Reg32) (s : State) (hc : s.unitCause unit.toNat 0x60 = 0)
    (hk : k.toNat < creditEntries (unitClass unit.toNat)) :
    exec (.fabCrdW0Write 0x60 unit k v) s = .next ((s.reach unit.toNat).crdW0Write unit.toNat k.toNat v.toNat) :=
  congrArg Host.Outcome.next <|
    (regPut_allowed s 0x60 _ _ _ (by unfold CTL CTC; omega) hc (by unfold CTC; omega) (regDenied_anchor s _ _)).trans
      (regWrite_crdW0 _ _ _ _ _ hk)

theorem exec_fabCrdW1Write_anchor (unit : BitVec 8) (k : BitVec 10) (v : Reg32) (s : State) (hc : s.unitCause unit.toNat 0x60 = 0)
    (hk : k.toNat < creditEntries (unitClass unit.toNat)) :
    exec (.fabCrdW1Write 0x60 unit k v) s = .next ((s.reach unit.toNat).crdW1Write unit.toNat k.toNat v.toNat) :=
  congrArg Host.Outcome.next <|
    (regPut_allowed s 0x60 _ _ _ (by unfold CTL CTC; omega) hc (by unfold CTC; omega) (regDenied_anchor s _ _)).trans
      (regWrite_crdW1 _ _ _ _ _ hk)

/-! ### The statement -/

/-- A write of a plain register that its source may write: the merge by access codes, or nothing where no register is (R7, R8). -/
theorem registerWrite_plain_does (src : BitVec 8) (unit : BitVec 9) (off : BitVec 52) (v : Reg32) (s : State) (hBar : unit.toNat ≠ BAR0)
    (ho : CTL ≤ off.toNat) (hc : s.unitCause unit.toNat src.toNat = 0) (h4 : off.toNat % 4 = 0)
    (hd : s.regDenied (s.ownChain * 256 + src.toNat) unit.toNat off.toNat = false)
    (hp : Plain (s.reach unit.toNat) unit.toNat off.toNat v.toNat) (a : Nat) (ha : key unit.toNat off.toNat = a) :
    (∀ r, regRow a = some r → ∃ t, exec (.registerWrite src unit off v) s = .next t ∧ SameBytes s t ∧
      t.regN a = r.merge (s.regN a) v.toNat % 2 ^ 32 ∧ ∀ b, b ≠ a → t.reg b = s.reg b) ∧
    (regRow a = none → ∃ t, exec (.registerWrite src unit off v) s = .next t ∧ SameBytes s t ∧ ∀ b, t.reg b = s.reg b) := by
  rw [exec_registerWrite_unit src unit off v s hBar, regPut_plain s _ _ _ _ ho hc h4 hd hp, ha]
  have hReach := sameBytes_reach s unit.toNat
  refine ⟨fun r hr => ⟨_, rfl, ?_⟩, fun hr => ⟨_, rfl, ?_⟩⟩
  · rw [mergeReg_of_row _ _ _ hr, reach_regN]
    refine ⟨hReach.trans (sameBytes_setRegN ..), State.regN_setRegN_eq .., fun b hb => ?_⟩
    exact (State.reg_setReg_ne _ _ _ b hb).trans (State.reach_reg s _ b)
  · rw [mergeReg_of_none _ _ _ hr]
    exact ⟨hReach, State.reach_reg s _⟩

/-- Settles O45: misaligned, denied and plain writes one by one, then the anchor's writes of the two words of a credit-table entry. -/
theorem registerWritesFollowTheirAccessCodes : Obligations.RegisterWritesFollowTheirAccessCodes := by
  intro src s
  constructor
  · intro unit off v u o denied hBar ho hc
    refine ⟨fun h4 => ?_, fun h4 hd => ?_, fun h4 hd hp => registerWrite_plain_does src unit off v s hBar ho hc h4 hd hp _ rfl⟩
    · rw [exec_registerWrite_unit src unit off v s hBar, regPut_misaligned s _ _ _ _ ho hc h4]
    · exact ⟨_, exec_registerWrite_unit src unit off v s hBar, regPut_denied_does s _ _ _ _ ho hc h4 hd⟩
  · intro unit k v u w0 w1 only hc hk
    have hReach := sameBytes_reach s u
    have hRegs := State.reach_reg s u
    have hValid := State.reach_fld s u w1 31 31
    have hStream := State.reach_fld s u w0 15 0
    rw [exec_fabCrdW0Write_anchor unit k v s hc hk, exec_fabCrdW1Write_anchor unit k v s hc hk]
    refine ⟨fun h => ⟨_, rfl, ?_⟩, fun h => ⟨⟨_, rfl, ?_⟩, ⟨_, rfl, ?_⟩⟩, fun h hv => ⟨_, rfl, ?_⟩, fun h hv => ⟨_, rfl, ?_⟩⟩
    · rw [crdW0Write_valid _ _ _ _ (hValid.trans h)]
      exact ⟨hReach, hRegs⟩
    · rw [crdW0Write_free _ _ _ _ (hValid.trans h)]
      exact (storesReg_setRegN (s.reach u) w0 v).of_reach
    · rw [crdW1Write_free _ _ _ _ (hValid.trans h)]
      exact (storesReg_setRegN (s.reach u) w1 v).of_reach
    · rw [crdW1Write_stays _ _ _ _ (hValid.trans h) hv]
      exact ⟨hReach, hRegs⟩
    · obtain ⟨hStored, hHeld, hErrs⟩ := crdW1Write_clears_does (s.reach u) u k.toNat v (hValid.trans h) hv
      rw [hStream, State.reach_fab] at hHeld hErrs
      exact ⟨hStored.of_reach, hHeld, fun x hx hu hs hf => hErrs x hx hu hs ((fromHere_congr (hRegs _) _).trans hf)⟩

end Sys2Proof.Machine
end

section
/-! SUPPORT. The heads of the issuing queues: what changing the operation at the head of a queue leaves (R63, R73). -/
namespace Sys2Proof.Machine

theorem takeFirst_pred {α : Type} {p : α → Bool} {x : α} : ∀ {l r : List α}, takeFirst p l = some (x, r) → p x = true
  | a :: l, r, h => by
    unfold takeFirst at h
    split at h
    · next ha => cases h; exact ha
    · split at h
      · next he => cases h; exact takeFirst_pred he
      · cases h

/-- Changing the first element that `p` selects into one that `p` selects changes what `find?` finds. -/
theorem find?_modify_findIdx? {α : Type} {p : α → Bool} {f : α → α} {x : α} (hf : p (f x) = true) :
    ∀ {l : List α}, l.find? p = some x → ∃ i, l.findIdx? p = some i ∧ (l.modify i f).find? p = some (f x)
  | a :: l, h => by
    by_cases ha : p a = true
    · rw [List.find?_cons_of_pos ha, Option.some_inj] at h
      subst h
      exact ⟨0, by rw [List.findIdx?_cons, if_pos ha], by rw [List.modify_zero_cons, List.find?_cons_of_pos hf]⟩
    · rw [List.find?_cons_of_neg ha] at h
      obtain ⟨i, hi, hm⟩ := find?_modify_findIdx? hf h
      exact ⟨i + 1, by rw [List.findIdx?_cons, if_neg ha, hi]; rfl, by rw [List.modify_succ_cons, List.find?_cons_of_neg ha, hm]⟩

/-- Changing the head of a queue changes of the state only the operations that wait, of which there are as many. -/
theorem modHead_form (s : State) (u q : Nat) (f : FabItem → FabItem) :
    ∃ b, s.modHead u q f = { s with fab := b } ∧ b.waiting.length = s.fab.waiting.length := by
  unfold State.modHead
  split
  · exact ⟨_, rfl, List.length_modify ..⟩
  · exact ⟨_, rfl, rfl⟩

/-- The heads depend on the fabric alone. -/
theorem headItem_of_fab {s t : State} {u q : Nat} {o : Option FabItem} (hs : s.headItem u q = o) (h : t.fab = s.fab) : t.headItem u q = o := by
  rw [← hs]; unfold State.headItem; rw [h]

/-- A changed head that keeps its source and queue is the head. -/
theorem headItem_modHead {s : State} {u q : Nat} {f : FabItem → FabItem} {x : FabItem} (h : s.headItem u q = some x)
    (hf : (f x).hdr.srcUnit = x.hdr.srcUnit ∧ (f x).queue = x.queue) : (s.modHead u q f).headItem u q = some (f x) := by
  have hx := List.find?_some h
  obtain ⟨i, hi, hm⟩ := find?_modify_findIdx? (by rw [hf.1, hf.2]; exact hx) h
  unfold State.modHead
  rw [hi]
  exact hm

/-- A STALL's EVENT record names unit and stream (R63). -/
theorem fieldLE_event (unit stream : Nat) (hu : unit < 2 ^ 8) (hs : stream < 2 ^ 16) :
    fieldLE (toLE 1 0x04 ++ toLE 1 unit ++ toLE 8 stream) 1 1 = unit ∧ fieldLE (toLE 1 0x04 ++ toLE 1 unit ++ toLE 8 stream) 2 8 = stream := by
  simp [fieldLE, slice, toLE, leNat, List.range_succ]
  omega

theorem State.fld_setFld_bit (s : State) (a k : Nat) (h : k < 32) : (s.setFld a k k 1).fld a k k = 1 := by
  rw [State.fld_setFld_eq _ _ _ _ _ (Nat.le_refl k) h, Nat.add_sub_cancel_left]; rfl

theorem key_ne_key (u : Nat) {o o' : Nat} (h : o ≠ o') : key u o ≠ key u o' := fun hk => h (Nat.add_left_cancel hk)

/-- Settles O44: the wait's end is a new NCLK count and a mark on the head, and two registers and one record are written after it. -/
theorem stallIsRaisedAndTheOperationKeepsWaiting : Obligations.StallIsRaisedAndTheOperationKeepsWaiting := by
  intro unit queue s x hHead hStalled hWaits
  have hNe : key unit.toNat CTL ≠ key unit.toNat (CTL + 0x10) := key_ne_key _ (by decide)
  obtain ⟨b, hForm, hLength⟩ := modHead_form (s.passNclk (x.since + 65536)) unit.toNat queue.toNat fun y => { y with stalled := true }
  have hNew := headItem_modHead (f := fun y => { y with stalled := true })
    (headItem_of_fab (t := s.passNclk (x.since + 65536)) hHead rfl) ⟨rfl, rfl⟩
  rw [hForm] at hNew
  obtain ⟨hUnit, hStream⟩ := fieldLE_event unit.toNat x.hdr.stream.toNat unit.isLt x.hdr.stream.isLt
  rw [exec_stall, execStall]
  dsimp only
  rw [hHead]
  dsimp only
  rw [if_neg (by simp [hStalled, hWaits]), hForm]
  generalize key unit.toNat CTL = status at hNe ⊢
  generalize key unit.toNat (CTL + 0x10) = info at hNe ⊢
  refine ⟨_, rfl, Nat.le_max_right .., ?_, ?_, ⟨_, rfl, hUnit, hStream⟩, headItem_of_fab hNew rfl, hLength, rfl, rfl, rfl,
    sameBytes_of rfl rfl rfl rfl, fun a hStatus hInfo => ?_⟩
  · rw [State.event_fld, State.fld_setFld_ne _ _ _ _ _ _ _ _ (by omega) (by omega) (.inl hNe), State.fld_setFld_bit _ _ _ (by omega)]
  · rw [State.event_fld, State.fld_setFld_eq _ _ _ _ _ (by omega) (by omega)]
    exact Nat.mod_eq_of_lt x.hdr.stream.isLt
  · rw [State.event_reg]
    exact (State.reg_setReg_ne _ _ _ _ hInfo).trans (State.reg_setReg_ne _ _ _ _ hStatus)

end Sys2Proof.Machine
end

section
/-! SUPPORT. What an operation does at a target in memory: reading and writing there, token increments, returns, and how its arrival
ends (R44 to R53, R68, R79). -/
namespace Sys2Proof.Machine

/-! ### Reaching a target -/

/-- What a change of one engine leaves the same there is the same of every engine. -/
theorem modEng_keeps {α : Type} (g : Engine → α) (s : State) (e j : Fin 8) {f : Engine → Engine} (h : g (f s.eng[e]) = g s.eng[e]) :
    g (s.modEng e f).eng[j] = g s.eng[j] := by
  by_cases hj : j = e
  · rw [hj, State.modEng_get]; exact h
  · rw [State.modEng_get_ne s e j f hj]

theorem wakeStack_form (s : State) (st : Nat) : ∃ p, s.wakeStack st = { s with power := p } := by
  unfold State.wakeStack; split <;> exact ⟨_, rfl⟩

theorem wakeStacks_form (l : List Nat) : ∀ s : State, ∃ p, l.foldl (fun t k => t.wakeStack k) s = { s with power := p } := by
  induction l with
  | nil => exact fun s => ⟨_, rfl⟩
  | cons k l ih =>
    intro s
    obtain ⟨p, hp⟩ := wakeStack_form s k
    obtain ⟨q, hq⟩ := ih (s.wakeStack k)
    exact ⟨q, by rw [List.foldl_cons, hq, hp]⟩

/-- `z` is `s` once an operation has left those in flight and reached its target: what it woke may differ, and no descriptor in progress. -/
structure Reached (s z : State) : Prop where
  form : ∃ v p l, z = { s with eng := v, power := p, fab := { s.fab with flight := l } }
  started : ∀ e : Fin 8, z.eng[e].started = s.eng[e].started

/-- Reaching a target wakes an engine or stacks of the HBM. -/
theorem reached_reachAt (s : State) (u off n : Nat) : Reached s (s.reachAt u off n) := by
  unfold State.reachAt
  split
  · obtain ⟨p, hp⟩ := wakeStacks_form
      ((List.range ((off + max n 1 - 1) / 256 - off / 256 + 1)).map fun i => s.hbmStack (off / 256 + i)) s
    rw [hp]
    exact ⟨⟨_, _, _, rfl⟩, fun _ => rfl⟩
  · unfold State.reach
    split
    · next e _ => exact ⟨⟨_, _, _, rfl⟩, fun j => modEng_keeps Engine.started s e j rfl⟩
    · exact ⟨⟨_, _, _, rfl⟩, fun _ => rfl⟩

theorem reached_flight (s : State) (l : List FabItem) : Reached s { s with fab := { s.fab with flight := l } } :=
  ⟨⟨_, _, _, rfl⟩, fun _ => rfl⟩

namespace Reached

variable {s z : State}

theorem trans {y : State} (h : Reached s y) (k : Reached y z) : Reached s z where
  form := by
    obtain ⟨_, _, _, rfl⟩ := h.form
    obtain ⟨_, _, _, rfl⟩ := k.form
    exact ⟨_, _, _, rfl⟩
  started := fun e => (k.started e).trans (h.started e)

variable (h : Reached s z)
include h

theorem regs : z.regs = s.regs := by obtain ⟨_, _, _, rfl⟩ := h.form; rfl

theorem reg (a : Nat) : z.reg a = s.reg a := by obtain ⟨_, _, _, rfl⟩ := h.form; rfl

theorem ecc : z.ecc = s.ecc := by obtain ⟨_, _, _, rfl⟩ := h.form; rfl

theorem rets : z.fab.rets = s.fab.rets := by obtain ⟨_, _, _, rfl⟩ := h.form; rfl

theorem held : z.fab.held = s.fab.held := by obtain ⟨_, _, _, rfl⟩ := h.form; rfl

theorem errs : z.fab.errs = s.fab.errs := by obtain ⟨_, _, _, rfl⟩ := h.form; rfl

theorem sameBytes : SameBytes s z := by
  obtain ⟨_, _, _, rfl⟩ := h.form
  exact sameBytes_of rfl rfl rfl rfl

theorem bytes (a n : Nat) : z.bytes a n = s.bytes a n := bytes_congr h.sameBytes.1 a n

theorem streamEntry (u stream : Nat) : z.streamEntry u stream = s.streamEntry u stream := by obtain ⟨_, _, _, rfl⟩ := h.form; rfl

end Reached

/-! ### Reads and writes at a target -/

/-- The `n` bytes at offset `off` of unit `u` are memory without a bad code bit, and no array descriptor in flight meets a write of them. -/
structure Calm (s : State) (u off n : Nat) : Prop where
  clean : s.clean
  memory : off + n ≤ CTL
  race : ∀ e : Fin 8, engOf u = some e → off + n ≤ SPAD ∨ ∀ d ∈ s.eng[e].started, d.q ≠ .array

theorem Calm.mono {s : State} {u off n m : Nat} (h : Calm s u off n) (hm : m ≤ n) : Calm s u off m where
  clean := h.clean
  memory := by have := h.memory; omega
  race := fun e he => (h.race e he).imp_left fun hs => by omega

/-- Registers, code blocks and descriptors in progress decide it. -/
theorem Calm.congr {s t : State} {u off n : Nat} (h : Calm s u off n) (hr : t.regs = s.regs) (he : t.ecc = s.ecc)
    (hs : ∀ e : Fin 8, t.eng[e].started = s.eng[e].started) : Calm t u off n where
  clean := clean_of h.clean he fun _ => by unfold State.reg; rw [hr]
  memory := h.memory
  race := fun e hu => by rw [hs]; exact h.race e hu

theorem Calm.reached {s z : State} {u off n : Nat} (h : Calm s u off n) (hz : Reached s z) : Calm z u off n :=
  h.congr hz.regs hz.ecc hz.started

/-- A write that meets no array descriptor in flight leaves nothing undefined (R160). -/
theorem raceRow_quiet (s : State) (e : Fin 8) (a r : Nat) (h : ∀ d ∈ s.eng[e].started, d.q ≠ .array) : s.raceRow e a r = s := by
  unfold State.raceRow
  generalize s.eng[e].started = l at h
  induction l with
  | nil => rfl
  | cons d l ih =>
    rw [List.foldl_cons, if_pos (h d List.mem_cons_self)]
    exact ih fun y hy => h y (List.mem_cons_of_mem d hy)

theorem races_quiet (s : State) (u off n : Nat)
    (h : ∀ e : Fin 8, engOf u = some e → off + n ≤ SPAD ∨ ∀ d ∈ s.eng[e].started, d.q ≠ .array) : s.races u off n = s := by
  unfold State.races
  split
  · rfl
  · next e he =>
    split
    · next hm =>
      obtain ⟨hLow, -, hPos⟩ := hm
      have hq : ∀ d ∈ s.eng[e].started, d.q ≠ .array := (h e he).resolve_left (by unfold SPAD; omega)
      dsimp only
      generalize List.range _ = l
      induction l with
      | nil => rfl
      | cons i l ih => rw [List.foldl_cons, raceRow_quiet s e _ _ hq]; exact ih
    · rfl

/-- `s` with the bytes `bs` in memory from offset `off` of unit `u` on. -/
def State.stored (s : State) (u off : Nat) (bs : List Byte) : State := { s with mem := putBytes s.mem (key u off) bs }

theorem ctlWords_zero (o : Nat) : ctlWords o 0 = [] := by unfold ctlWords; split <;> rfl

/-- A write to memory puts its bytes and does nothing else. -/
theorem Calm.putAt {s : State} {u off n : Nat} (h : Calm s u off n) (du : Nat) {bs : List Byte} (hb : bs.length ≤ n) :
    s.putAt du u off bs = (s.stored u off bs, 0) := by
  have hs := h.mono hb
  unfold State.putAt
  split
  · rw [write_of_clean h.clean]
    exact congrArg (·, 0) (races_quiet _ u off bs.length hs.race)
  · next hc =>
    have hMemory := hs.memory
    obtain rfl : bs = [] := List.length_eq_zero_iff.mp (by omega)
    unfold State.ctlDenied State.ctlPut
    rw [List.length_nil, ctlWords_zero]
    rfl

theorem bytes_length (s : State) (a n : Nat) : (s.bytes a n).length = n := by unfold State.bytes; simp

/-- A read of memory returns its bytes and changes nothing. -/
theorem Calm.targetRead {s : State} {u off n : Nat} (h : Calm s u off n) : s.targetRead u off n = (s, some (s.bytes (key u off) n)) := by
  unfold State.targetRead
  split
  · exact read_of_clean h.clean _ _
  · next hc =>
    have hMemory := h.memory
    obtain rfl : off = CTL := by omega
    obtain rfl : n = 0 := by omega
    rfl

theorem Calm.wrote {s t : State} {u off n : Nat} (h : Calm s u off n) {bs : List Byte} (hm : t.mem = (s.stored u off bs).mem)
    (he : t.ecc = s.ecc) (hf : t.fuse = s.fuse) (hh : t.host = s.host) : Wrote s t (key u off) bs :=
  ⟨hh, fun c => (byte_congr (s := s.stored u off bs) hm he hf c).trans (putBytes_byte_clean h.clean (key u off) bs c)⟩

/-! ### Token increments and the pair check -/

theorem reg_addTok (s : State) (u k n b : Nat) :
    (s.addTok u k n).reg b = if b = tokKey u k then s.reg b + BitVec.ofNat 32 n else s.reg b := by
  split
  · next h => rw [h]; exact State.tok_addTok s u k n
  · next h => exact State.reg_addTok_ne s u k n b h

theorem addTok_form (s : State) (u k n : Nat) : ∃ r, s.addTok u k n = { s with regs := r } := by
  unfold State.addTok; split <;> exact ⟨_, rfl⟩

theorem signalled_addTok (s : State) (u : Nat) (k : BitVec 12) (n : BitVec 16) (a : Option Nat) :
    Signalled s (s.addTok u k.toNat n.toNat) u k n a := fun b _ => reg_addTok s u k.toNat n.toNat b

theorem signalled_congr {s t s' t' : State} {u : Nat} {k : BitVec 12} {n : BitVec 16} {a : Option Nat} (h : Signalled s t u k n a)
    (hs : s'.regs = s.regs) (ht : t'.regs = t.regs) : Signalled s' t' u k n a := fun b hb => by
  have := h b hb
  unfold State.reg at this ⊢
  rw [hs, ht, this]

/-- A further register that the statement leaves out may change. -/
theorem signalled_setFld {s t : State} {u : Nat} {k : BitVec 12} {n : BitVec 16} {a : Nat} (h : Signalled s t u k n (some a))
    (hi lo v : Nat) : Signalled s (t.setFld a hi lo v) u k n (some a) := fun b hb => by
  rw [← h b hb]
  exact State.reg_setReg_ne _ _ _ _ fun e => hb (congrArg some e)

/-- Pair entries are registers. -/
theorem pairOf_congr {s t : State} (h : t.regs = s.regs) (e : Fin 8) (stream : Nat) : t.pairOf e stream = s.pairOf e stream := by
  unfold State.pairOf State.fld State.regN State.reg; rw [h]

theorem Reached.pairOf {s z : State} (h : Reached s z) (e : Fin 8) (stream : Nat) : z.pairOf e stream = s.pairOf e stream :=
  pairOf_congr h.regs e stream

/-- Where no pair entry names the stream, the check passes (R184). -/
theorem pairAt_free (s : State) (u : Nat) (x : FabItem) (h : ∀ e : Fin 8, engOf u = some e → s.pairOf e x.hdr.stream.toNat = none) :
    s.pairAt u x = (s, true) := by
  unfold State.pairAt
  split
  · next e he => unfold State.pairCheck; rw [h e he]
  · rfl

theorem Reached.pairAt_stored {s z : State} (hz : Reached s z) {u : Nat} {x : FabItem} (off : Nat) (bs : List Byte)
    (h : ∀ e : Fin 8, engOf u = some e → s.pairOf e x.hdr.stream.toNat = none) :
    (z.stored u off bs).pairAt u x = (z.stored u off bs, true) :=
  pairAt_free _ u x fun e he => (pairOf_congr rfl e _).trans ((hz.pairOf e _).trans (h e he))

/-! ### Sizes -/

theorem toLE_length (n : Nat) : ∀ v, (toLE n v).length = n := by
  induction n with
  | zero => exact fun _ => rfl
  | succ n ih => intro v; rw [toLE, List.length_cons, ih]

theorem faddBytes_length_le (b p : List Byte) : (faddBytes b p).length ≤ b.length := by
  unfold faddBytes
  rw [List.length_flatMap]
  simp only [toLE_length, List.map_const', List.sum_replicate, List.length_range, smul_eq_mul]
  omega

/-- An operation that the target does not refuse carries the payload that its header gives (R44). -/
theorem sized_of_landCause {s : State} {x : FabItem} {u : Nat} (h : s.landCause x u = 0) : x.sized = true := by
  unfold State.landCause at h
  dsimp only at h
  split at h
  · contradiction
  · split at h
    · contradiction
    · split at h
      · contradiction
      · next hForm => simpa using fun hx => hForm (.inr (.inl hx))

theorem payload_length {s : State} {x : FabItem} {u : Nat} (h : s.landCause x u = 0) (hx : x.op ≠ .get) :
    x.payload.length = x.hdr.len.toNat := by
  have := sized_of_landCause h
  unfold FabItem.sized at this
  rw [if_neg hx] at this
  exact of_decide_eq_true this

end Sys2Proof.Machine
end

section
/-! SUPPORT. Delivery: how an operation in flight lands at its unit, and how a failing one is answered (R45 to R47, R79). -/
namespace Sys2Proof.Machine

/-! ### Returns -/

theorem sendReturn_form (s : State) (x : FabItem) (u : Nat) (data : List Byte) :
    ∃ l, s.sendReturn x u data = { s with fab := { s.fab with rets := l } } := by
  unfold State.sendReturn
  dsimp only
  split
  · exact ⟨_, rfl⟩
  · exact ⟨_, rfl⟩

/-- The data of an operation that returns some to this device are on their way (R47). -/
theorem returns_sendReturn {s : State} {x : FabItem} (h : devOf x.hdr.raddr.toNat = s.ownChain) (u : Nat) (data : List Byte) :
    Returns s (s.sendReturn x u data) x data := by
  unfold State.sendReturn
  dsimp only
  rw [if_neg (not_not_intro h)]
  exact ⟨_, rfl, rfl, rfl, rfl, rfl, rfl, rfl⟩

theorem ownChain_congr {s t : State} (h : t.regs = s.regs) : t.ownChain = s.ownChain := by
  unfold State.ownChain State.fld State.regN State.reg; rw [h]

theorem returns_congr {s t s' t' : State} {x : FabItem} {data : List Byte} (h : Returns s t x data) (hr : s'.regs = s.regs)
    (hs : s'.fab.rets = s.fab.rets) (ht : t'.fab.rets = t.fab.rets) : Returns s' t' x data := by
  obtain ⟨r, hRets, hRest⟩ := h
  exact ⟨r, by rw [hs, ht, hRets], by rw [ownChain_congr hr]; exact hRest⟩

/-! ### Landing -/

theorem signalAt_pass (s : State) (u : Nat) (x : FabItem) : s.signalAt u x true = s.addTok u x.hdr.tctr.toNat x.hdr.tinc.toNat := by
  unfold State.signalAt; rw [if_pos rfl]

/-- An atomic operation of memory writes what it makes of the old bytes, and returns them where it is one that does. -/
theorem Calm.landAtomic {s : State} {x : FabItem} {u m n : Nat} {f : List Byte → Option (List Byte)}
    (h : Calm s u (offOf x.hdr.addr.toNat) m) (hn : n ≤ m) (hf : ∀ b w, b.length = n → f b = some w → w.length ≤ m) :
    s.landAtomic x u n f =
      (let b := s.bytes (key u (offOf x.hdr.addr.toNat)) n
       let t := s.stored u (offOf x.hdr.addr.toNat) ((f b).getD [])
       (if x.op.returns then t.sendReturn x u b else t, .done)) := by
  unfold State.landAtomic
  dsimp only
  rw [(h.mono hn).targetRead]
  dsimp only
  cases hw : f (s.bytes (key u (offOf x.hdr.addr.toNat)) n) with
  | none => rfl
  | some w =>
    simp only [h.putAt _ (hf _ w (bytes_length _ _ _) hw), ne_eq, not_true_eq_false, if_false]
    rfl

/-- An ORDERED_FADD of memory leaves the sums of the words there and of its payload (R69). -/
theorem Calm.applyFadd {s : State} {x : FabItem} {u : Nat} (h : Calm s u (offOf x.hdr.addr.toNat) x.payload.length) :
    s.applyFadd x u =
      ((s.stored u (offOf x.hdr.addr.toNat) (faddBytes (s.bytes (key u (offOf x.hdr.addr.toNat)) x.payload.length) x.payload)).addTok u
        x.hdr.tctr.toNat x.hdr.tinc.toNat, 0) := by
  unfold State.applyFadd
  dsimp only
  rw [h.targetRead]
  simp only [h.putAt _ ((faddBytes_length_le _ _).trans (bytes_length _ _ _).le), signalAt_pass]

theorem land_failed {s : State} {x : FabItem} {u c : Nat} (h : s.landCause x u = c) (hc : c ≠ 0) : s.land x u = (s, .failed c) := by
  unfold State.land
  dsimp only
  rw [h, if_pos hc]

section
variable {s : State} {x : FabItem} {u : Nat}

/-- A PUT to memory, on a stream that no pair entry checks, writes its payload (R44). -/
theorem land_put (h0 : s.landCause x u = 0) (hx : x.op = .put) (hm : Calm s u (offOf x.hdr.addr.toNat) x.payload.length)
    (hp : ∀ e : Fin 8, engOf u = some e → s.pairOf e x.hdr.stream.toNat = none) :
    ∃ z, Reached s z ∧ s.land x u = (z.stored u (offOf x.hdr.addr.toNat) x.payload, .done) := by
  have hz := reached_reachAt s u (offOf x.hdr.addr.toNat) x.hdr.len.toNat
  refine ⟨_, hz, ?_⟩
  unfold State.land
  dsimp only
  rw [h0, if_neg (not_not_intro rfl), hx]
  dsimp only
  simp only [(hm.reached hz).putAt _ (Nat.le_refl _), hz.pairAt_stored _ _ hp]

/-- A PUT_SIGNAL adds its increment to its counter as well (R53). -/
theorem land_putSignal (h0 : s.landCause x u = 0) (hx : x.op = .putSignal) (hm : Calm s u (offOf x.hdr.addr.toNat) x.payload.length)
    (hp : ∀ e : Fin 8, engOf u = some e → s.pairOf e x.hdr.stream.toNat = none) :
    ∃ z, Reached s z ∧ s.land x u = ((z.stored u (offOf x.hdr.addr.toNat) x.payload).addTok u x.hdr.tctr.toNat x.hdr.tinc.toNat, .done) := by
  have hz := reached_reachAt s u (offOf x.hdr.addr.toNat) x.hdr.len.toNat
  refine ⟨_, hz, ?_⟩
  unfold State.land
  dsimp only
  rw [h0, if_neg (not_not_intro rfl), hx]
  dsimp only
  simp only [(hm.reached hz).putAt _ (Nat.le_refl _), hz.pairAt_stored _ _ hp, signalAt_pass]

theorem land_signal (h0 : s.landCause x u = 0) (hx : x.op = .signal) :
    ∃ z, Reached s z ∧ s.land x u = (z.addTok u x.hdr.tctr.toNat x.hdr.tinc.toNat, .done) := by
  refine ⟨_, reached_reachAt s u (offOf x.hdr.addr.toNat) x.hdr.len.toNat, ?_⟩
  unfold State.land
  dsimp only
  rw [h0, if_neg (not_not_intro rfl), hx]
  dsimp only
  rw [signalAt_pass]

theorem land_get (h0 : s.landCause x u = 0) (hx : x.op = .get) (hm : Calm s u (offOf x.hdr.addr.toNat) x.hdr.len.toNat) :
    ∃ z, Reached s z ∧ s.land x u = (z.sendReturn x u (z.bytes (key u (offOf x.hdr.addr.toNat)) x.hdr.len.toNat), .done) := by
  have hz := reached_reachAt s u (offOf x.hdr.addr.toNat) x.hdr.len.toNat
  refine ⟨_, hz, ?_⟩
  unfold State.land
  dsimp only
  rw [h0, if_neg (not_not_intro rfl), hx]
  dsimp only
  rw [(hm.reached hz).targetRead]

/-- ATOMIC_ADD and FETCH_ADD to memory write the sum, and FETCH_ADD returns the old bytes (R45, R47). -/
theorem land_add (h0 : s.landCause x u = 0) (hx : x.op = .atomicAdd ∨ x.op = .fetchAdd)
    (hm : Calm s u (offOf x.hdr.addr.toNat) x.hdr.len.toNat) :
    ∃ z, Reached s z ∧ s.land x u =
      (let b := z.bytes (key u (offOf x.hdr.addr.toNat)) x.hdr.len.toNat
       let t := z.stored u (offOf x.hdr.addr.toNat) (toLE x.hdr.len.toNat (leNat b + leNat x.payload))
       (if x.op.returns then t.sendReturn x u b else t, .done)) := by
  have hz := reached_reachAt s u (offOf x.hdr.addr.toNat) x.hdr.len.toNat
  refine ⟨_, hz, ?_⟩
  have hAtomic := (hm.reached hz).landAtomic (f := fun b => some (addBytes b x.payload)) (Nat.le_refl _) fun b w hb hw => by
    cases hw
    exact ((toLE_length _ _).trans hb).le
  dsimp only [addBytes, Option.getD_some] at hAtomic
  rw [bytes_length] at hAtomic
  unfold State.land
  dsimp only
  rw [h0, if_neg (not_not_intro rfl), ← hAtomic]
  rcases hx with hx | hx <;> rw [hx] <;> rfl

/-- CAS of memory writes the new value where the compare value stands, and returns the old bytes (R45, R47). -/
theorem land_cas (h0 : s.landCause x u = 0) (hx : x.op = .cas) (hm : Calm s u (offOf x.hdr.addr.toNat) x.hdr.len.toNat)
    (hl : x.payload.length = x.hdr.len.toNat) :
    ∃ z, Reached s z ∧ s.land x u =
      (let b := z.bytes (key u (offOf x.hdr.addr.toNat)) (x.hdr.len.toNat / 2)
       (z.stored u (offOf x.hdr.addr.toNat) (if b = x.payload.take (x.hdr.len.toNat / 2) then x.payload.drop (x.hdr.len.toNat / 2) else [])).sendReturn
         x u b, .done) := by
  have hz := reached_reachAt s u (offOf x.hdr.addr.toNat) x.hdr.len.toNat
  refine ⟨_, hz, ?_⟩
  have hAtomic := (hm.reached hz).landAtomic
    (f := fun b => if b = x.payload.take (x.hdr.len.toNat / 2) then some (x.payload.drop (x.hdr.len.toNat / 2)) else none)
    (Nat.div_le_self _ 2) fun b w _ hw => by
      obtain ⟨-, hw⟩ := Option.ite_none_right_eq_some.mp hw
      rw [← Option.some.inj hw, List.length_drop, hl]
      exact Nat.sub_le _ _
  dsimp only at hAtomic
  rw [apply_ite (Option.getD · []), hx] at hAtomic
  unfold State.land
  dsimp only
  rw [h0, if_neg (not_not_intro rfl), hx]
  exact hAtomic

/-- An ORDERED_FADD that its target does not refuse is judged by its stream's entry (R68). -/
theorem land_orderedFadd {k : Nat} (h0 : s.landCause x u = 0) (hx : x.op = .orderedFadd)
    (hk : s.streamEntry u x.hdr.stream.toNat = some k) : ∃ z, Reached s z ∧ s.land x u = z.landFadd x u k := by
  have hz := reached_reachAt s u (offOf x.hdr.addr.toNat) x.hdr.len.toNat
  refine ⟨_, hz, ?_⟩
  unfold State.land
  dsimp only
  rw [h0, if_neg (not_not_intro rfl), hx]
  dsimp only
  rw [hz.streamEntry, hk]

/-- How far ahead of its turn an ORDERED_FADD is (R68). -/
def State.ahead (s : State) (x : FabItem) (u k : Nat) : Nat := (x.hdr.seq.toNat + 2 ^ 16 - s.nextSeq u k) % 2 ^ 16

theorem Reached.ahead {z : State} (h : Reached s z) (x : FabItem) (u k : Nat) : z.ahead x u k = s.ahead x u k := by
  obtain ⟨_, _, _, rfl⟩ := h.form; rfl

theorem Reached.crdWin {z : State} (h : Reached s z) (u k : Nat) : z.crdWin u k = s.crdWin u k := by
  obtain ⟨_, _, _, rfl⟩ := h.form; rfl

theorem Reached.holdsSeq {z : State} (h : Reached s z) (u st q : Nat) : z.holdsSeq u st q = s.holdsSeq u st q := by
  obtain ⟨_, _, _, rfl⟩ := h.form; rfl

/-- An addition that is neither repeated nor too far ahead is not refused. -/
theorem inWindow {k : Nat} (hw : s.ahead x u k < s.crdWin u k) (hf : s.holdsSeq u x.hdr.stream.toNat x.hdr.seq.toNat = false) :
    ¬ (s.crdWin u k = 0 ∨ s.holdsSeq u x.hdr.stream.toNat x.hdr.seq.toNat = true ∨ s.crdWin u k ≤ s.ahead x u k) := by
  rw [hf]
  rintro (h | h | h)
  · omega
  · cases h
  · omega

section
variable {k : Nat} (hu : x.hdr.unord = false)
include hu

theorem landFadd_refused (hd : s.crdWin u k ≤ s.ahead x u k ∨ s.holdsSeq u x.hdr.stream.toNat x.hdr.seq.toNat = true) :
    s.landFadd x u k = (s, .failed 8) := by
  unfold State.landFadd
  dsimp only
  rw [hu, if_neg Bool.false_ne_true, if_pos (.inr hd.symm)]

theorem landFadd_waits (hw : s.ahead x u k < s.crdWin u k) (hf : s.holdsSeq u x.hdr.stream.toNat x.hdr.seq.toNat = false)
    (hd : s.ahead x u k ≠ 0) : s.landFadd x u k = ({ s with fab := { s.fab with held := s.fab.held ++ [(u, x)] } }, .held) := by
  have hIn := inWindow hw hf
  unfold State.ahead at hIn hd
  unfold State.landFadd
  dsimp only
  rw [hu, if_neg Bool.false_ne_true, if_neg hIn, if_neg hd]

theorem landFadd_inTurn (hw : s.ahead x u k < s.crdWin u k) (hf : s.holdsSeq u x.hdr.stream.toNat x.hdr.seq.toNat = false)
    (hd : s.ahead x u k = 0) (hm : Calm s u (offOf x.hdr.addr.toNat) x.payload.length) :
    s.landFadd x u k =
      (((s.stored u (offOf x.hdr.addr.toNat) (faddBytes (s.bytes (key u (offOf x.hdr.addr.toNat)) x.payload.length) x.payload)).addTok u
        x.hdr.tctr.toNat x.hdr.tinc.toNat).setFld (crdW0 u k) 31 16 (x.hdr.seq.toNat + 1), .done) := by
  have hIn := inWindow hw hf
  unfold State.ahead at hIn hd
  unfold State.landFadd
  dsimp only
  rw [hu, if_neg Bool.false_ne_true, if_neg hIn, if_pos hd]
  simp only [hm.applyFadd]

end

end

/-! ### Arrival -/

theorem arrive_form (s : State) (du : Nat) (x : FabItem) : ∃ g, s.arrive du x = { s with fab := { s.fab with ingress := g } } := by
  unfold State.arrive
  split <;> exact ⟨_, rfl⟩

/-- An operation of the own device that fails leaves its credits and an error response (R79). -/
theorem failItem_form {s : State} {x : FabItem} (h : s.fromHere x.hdr = true) (du cause : Nat) :
    ∃ g, s.failItem du x cause = { s with fab := { s.fab with ingress := g, errs := s.fab.errs ++ [x.errWith cause] } } := by
  obtain ⟨g, hg⟩ := arrive_form s du x
  refine ⟨g, ?_⟩
  unfold State.failItem
  dsimp only
  rw [if_pos h, hg]
  rfl

/-- Without a retrain of the UCIe link, nothing keeps units apart (R448). -/
theorem linkHeld_of_not_retraining {s : State} (h : s.ucie.retraining = false) (u v : Nat) : s.linkHeld u v = false := by
  unfold State.linkHeld; rw [h, Bool.false_and]

theorem deliverAll_one (s : State) (x : FabItem) {u : Nat} (hu : u < 256) : s.deliverAll x [s.ownChain * 256 + u] = s.deliver x u := by
  have hHere : (s.ownChain * 256 + u) / 256 = s.ownChain := by omega
  have hNumber : (s.ownChain * 256 + u) % 256 = u := by omega
  unfold State.deliverAll
  simp only [List.filter_cons, hHere, decide_true, if_true, List.filter_nil, List.foldl_cons, List.foldl_nil, hNumber]

/-- The oldest operation of its flow, for one unit of this device, is delivered there. -/
theorem arrives_delivers {s : State} {x : FabItem} {u c : Nat} (h : Arrives s x u c) :
    ∃ l, exec (rowOf x) s = .next (({ s with fab := { s.fab with flight := l } } : State).deliver x u) := by
  obtain ⟨⟨i, hFind, hGet, hOldest⟩, hBare, hOne, hUnit, hLink, -, -⟩ := h
  have hRow : exec (rowOf x) s = .next (s.arriveOp x.op x.hdr x.payload) := by
    unfold rowOf
    cases hx : x.op with
    | get => rw [hBare (.inl hx)]; rfl
    | signal => rw [hBare (.inr hx)]; rfl
    | _ => rfl
  have hHere : (s.ownChain * 256 + u) / 256 = s.ownChain := by omega
  refine ⟨s.fab.flight.eraseIdx i, hRow.trans (congrArg _ ?_)⟩
  unfold State.arriveOp
  rw [hFind]
  dsimp only
  rw [hGet]
  dsimp only
  rw [if_neg, hOne]
  · exact deliverAll_one { s with fab := { s.fab with flight := s.fab.flight.eraseIdx i } } x hUnit
  · rw [hOne, List.any_eq_true]
    simp only [List.any_cons, List.any_nil, Bool.or_false, decide_eq_true_eq, linkHeld_of_not_retraining hLink, Bool.false_eq_true, or_false]
    rintro (⟨y, hy, hSame⟩ | hOther)
    · exact absurd hSame (by rw [hOldest y hy]; exact Bool.false_ne_true)
    · exact hOther hHere

/-- The state without `x` in flight judges it the same. -/
theorem landCause_flight (s : State) (l : List FabItem) (x : FabItem) (u : Nat) :
    ({ s with fab := { s.fab with flight := l } } : State).landCause x u = s.landCause x u := rfl

/-- An arrival that is done leaves what it did to the state that it reached, and drained credits. -/
theorem arrives_done {s : State} {x : FabItem} {u c : Nat} {f : State → State} (h : Arrives s x u c)
    (hl : ∀ l, ∃ z, Reached { s with fab := { s.fab with flight := l } } z ∧
      ({ s with fab := { s.fab with flight := l } } : State).land x u = (f z, .done)) :
    ∃ z g, Reached s z ∧ exec (rowOf x) s = .next { f z with fab := { (f z).fab with ingress := g } } := by
  obtain ⟨l, hExec⟩ := arrives_delivers h
  obtain ⟨z, hz, hLand⟩ := hl l
  obtain ⟨g, hg⟩ := arrive_form (f z) (s.ownChain * 256 + u) x
  refine ⟨z, g, (reached_flight s l).trans hz, hExec.trans (congrArg _ ?_)⟩
  rw [← hg]
  unfold State.deliver
  dsimp only
  rw [hLand]
  rfl

/-- An arrival that fails leaves drained credits and its error response (R79). -/
theorem arrives_failed {s : State} {x : FabItem} {u c d : Nat} (h : Arrives s x u c) (hHere : s.fromHere x.hdr = true)
    (hl : ∀ l, ∃ z, Reached { s with fab := { s.fab with flight := l } } z ∧
      ({ s with fab := { s.fab with flight := l } } : State).land x u = (z, .failed d)) :
    ∃ z g, Reached s z ∧
      exec (rowOf x) s = .next { z with fab := { z.fab with ingress := g, errs := z.fab.errs ++ [x.errWith d] } } := by
  obtain ⟨l, hExec⟩ := arrives_delivers h
  obtain ⟨z, hz, hLand⟩ := hl l
  have hr := (reached_flight s l).trans hz
  obtain ⟨g, hg⟩ := failItem_form ((fromHere_congr (hr.reg _) _).trans hHere) (s.ownChain * 256 + u) d
  refine ⟨z, g, hr, hExec.trans (congrArg _ ?_)⟩
  rw [← hg]
  unfold State.deliver
  dsimp only
  rw [hLand]
  rfl

end Sys2Proof.Machine
end

section
/-! SUPPORT. Delivery: what each opcode does at the unit it reaches (R44 to R47, R53, R68). -/
namespace Sys2Proof.Machine

/-! ### What each operation does -/

theorem wrote_trans_same {s t t' : State} {a : Nat} {b : List Byte} (h : Wrote s t a b) (k : SameBytes t t') : Wrote s t' a b :=
  ⟨k.2.trans h.1, fun c => (k.1 c).trans (h.2 c)⟩

theorem wrote_of_same {r s t : State} {a : Nat} {b : List Byte} (k : SameBytes r s) (h : Wrote s t a b) : Wrote r t a b :=
  ⟨h.1.trans k.2, fun c => by rw [h.2 c, k.1 c]⟩

/-- The bytes that an operation stored where it reached. -/
theorem Calm.wrote_stored {s z t : State} {u off n : Nat} (h : Calm s u off n) (hz : Reached s z) {bs : List Byte}
    (ht : SameBytes (z.stored u off bs) t) : Wrote s t (key u off) bs :=
  wrote_of_same hz.sameBytes (wrote_trans_same ((h.reached hz).wrote rfl rfl rfl rfl) ht)

section
variable {s : State} {x : FabItem} {u : Nat}

theorem refused_does {c : Nat} (h : Arrives s x u c) (hc : c ≠ 0) (hHere : s.fromHere x.hdr = true) :
    ∃ t, exec (rowOf x) s = .next t ∧ SameBytes s t ∧ (∀ b, t.reg b = s.reg b) ∧ t.fab.errs = s.fab.errs ++ [x.errWith c] := by
  obtain ⟨z, g, hz, hExec⟩ := arrives_failed h hHere fun l =>
    ⟨_, reached_flight _ l, land_failed ((landCause_flight s l x u).trans h.cause) hc⟩
  exact ⟨_, hExec, hz.sameBytes.trans (sameBytes_of rfl rfl rfl rfl), hz.reg, congrArg (· ++ _) hz.errs⟩

theorem signal_does (h : Arrives s x u 0) (hx : x.op = .signal) :
    ∃ t, exec (rowOf x) s = .next t ∧ SameBytes s t ∧ Signalled s t u x.hdr.tctr x.hdr.tinc none := by
  obtain ⟨z, g, hz, hExec⟩ := arrives_done h fun l => land_signal ((landCause_flight s l x u).trans h.cause) hx
  exact ⟨_, hExec, hz.sameBytes.trans ((sameBytes_addTok z _ _ _).trans (sameBytes_of rfl rfl rfl rfl)),
    signalled_congr (signalled_addTok z _ _ _ _) hz.regs.symm rfl⟩

section
variable (hm : Calm s u (offOf x.hdr.addr.toNat) x.payload.length) (hp : ∀ e : Fin 8, engOf u = some e → s.pairOf e x.hdr.stream.toNat = none)
include hm hp

theorem put_does (h : Arrives s x u 0) (hx : x.op = .put) :
    ∃ t, exec (rowOf x) s = .next t ∧ Wrote s t (key u (offOf x.hdr.addr.toNat)) x.payload ∧ ∀ b, t.reg b = s.reg b := by
  obtain ⟨z, g, hz, hExec⟩ := arrives_done h fun l => land_put (s := { s with fab := { s.fab with flight := l } })
    ((landCause_flight s l x u).trans h.cause) hx (hm.reached (reached_flight s l)) fun e he => ((reached_flight s l).pairOf e _).trans (hp e he)
  exact ⟨_, hExec, hm.wrote_stored hz (sameBytes_of rfl rfl rfl rfl), hz.reg⟩

theorem putSignal_does (h : Arrives s x u 0) (hx : x.op = .putSignal) :
    ∃ t, exec (rowOf x) s = .next t ∧ Wrote s t (key u (offOf x.hdr.addr.toNat)) x.payload ∧ Signalled s t u x.hdr.tctr x.hdr.tinc none := by
  obtain ⟨z, g, hz, hExec⟩ := arrives_done h fun l => land_putSignal
    ((landCause_flight s l x u).trans h.cause) hx (hm.reached (reached_flight s l)) fun e he => ((reached_flight s l).pairOf e _).trans (hp e he)
  exact ⟨_, hExec, hm.wrote_stored hz ((sameBytes_addTok _ _ _ _).trans (sameBytes_of rfl rfl rfl rfl)),
    signalled_congr (signalled_addTok (z.stored _ _ _) _ _ _ _) hz.regs.symm rfl⟩

end

/-- The data that an operation sent back from where it reached are on their way. -/
theorem Reached.returns {z r t : State} (hz : Reached s z) (hr : devOf x.hdr.raddr.toNat = s.ownChain) {data : List Byte}
    (hRegs : r.regs = z.regs) (hRets : r.fab.rets = z.fab.rets) (ht : t.fab.rets = (r.sendReturn x u data).fab.rets) : Returns s t x data :=
  returns_congr (returns_sendReturn (hr.trans (ownChain_congr (hRegs.trans hz.regs)).symm) u data) (hRegs.trans hz.regs).symm
    (hRets.trans hz.rets).symm ht

theorem sameBytes_sendReturn (s : State) (x : FabItem) (u : Nat) (data : List Byte) : SameBytes s (s.sendReturn x u data) := by
  obtain ⟨l, hl⟩ := sendReturn_form s x u data
  rw [hl]
  exact sameBytes_of rfl rfl rfl rfl

theorem reg_sendReturn (s : State) (x : FabItem) (u : Nat) (data : List Byte) (a : Nat) : (s.sendReturn x u data).reg a = s.reg a := by
  obtain ⟨l, hl⟩ := sendReturn_form s x u data
  rw [hl]
  rfl

section
variable (hm : Calm s u (offOf x.hdr.addr.toNat) x.hdr.len.toNat)
include hm

theorem get_does (h : Arrives s x u 0) (hx : x.op = .get) (hr : devOf x.hdr.raddr.toNat = s.ownChain) :
    ∃ t, exec (rowOf x) s = .next t ∧ SameBytes s t ∧ (∀ b, t.reg b = s.reg b) ∧
      Returns s t x (s.bytes (key u (offOf x.hdr.addr.toNat)) x.hdr.len.toNat) := by
  obtain ⟨z, g, hz, hExec⟩ := arrives_done h fun l =>
    land_get ((landCause_flight s l x u).trans h.cause) hx (hm.reached (reached_flight s l))
  rw [hz.bytes] at hExec
  exact ⟨_, hExec, hz.sameBytes.trans ((sameBytes_sendReturn z _ _ _).trans (sameBytes_of rfl rfl rfl rfl)),
    fun b => (reg_sendReturn z _ _ _ b).trans (hz.reg b), hz.returns hr rfl rfl rfl⟩

theorem atomicAdd_does (h : Arrives s x u 0) (hx : x.op = .atomicAdd) :
    ∃ t, exec (rowOf x) s = .next t ∧ (∀ b, t.reg b = s.reg b) ∧ Wrote s t (key u (offOf x.hdr.addr.toNat))
      (toLE x.hdr.len.toNat (leNat (s.bytes (key u (offOf x.hdr.addr.toNat)) x.hdr.len.toNat) + leNat x.payload)) := by
  obtain ⟨z, g, hz, hExec⟩ := arrives_done h fun l =>
    land_add ((landCause_flight s l x u).trans h.cause) (.inl hx) (hm.reached (reached_flight s l))
  rw [hz.bytes, hx] at hExec
  exact ⟨_, hExec, hz.reg, hm.wrote_stored hz (sameBytes_of rfl rfl rfl rfl)⟩

theorem fetchAdd_does (h : Arrives s x u 0) (hx : x.op = .fetchAdd) (hr : devOf x.hdr.raddr.toNat = s.ownChain) :
    ∃ t, exec (rowOf x) s = .next t ∧ (∀ b, t.reg b = s.reg b) ∧ Wrote s t (key u (offOf x.hdr.addr.toNat))
      (toLE x.hdr.len.toNat (leNat (s.bytes (key u (offOf x.hdr.addr.toNat)) x.hdr.len.toNat) + leNat x.payload)) ∧
      Returns s t x (s.bytes (key u (offOf x.hdr.addr.toNat)) x.hdr.len.toNat) := by
  obtain ⟨z, g, hz, hExec⟩ := arrives_done h fun l =>
    land_add ((landCause_flight s l x u).trans h.cause) (.inr hx) (hm.reached (reached_flight s l))
  rw [hz.bytes, hx] at hExec
  exact ⟨_, hExec, fun b => (reg_sendReturn (z.stored _ _ _) _ _ _ b).trans (hz.reg b),
    hm.wrote_stored hz ((sameBytes_sendReturn (z.stored _ _ _) _ _ _).trans (sameBytes_of rfl rfl rfl rfl)),
    hz.returns (r := z.stored _ _ _) hr rfl rfl rfl⟩

theorem cas_does (h : Arrives s x u 0) (hx : x.op = .cas) (hr : devOf x.hdr.raddr.toNat = s.ownChain) :
    ∃ t, exec (rowOf x) s = .next t ∧ (∀ b, t.reg b = s.reg b) ∧
      Returns s t x (s.bytes (key u (offOf x.hdr.addr.toNat)) (x.hdr.len.toNat / 2)) ∧
      Wrote s t (key u (offOf x.hdr.addr.toNat))
        (if s.bytes (key u (offOf x.hdr.addr.toNat)) (x.hdr.len.toNat / 2) = x.payload.take (x.hdr.len.toNat / 2) then x.payload.drop (x.hdr.len.toNat / 2) else []) := by
  obtain ⟨z, g, hz, hExec⟩ := arrives_done h fun l =>
    land_cas ((landCause_flight s l x u).trans h.cause) hx (hm.reached (reached_flight s l)) (payload_length h.cause (by rw [hx]; decide))
  rw [hz.bytes] at hExec
  exact ⟨_, hExec, fun b => (reg_sendReturn (z.stored _ _ _) _ _ _ b).trans (hz.reg b), hz.returns (r := z.stored _ _ _) hr rfl rfl rfl,
    hm.wrote_stored hz ((sameBytes_sendReturn (z.stored _ _ _) _ _ _).trans (sameBytes_of rfl rfl rfl rfl))⟩

end

theorem nextSeq_of_setFld {s t : State} {u k v : Nat} (h : t.regs = (s.setFld (crdW0 u k) 31 16 v).regs) : t.nextSeq u k = v % 2 ^ 16 := by
  rw [← State.fld_setFld_eq s (crdW0 u k) 31 16 v (by omega) (by omega)]
  unfold State.nextSeq State.fld State.regN State.reg
  rw [h]

section
variable {k : Nat} (hu : x.hdr.unord = false) (hk : s.streamEntry u x.hdr.stream.toNat = some k)
include hu hk

/-- An ORDERED_FADD out of its stream's window, or one that is held already, fails with ORDER (R68). -/
theorem orderedFadd_refused (h : Arrives s x u 0) (hx : x.op = .orderedFadd)
    (hd : s.crdWin u k ≤ s.ahead x u k ∨ s.holdsSeq u x.hdr.stream.toNat x.hdr.seq.toNat = true) (hHere : s.fromHere x.hdr = true) :
    ∃ t, exec (rowOf x) s = .next t ∧ SameBytes s t ∧ (∀ b, t.reg b = s.reg b) ∧ t.fab.errs = s.fab.errs ++ [x.errWith 8] := by
  obtain ⟨z, g, hz, hExec⟩ := arrives_failed (d := 8) h hHere fun l => by
    obtain ⟨z, hz, hLand⟩ := land_orderedFadd ((landCause_flight s l x u).trans h.cause) hx hk
    have hr := (reached_flight s l).trans hz
    refine ⟨z, hz, hLand.trans (landFadd_refused hu ?_)⟩
    rwa [hr.crdWin, hr.ahead, hr.holdsSeq]
  exact ⟨_, hExec, hz.sameBytes.trans (sameBytes_of rfl rfl rfl rfl), hz.reg, congrArg (· ++ _) hz.errs⟩

/-- One that comes before its turn is held (R68). -/
theorem orderedFadd_held (h : Arrives s x u 0) (hx : x.op = .orderedFadd) (hw : s.ahead x u k < s.crdWin u k)
    (hf : s.holdsSeq u x.hdr.stream.toNat x.hdr.seq.toNat = false) (hd : s.ahead x u k ≠ 0) :
    ∃ t, exec (rowOf x) s = .next t ∧ SameBytes s t ∧ (∀ b, t.reg b = s.reg b) ∧ t.fab.held = s.fab.held ++ [(u, x)] := by
  obtain ⟨l, hExec⟩ := arrives_delivers h
  obtain ⟨z, hz, hLand⟩ := land_orderedFadd ((landCause_flight s l x u).trans h.cause) hx hk
  have hr := (reached_flight s l).trans hz
  rw [landFadd_waits hu (by rwa [hr.crdWin, hr.ahead]) (by rwa [hr.holdsSeq]) (by rwa [hr.ahead])] at hLand
  unfold State.deliver at hExec
  rw [hLand] at hExec
  exact ⟨_, hExec, hr.sameBytes.trans (sameBytes_of rfl rfl rfl rfl), hr.reg, congrArg (· ++ _) hr.held⟩

/-- One in its turn adds its words, and its stream expects the next (R68, R69). -/
theorem orderedFadd_applied (h : Arrives s x u 0) (hx : x.op = .orderedFadd) (hw : s.ahead x u k < s.crdWin u k)
    (hf : s.holdsSeq u x.hdr.stream.toNat x.hdr.seq.toNat = false) (hd : s.ahead x u k = 0)
    (hm : Calm s u (offOf x.hdr.addr.toNat) x.payload.length) :
    ∃ t, exec (rowOf x) s = .next t ∧ Signalled s t u x.hdr.tctr x.hdr.tinc (some (crdW0 u k)) ∧
      t.nextSeq u k = (x.hdr.seq.toNat + 1) % 2 ^ 16 ∧
      Wrote s t (key u (offOf x.hdr.addr.toNat)) (faddBytes (s.bytes (key u (offOf x.hdr.addr.toNat)) x.payload.length) x.payload) := by
  obtain ⟨z, g, hz, hExec⟩ := arrives_done h fun l => by
    obtain ⟨z, hz, hLand⟩ := land_orderedFadd ((landCause_flight s l x u).trans h.cause) hx hk
    have hr := (reached_flight s l).trans hz
    exact ⟨z, hz, hLand.trans (landFadd_inTurn hu (by rwa [hr.crdWin, hr.ahead]) (by rwa [hr.holdsSeq]) (by rwa [hr.ahead]) (hm.reached hr))⟩
  rw [hz.bytes] at hExec
  exact ⟨_, hExec, signalled_congr (signalled_setFld (signalled_addTok (z.stored _ _ _) _ _ _ _) 31 16 _) hz.regs.symm rfl,
    nextSeq_of_setFld rfl,
    hm.wrote_stored hz ((sameBytes_addTok _ u x.hdr.tctr.toNat x.hdr.tinc.toNat).trans
      ((sameBytes_setFld _ (crdW0 u k) 31 16 (x.hdr.seq.toNat + 1)).trans (sameBytes_of rfl rfl rfl rfl)))⟩

end

end

/-- Settles O41: the target refuses, or the operation's opcode says what it does there. -/
theorem operationsTakeEffectAtTheirTargets : Obligations.OperationsTakeEffectAtTheirTargets := by
  intro x u s off a n p same
  refine ⟨fun c h hc hHere => refused_does h hc hHere, fun h hx => signal_does h hx, fun h hEnd hFree => ?_⟩
  have hm : Calm s u off n := ⟨h.clean, hEnd, fun e he => (hFree e he).2⟩
  have hPair : ∀ e : Fin 8, engOf u = some e → s.pairOf e x.hdr.stream.toNat = none := fun e he => (hFree e he).1
  have hLength : x.op ≠ .get → p.length = n := payload_length h.cause
  have hmp : x.op ≠ .get → Calm s u off p.length := fun hx => hm.mono (hLength hx).le
  refine ⟨fun hx => put_does (hmp (by rw [hx]; decide)) hPair h hx, fun hx => putSignal_does (hmp (by rw [hx]; decide)) hPair h hx,
    fun hx => ?_, fun hr => ⟨fun hx => get_does hm h hx hr, fun hx => ?_, fun hx => cas_does hm h hx hr⟩, fun k hx hu hk => ?_⟩
  · obtain ⟨t, hExec, hReg, hWrote⟩ := atomicAdd_does hm h hx
    exact ⟨t, hExec, hWrote, hReg⟩
  · obtain ⟨t, hExec, hReg, hWrote, hReturns⟩ := fetchAdd_does hm h hx hr
    exact ⟨t, hExec, hWrote, hReg, hReturns⟩
  · have hGet : x.op ≠ .get := by rw [hx]; decide
    refine ⟨fun hw hf hd => ?_, fun hw hf hd => orderedFadd_held hu hk h hx hw hf hd, fun hd hHere => ?_⟩
    · obtain ⟨t, hExec, hSignalled, hNext, hWrote⟩ := orderedFadd_applied hu hk h hx hw hf hd (hmp hGet)
      refine ⟨t, hExec, hSignalled, hNext, ?_⟩
      rw [hLength hGet] at hWrote
      unfold faddBytes at hWrote
      rwa [bytes_length] at hWrote
    · obtain ⟨t, hExec, hBytes, hReg, hErrs⟩ := orderedFadd_refused hu hk h hx (hd.imp_right Bool.eq_true_of_not_eq_false) hHere
      unfold FabItem.errWith at hErrs
      rw [hx] at hErrs
      exact ⟨t, hExec, hBytes, hReg, hErrs⟩

end Sys2Proof.Machine
end

section
/-! SUPPORT. Answers: returns, error responses, credits that come back, and the release of held additions (R47, R54, R68, R79, R80). -/
namespace Sys2Proof.Machine

/-! ### Answered operations -/

/-- An answer to an operation changes what waits for it: an engine's descriptors in progress, or a Facet decoder's work. -/
theorem opDone_form (s : State) (w : Owner) : ∃ v f, s.opDone w = { s with eng := v, facet := f } := by
  unfold State.opDone
  split <;> exact ⟨_, _, rfl⟩

theorem engOf_lt {u : Nat} {e : Fin 8} (h : engOf u = some e) : u < 8 := by
  unfold engOf at h
  split at h
  · assumption
  · cases h

/-- Bytes below an engine's accumulators, or of a unit that is no engine, race with no array descriptor. -/
theorem calm_of_spad {s : State} {u off n : Nat} (hc : s.clean) (hm : off + n ≤ CTL) (hs : u < 8 → off + n ≤ SPAD) : Calm s u off n :=
  ⟨hc, hm, fun _ he => .inl (hs (engOf_lt he))⟩

/-! ### Returns (R47) -/

theorem execReturnDelivery_lands {s t : State} {src : BitVec 12} {dst : BitVec 8} {stream : BitVec 16} {r : RetItem} {rest : List RetItem}
    (hTake : takeFirst (fun (r : RetItem) => decide (hdrSrc r.item.hdr = src.toNat) && decide (s.ownChain * 256 + dst.toNat ∈ r.item.tgts)
      && decide (r.item.hdr.stream = stream)) s.fab.rets = some (r, rest))
    (hLink : s.ucie.retraining = false) (hOwner : s.ownerGone r.item.owner = false)
    (hLand : ({ s with fab := { s.fab with rets := rest } } : State).land { r.item with owner := .none } dst.toNat = (t, .done)) :
    ∃ g v f, exec (.returnDelivery src dst stream) s = .next { t with fab := { t.fab with ingress := g }, eng := v, facet := f } := by
  obtain ⟨g, hg⟩ := arrive_form t (s.ownChain * 256 + dst.toNat) { r.item with owner := .none }
  obtain ⟨v, f, hf⟩ := opDone_form { t with fab := { t.fab with ingress := g } } r.item.owner
  refine ⟨g, v, f, ?_⟩
  rw [← hf, ← hg, exec_returnDelivery]
  unfold execReturnDelivery
  dsimp only
  rw [hTake]
  dsimp only
  rw [linkHeld_of_not_retraining hLink, hOwner, hLand, if_neg (by simp), if_neg Bool.false_ne_true]

/-- A return that is accepted into memory is written and counted. -/
theorem returnDelivery_does {s : State} {src : BitVec 12} {dst : BitVec 8} {stream : BitVec 16} {r : RetItem} {rest : List RetItem}
    (hTake : takeFirst (fun (r : RetItem) => decide (hdrSrc r.item.hdr = src.toNat) && decide (s.ownChain * 256 + dst.toNat ∈ r.item.tgts)
      && decide (r.item.hdr.stream = stream)) s.fab.rets = some (r, rest))
    (hOp : r.item.op = .putSignal) (hLink : s.ucie.retraining = false) (hCause : s.landCause { r.item with owner := .none } dst.toNat = 0)
    (hm : Calm s dst.toNat (offOf r.item.hdr.addr.toNat) r.item.payload.length)
    (hPair : ∀ e, engOf dst.toNat = some e → s.pairOf e stream.toNat = none) (hOwner : s.ownerGone r.item.owner = false) :
    ∃ t, exec (.returnDelivery src dst stream) s = .next t ∧ Wrote s t (key dst.toNat (offOf r.item.hdr.addr.toNat)) r.item.payload ∧
      t.fab.rets = rest ∧ Signalled s t dst.toNat r.item.hdr.tctr r.item.hdr.tinc none := by
  have hStream : r.item.hdr.stream = stream := by
    have := takeFirst_pred hTake
    simp only [Bool.and_eq_true, decide_eq_true_eq] at this
    exact this.2
  have hm' : Calm { s with fab := { s.fab with rets := rest } } dst.toNat (offOf r.item.hdr.addr.toNat) r.item.payload.length :=
    hm.congr rfl rfl fun _ => rfl
  obtain ⟨z, hz, hLand⟩ := land_putSignal (s := { s with fab := { s.fab with rets := rest } }) (x := { r.item with owner := .none }) hCause hOp hm'
    fun e he => (pairOf_congr rfl e _).trans (by rw [hStream]; exact hPair e he)
  obtain ⟨g, v, f, hExec⟩ := execReturnDelivery_lands hTake hLink hOwner hLand
  exact ⟨_, hExec, wrote_of_same (sameBytes_of rfl rfl rfl rfl) (hm'.wrote_stored hz
      ((sameBytes_addTok _ dst.toNat r.item.hdr.tctr.toNat r.item.hdr.tinc.toNat).trans (sameBytes_of rfl rfl rfl rfl))),
    (congrArg Fab.rets (State.addTok_fab (z.stored _ _ _) _ _ _)).trans hz.rets, signalled_congr (signalled_addTok (z.stored _ _ _) _ _ _ _) hz.regs.symm rfl⟩

/-! ### Error responses (R79, R80, Table 2.8) -/

/-- From `s` to `t` only registers have changed. -/
def OnlyRegs (s t : State) : Prop := ∃ m, t = { s with regs := m }

namespace OnlyRegs

theorem refl (s : State) : OnlyRegs s s := ⟨_, rfl⟩

theorem trans {s t r : State} (h : OnlyRegs s t) (k : OnlyRegs t r) : OnlyRegs s r := by
  obtain ⟨_, rfl⟩ := h
  obtain ⟨_, rfl⟩ := k
  exact ⟨_, rfl⟩

theorem setRegN (s : State) (a v : Nat) : OnlyRegs s (s.setRegN a v) := ⟨_, rfl⟩

theorem setReg64 (s : State) (a v : Nat) : OnlyRegs s (s.setReg64 a v) := (setRegN s _ _).trans (setRegN _ _ _)

variable {s t : State} (h : OnlyRegs s t)
include h

theorem eng : t.eng = s.eng := by obtain ⟨_, rfl⟩ := h; rfl

theorem fab : t.fab = s.fab := by obtain ⟨_, rfl⟩ := h; rfl

theorem sameBytes : SameBytes s t := by obtain ⟨_, rfl⟩ := h; exact sameBytes_of rfl rfl rfl rfl

end OnlyRegs

theorem onlyRegs_recordErr (s : State) (r : ErrItem) : OnlyRegs s (s.recordErr r) := by
  unfold State.recordErr
  dsimp only
  split
  · exact OnlyRegs.setRegN _ _ _
  · exact ((OnlyRegs.setRegN _ _ _).trans (OnlyRegs.setRegN _ _ _)).trans (OnlyRegs.setReg64 _ _ _)

/-- A failure with an earlier one recorded sets the overflow flag alone. -/
theorem recordErr_again {s : State} {r : ErrItem} {b : Nat} (hb : key r.unit CTL = b) (h : s.fld b 0 0 = 1) :
    (s.recordErr r).fld b 1 1 = 1 ∧ ∀ a, a ≠ b → (s.recordErr r).reg a = s.reg a := by
  unfold State.recordErr
  dsimp only
  rw [hb, if_pos h]
  exact ⟨State.fld_setFld_bit s b 1 (by omega), fun a ha => State.reg_setReg_ne _ _ _ _ ha⟩

theorem reg64_setReg64 (s : State) (a v : Nat) : (s.setReg64 a v).reg64 a = v % 2 ^ 64 := by
  unfold State.setReg64 State.reg64
  rw [State.regN_setRegN_ne _ _ _ _ (by omega), State.regN_setRegN_eq, State.regN_setRegN_eq]
  omega

theorem reg_setReg64_ne (s : State) {a b : Nat} (v : Nat) (h : b ≠ a) (h' : b ≠ a + 4) : (s.setReg64 a v).reg b = s.reg b :=
  (State.reg_setReg_ne _ _ _ _ h').trans (State.reg_setReg_ne _ _ _ _ h)

/-- The first failure is recorded with its cause, opcode, stream and address. -/
theorem recordErr_first {s : State} {r : ErrItem} {b : Nat} (hb : key r.unit CTL = b) (h : s.fld b 0 0 = 0) :
    (s.recordErr r).fld b 0 0 = 1 ∧ (s.recordErr r).regN (b + 4) = (r.cause + 256 * r.opcode + 2 ^ 16 * r.stream) % 2 ^ 32 ∧
    (s.recordErr r).reg64 (b + 8) = r.addr % 2 ^ 64 ∧ ∀ a, a < b ∨ b + 12 < a → (s.recordErr r).reg a = s.reg a := by
  unfold State.recordErr
  dsimp only
  rw [hb, if_neg (by rw [h]; decide)]
  refine ⟨?_, ?_, reg64_setReg64 _ _ _, fun a ha => ?_⟩
  · unfold State.fld State.regN
    rw [reg_setReg64_ne _ _ (by omega) (by omega)]
    exact (State.fld_setRegN_ne _ _ _ _ _ _ (by omega)).trans (State.fld_setFld_bit s b 0 (by omega))
  · unfold State.regN
    rw [reg_setReg64_ne _ _ (by omega) (by omega)]
    exact State.regN_setRegN_eq _ _ _
  · rw [reg_setReg64_ne _ _ (by omega) (by omega)]
    exact (State.reg_setReg_ne _ _ _ _ (by omega)).trans (State.reg_setReg_ne _ _ _ _ (by omega))

/-- From `s` to `t` no engine has started a descriptor. -/
def NoneStarted (s t : State) : Prop := ∀ (e : Fin 8), ∀ d ∈ t.eng[e].started, d ∈ s.eng[e].started

theorem NoneStarted.trans {s t r : State} (h : NoneStarted s t) (k : NoneStarted t r) : NoneStarted s r := fun e d hd => h e d (k e d hd)

theorem noneStarted_of_eng {s t : State} (h : t.eng = s.eng) : NoneStarted s t := fun e d hd => by rwa [eng_congr h e] at hd

theorem noneStarted_modEng (s : State) (e : Fin 8) {f : Engine → Engine} (h : ∀ d ∈ (f s.eng[e]).started, d ∈ s.eng[e].started) :
    NoneStarted s (s.modEng e f) := fun j d hd => by
  by_cases hj : j = e
  · subst hj; rw [State.modEng_get] at hd; exact h d hd
  · rwa [State.modEng_get_ne s e j f hj] at hd

theorem undefAll_eng (l : List (Nat × Nat)) : ∀ s : State, (s.undefAll l).eng = s.eng := by
  induction l with
  | nil => exact fun _ => rfl
  | cons r l ih => exact fun s => (ih (s.undef r.1 r.2)).trans rfl

theorem noneStarted_abortUnits (s : State) (e : Fin 8) : NoneStarted s (s.abortUnits e) := by
  unfold State.abortUnits
  dsimp only
  refine NoneStarted.trans (noneStarted_of_eng ?_) (noneStarted_modEng _ e fun d hd => nomatch hd)
  exact undefAll_eng _ s

theorem noneStarted_killEng (s : State) (e : Fin 8) (k : KillInfo) : NoneStarted s (s.killEng e k) := by
  unfold State.killEng
  split
  · exact fun _ _ h => h
  · exact fun _ _ h => h
  · exact fun _ _ h => h
  · exact (noneStarted_abortUnits s e).trans (noneStarted_modEng _ e (f := fun en => { en with state := .killing, kill := some k }) fun _ h => h)

theorem noneStarted_killCmdOn (s : State) (e : Fin 8) (k : KillInfo) : NoneStarted s (s.killCmdOn e k) := by
  unfold State.killCmdOn
  split
  · exact noneStarted_killEng s e k
  · next id hid =>
    clear hid
    generalize List.finRange 8 = l
    induction l generalizing s with
    | nil => exact fun _ _ h => h
    | cons j l ih =>
      refine NoneStarted.trans ?_ (ih _)
      dsimp only
      split
      · exact noneStarted_killEng s j k
      · exact fun _ _ h => h

theorem noneStarted_strmError (s : State) (e : Fin 8) (q cause fcause origin : Nat) : NoneStarted s (s.strmError e q cause fcause origin) := by
  unfold State.strmError State.unitError State.faultKill
  extract_lets s1 s2
  have h1 : NoneStarted s s1 := by
    unfold s1
    split
    · exact noneStarted_modEng s e fun _ h => h
    · exact fun _ _ h => h
  have h2 : NoneStarted s1 s2 := noneStarted_of_eng <| OnlyRegs.eng <| by
    unfold s2
    split
    · exact OnlyRegs.refl s1
    · exact (OnlyRegs.setRegN _ _ _).trans (OnlyRegs.setRegN _ _ _)
  exact (h1.trans h2).trans (noneStarted_killCmdOn s2 e _)

/-- A descriptor that fails is in progress no more (R80, R277). -/
theorem descFail_gone (s : State) (e : Fin 8) (id cause fcause : Nat) : ∀ d ∈ (s.descFail e id cause fcause).eng[e].started, d.id ≠ id := by
  unfold State.descFail
  split
  · next hNone =>
    intro d hd hid
    exact absurd (List.find?_eq_none.mp hNone d hd) (by simp [hid])
  · next d0 _ =>
    extract_lets _ s1 s2
    have hs2 : ∀ d ∈ s2.eng[e].started, d.id ≠ id := by
      intro d hd
      unfold s2 at hd
      rw [State.modEng_get] at hd
      simpa using (List.mem_filter.mp hd).2
    split
    · exact fun d hd => hs2 d (noneStarted_strmError s2 e _ _ _ _ e d hd)
    · exact hs2

theorem exec_errorResponse_here {s : State} {unit : BitVec 8} {stream : BitVec 16} {cause : BitVec 4} {r : ErrItem} {rest : List ErrItem}
    (hTake : takeFirst (fun (r : ErrItem) => decide (r.unit = unit.toNat)) s.fab.errs = some (r, rest)) :
    exec (.errorResponse unit false stream cause) s = .next (({ s with fab := { s.fab with errs := rest } } : State).answerErr r) := by
  rw [exec_errorResponse]
  unfold execErrorResponse
  dsimp only
  rw [if_neg Bool.false_ne_true, hTake]

theorem answerErr_none {s : State} {r : ErrItem} (h : r.owner = .none) : s.answerErr r = s.recordErr r := by
  unfold State.answerErr; rw [h]

theorem answerErr_desc {s : State} {r : ErrItem} {e : Fin 8} {id : Nat} (h : r.owner = .desc e id) :
    s.answerErr r = (s.recordErr r).descFail e id 5 r.cause := by
  unfold State.answerErr; rw [h]

/-! ### Credits (R54) -/

theorem exec_creditReturn_here {s : State} {u : BitVec 8} {stream : BitVec 16} {i : Ingress} {rest : List Ingress}
    (hTake : takeFirst (fun (i : Ingress) => decide (i.unit = s.ownChain * 256 + u.toNat) && decide (i.stream = stream.toNat) && i.arrived)
      s.fab.ingress = some (i, rest)) :
    exec (.creditReturn (BitVec.ofNat 12 (s.ownChain * 256 + u.toNat)) stream) s =
      .next (({ s with fab := { s.fab with ingress := rest } } : State).opDone i.owner) := by
  have hChain : s.ownChain < 2 ^ 4 := bits_lt _ 3 0
  have hUnit := u.isLt
  have hNumber : (BitVec.ofNat 12 (s.ownChain * 256 + u.toNat)).toNat = s.ownChain * 256 + u.toNat :=
    (BitVec.toNat_ofNat _ _).trans (Nat.mod_eq_of_lt (by omega))
  rw [exec_creditReturn]
  unfold execCreditReturn
  dsimp only
  rw [hNumber, if_pos (by omega), hTake]

/-! ### Release of held additions (R68) -/

theorem Calm.applyFadd_does {s : State} {x : FabItem} {u : Nat} (h : Calm s u (offOf x.hdr.addr.toNat) x.payload.length) :
    ∃ t, s.applyFadd x u = (t, 0) ∧ t.fab = s.fab ∧ (∀ a, Signalled s t u x.hdr.tctr x.hdr.tinc a) ∧
      Wrote s t (key u (offOf x.hdr.addr.toNat)) (faddBytes (s.bytes (key u (offOf x.hdr.addr.toNat)) x.payload.length) x.payload) :=
  ⟨_, h.applyFadd, State.addTok_fab _ _ _ _, fun a => signalled_congr (signalled_addTok (s.stored _ _ _) _ _ _ a) rfl rfl,
    wrote_trans_same (h.wrote rfl rfl rfl rfl) (sameBytes_addTok (s.stored _ _ _) _ _ _)⟩

section
variable {s : State} {unit : BitVec 8} {stream : BitVec 16} {k : Nat} {h : Nat × FabItem} {rest : List (Nat × FabItem)}
  (hk : s.streamEntry unit.toNat stream.toNat = some k)
  (hTake : takeFirst (fun h => decide (h.1 = unit.toNat) && decide (h.2.hdr.stream = stream) && decide (h.2.hdr.seq.toNat = s.nextSeq unit.toNat k))
    s.fab.held = some (h, rest))
  (hCause : s.unitCause unit.toNat (s.srcOf h.2.hdr) = 0)
include hk hTake hCause

theorem exec_orderedFaddRelease_next {t : State}
    (hFadd : ({ s with fab := { s.fab with held := rest } } : State).applyFadd h.2 unit.toNat = (t, 0)) :
    exec (.orderedFaddRelease unit stream) s =
      .next ((t.setFld (crdW0 unit.toNat k) 31 16 (h.2.hdr.seq.toNat + 1)).arrive (s.ownChain * 256 + unit.toNat) h.2) := by
  rw [exec_orderedFaddRelease]
  unfold execOrderedFaddRelease
  dsimp only
  rw [hk]
  dsimp only
  rw [hTake]
  dsimp only
  rw [if_neg (not_not_intro hCause)]
  simp only [hFadd]

/-- A held addition whose turn has come adds its words, and its stream expects the next. -/
theorem orderedFaddRelease_does (hm : Calm s unit.toNat (offOf h.2.hdr.addr.toNat) h.2.payload.length) :
    ∃ t, exec (.orderedFaddRelease unit stream) s = .next t ∧ t.fab.held = rest ∧ t.nextSeq unit.toNat k = (h.2.hdr.seq.toNat + 1) % 2 ^ 16 ∧
      Signalled s t unit.toNat h.2.hdr.tctr h.2.hdr.tinc (some (crdW0 unit.toNat k)) ∧
      Wrote s t (key unit.toNat (offOf h.2.hdr.addr.toNat))
        (faddBytes (s.bytes (key unit.toNat (offOf h.2.hdr.addr.toNat)) h.2.payload.length) h.2.payload) := by
  have hs : SameBytes s { s with fab := { s.fab with held := rest } } := sameBytes_of rfl rfl rfl rfl
  have hm' : Calm { s with fab := { s.fab with held := rest } } unit.toNat (offOf h.2.hdr.addr.toNat) h.2.payload.length :=
    hm.congr rfl rfl fun _ => rfl
  obtain ⟨t, hFadd, hFab, hSignalled, hWrote⟩ := hm'.applyFadd_does
  rw [bytes_congr hs.1] at hWrote
  have hExec := exec_orderedFaddRelease_next hk hTake hCause hFadd
  obtain ⟨g, hg⟩ := arrive_form (t.setFld (crdW0 unit.toNat k) 31 16 (h.2.hdr.seq.toNat + 1)) (s.ownChain * 256 + unit.toNat) h.2
  rw [hg] at hExec
  exact ⟨_, hExec, congrArg Fab.held ((State.setFld_fab t _ _ _ _).trans hFab), nextSeq_of_setFld rfl,
    signalled_congr (signalled_setFld (hSignalled _) 31 16 _) rfl rfl,
    wrote_of_same hs (wrote_trans_same hWrote ((sameBytes_setFld _ (crdW0 unit.toNat k) 31 16 (h.2.hdr.seq.toNat + 1)).trans
      (sameBytes_of rfl rfl rfl rfl)))⟩

end

/-- Settles O42: a return, an error response, credits and a held addition, each from the front of its list. -/
theorem answersCreditsAndReleases : Obligations.AnswersCreditsAndReleases := by
  intro s du
  refine ⟨?_, ?_, ?_, ?_⟩
  · intro src dst stream r rest hTake off hOp hc hLink hCause hEnd hSpad hPair hOwner
    exact returnDelivery_does hTake hOp hLink hCause (calm_of_spad hc hEnd hSpad) hPair hOwner
  · intro unit stream cause r rest hTake b
    have hPred := takeFirst_pred hTake
    have hUnit : key r.unit CTL = b := congrArg (key · CTL) (of_decide_eq_true hPred)
    clear_value b
    have hs : SameBytes s { s with fab := { s.fab with errs := rest } } := sameBytes_of rfl rfl rfl rfl
    have hr := onlyRegs_recordErr { s with fab := { s.fab with errs := rest } } r
    rw [exec_errorResponse_here hTake]
    refine ⟨fun ho h0 => ?_, fun ho h1 => ?_, fun e id ho => ?_⟩
    · rw [answerErr_none ho]
      exact ⟨_, rfl, congrArg Fab.errs hr.fab, hs.trans hr.sameBytes, recordErr_first hUnit h0⟩
    · rw [answerErr_none ho]
      exact ⟨_, rfl, congrArg Fab.errs hr.fab, hs.trans hr.sameBytes, recordErr_again hUnit h1⟩
    · rw [answerErr_desc ho]
      exact ⟨_, rfl, descFail_gone _ e id 5 r.cause⟩
  · intro u stream i rest hTake
    obtain ⟨v, f, hForm⟩ := opDone_form { s with fab := { s.fab with ingress := rest } } i.owner
    refine ⟨_, exec_creditReturn_here hTake, ?_, ?_, ?_, ?_⟩
    · rw [hForm]
    · rw [hForm]; exact sameBytes_of rfl rfl rfl rfl
    · rw [hForm]; exact fun _ => rfl
    · intro e id ho
      rw [ho]
      exact congrArg Engine.started (State.modEng_get _ e _)
  · intro unit stream k h rest u hk hTake x a hCause hc hEnd hSpad
    exact orderedFaddRelease_does hk hTake hCause (calm_of_spad hc hEnd hSpad)

end Sys2Proof.Machine
end

section
/-! SUPPORT. Issue: what decides whether and where an operation leaves its source, and what leaving changes (R43, R54, R72 to R77). -/
namespace Sys2Proof.Machine

/-! ### What decides whether an operation can leave -/

/-- `t` decides as `s` does to which units an operation goes, whether they answer, and which credits they grant. -/
structure SameIssue (s t : State) : Prop where
  reg : ∀ a, t.reg a = s.reg a
  entry : ∀ u stream, t.streamEntry u stream = s.streamEntry u stream
  valid : ∀ u, t.validCrd u = s.validCrd u
  ingress : t.fab.ingress = s.fab.ingress
  absent : ∀ u, t.unitAbsent u = s.unitAbsent u
  power : t.power = s.power
  prio : ∀ x, t.issuePrio x = 15 ↔ s.issuePrio x = 15

namespace SameIssue

variable {s t : State}

theorem trans {r : State} (h : SameIssue s t) (k : SameIssue t r) : SameIssue s r where
  reg := fun a => (k.reg a).trans (h.reg a)
  entry := fun u st => (k.entry u st).trans (h.entry u st)
  valid := fun u => (k.valid u).trans (h.valid u)
  ingress := k.ingress.trans h.ingress
  absent := fun u => (k.absent u).trans (h.absent u)
  power := k.power.trans h.power
  prio := fun x => (k.prio x).trans (h.prio x)

/-- Operations that wait decide nothing here. -/
theorem waiting (s : State) (w : List FabItem) : SameIssue s { s with fab := { s.fab with waiting := w } } where
  reg := fun _ => rfl
  entry := fun _ _ => rfl
  valid := fun _ => rfl
  ingress := rfl
  absent := fun _ => rfl
  power := rfl
  prio := fun _ => Iff.rfl

theorem hold (h : SameIssue s t) (i : Ingress) : SameIssue (s.hold i) (t.hold i) where
  reg := h.reg
  entry := h.entry
  valid := h.valid
  ingress := congrArg (· ++ [i]) h.ingress
  absent := h.absent
  power := h.power
  prio := h.prio

end SameIssue

theorem levelPrio_eq_max (q : Nat) : levelPrio q = 15 ↔ q = 7 := by unfold levelPrio; split <;> omega

/-- Aging lifts no stream queue to the highest level (R273). -/
theorem effLevel_eq_max (s : State) (e : Fin 8) (q : Nat) : s.effLevel e q = 7 ↔ (s.queueDesc (streamQueue e q)).level = 7 := by
  unfold State.effLevel
  dsimp only
  split <;> omega

/-- An engine's descriptors and aged queues decide nothing here. -/
theorem sameIssue_modEng (s : State) (e : Fin 8) {f : Engine → Engine} (hf : (f s.eng[e]).power = s.eng[e].power) : SameIssue s (s.modEng e f) where
  reg := fun _ => rfl
  entry := fun _ _ => rfl
  valid := fun _ => rfl
  ingress := rfl
  absent := fun u => by
    have hPresent : ∀ j, (s.modEng e f).engPresent j = s.engPresent j := fun j => by
      unfold State.engPresent
      rw [modEng_keeps Engine.power s e j hf]
      rfl
    unfold State.unitAbsent
    simp only [hPresent]
    rfl
  power := rfl
  prio := fun x => by
    unfold State.issuePrio
    dsimp only
    split
    · rw [levelPrio_eq_max, levelPrio_eq_max, effLevel_eq_max, effLevel_eq_max]; rfl
    · rfl

/-! ### A register written with the value it holds -/

theorem filter_drop {α : Type} {p : Nat × α → Bool} {k : Nat} (h : ∀ v, p (k, v) = false) (m : List (Nat × α)) :
    (Sparse.drop k m).filter p = m.filter p := by
  induction m with
  | nil => rfl
  | cons e r ih =>
    obtain ⟨j, v⟩ := e
    unfold Sparse.drop
    split
    · next hj => rw [ih, List.filter_cons_of_neg (by rw [show j = k from hj, h]; exact Bool.false_ne_true)]
    · rw [List.filter_cons, List.filter_cons, ih]

theorem filter_ins {α : Type} {p : Nat × α → Bool} {k : Nat} {v : α} (h : p (k, v) = false) (m : List (Nat × α)) :
    (Sparse.ins k v m).filter p = m.filter p := by
  have hv : ¬ p (k, v) = true := by rw [h]; exact Bool.false_ne_true
  induction m with
  | nil => exact List.filter_cons_of_neg hv
  | cons e r ih =>
    unfold Sparse.ins
    split
    · exact List.filter_cons_of_neg hv
    · rw [List.filter_cons, List.filter_cons, ih]

/-- A write leaves every listed entry of another key in its place. -/
theorem filter_set {α : Type} [DecidableEq α] {p : Nat × α → Bool} {k : Nat} (h : ∀ v, p (k, v) = false) (d : Nat → α) (m : List (Nat × α)) (v : α) :
    (Sparse.set d m k v).filter p = m.filter p := by
  unfold Sparse.set
  split
  · exact filter_drop h m
  · exact (filter_ins (h v) _).trans (filter_drop h m)

/-- Register `a` lies outside the credit tables of every unit. -/
def NoCredit (a : Nat) : Prop := ∀ u, ¬ (key u CTC ≤ a ∧ a < key u CTC + 0x2000)

theorem not_credit {a : Nat} (ha : NoCredit a) (u : Nat) : (decide (key u CTC ≤ a) && decide (a < key u CTC + 0x2000)) = false := by
  rw [← Bool.decide_and]
  exact decide_eq_false (ha u)

/-- A register outside the credit tables that keeps its value decides nothing here. -/
theorem sameIssue_regs {s : State} {a : Nat} {m : List (Nat × Reg32)} (hm : ∀ b, Sparse.get regReset m b = s.reg b)
    (hFilter : ∀ p : Nat × Reg32 → Bool, (∀ v, p (a, v) = false) → m.filter p = s.regs.filter p) (ha : NoCredit a) :
    SameIssue s { s with regs := m } where
  reg := hm
  entry := fun u stream => by
    have hFld : ∀ b hi lo, ({ s with regs := m } : State).fld b hi lo = s.fld b hi lo := fun b hi lo =>
      congrArg (fun v : Reg32 => bits v.toNat hi lo) (hm b)
    unfold State.streamEntry
    dsimp only
    simp only [hFld]
    rw [← List.head?_filter, ← List.head?_filter, hFilter _ fun v => by simp only [not_credit ha u, Bool.false_and]]
  valid := fun u => by
    unfold State.validCrd
    dsimp only
    rw [hFilter _ fun v => by simp only [not_credit ha u, Bool.false_and]]
  ingress := rfl
  absent := fun _ => rfl
  power := rfl
  prio := fun _ => Iff.rfl

theorem sameIssue_setReg (s : State) {a : Nat} {v : Reg32} (ha : NoCredit a) (hv : v = s.reg a) : SameIssue s (s.setReg a v) := by
  refine sameIssue_regs (a := a) (fun b => (State.reg_setReg s a v b).trans ?_) (fun p hp => filter_set hp _ _ _) ha
  split
  · next h => rw [hv, h]
  · rfl

theorem sameIssue_countUp_zero (s : State) {a : Nat} (ha : NoCredit a) : SameIssue s (s.countUp a 0) := by
  refine sameIssue_setReg s ha ?_
  have hLt := s.regN_lt a
  unfold satAdd
  rw [if_neg (by omega)]
  exact (BitVec.ofNat_toNat ..).trans (BitVec.setWidth_eq _)

/-- The streamers' registers lie outside the credit tables. -/
theorem noCredit_strmKey (e : Fin 8) : NoCredit (strmKey e 0x10) := fun u => by
  unfold strmKey key CTC CTU; omega

/-! ### States that decide alike -/

namespace SameIssue

variable {s t : State} (h : SameIssue s t)
include h

theorem regN (a : Nat) : t.regN a = s.regN a := congrArg BitVec.toNat (h.reg a)

theorem fld (a hi lo : Nat) : t.fld a hi lo = s.fld a hi lo := congrArg (bits · hi lo) (h.regN a)

theorem ownChain : t.ownChain = s.ownChain := h.fld _ _ _

theorem members (g : Nat) : t.members g = s.members g := by
  unfold State.members
  simp only [h.regN, h.absent]

theorem targets (o : FabOp) (d : Hdr) : t.targets o d = s.targets o d := by
  unfold State.targets State.fromHere
  simp only [h.ownChain, h.fld, h.members]

theorem unitCause (u src : Nat) : t.unitCause u src = s.unitCause u src := by
  unfold State.unitCause State.unitReset State.computeUp
  simp only [h.absent, h.fld, h.power]

theorem routePort (d : Nat) : t.routePort d = s.routePort d := by
  unfold State.routePort
  simp only [h.fld]

theorem sourceCause (x : FabItem) (d : Nat) : t.sourceCause x d = s.sourceCause x d := by
  unfold State.sourceCause
  simp only [h.ownChain, h.routePort, h.unitCause, h.entry, h.prio]

theorem split (x : FabItem) (ts : List Nat) : t.split x ts = s.split x ts := by
  unfold State.split
  simp only [h.sourceCause]

theorem grant (u k stream n : Nat) : t.grant u k stream n = s.grant u k stream n := by
  unfold State.grant State.crdMax State.crdEsc State.heldCredits State.poolCredits State.poolSize State.escSum State.crdEsc
  simp only [h.ownChain, h.fld, h.ingress, h.valid]

theorem returnUnit (x : FabItem) : t.returnUnit x = s.returnUnit x := by
  unfold State.returnUnit
  simp only [h.ownChain, h.unitCause]

end SameIssue

/-! ### Credits -/

/-- From `s` to `t` only the operations in the ingress buffers have changed. -/
def OnlyIngress (s t : State) : Prop := ∃ g, t = { s with fab := { s.fab with ingress := g } }

theorem OnlyIngress.refl (s : State) : OnlyIngress s s := ⟨_, rfl⟩

theorem OnlyIngress.trans {s t r : State} (h : OnlyIngress s t) (k : OnlyIngress t r) : OnlyIngress s r := by
  obtain ⟨_, rfl⟩ := h
  obtain ⟨_, rfl⟩ := k
  exact ⟨_, rfl⟩

theorem onlyIngress_hold (s : State) (i : Ingress) : OnlyIngress s (s.hold i) := ⟨_, rfl⟩

namespace SameIssue

variable {s t : State}

/-- States that decide alike grant the same credits. -/
theorem takeCredits (h : SameIssue s t) {d stream n : Nat} {w : Owner} {s1 : State} (hs : s.takeCredits d stream n w = some s1) :
    ∃ t1, t.takeCredits d stream n w = some t1 ∧ SameIssue s1 t1 ∧ OnlyIngress t t1 := by
  unfold State.takeCredits at hs ⊢
  rw [h.ownChain, h.entry]
  split at hs
  · next hRemote =>
    rw [if_pos hRemote]
    obtain rfl := Option.some.inj hs
    exact ⟨_, rfl, h.hold _, onlyIngress_hold _ _⟩
  · next hHere =>
    rw [if_neg hHere]
    split at hs
    · obtain rfl := Option.some.inj hs
      exact ⟨t, rfl, h, .refl t⟩
    · rw [h.grant]
      obtain ⟨esc, hEsc, rfl⟩ := Option.map_eq_some_iff.mp hs
      rw [hEsc]
      exact ⟨_, rfl, h.hold _, onlyIngress_hold _ _⟩

theorem takeAll (h : SameIssue s t) {stream n : Nat} {w : Owner} {ds : List Nat} {s1 : State} (hs : s.takeAll stream n w ds = some s1) :
    ∃ t1, t.takeAll stream n w ds = some t1 ∧ SameIssue s1 t1 ∧ OnlyIngress t t1 := by
  induction ds generalizing s t with
  | nil =>
    obtain rfl := Option.some.inj hs
    exact ⟨t, rfl, h, .refl t⟩
  | cons d ds ih =>
    unfold State.takeAll at hs ⊢
    split at hs
    · cases hs
    · next s2 hs2 =>
      obtain ⟨t2, ht2, h2, k2⟩ := h.takeCredits hs2
      obtain ⟨t1, ht1, h1, k1⟩ := ih h2 hs
      rw [ht2]
      exact ⟨t1, ht1, h1, k2.trans k1⟩

theorem creditsFor (h : SameIssue s t) {x : FabItem} {ts : List Nat} {s1 : State} (hs : s.creditsFor x ts = some s1) :
    ∃ t1, t.creditsFor x ts = some t1 ∧ SameIssue s1 t1 ∧ OnlyIngress t t1 := by
  unfold State.creditsFor at hs ⊢
  obtain ⟨s2, hs2, hs1⟩ := Option.bind_eq_some_iff.mp hs
  obtain ⟨t2, ht2, h2, k2⟩ := h.takeAll hs2
  rw [← h.returnUnit] at hs1
  obtain ⟨t1, ht1, h1, k1⟩ := h2.takeAll hs1
  rw [ht2]
  exact ⟨t1, ht1, h1, k2.trans k1⟩

end SameIssue

/-! ### Operations that reach every target, and operations that are not merged -/

theorem split_reached {s : State} {x : FabItem} {ts : List Nat} (h : ∀ t ∈ ts, s.sourceCause x t = 0) : s.split x ts = (ts, []) := by
  refine Prod.ext (List.filter_eq_self.mpr fun t ht => decide_eq_true (h t ht)) (List.filter_eq_nil_iff.mpr fun c hc => ?_)
  obtain ⟨t, ht, rfl⟩ := List.mem_map.mp hc
  simp [h t ht]

theorem mergeRun_none {x : FabItem} {l : List FabItem} (h : (mergeRun x l).2.2 = 0) : mergeRun x l = (x, l, 0) := by
  induction l with
  | nil => rfl
  | cons y ys ih =>
    unfold mergeRun at h ⊢
    split
    · next hOther =>
      rw [if_pos hOther] at h
      rw [ih h]
    · next hSame =>
      rw [if_neg hSame] at h
      split
      · next hMerges => rw [if_pos hMerges] at h; cases h
      · rfl

/-! ### Why a descriptor stopped -/

/-- The error of the first listed descriptor `id` (R277). -/
def errOf (l : List Started) (id : Nat) : Option (Nat × Nat × Nat) := (l.find? fun d => decide (d.id = id)).bind (·.err)

theorem errOf_map {f : Started → Started} (hf : ∀ d, (f d).id = d.id ∧ (f d).err = d.err) (l : List Started) (id : Nat) :
    errOf (l.map f) id = errOf l id := by
  unfold errOf
  rw [List.find?_map, Option.bind_map]
  simp only [Function.comp_def, hf]

/-- `t` lists for every descriptor the error that `s` lists. -/
def SameErrs (s t : State) : Prop := ∀ (e : Fin 8) (id : Nat), errOf t.eng[e].started id = errOf s.eng[e].started id

theorem sameErrs_modEng (s : State) (e : Fin 8) {f : Engine → Engine} (hf : ∀ id, errOf (f s.eng[e]).started id = errOf s.eng[e].started id) :
    SameErrs s (s.modEng e f) := fun j id => modEng_keeps (fun en => errOf en.started id) s e j (hf id)

/-- A descriptor that runs on completes later: nothing is late (R277). -/
theorem lateErr_running {s : State} {w : Owner} (h : ∀ e id, w = .desc e id → errOf s.eng[e].started id = none) : s.lateErr w = s := by
  unfold State.lateErr
  split
  · next e id =>
    have hNone : (s.liveDesc e id).bind (·.err) = none := h e id rfl
    rw [hNone]
  · rfl

/-! ### The operation is taken from its queue -/

/-- `w` is `s` with the head of a queue taken out: `rest` still wait, and what decides the head's way out is the same. -/
structure Prepared (s w : State) (rest : List FabItem) : Prop where
  issue : SameIssue s w
  waiting : w.fab.waiting.length = rest.length
  flight : w.fab.flight = s.fab.flight
  fails : w.fab.errs = s.fab.errs
  bytes : SameBytes s w
  running : SameErrs s w

namespace Prepared

variable {s w : State} {rest : List FabItem}

theorem taken (s : State) (rest : List FabItem) : Prepared s { s with fab := { s.fab with waiting := rest } } rest where
  issue := SameIssue.waiting s rest
  waiting := rfl
  flight := rfl
  fails := rfl
  bytes := sameBytes_of rfl rfl rfl rfl
  running := fun _ _ => rfl

theorem modEng (h : Prepared s w rest) (e : Fin 8) {f : Engine → Engine} (hp : (f w.eng[e]).power = w.eng[e].power)
    (hf : ∀ id, errOf (f w.eng[e]).started id = errOf w.eng[e].started id) : Prepared s (w.modEng e f) rest where
  issue := h.issue.trans (sameIssue_modEng w e hp)
  waiting := h.waiting
  flight := h.flight
  fails := h.fails
  bytes := h.bytes.trans (sameBytes_modEng w e f)
  running := fun j id => (sameErrs_modEng w e hf j id).trans (h.running j id)

theorem addOps (h : Prepared s w rest) (o : Owner) (more less : Nat) : Prepared s (w.addOps o more less) rest := by
  unfold State.addOps
  split
  · exact h.modEng _ rfl fun k => errOf_map (fun d => by split <;> exact ⟨rfl, rfl⟩) _ _
  · exact h

/-- The next operation of the queue becomes its head; the engine forgets how the queue has aged. -/
theorem nextHead (h : Prepared s w rest) (x : FabItem) : Prepared s (w.nextHead x) rest := by
  unfold State.nextHead
  extract_lets _ i l _ s1
  clear_value i
  have hLength : l.length = w.fab.waiting.length := by
    cases i with
    | none => rfl
    | some i => exact List.length_modify ..
  have hMarked : Prepared s s1 rest :=
    { issue := h.issue.trans (SameIssue.waiting w l), waiting := hLength.trans h.waiting, flight := h.flight, fails := h.fails,
      bytes := h.bytes.trans (sameBytes_of rfl rfl rfl rfl), running := h.running }
  split
  · exact hMarked.modEng _ rfl fun _ => rfl
  · exact hMarked

theorem countUp_zero (h : Prepared s w rest) {a : Nat} (ha : NoCredit a) : Prepared s (w.countUp a 0) rest where
  issue := h.issue.trans (sameIssue_countUp_zero w ha)
  waiting := h.waiting
  flight := h.flight
  fails := h.fails
  bytes := h.bytes.trans (sameBytes_setRegN w _ _)
  running := h.running

end Prepared

/-- An operation that wins, that is no RMO's and merges with none, is taken from its queue and sent out. -/
theorem issueOp_form {s : State} {u q : Nat} {x : FabItem} {rest : List FabItem}
    (hTake : takeFirst (fun (x : FabItem) => decide (x.hdr.srcUnit.toNat = u) && decide (x.queue = q)) s.fab.waiting = some (x, rest))
    (hWins : s.wins u x = true) (hRmo : s.rmoOf x = none) (hMerge : (mergeRun x rest).2.2 = 0) :
    ∃ w, Prepared s w rest ∧ s.issueOp u q = (w.sendOut x (s.issuePrio x)).lateErr x.owner := by
  have hAlone : (if x.payload.length ≤ 256 ∧ x.streamer.isSome then mergeRun x rest else (x, rest, 0)) = (x, rest, 0) := by
    rw [mergeRun_none hMerge, ite_self]
  have hTaken := Prepared.taken s rest
  unfold State.issueOp
  rw [hTake]
  dsimp only
  rw [if_neg (by rw [hWins]; exact Bool.noConfusion), hRmo, hAlone]
  dsimp only
  split
  · exact ⟨_, hTaken.nextHead x, rfl⟩
  · split
    · exact ⟨_, ((hTaken.countUp_zero (noCredit_strmKey _)).addOps x.owner 0 0).nextHead x, rfl⟩
    · exact ⟨_, (hTaken.addOps x.owner 0 0).nextHead x, rfl⟩

/-! ### The operation leaves or fails -/

theorem onlyRegs_mcgStall (s : State) (x : FabItem) : OnlyRegs s (s.mcgStall x) := by
  unfold State.mcgStall
  split
  · exact OnlyRegs.setRegN _ _ _
  · exact OnlyRegs.refl s

/-- Operation `x` as it leaves for `ts` at priority `p` (R43, R72). -/
def FabItem.sentTo (x : FabItem) (ts : List Nat) (p : Nat) : FabItem := { x with tgts := ts, hdr := { x.hdr with prio := BitVec.ofNat 4 p } }

/-- An operation whose targets answer and grant their credits is in flight to them. -/
theorem sendOut_sends {s r : State} {x : FabItem} {p : Nat} {ts : List Nat} (hTargets : s.targets x.op x.hdr = .inr ts) (hSome : ts ≠ [])
    (hReached : ∀ t ∈ ts, s.sourceCause x t = 0) (hCredits : (s.addOps x.owner (ts.length - 1) 0).creditsFor x ts = some r) :
    s.sendOut x p = ({ r with fab := { r.fab with flight := r.fab.flight ++ [x.sentTo ts p] } } : State).mcgStall x := by
  unfold State.sendOut
  dsimp only
  rw [hTargets]
  dsimp only
  rw [split_reached hReached]
  dsimp only [List.foldl_nil]
  rw [if_neg (by rwa [List.isEmpty_iff]), hCredits]
  rfl

theorem sendOut_fails {s : State} {x : FabItem} {p c : Nat} (hTargets : s.targets x.op x.hdr = .inl c) :
    s.sendOut x p = s.failOp x.hdr.srcUnit.toNat c x.op.code x.hdr.stream.toNat x.hdr.addr.toNat x.owner := by
  unfold State.sendOut
  dsimp only
  rw [hTargets]

/-- The head of a queue that wins, that is no RMO's, that merges with none, and whose descriptor has not stopped. -/
structure Leaves (s : State) (u q : Nat) (x : FabItem) (rest : List FabItem) : Prop where
  taken : takeFirst (fun (x : FabItem) => decide (x.hdr.srcUnit.toNat = u) && decide (x.queue = q)) s.fab.waiting = some (x, rest)
  wins : s.wins u x = true
  noRmo : s.rmoOf x = none
  alone : (mergeRun x rest).2.2 = 0
  running : ∀ e id d, x.owner = .desc e id → s.liveDesc e id = some d → d.err = none

namespace Leaves

variable {s : State} {u q : Nat} {x : FabItem} {rest : List FabItem} (h : Leaves s u q x rest)
include h

theorem errOf_owner {t : State} (ht : SameErrs s t) (e : Fin 8) (id : Nat) (hOwner : x.owner = .desc e id) : errOf t.eng[e].started id = none := by
  rw [ht e id]
  unfold errOf
  exact Option.bind_eq_none_iff.mpr fun d hd => h.running e id d hOwner hd

/-- R54, R72, R76: the operation is in flight, and its credits are held. -/
theorem sent {ts : List Nat} {s3 : State} (hTargets : s.targets x.op x.hdr = .inr ts) (hSome : ts ≠ [])
    (hReached : ∀ t ∈ ts, s.sourceCause x t = 0) (hCredits : s.creditsFor x ts = some s3) :
    (s.issueOp u q).fab.flight = s.fab.flight ++ [x.sentTo ts (s.issuePrio x)] ∧ (s.issueOp u q).fab.ingress = s3.fab.ingress ∧
      (s.issueOp u q).fab.waiting.length = rest.length ∧ SameBytes s (s.issueOp u q) := by
  obtain ⟨w, hw, hForm⟩ := issueOp_form h.taken h.wins h.noRmo h.alone
  have hAdded := hw.addOps x.owner (ts.length - 1) 0
  obtain ⟨r, hr, hIssue, g, rfl⟩ := hAdded.issue.creditsFor hCredits
  have hSend := sendOut_sends (p := s.issuePrio x) ((hw.issue.targets _ _).trans hTargets) hSome
    (fun t ht => (hw.issue.sourceCause x t).trans (hReached t ht)) hr
  generalize w.addOps x.owner (ts.length - 1) 0 = v at hAdded hIssue hSend
  have hRegs := onlyRegs_mcgStall { v with fab := { v.fab with ingress := g, flight := v.fab.flight ++ [x.sentTo ts (s.issuePrio x)] } } x
  have hRunning : SameErrs s (w.sendOut x (s.issuePrio x)) := fun e id => by
    rw [hSend, hRegs.eng]
    exact hAdded.running e id
  rw [hForm, lateErr_running (h.errOf_owner hRunning), hSend, hRegs.fab]
  exact ⟨congrArg (· ++ _) hAdded.flight, hIssue.ingress, hAdded.waiting, hAdded.bytes.trans ((sameBytes_of rfl rfl rfl rfl).trans hRegs.sameBytes)⟩

/-- An operation refused at its source leaves an error response behind. -/
theorem failed {c : Nat} (hTargets : s.targets x.op x.hdr = .inl c) (hOwner : x.owner = .none) :
    (s.issueOp u q).fab.flight = s.fab.flight ∧
      (s.issueOp u q).fab.errs = s.fab.errs ++ [⟨u, c, x.op.code, x.hdr.stream.toNat, x.hdr.addr.toNat, .none⟩] ∧ SameBytes s (s.issueOp u q) := by
  obtain ⟨w, hw, hForm⟩ := issueOp_form h.taken h.wins h.noRmo h.alone
  have hHead := takeFirst_pred h.taken
  have hUnit : x.hdr.srcUnit.toNat = u := of_decide_eq_true (Bool.and_eq_true_iff.mp hHead).1
  rw [hForm, sendOut_fails ((hw.issue.targets _ _).trans hTargets), lateErr_running (by rw [hOwner]; exact fun _ _ hc => by cases hc), hUnit, hOwner]
  exact ⟨hw.flight, congrArg (· ++ _) hw.fails, hw.bytes.trans (sameBytes_failOp w ..)⟩

end Leaves

/-! ### Waiting -/

/-- R73: the head of a queue gains one level. -/
theorem priorityAging_does {unit : BitVec 8} {queue : BitVec 14} {s : State} {x : FabItem} (hHead : s.headItem unit.toNat queue.toNat = some x)
    (hLow : s.effPrio x < 14) :
    ∃ t y, exec (.priorityAging unit queue) s = .next t ∧ t.headItem unit.toNat queue.toNat = some y ∧ y = { x with level := x.level + 1 } ∧
      SameBytes s t ∧ ∀ a, t.reg a = s.reg a := by
  obtain ⟨b, hForm, -⟩ := modHead_form (s.passNclk (x.since + 4096 * (x.level + 1))) unit.toNat queue.toNat fun y => { y with level := y.level + 1 }
  have hNew := headItem_modHead (f := fun y => { y with level := y.level + 1 })
    (headItem_of_fab (t := s.passNclk (x.since + 4096 * (x.level + 1))) hHead rfl) ⟨rfl, rfl⟩
  rw [hForm] at hNew
  rw [exec_priorityAging, execPriorityAging, hHead]
  dsimp only
  rw [if_neg (Nat.not_le.mpr hLow), hForm]
  exact ⟨_, _, rfl, hNew, rfl, sameBytes_of rfl rfl rfl rfl, fun _ => rfl⟩

/-- R77: the group whose operation waits for credits is flagged. -/
theorem mcastSlow_does {g : Fin 32} {s : State} {x : FabItem}
    (hSlow : s.fab.waiting.find? (fun x => x.hdr.mc && decide (unitOf x.hdr.addr.toNat = g.val)
      && decide ((s.headItem x.hdr.srcUnit.toNat x.queue) = some x) && s.waitsCredits x) = some x) :
    ∃ t, exec (.mcastSlow g) s = .next t ∧ t.fld (key 0x60 (CTL + 0x1004)) g.val g.val = 1 ∧ t.fab.waiting = s.fab.waiting ∧
      ∀ a, a ≠ key 0x60 (CTL + 0x1004) → t.reg a = s.reg a := by
  rw [exec_mcastSlow, execMcastSlow]
  rw [hSlow]
  dsimp only
  generalize x.since + 16 * s.fld _ 31 16 + 1 = wait
  generalize key 0x60 (CTL + 0x1004) = status
  refine ⟨_, rfl, State.fld_setFld_bit _ _ _ g.isLt, ?_, fun a ha => State.reg_setReg_ne _ _ _ _ ha⟩
  rw [State.setFld_fab]
  rfl

/-- R548: an access wakes the engine that it reaches, and no other. -/
theorem clockWake_does {unit : BitVec 8} {e : Fin 8} {st : Fin 4} {s : State} (hUnit : unit.toNat = e.val) (hUp : s.computeUp = true)
    (hIdle : s.eng[e].power = .idle) :
    ∃ t, exec (.clockWake unit st) s = .next t ∧ t.eng[e].power = .on ∧ SameBytes s t ∧ ∀ j, j ≠ e → t.eng[j] = s.eng[j] := by
  have hEng : engOf unit.toNat = some e := by
    rw [hUnit]
    unfold engOf
    rw [dif_pos e.isLt]
  rw [exec_clockWake, execClockWake, hEng]
  dsimp only
  rw [if_pos ⟨hUp, hIdle⟩]
  refine ⟨_, rfl, ?_, sameBytes_modEng _ _ _, fun j hj => State.modEng_get_ne _ _ _ _ hj⟩
  unfold State.wakeEng
  rw [State.modEng_get]
  exact if_pos hIdle

/-- Settles O43: taking the head out of its queue changes nothing that decides where it may go, so it leaves with the credits that `s` grants it. -/
theorem queuesIssueAndAge : Obligations.QueuesIssueAndAge := by
  refine fun unit queue s => ⟨fun x rest hTake => ⟨fun hWins => ?_, fun hWins hRmo hAlone hRunning => ?_⟩, fun x hHead hLow => priorityAging_does hHead hLow,
    fun g x hSlow => mcastSlow_does hSlow, fun e st hUnit hUp hIdle => clockWake_does hUnit hUp hIdle⟩
  · rw [exec_fabricOpIssue, execFabricOpIssue]
    unfold State.issueOp
    rw [hTake]
    dsimp only
    rw [if_pos hWins]
  · have hLeaves : Leaves s unit.toNat queue.toNat x rest := ⟨hTake, hWins, hRmo, hAlone, hRunning⟩
    refine ⟨fun ts s3 hTargets hSome hReached hCredits => ?_, fun c hTargets hOwner => ⟨_, rfl, hLeaves.failed hTargets hOwner⟩⟩
    obtain ⟨hFlight, hIngress, hWaiting, hBytes⟩ := hLeaves.sent hTargets hSome hReached hCredits
    exact ⟨_, _, rfl, hFlight, rfl, rfl, rfl, rfl, hIngress, hWaiting, hBytes⟩

end Sys2Proof.Machine
end

section
/-! SUPPORT. Instructions of the sequencer that keep to their engine: scalar operations, branches, summaries, loads and stores (R93 to R95). -/
namespace Sys2Proof.Machine

/-! ### Scalar operations and branches -/

/-- MOVHI puts IMM above the low word of XD (R93). -/
theorem movhi_word (i : BitVec 32) (x : Word) : (immZ i <<< 32) ||| (x &&& 0xFFFFFFFF) = i ++ x.extractLsb' 0 32 := by
  refine BitVec.eq_of_getLsbD_eq fun k hk => Eq.trans ?_ (BitVec.getLsbD_append (x := i) (y := x.extractLsb' 0 32) (i := k)).symm
  have hMask : (0xFFFFFFFF : Word).getLsbD k = decide (k < 32) := by
    rw [show (0xFFFFFFFF : Word) = BitVec.setWidth 64 (BitVec.allOnes 32) from rfl, BitVec.getLsbD_setWidth, BitVec.getLsbD_allOnes]
    simp only [hk, decide_true, Bool.true_and]
  rw [BitVec.getLsbD_or, BitVec.getLsbD_and, hMask]
  by_cases h : k < 32
  · simp [immZ, h]
  · simp [immZ, h, hk]

/-- A comparison as a word: signed, and unsigned (R93). -/
theorem ite_slt (a b : Word) : (if a.slt b then 1 else 0 : Word) = if a.toInt < b.toInt then 1 else 0 := by
  simp [BitVec.slt]

theorem ite_ult (a b : Word) : (if a.ult b then 1 else 0 : Word) = if a.toNat < b.toNat then 1 else 0 := by
  simp [BitVec.ult]

/-- Settles O5: each operation writes what its function gives, and the fetch leaves the registers that the function reads. -/
theorem scalarOperationsWriteXd : Obligations.ScalarOperationsWriteXd := by
  intro e f s h hr
  have hOp : ∀ code (g : Engine → Word) v, g (s.fetched e code).eng[e] = v → SeqWrites s (scalarOp code e f g s) e f.xd v :=
    fun code g v hg => scalarOp_writes code s e f g h hr v hg
  simp only [exec_scAdd, exec_scSub, exec_scAnd, exec_scOr, exec_scXor, exec_scShl, exec_scShr, exec_scSra, exec_scMul, exec_scMovhi, exec_scSlt,
    exec_scSltu, exec_scSeq, ← movhi_word, ← ite_slt, ← ite_ult]
  refine ⟨hOp 0x00 _ _ ?_, hOp 0x01 _ _ ?_, hOp 0x02 _ _ ?_, hOp 0x03 _ _ ?_, hOp 0x04 _ _ ?_, hOp 0x05 _ _ ?_, hOp 0x06 _ _ ?_, hOp 0x07 _ _ ?_,
    hOp 0x08 _ _ ?_, hOp 0x09 _ _ ?_, hOp 0x0A _ _ ?_, hOp 0x0B _ _ ?_, hOp 0x0C _ _ ?_⟩
  all_goals simp only [fetched_rx, logicB, shamt, immS]

/-- Settles O6: each branch moves the PC by its comparison, of registers that the fetch leaves. -/
theorem scalarBranchesMoveThePc : Obligations.ScalarBranchesMoveThePc := by
  intro e f s h hr a b target
  have hBr : ∀ code (c : Engine → Bool) v, c (s.fetched e code).eng[e] = v → SeqMoves s (scalarBr code e f c s) e (target v) :=
    fun code c v hc => scalarBr_moves code s e f c h hr v hc
  rw [exec_scB, exec_scBeq, exec_scBne, exec_scBlt, exec_scBge]
  refine ⟨hBr 0x18 _ _ rfl, hBr 0x19 _ _ ?_, hBr 0x1A _ _ ?_, hBr 0x1B _ _ ?_, hBr 0x1C _ _ ?_⟩
  · simp only [fetched_rx]; exact beq_eq_decide a b
  · simp only [fetched_rx]; exact (congrArg not (beq_eq_decide a b)).trans decide_not.symm
  · simp only [fetched_rx]; rfl
  · simp only [fetched_rx]; exact decide_not.symm.trans (decide_eq_decide.mpr Int.not_lt)

/-! ### Summary slots -/

/-- The fetch leaves the registers between the error records and Loupe's: token counters, doorbells, and the engine's own. -/
theorem fetched_reg (s : State) (e : Fin 8) (code : Nat) {o : Nat} (hLow : CTL + 0x114 ≤ o) (hHigh : o < CTU + 0x50220) :
    (s.fetched e code).reg (key e o) = s.reg (key e o) := by
  have hMod : key e o % 2 ^ 52 = o := key_mod e.val o (by unfold CTU at hHigh; omega)
  refine (fetched_frame s e code).reg _ (.inr ?_) (key_ne_key e.val (by omega))
  rw [hMod]
  exact hLow

theorem key_add (u a b : Nat) : key u a + b = key u (a + b) := Nat.add_assoc _ _ _

theorem fetched_summary (s : State) (e : Fin 8) (code : Nat) {k : Nat} (h : k < 8) : (s.fetched e code).summary e k = s.summary e k := by
  have hReg : ∀ o, o < 16 → (s.fetched e code).regN (sumKey e k + o) = s.regN (sumKey e k + o) := fun o ho => by
    have hKey : sumKey e k + o = key e (CTU + (0x100 + 16 * k + o)) := (key_add e _ _).trans (congrArg (key e) (by omega))
    rw [hKey]
    exact congrArg BitVec.toNat (fetched_reg s e code (by unfold CTL CTU; omega) (by omega))
  have hMax : (s.fetched e code).regN (sumKey e k) = s.regN (sumKey e k) := by
    have := hReg 0 (by decide)
    rwa [Nat.add_zero] at this
  unfold State.summary
  rw [hMax, hReg 4 (by decide), hReg 8 (by decide), hReg 12 (by decide)]

/-- Settles O7: the fetch leaves the summary slots, and a condition below 16 has no reserved bit. -/
theorem summaryReadsAndBranches : Obligations.SummaryReadsAndBranches := by
  intro e f s h hr k j
  rw [exec_scMovsum, exec_scBsum]
  refine ⟨scalarOp_writes 0x20 s e f _ h hr _ (by simp only [fetched_rx]; rfl), fun hImm => ?_⟩
  have hLegal : (f.rsv == 0 && f.imm.extractLsb' 28 4 == 0) = true := by
    have : f.imm.extractLsb' 28 4 = 0 := BitVec.eq_of_toNat_eq (by simp [Nat.shiftRight_eq_div_pow]; omega)
    simp [hr, this]
  have hCond : f.imm.toNat / 2 ^ 24 % 16 = f.imm.toNat / 2 ^ 24 := Nat.mod_eq_of_lt (by omega)
  have hMoves := modPc_moves s e 0x21 (fun en => if bsumCond (s.summary e k) (f.imm.toNat / 2 ^ 24) ((s.eng[e].rx f.xb).toNat % 2 ^ 32)
    then brTo en (bsumOff f.imm) else en.pc + 8) h.1
  unfold execScBsum State.seqBranch
  rw [hLegal, onSeq_issues _ _ _ _ h]
  simp only [fetched_rx, hCond, fetched_summary s e 0x21 (Nat.mod_lt (s.eng[e].rx f.xa).toNat (show 0 < 8 by decide))]
  simp only [brTo, bsumOff, fetched_pc] at hMoves
  exact hMoves

/-! ### Loads and stores -/

theorem toLE_getD (n : Nat) : ∀ v k : Nat, k < n → (toLE n v).getD k 0 = BitVec.ofNat 8 (v / 256 ^ k) := by
  induction n with
  | zero => exact fun _ _ h => absurd h (Nat.not_lt_zero _)
  | succ n ih =>
    intro v k h
    cases k with
    | zero => simp [toLE]
    | succ k => rw [toLE, List.getD_cons_succ, ih _ _ (by omega), Nat.div_div_eq_div_mul, Nat.pow_succ']

@[simp] theorem State.seqNext_reg (s : State) (e : Fin 8) (a : Nat) : (s.seqNext e).reg a = s.reg a := rfl

@[simp] theorem State.stored_reg (s : State) (u off : Nat) (bs : List Byte) (a : Nat) : (s.stored u off bs).reg a = s.reg a := rfl

@[simp] theorem State.stored_eng (s : State) (u off : Nat) (bs : List Byte) : (s.stored u off bs).eng = s.eng := rfl

theorem sameBytes_seqNext (s : State) (e : Fin 8) : SameBytes s (s.seqNext e) := sameBytes_modEng s e _

/-- The step past an instruction that has left the engines as its fetch did. -/
theorem seqNext_fetched {s u : State} {e : Fin 8} {code : Nat} (h : u.eng = (s.fetched e code).eng) :
    (u.seqNext e).eng[e].pc = s.eng[e].pc + 8 ∧ (∀ r, (u.seqNext e).eng[e].rx r = s.eng[e].rx r) ∧
      ∀ j, j ≠ e → (u.seqNext e).eng[j] = s.eng[j] := by
  have hEng := fun j => eng_congr h j
  unfold State.seqNext
  refine ⟨?_, fun r => ?_, fun j hj => ?_⟩
  · rw [State.modEng_get, hEng]; exact congrArg (· + 8) (fetched_pc s e code)
  · rw [State.modEng_get, hEng]; exact fetched_rx s e code r
  · rw [State.modEng_get_ne _ _ _ _ hj, hEng]; exact (fetched_frame s e code).others j hj

theorem fetched_lsOff (s : State) (e : Fin 8) (code : Nat) (f : ScalarF) :
    lsOff (s.fetched e code).eng[e] f = s.eng[e].rx f.xa + f.imm.signExtend 64 := by
  unfold lsOff immS; rw [fetched_rx]

theorem scLd_scratchpad {e : Fin 8} {f : ScalarF} {s : State} {o : Nat} (h : s.issues e) (hr : f.rsv = 0)
    (ho : (s.eng[e].rx f.xa + f.imm.signExtend 64).toNat = o) (h8 : o % 8 = 0) (hLt : o + 8 ≤ SPAD) (hClean : s.dirtyBlocks (key e o) 8 = []) :
    SeqWrites s (exec (.scLd e f) s) e f.xd (BitVec.ofNat 64 (leNat (s.bytes (key e o) 8))) := by
  have hRsv : (f.rsv == 0) = true := by simp [hr]
  rw [exec_scLd]
  unfold execScLd
  rw [hRsv, onSeq_issues _ _ _ _ h]
  dsimp only
  rw [fetched_lsOff, ho, if_pos ⟨h8, hLt⟩, read_clean _ _ _ ((fetched_dirty s e _ _ _).trans hClean), fetched_bytes]
  exact seqWrite_writes s e _ f.xd _ h.1

theorem scSt_scratchpad {e : Fin 8} {f : ScalarF} {s : State} {o : Nat} (h : s.issues e) (hr : f.rsv = 0)
    (ho : (s.eng[e].rx f.xa + f.imm.signExtend 64).toNat = o) (h8 : o % 8 = 0) (hLt : o + 8 ≤ SPAD) (hClean : s.dirtyBlocks (key e o) 8 = []) :
    exec (.scSt e f) s = .next (((s.fetched e 0x11).stored e o (toLE 8 (s.eng[e].rx f.xb).toNat)).seqNext e) := by
  have hRsv : (f.rsv == 0) = true := by simp [hr]
  have hDirty : (s.fetched e 0x11).dirtyBlocks (key e o) (toLE 8 (s.eng[e].rx f.xb).toNat).length = [] :=
    (fetched_dirty s e _ _ _).trans (by rw [toLE_length]; exact hClean)
  rw [exec_scSt]
  unfold execScSt
  rw [hRsv, onSeq_issues _ _ _ _ h]
  dsimp only
  rw [fetched_lsOff, ho, if_pos ⟨h8, hLt⟩, fetched_rx,
    write_clean _ _ _ hDirty (List.ne_nil_of_length_pos (by rw [toLE_length]; decide)) (by rw [toLE_length]; decide)]
  rfl

theorem scSt_forward {e : Fin 8} {f : ScalarF} {s : State} {o : Nat} (h : s.issues e) (hr : f.rsv = 0)
    (ho : (s.eng[e].rx f.xa + f.imm.signExtend 64).toNat = o) (h4 : o % 4 = 0) (hLow : CTU + 0x40100 ≤ o) (hHigh : o ≤ CTU + 0x4017F) :
    exec (.scSt e f) s = .next (((s.fetched e 0x11).setReg (key e o) ((s.eng[e].rx f.xb).setWidth 32)).seqNext e) := by
  have hRsv : (f.rsv == 0) = true := by simp [hr]
  rw [exec_scSt]
  unfold execScSt
  rw [hRsv, onSeq_issues _ _ _ _ h]
  dsimp only
  rw [fetched_lsOff, ho, if_neg (fun hx => absurd hx.2 (by unfold CTU at hLow; unfold SPAD; omega)), if_pos ⟨hLow, hHigh, h4⟩, fetched_rx]

/-- The bytes after a clean store of the 8 bytes of a word. -/
theorem stored_word_byte {s : State} {u o : Nat} (h : s.dirtyBlocks (key u o) 8 = []) (v c : Nat) :
    (s.stored u o (toLE 8 v)).byte c = if key u o ≤ c ∧ c < key u o + 8 then BitVec.ofNat 8 (v / 256 ^ (c - key u o)) else s.byte c := by
  have hLen := toLE_length 8 v
  refine (putBytes_byte s (key u o) (toLE 8 v) c (hLen.symm ▸ h)).trans ?_
  rw [hLen]
  split
  · exact toLE_getD 8 _ _ (by omega)
  · rfl

/-- Settles O8: the fetch leaves codes and bytes, a clean read returns them, and a clean write of 8 bytes or of a register puts just these. -/
theorem scalarLoadsAndStores : Obligations.ScalarLoadsAndStores := by
  intro e f s h hr o v
  have hFrame := fetched_frame s e 0x11
  refine ⟨fun h8 hLt hClean => ⟨scLd_scratchpad h hr rfl h8 hLt hClean, _, scSt_scratchpad h hr rfl h8 hLt hClean, ?_⟩,
    fun h4 hLow hHigh => ⟨_, scSt_forward h hr rfl h4 (by unfold CTU; omega) (by unfold CTU; omega), ?_, ?_⟩⟩
  · obtain ⟨hPc, hRx, hOthers⟩ := seqNext_fetched (State.stored_eng (s.fetched e 0x11) e o (toLE 8 v.toNat))
    refine ⟨(sameBytes_seqNext _ e).2.trans hFrame.bytes.2, hPc, fun c => ?_, hRx, hOthers, fun a ha hLoupe => ?_⟩
    · rw [(sameBytes_seqNext _ e).1 c, stored_word_byte ((fetched_dirty s e _ _ _).trans hClean), hFrame.bytes.1 c]
    · rw [State.seqNext_reg, State.stored_reg]
      exact hFrame.reg a ha hLoupe
  · exact hFrame.bytes.trans ((sameBytes_setReg _ _ _).trans (sameBytes_seqNext _ e))
  · obtain ⟨hPc, hRx, hOthers⟩ := seqNext_fetched (State.setReg_eng (s.fetched e 0x11) (key e o) (v.setWidth 32))
    refine ⟨hPc, ?_, hRx, hOthers, fun a ha hLoupe hne => ?_⟩
    · rw [State.seqNext_reg, State.reg_setReg_eq]
    · rw [State.seqNext_reg, State.reg_setReg_ne _ _ _ _ hne]
      exact hFrame.reg a ha hLoupe

end Sys2Proof.Machine
end

section
/-! SUPPORT. Instructions of the sequencer that reach beyond its registers: issue into the units' queues, waits, and the sync class (R96 to R104). -/
namespace Sys2Proof.Machine

/-! ### What a fetch leaves -/

/-- `z` is `s` but for what a fetch by engine `e` may change. -/
structure FetchedFrom (s z : State) (e : Fin 8) : Prop where
  form : ∃ r w l i g, z = { s with
    regs := r, writeback := w, ledger := l, eng := s.eng.set e { s.eng[e] with icount := i, tags := g } }
  frame : SeqFrame s z e

theorem fetchedFrom_fetched (s : State) (e : Fin 8) (code : Nat) : FetchedFrom s (s.fetched e code) e :=
  ⟨fetched_form s e code, fetched_frame s e code⟩

theorem fetchedFrom_refl (s : State) (e : Fin 8) : FetchedFrom s s e where
  form := ⟨s.regs, s.writeback, s.ledger, s.eng[e].icount, s.eng[e].tags, by
    have : s.eng.set e s.eng[e] = s.eng := Vector.set_getElem_self _
    exact congrArg (fun v => ({ s with eng := v } : State)) this.symm⟩
  frame := (SameButErrors.refl s).seqFrame e

namespace FetchedFrom

variable {s z : State} {e : Fin 8} (h : FetchedFrom s z e)
include h

theorem eng : ∃ i g, z.eng[e] = { s.eng[e] with icount := i, tags := g } := by
  obtain ⟨r, w, l, i, g, rfl⟩ := h.form
  exact ⟨i, g, by simp⟩

theorem queueDesc (q : Nat) : z.queueDesc q = s.queueDesc q := by
  obtain ⟨_, _, _, _, _, rfl⟩ := h.form
  rfl

theorem ownerPart : z.ownerPart e = s.ownerPart e := by
  obtain ⟨i, g, he⟩ := h.eng
  unfold State.ownerPart
  rw [he]
  obtain ⟨_, _, _, _, _, rfl⟩ := h.form
  rfl

theorem queueOk (q : Nat) : z.queueOk e q = s.queueOk e q := by
  unfold State.queueOk; rw [h.queueDesc, h.ownerPart]

theorem room (q : EngQ) : z.room e q = s.room e q := by
  obtain ⟨i, g, he⟩ := h.eng
  have hDepth : z.depth e q = s.depth e q := by unfold State.depth; simp only [h.queueDesc]
  unfold State.room
  rw [he, hDepth]

theorem dirty (a n : Nat) : z.dirtyBlocks a n = s.dirtyBlocks a n := by
  obtain ⟨_, _, _, _, _, rfl⟩ := h.form
  exact dirty_congr rfl rfl a n

theorem rx (r : BitVec 5) : z.eng[e].rx r = s.eng[e].rx r := by
  obtain ⟨i, g, he⟩ := h.eng
  rw [he]; rfl

theorem descOff (f : IssueF) : descOff z.eng[e] f = descOff s.eng[e] f := by
  unfold Machine.descOff; rw [h.rx]

end FetchedFrom

/-! ### Issue (R96 to R98) -/

/-- An ISSUE whose descriptor is in range waits while its queue is full. -/
theorem issue_full {z : State} {e : Fin 8} {cls : BitVec 3} {f : IssueF} (hOk : cls = 1 → z.queueOk e f.queue.toNat = true)
    (h64 : (descOff z.eng[e] f).toNat % 64 = 0) (hLt : (descOff z.eng[e] f).toNat + 64 ≤ SPAD) (hRoom : z.room e (issueQueue cls f.queue.toNat) = false) :
    z.issue e cls f = z.seqWait e (.issue cls f) := by
  unfold State.issue
  dsimp only
  rw [if_neg (fun hx => by simp [hOk hx.1] at hx), if_neg (by omega), if_pos hRoom]

/-- An ISSUE that finds room. -/
theorem issue_room {z : State} {e : Fin 8} {cls : BitVec 3} {f : IssueF} (hOk : cls = 1 → z.queueOk e f.queue.toNat = true)
    (h64 : (descOff z.eng[e] f).toNat % 64 = 0) (hLt : (descOff z.eng[e] f).toNat + 64 ≤ SPAD) (hRoom : z.room e (issueQueue cls f.queue.toNat) = true)
    (hClean : z.dirtyBlocks (key e (descOff z.eng[e] f).toNat) 64 = []) :
    z.issue e cls f = z.modEng e fun en => { en with
      queue := en.queue ++ [⟨issueQueue cls f.queue.toNat, en.nextId, f.tctr, (descOff z.eng[e] f).toNat,
        z.bytes (key e (descOff z.eng[e] f).toNat) 64, none⟩]
      nextId := en.nextId + 1
      state := .running
      wait := .none
      pc := en.pc + 8 } := by
  unfold State.issue
  dsimp only
  rw [if_neg (fun hx => by simp [hOk hx.1] at hx), if_neg (by omega), if_neg (by rw [hRoom]; decide), read_clean _ _ _ hClean]

/-- Room at a fetch or at a release leads to the same copy of the descriptor. -/
theorem issued_of_room {s z : State} {e : Fin 8} {cls : BitVec 3} {f : IssueF} (h : FetchedFrom s z e) (hOk : cls = 1 → s.queueOk e f.queue.toNat = true)
    (h64 : (descOff s.eng[e] f).toNat % 64 = 0) (hLt : (descOff s.eng[e] f).toNat + 64 ≤ SPAD) (hRoom : s.room e (issueQueue cls f.queue.toNat) = true)
    (hClean : s.dirtyBlocks (key e (descOff s.eng[e] f).toNat) 64 = []) : Issued s (.next (z.issue e cls f)) e cls f := by
  have hOff := h.descOff f
  rw [issue_room (by rwa [h.queueOk]) (by rwa [hOff]) (by rwa [hOff]) ((h.room _).trans hRoom) (by rw [h.dirty, hOff, hClean])]
  obtain ⟨i, g, he⟩ := h.eng
  refine ⟨_, rfl, h.frame.trans (seqFrame_modEng _ _ _), ?_, ?_, ?_, fun r => ?_, ?_, ?_⟩ <;> rw [State.modEng_get]
  · rw [he]
  · exact h.rx r
  · rw [he]
  · rw [hOff, bytes_congr h.frame.bytes.1, he]

theorem exec_issue {e : Fin 8} {f : IssueF} {cls : BitVec 3} {c : Instr}
    (hc : (cls, c) ∈ [((1 : BitVec 3), Instr.streamIssue e f), (2, .arrayIssue e f), (3, .vectorIssue e f), (4, .signalIssue e f)]) (s : State) :
    ∃ code, exec c s = onSeq code s e (issueLegal cls f) fun s1 => s1.issue e cls f := by
  simp only [List.mem_cons, Prod.mk.injEq, List.not_mem_nil, or_false] at hc
  obtain ⟨rfl, rfl⟩ | ⟨rfl, rfl⟩ | ⟨rfl, rfl⟩ | ⟨rfl, rfl⟩ := hc
  · exact ⟨0x40, exec_streamIssue e f s⟩
  · exact ⟨0x80, exec_arrayIssue e f s⟩
  · exact ⟨0xC0, exec_vectorIssue e f s⟩
  · exact ⟨0x100, exec_signalIssue e f s⟩

theorem exec_issueStallRelease_issue {e : Fin 8} {cls : BitVec 3} {f : IssueF} {s : State} (hState : s.eng[e].state = .waiting)
    (hWait : s.eng[e].wait = .issue cls f) : exec (.issueStallRelease e) s = .next (s.issue e cls f) := by
  rw [exec_issueStallRelease]
  unfold execIssueStallRelease
  rw [hState, hWait]

/-- Settles O9: the fetch, or nothing at all in a release, comes before the copy, which finds queue, bytes and codes as they were. -/
theorem issueQueuesTheDescriptor : Obligations.IssueQueuesTheDescriptor := by
  intro e f s cls c hc o hLegal h64 hLt hClean hOk
  obtain ⟨code, hExec⟩ := exec_issue hc s
  have hFrom := fetchedFrom_fetched s e code
  have hIssue : s.issues e → exec c s = .next ((s.fetched e code).issue e cls f) := fun h => by
    rw [hExec, hLegal, onSeq_issues _ _ _ _ h]
  refine ⟨fun h hRoom => ?_, fun h hRoom => ?_, fun hState hWait hRoom => ?_⟩
  · rw [hIssue h]
    exact issued_of_room hFrom hOk h64 hLt hRoom hClean
  · have hOff := hFrom.descOff f
    rw [hIssue h, issue_full (by rwa [hFrom.queueOk]) (by rwa [hOff]) (by rwa [hOff]) ((hFrom.room _).trans hRoom)]
    exact seqWait_waits s e code _
  · rw [exec_issueStallRelease_issue hState hWait]
    exact issued_of_room (fetchedFrom_refl s e) hOk h64 hLt hRoom hClean

/-! ### Waiting or proceeding (R101, R102) -/

theorem fetched_ctr (s : State) (e : Fin 8) (code : Nat) (k : BitVec 12) : (s.fetched e code).ctr e k = s.tok e.val k.toNat := by
  have := k.isLt
  exact fetched_reg s e code (by unfold CTL CTK; omega) (by unfold CTU CTK; omega)

theorem fetched_waitThr (s : State) (e : Fin 8) (code : Nat) (f : SyncF) :
    waitThr (s.fetched e code).eng[e] f = (s.eng[e].rx f.xa + f.imm.setWidth 64).setWidth 32 := by
  unfold waitThr immZ; rw [fetched_rx]

theorem fetched_quiet (s : State) (e : Fin 8) (code : Nat) :
    (s.fetched e code).eng[e].quiet = true ↔ s.eng[e].queue = [] ∧ s.eng[e].started = [] := by
  obtain ⟨i, g, he⟩ := fetched_eng s e code
  unfold Engine.quiet
  rw [he, Bool.and_eq_true, List.isEmpty_iff, List.isEmpty_iff]

theorem seqNext_moves {s : State} {e : Fin 8} (h : s.issues e) (code : Nat) :
    SeqMoves s (.next ((s.fetched e code).seqNext e)) e (s.eng[e].pc + 8) := by
  rw [← fetched_pc s e code]
  exact modPc_moves s e code (fun en => en.pc + 8) h.1

/-- The command ends after the fetch of its END (R108). -/
theorem seqEnd_ends (s : State) (e : Fin 8) (code : Nat) :
    ∃ t, Host.Outcome.next ((s.fetched e code).seqEnd e) = (.next t : Out) ∧ SeqFrame s t e ∧ t.eng[e].state = .idle ∧ t.eng[e].ended = true
      ∧ t.eng[e].pc = s.eng[e].pc + 8 ∧ t.eng[e].cmd = s.eng[e].cmd ∧ ∀ r, t.eng[e].rx r = s.eng[e].rx r := by
  obtain ⟨i, g, he⟩ := fetched_eng s e code
  refine ⟨_, rfl, (fetched_frame s e code).trans (seqFrame_modEng _ _ _), ?_⟩
  unfold State.seqEnd
  rw [State.modEng_get, he]
  exact ⟨rfl, rfl, rfl, rfl, fun _ => rfl⟩

/-- Settles O10: after the fetch each instruction steps on, ends or waits by a test of counters and queues that the fetch leaves. -/
theorem syncInstructionsWaitOrProceed : Obligations.SyncInstructionsWaitOrProceed := by
  intro e f s h hXd next thr up quiet
  have hLegal : (f.xd == 0) = true := by simp [hXd]
  have hUp : ∀ code, reached ((s.fetched e code).ctr e f.tctr) (waitThr (s.fetched e code).eng[e] f) = true ↔ up := fun code => by
    rw [fetched_ctr, fetched_waitThr]; exact decide_eq_true_iff
  rw [exec_syNop, exec_syWait, exec_syFence, exec_syEnd]
  unfold execSyNop execSyWait execSyFence execSyEnd
  simp only [hLegal, onSeq_issues _ _ _ _ h, hUp, fetched_quiet]
  refine ⟨seqNext_moves h _, fun hx => ?_, fun hx => ?_, fun hx => ?_, fun hx => ?_, fun hx => ?_, fun hx => ?_⟩
  · rw [if_pos hx]; exact seqNext_moves h _
  · rw [if_neg hx, fetched_waitThr]; exact seqWait_waits s e _ _
  · rw [if_pos hx]; exact seqNext_moves h _
  · rw [if_neg hx]; exact seqWait_waits s e _ _
  · rw [if_pos hx]; exact seqEnd_ends s e _
  · rw [if_neg hx]; exact seqWait_waits s e _ _

end Sys2Proof.Machine
end

section
/-! SUPPORT. The sync instructions that act outside their engine, traps and kills, and the anchor's control of an engine (R101 to R112). -/
namespace Sys2Proof.Machine

/-! ### Stopping an engine (R110, R112) -/

theorem undefAll_form (l : List (Nat × Nat)) : ∀ s : State, ∃ m n, s.undefAll l = { s with mem := m, fresh := n } := by
  induction l with
  | nil => exact fun s => ⟨_, _, rfl⟩
  | cons r l ih =>
    intro s
    obtain ⟨m, n, h⟩ := ih (s.undef r.1 r.2)
    exact ⟨m, n, h⟩

/-- An engine whose units abort. -/
def Engine.aborted (en : Engine) : Engine :=
  { en with queue := [], started := [], aborting := true, wait := .none, tags := en.tags.map Tag.kill }

/-- An abort of an engine's units leaves registers and the other engines. -/
theorem abortUnits_form (s : State) (e : Fin 8) :
    ∃ m n b, s.abortUnits e = ({ s with mem := m, fresh := n, fab := b } : State).modEng e Engine.aborted := by
  obtain ⟨m, n, h⟩ := undefAll_form (s.eng[e].started.flatMap (·.wrote)) s
  unfold State.abortUnits
  dsimp only
  rw [h]
  exact ⟨m, n, _, rfl⟩

theorem abortUnits_reg (s : State) (e : Fin 8) (a : Nat) : (s.abortUnits e).reg a = s.reg a := by
  obtain ⟨m, n, b, h⟩ := abortUnits_form s e
  rw [h]; rfl

theorem abortUnits_get_ne (s : State) {e j : Fin 8} (hj : j ≠ e) : (s.abortUnits e).eng[j] = s.eng[j] := by
  obtain ⟨m, n, b, h⟩ := abortUnits_form s e
  rw [h, State.modEng_get_ne _ _ _ _ hj]

theorem abortUnits_cmd (s : State) (e : Fin 8) : (s.abortUnits e).eng[e].cmd = s.eng[e].cmd := by
  obtain ⟨m, n, b, h⟩ := abortUnits_form s e
  rw [h, State.modEng_get]; rfl

theorem killEng_reg (s : State) (e : Fin 8) (k : KillInfo) (a : Nat) : (s.killEng e k).reg a = s.reg a := by
  unfold State.killEng
  split
  iterate 3 rfl
  exact abortUnits_reg s e a

theorem killEng_get_ne (s : State) {e j : Fin 8} (k : KillInfo) (h : j ≠ e) : (s.killEng e k).eng[j] = s.eng[j] := by
  unfold State.killEng
  split
  iterate 3 rfl
  exact (State.setEng_get_ne _ _ _ _ h).trans (abortUnits_get_ne s h)

/-- A RUNNING engine that is killed is KILLING, and so it stays. -/
theorem killEng_killing {s : State} {e : Fin 8} (k : KillInfo) (h : s.eng[e].state = .running ∨ s.eng[e].state = .killing) :
    (s.killEng e k).eng[e].state = .killing := by
  unfold State.killEng
  rcases h with h | h <;> rw [h] <;> dsimp only
  · rw [State.setEng_get]
  · exact h

theorem killEng_cmd (s : State) (e j : Fin 8) (k : KillInfo) : (s.killEng j k).eng[e].cmd = s.eng[e].cmd := by
  by_cases hj : e = j
  · subst hj
    unfold State.killEng
    split
    iterate 3 rfl
    dsimp only
    rw [State.setEng_get]
    exact abortUnits_cmd s e
  · rw [killEng_get_ne s k hj]

/-- A command that is killed on every engine on which it runs is killed on engine `e`. -/
theorem killEngs_killing {e : Fin 8} {id : Nat × Nat} (k : KillInfo) : ∀ (l : List (Fin 8)) (s : State), s.eng[e].cmd = some id →
    (s.eng[e].state = .killing ∨ s.eng[e].state = .running ∧ e ∈ l) →
    (l.foldl (fun t j => if t.eng[j].cmd = some id then t.killEng j k else t) s).eng[e].state = .killing
  | [], _, _, h => h.resolve_right fun hx => nomatch hx.2
  | j :: l, s, hCmd, h => by
    rw [List.foldl_cons]
    by_cases hj : e = j
    · subst hj
      rw [if_pos hCmd]
      exact killEngs_killing k l _ ((killEng_cmd s e e k).trans hCmd) (.inl (killEng_killing k (h.symm.imp_left And.left)))
    · have hMem : s.eng[e].state = .killing ∨ s.eng[e].state = .running ∧ e ∈ l :=
        h.imp_right fun hx => ⟨hx.1, (List.mem_cons.mp hx.2).resolve_left hj⟩
      split
      · exact killEngs_killing k l _ ((killEng_cmd s e j k).trans hCmd) (by rwa [killEng_get_ne s k hj])
      · exact killEngs_killing k l s hCmd hMem

theorem killCmdOn_killing {s : State} {e : Fin 8} (k : KillInfo) (h : s.eng[e].state = .running) : (s.killCmdOn e k).eng[e].state = .killing := by
  unfold State.killCmdOn
  split
  · exact killEng_killing k (.inl h)
  · next id hid => exact killEngs_killing k _ s hid (.inr ⟨h, List.mem_finRange e⟩)

/-- A trap with none recorded leaves its cause, detail and PC, and the engine TRAPPED. -/
theorem trap_records {s : State} {e : Fin 8} {cause detail status : Nat} (h : s.fld (key e (CTU + 0x1C)) 8 8 = 0) (hc : cause < 0x100) :
    (s.trap e cause detail status).eng[e].state = .trapped ∧
    (s.trap e cause detail status).regN (key e (CTU + 0x1C)) = cause + 0x100 + detail % 2 ^ 16 * 2 ^ 16 ∧
    (s.trap e cause detail status).regN (key e (CTU + 0x20)) = s.eng[e].pc.toNat % 2 ^ 26 := by
  have hNe : key e (CTU + 0x1C) ≠ key e (CTU + 0x20) := key_ne_key e (by decide)
  unfold State.trap
  dsimp only
  rw [if_neg (by rw [h]; decide)]
  generalize key e (CTU + 0x1C) = a at *
  generalize key e (CTU + 0x20) = b at *
  refine ⟨by rw [State.setEng_get], ?_, ?_⟩ <;> unfold State.regN <;> rw [State.setEng_reg, abortUnits_reg]
  · exact (State.regN_setRegN_ne _ _ _ _ hNe).trans ((State.regN_setRegN_eq _ _ _).trans (Nat.mod_eq_of_lt (by omega)))
  · exact (State.regN_setRegN_eq _ _ _).trans (Nat.mod_eq_of_lt (by omega))

/-- The other engines of a trapped command stop and leave engine `e` and the registers as they are. -/
theorem killOthers_keeps (e : Fin 8) (id : Nat × Nat) (k : KillInfo) : ∀ (l : List (Fin 8)) (s : State),
    let t := l.foldl (fun t j => if j ≠ e ∧ t.eng[j].cmd = some id then t.killEng j k else t) s
    t.eng[e] = s.eng[e] ∧ ∀ a, t.reg a = s.reg a
  | [], _ => ⟨rfl, fun _ => rfl⟩
  | j :: l, s => by
    rw [List.foldl_cons]
    split
    · next h =>
      obtain ⟨hEng, hReg⟩ := killOthers_keeps e id k l (s.killEng j k)
      exact ⟨hEng.trans (killEng_get_ne s k h.1.symm), fun a => (hReg a).trans (killEng_reg s j k a)⟩
    · exact killOthers_keeps e id k l s

theorem trapCmd_keeps (s : State) (e : Fin 8) (cause detail status : Nat) :
    (s.trapCmd e cause detail status).eng[e] = (s.trap e cause detail status).eng[e] ∧
    ∀ a, (s.trapCmd e cause detail status).reg a = (s.trap e cause detail status).reg a := by
  unfold State.trapCmd
  dsimp only
  split
  · exact ⟨rfl, fun _ => rfl⟩
  · exact killOthers_keeps e _ _ _ _

/-! ### Sync instructions that act outside -/

theorem dynChoice_eng (s : State) (p : Option (Fin 8)) : (s.dynChoice p).eng = s.eng := by
  unfold State.dynChoice; split <;> rfl

theorem seqResume_get (s : State) (e : Fin 8) : (s.seqResume e).eng[e] = { s.eng[e] with state := .running, wait := .none } := by
  unfold State.seqResume
  rw [State.modEng_get, eng_congr (State.setRegN_eng _ _ _)]

theorem seqWrite_get (s : State) (e : Fin 8) (xd : BitVec 5) (v : Word) :
    (s.seqWrite e xd v).eng[e] = { s.eng[e].wx xd v with pc := s.eng[e].pc + 8 } := State.modEng_get _ _ _

@[simp] theorem State.seqWrite_reg (s : State) (e : Fin 8) (xd : BitVec 5) (v : Word) (a : Nat) : (s.seqWrite e xd v).reg a = s.reg a := rfl

theorem sameBytes_seqWrite (s : State) (e : Fin 8) (xd : BitVec 5) (v : Word) : SameBytes s (s.seqWrite e xd v) := sameBytes_modEng s e _

/-- The end of a WAITT: its answer is in XD and the sequencer runs on (R103). -/
theorem waittEnd_does (s : State) (e : Fin 8) (xd : BitVec 5) (gaveUp : Bool) :
    (s.waittEnd e xd gaveUp).eng[e].pc = s.eng[e].pc + 8 ∧ (s.waittEnd e xd gaveUp).eng[e].state = .running ∧
    ∀ r, (s.waittEnd e xd gaveUp).eng[e].rx r = if r = xd ∧ r ≠ 0 then (if gaveUp then 1 else 0) else s.eng[e].rx r := by
  have hEng : (s.waittEnd e xd gaveUp).eng[e] = ((s.seqResume e).seqWrite e xd (if gaveUp then 1 else 0)).eng[e] := by
    unfold State.waittEnd
    dsimp only
    split
    · exact eng_congr (dynChoice_eng _ _) e
    · rfl
  rw [hEng, seqWrite_get, seqResume_get]
  exact ⟨rfl, wx_state _ _ _, fun r => rx_wx _ _ _ _ r⟩

theorem seqWait_get (s : State) (e : Fin 8) (w : Wait) :
    (s.seqWait e w).eng[e] = { s.eng[e] with state := .waiting, wait := w, waitSince := s.clock.aclk } := State.modEng_get _ _ _

/-- A WAITT that ends in its issue cycle, after its fetch (R103). -/
theorem waitt_answers (s : State) (e : Fin 8) (code : Nat) (w : Wait) (xd : BitVec 5) (gaveUp : Bool) :
    let t := ((s.fetched e code).seqWait e w).waittEnd e xd gaveUp
    t.eng[e].pc = s.eng[e].pc + 8 ∧ t.eng[e].state = .running ∧
    ∀ r, t.eng[e].rx r = if r = xd ∧ r ≠ 0 then (if gaveUp then 1 else 0) else s.eng[e].rx r := by
  intro t
  obtain ⟨hPc, hRunning, hRx⟩ := waittEnd_does ((s.fetched e code).seqWait e w) e xd gaveUp
  rw [seqWait_get] at hPc
  have hOld : ∀ r, ((s.fetched e code).seqWait e w).eng[e].rx r = s.eng[e].rx r := fun r => by
    rw [seqWait_get]; exact fetched_rx s e code r
  refine ⟨hPc.trans (congrArg (· + 8) (fetched_pc s e code)), hRunning, fun r => ?_⟩
  rw [hRx, hOld]

/-- SIG steps on with its SIGNAL queued (R104). -/
theorem seqNext_withFab (z : State) (b : Fab) (e : Fin 8) :
    (({ z with fab := b } : State).seqNext e).fab = b ∧ SameBytes z (({ z with fab := b } : State).seqNext e) :=
  ⟨rfl, sameBytes_of rfl rfl rfl rfl⟩

/-- WAITDB returns the raised unmasked bits and clears them (R381). -/
theorem takeDb_does (z : State) (e : Fin 8) (xd : BitVec 5) :
    (z.takeDb e xd).eng[e].pc = z.eng[e].pc + 8 ∧ (z.takeDb e xd).reg (dbRaw e) = z.reg (dbRaw e) &&& ~~~(z.dbPend e) ∧
    (∀ r, (z.takeDb e xd).eng[e].rx r = if r = xd ∧ r ≠ 0 then (z.dbPend e).setWidth 64 else z.eng[e].rx r) ∧ SameBytes z (z.takeDb e xd) := by
  unfold State.takeDb
  dsimp only
  refine ⟨?_, ?_, fun r => ?_, (sameBytes_setReg _ _ _).trans (sameBytes_seqWrite _ _ _ _)⟩
  · rw [seqWrite_get, eng_congr (State.setReg_eng _ _ _)]
  · rw [State.seqWrite_reg, State.reg_setReg_eq]
  · rw [seqWrite_get, eng_congr (State.setReg_eng _ _ _), rx_wx]

theorem fetched_dbPend (s : State) (e : Fin 8) (code : Nat) :
    (s.fetched e code).reg (dbRaw e) = s.reg (dbRaw e) ∧ (s.fetched e code).dbPend e = s.reg (dbRaw e) &&& ~~~(s.reg (dbMask e)) := by
  have hRaw : (s.fetched e code).reg (dbRaw e) = s.reg (dbRaw e) := fetched_reg s e code (by decide) (by decide)
  have hMask : (s.fetched e code).reg (dbMask e) = s.reg (dbMask e) := fetched_reg s e code (by decide) (by decide)
  unfold State.dbPend
  rw [hRaw, hMask]
  exact ⟨rfl, rfl⟩

/-- Settles O11: what each instruction does to what its fetch leaves, and the fetch leaves the registers that it reads. -/
theorem syncInstructionsThatActOutside : Obligations.SyncInstructionsThatActOutside := by
  intro e f s h next thr up n db
  have hUp : reached ((s.fetched e 0x141).ctr e f.tctr) (waitThr (s.fetched e 0x141).eng[e] f) = true ↔ up := by
    rw [fetched_ctr, fetched_waitThr]; exact decide_eq_true_iff
  obtain ⟨hRaw, hPend⟩ := fetched_dbPend s e 0x144
  have hFrame := fun code => fetched_frame s e code
  have hLegal : f.xd = 0 → (f.xd == 0) = true := fun hXd => by simp [hXd]
  rw [exec_sySig, exec_syWaitdb, exec_syWaitt, exec_syTrap]
  unfold execSySig execSyWaitdb execSyWaitt execSyTrap
  simp only [onSeq_issues _ _ _ _ h, fetched_rx, hUp, hPend]
  refine ⟨fun hXd => ?_, fun hx => ?_, fun hx => ?_, fun hx => ?_, fun hx hn => ?_, fun hXd hFree => ?_⟩
  · rw [hLegal hXd, onSeq_issues _ _ _ _ h]
    obtain ⟨hPc, hRx, -⟩ := seqNext_fetched (s := s) (e := e) (code := 0x143)
      (u := { s.fetched e 0x143 with fab := { (s.fetched e 0x143).fab with
        waiting := (s.fetched e 0x143).fab.waiting ++ [(s.fetched e 0x143).sigItem e f] } }) rfl
    obtain ⟨hFab, hBytes⟩ := seqNext_withFab (s.fetched e 0x143) { (s.fetched e 0x143).fab with
        waiting := (s.fetched e 0x143).fab.waiting ++ [(s.fetched e 0x143).sigItem e f] } e
    refine ⟨_, (s.fetched e 0x143).sigItem e f, rfl, ?_, rfl, rfl, rfl, rfl, ?_, hPc, hRx, (hFrame 0x143).bytes.trans hBytes⟩
    · rw [hFab, (hFrame 0x143).fab]
    · exact Nat.mod_eq_of_lt (Nat.lt_trans e.isLt (by decide))
  · rw [if_pos hx]; exact seqWait_waits s e _ _
  · rw [if_neg hx]
    obtain ⟨hPc, hReg, hRx, hBytes⟩ := takeDb_does (s.fetched e 0x144) e f.xd
    rw [hRaw, hPend] at hReg
    simp only [hPend, fetched_rx] at hRx
    exact ⟨_, rfl, hPc.trans (congrArg (· + 8) (fetched_pc s e _)), hReg, hRx, (hFrame 0x144).bytes.trans hBytes⟩
  · by_cases hu : up
    · rw [if_pos hu]
      obtain ⟨hPc, hRunning, hRx⟩ := waitt_answers s e 0x141 (.tokenLimit f.tctr (waitThr (s.fetched e 0x141).eng[e] f) f.xd n) f.xd false
      exact ⟨_, rfl, hPc, hRunning, fun r => (hRx r).trans (by rw [if_pos hu]; rfl)⟩
    · rw [if_neg hu, if_pos (hx.resolve_left hu)]
      obtain ⟨hPc, hRunning, hRx⟩ := waitt_answers s e 0x141 (.tokenLimit f.tctr (waitThr (s.fetched e 0x141).eng[e] f) f.xd n) f.xd true
      exact ⟨_, rfl, hPc, hRunning, fun r => (hRx r).trans (by rw [if_neg hu]; rfl)⟩
  · rw [if_neg hx, if_neg hn, fetched_waitThr]; exact seqWait_waits s e _ _
  · rw [hLegal hXd, onSeq_issues _ _ _ _ h]
    have hReg : (s.fetched e 0x17F).reg (key e (CTU + 0x1C)) = s.reg (key e (CTU + 0x1C)) := fetched_reg s e _ (by decide) (by decide)
    have hFree' : (s.fetched e 0x17F).fld (key e (CTU + 0x1C)) 8 8 = 0 := by
      rw [← hFree]; exact congrArg (fun v : Reg32 => bits v.toNat 8 8) hReg
    obtain ⟨hState, hInfo, hPc⟩ := trap_records (cause := 0x09) (detail := f.imm.toNat % 2 ^ 16) (status := BAD_PARAM) hFree' (by decide)
    obtain ⟨hEng, hKeeps⟩ := trapCmd_keeps (s.fetched e 0x17F) e 0x09 (f.imm.toNat % 2 ^ 16) BAD_PARAM
    refine ⟨_, rfl, hEng ▸ hState, ?_, ?_⟩
    · exact (congrArg BitVec.toNat (hKeeps _)).trans (hInfo.trans (by rw [Nat.mod_mod]))
    · exact (congrArg BitVec.toNat (hKeeps _)).trans (hPc.trans (by rw [fetched_pc]))

end Sys2Proof.Machine
end

section
/-! SUPPORT. The anchor's control of an engine (R106 to R111), and the completion of descriptors in progress (R99). -/
namespace Sys2Proof.Machine

/-! ### Writes of ENG_CTL -/

theorem engCtl_anchor {e : Fin 8} {s : State} (h : s.engPresent e = true) (v : Nat) : engCtl 0x60 e v s = (s.wakeEng e).ctlWrite e v := by
  unfold engCtl
  rw [if_neg (by rw [h]; decide), if_neg (by simp)]

theorem engCtl_other {src : BitVec 8} {e : Fin 8} {s : State} (h : s.engPresent e = true) (hSrc : src ≠ 0x60) (v : Nat) :
    engCtl src e v s = (s.wakeEng e).failOp src.toNat 7 1 0 (key e (CTU + 4)) .none := by
  unfold engCtl
  rw [if_neg (by rw [h]; decide), if_pos hSrc]

theorem wakeEng_get (s : State) (e : Fin 8) : (s.wakeEng e).eng[e] =
    { s.eng[e] with power := if s.eng[e].power = .idle then .on else s.eng[e].power, idleSince := s.clock.aclk } := State.modEng_get _ _ _

theorem sameBytes_wakeEng (s : State) (e : Fin 8) : SameBytes s (s.wakeEng e) := sameBytes_modEng s e _

@[simp] theorem State.wakeEng_fld (s : State) (e : Fin 8) (a hi lo : Nat) : (s.wakeEng e).fld a hi lo = s.fld a hi lo := rfl

theorem wakeEng_state (s : State) (e : Fin 8) : (s.wakeEng e).eng[e].state = s.eng[e].state := by rw [wakeEng_get]

/-- A command starts at the base and entry that are set, with every scalar register 0 (R87, R106). -/
theorem startEng_does (s : State) (e : Fin 8) :
    (s.startEng e).eng[e].state = .running ∧ (∀ r, (s.startEng e).eng[e].rx r = 0) ∧
    (s.startEng e).eng[e].pc = BitVec.ofNat 64 (s.fld (key e (CTU + 0xC)) 25 0 + s.fld (key e (CTU + 0x14)) 25 0) ∧ SameBytes s (s.startEng e) := by
  refine ⟨?_, fun r => ?_, ?_, sameBytes_modEng s e _⟩ <;> unfold State.startEng <;> rw [State.modEng_get]
  unfold Engine.rx
  split
  · rfl
  · exact Vector.getElem_replicate _

theorem fld_25_0_lt (s : State) (a : Nat) : s.fld a 25 0 < 2 ^ 26 := bits_lt _ _ _

theorem engRun_idle {e : Fin 8} {s : State} (hOn : s.engPresent e = true) (h : s.eng[e].state = .idle) :
    exec (.engRun 0x60 e) s = .next ((s.wakeEng e).startEng e) := by
  rw [exec_engRun, execEngRun, engCtl_anchor hOn]
  show Host.Outcome.next ((s.wakeEng e).ctlRun e) = _
  unfold State.ctlRun
  rw [wakeEng_state, h]

theorem engRun_halted {e : Fin 8} {s : State} (hOn : s.engPresent e = true) (h : s.eng[e].state = .halted) :
    exec (.engRun 0x60 e) s = .next ((s.wakeEng e).modEng e fun en => { en with state := .running, eccHalt := [] }) := by
  rw [exec_engRun, execEngRun, engCtl_anchor hOn]
  show Host.Outcome.next ((s.wakeEng e).ctlRun e) = _
  unfold State.ctlRun
  rw [wakeEng_state, h]

theorem engHalt_running {e : Fin 8} {s : State} (hOn : s.engPresent e = true) (h : s.eng[e].state = .running) :
    exec (.engHalt 0x60 e) s = .next ((s.wakeEng e).modEng e fun en => { en with state := .halted, idleSince := s.clock.aclk }) := by
  rw [exec_engHalt, execEngHalt, engCtl_anchor hOn]
  show Host.Outcome.next ((s.wakeEng e).ctlHalt e) = _
  unfold State.ctlHalt
  rw [wakeEng_state, h]
  rfl

theorem engKill_running {e : Fin 8} {s : State} (hOn : s.engPresent e = true) (h : s.eng[e].state = .running) :
    exec (.engKill 0x60 e) s = .next ((s.wakeEng e).killCmdOn e ⟨.final, KILLED, 0⟩) := by
  rw [exec_engKill, execEngKill, engCtl_anchor hOn]
  show Host.Outcome.next ((s.wakeEng e).ctlKill e) = _
  unfold State.ctlKill
  rw [wakeEng_state, h]

theorem killComplete_idle {e : Fin 8} {s : State} (h : s.eng[e].state = .killing) :
    ∃ u : State, exec (.killComplete e) s = .next (u.toIdle e) := by
  rw [exec_killComplete]
  unfold execKillComplete
  rw [h]
  exact ⟨_, rfl⟩

/-- Settles O13: a write by the anchor reaches the engine, which acts on it by its state; any other's is answered with ACCESS. -/
theorem anchorRunsHaltsAndKills : Obligations.AnchorRunsHaltsAndKills := by
  intro e s hOn
  have hWake := sameBytes_wakeEng s e
  refine ⟨fun h => ?_, fun h => ?_, fun h => ?_, fun h => ?_, fun h => ?_, fun src hSrc c hc => ?_⟩
  · obtain ⟨hRunning, hRx, hPc, hBytes⟩ := startEng_does (s.wakeEng e) e
    refine ⟨_, engRun_idle hOn h, hRunning, hRx, ?_, hWake.trans hBytes⟩
    have hBase := fld_25_0_lt s (key e (CTU + 0xC))
    have hEntry := fld_25_0_lt s (key e (CTU + 0x14))
    rw [hPc, State.wakeEng_fld, State.wakeEng_fld]
    exact Nat.mod_eq_of_lt (by omega)
  · refine ⟨_, engRun_halted hOn h, ?_, ?_, fun r => ?_, hWake.trans (sameBytes_modEng _ e _)⟩ <;> rw [State.modEng_get, wakeEng_get]
    rfl
  · refine ⟨_, engHalt_running hOn h, ?_, ?_, fun r => ?_, hWake.trans (sameBytes_modEng _ e _)⟩ <;> rw [State.modEng_get, wakeEng_get]
    rfl
  · exact ⟨_, engKill_running hOn h, killCmdOn_killing _ ((wakeEng_state s e).trans h)⟩
  · obtain ⟨u, hu⟩ := killComplete_idle h
    refine ⟨_, hu, ?_⟩
    unfold State.toIdle
    rw [State.modEng_get]
  · have hFails : ∃ v, exec c s = .next (engCtl src e v s) := by
      simp only [List.mem_cons, List.not_mem_nil, or_false] at hc
      obtain rfl | rfl | rfl := hc
      · exact ⟨_, exec_engRun src e s⟩
      · exact ⟨_, exec_engHalt src e s⟩
      · exact ⟨_, exec_engKill src e s⟩
    obtain ⟨v, hv⟩ := hFails
    rw [engCtl_other hOn hSrc] at hv
    have hEng : ((s.wakeEng e).failOp src.toNat 7 1 0 (key e (CTU + 4)) .none).eng[e] = (s.wakeEng e).eng[e] := rfl
    refine ⟨_, _, hv, ?_, ?_, ?_, State.failOp_errs _ _ _ _ _ _ _, rfl, rfl⟩ <;> rw [hEng, wakeEng_get]

end Sys2Proof.Machine
end

section
/-! SUPPORT. The completion of descriptors and direct instructions in progress (R99, R165, R216, R228, R245, R252). -/
namespace Sys2Proof.Machine

/-- The anchor's meter of SHADOW work draws a free value and adds to its count (R343). -/
theorem meter_form (s : State) (e : Fin 8) : ∃ n h, s.meter e = { s with fresh := n, shadow := h } := by
  unfold State.meter
  extract_lets shadow
  by_cases h : shadow = true
  · rw [if_pos h]
    exact ⟨_, _, rfl⟩
  · rw [if_neg h]
    exact ⟨s.fresh, s.shadow, rfl⟩

/-- The command completes descriptor `d` of engine `e`; beside that it may meter SHADOW work. -/
def CompletesDesc (s : State) (c : Instr) (e : Fin 8) (d : Started) : Prop :=
  ∃ n h, exec c s = .next { s.completeDesc e d with fresh := n, shadow := h }

theorem completesDesc_of_exec {s : State} {c : Instr} {e : Fin 8} {d : Started} (h : exec c s = .next (s.completeDesc e d)) :
    CompletesDesc s c e d := ⟨(s.completeDesc e d).fresh, (s.completeDesc e d).shadow, h⟩

theorem arrComplete_completes {s : State} {e : Fin 8} {d : Started} {k kind : Nat}
    (h : (s.eng[e].started.filter fun x => decide (x.q = .array) && decide (fieldLE x.desc 0 1 % 16 = kind))[k]? = some d) :
    s.arrComplete e k kind = (s.completeDesc e d).meter e := by
  unfold State.arrComplete; rw [h]

theorem matmulComplete_completes {s : State} {e : Fin 8} {d : Started} {k : BitVec 6}
    (h : (s.eng[e].started.filter fun x => decide (x.q = .array) && decide (fieldLE x.desc 0 1 % 16 = 1))[k.toNat]? = some d) :
    CompletesDesc s (.matmulComplete e k) e d := by
  obtain ⟨n, sh, hMeter⟩ := meter_form (s.completeDesc e d) e
  exact ⟨n, sh, by rw [exec_matmulComplete, execMatmulComplete, arrComplete_completes h, hMeter]⟩

theorem drainComplete_completes {s : State} {e : Fin 8} {d : Started} {k : BitVec 6}
    (h : (s.eng[e].started.filter fun x => decide (x.q = .array) && decide (fieldLE x.desc 0 1 % 16 = 2))[k.toNat]? = some d) :
    CompletesDesc s (.drainComplete e k) e d := by
  obtain ⟨n, sh, hMeter⟩ := meter_form (s.completeDesc e d) e
  exact ⟨n, sh, by rw [exec_drainComplete, execDrainComplete, arrComplete_completes h, hMeter]⟩

theorem directInstrComplete_completes {s : State} {e : Fin 8} {d : Started} {k : BitVec 6}
    (h : (s.eng[e].started.filter fun x => decide (x.q = .direct))[k.toNat]? = some d) : CompletesDesc s (.directInstrComplete e k) e d :=
  completesDesc_of_exec (by rw [exec_directInstrComplete, execDirectInstrComplete, h])

theorem vectorDescComplete_completes {s : State} {e : Fin 8} {p : Fin 4} {d : Started} {k : BitVec 6}
    (h : s.startedOn e (.pipe p.val) k.toNat = some d) : CompletesDesc s (.vectorDescComplete e p k) e d :=
  completesDesc_of_exec (by rw [exec_vectorDescComplete, execVectorDescComplete, h])

/-- A Collimator item that stores nothing and found no mismatch (R228). -/
theorem collimatorComplete_completes {s : State} {e : Fin 8} {d : Started} {k : BitVec 6} (h : s.startedOn e .col k.toNat = some d)
    (hStores : d.stores = []) (hMiss : ∀ r ∈ d.result, r.1 ≠ colMiss e) : CompletesDesc s (.collimatorComplete e k) e d := by
  have hAny : d.result.any (fun r => decide (r.1 = colMiss e)) = false :=
    List.any_eq_false.mpr fun r hr => by simp only [decide_eq_true_iff]; exact hMiss r hr
  have hFilter : ∀ keep : Bool, d.result.filter (fun r => keep || decide (r.1 ≠ colMiss e)) = d.result := fun keep =>
    List.filter_eq_self.mpr fun r hr => by rw [decide_eq_true (hMiss r hr), Bool.or_true]
  refine completesDesc_of_exec ?_
  rw [exec_collimatorComplete, execCollimatorComplete, h]
  dsimp only
  rw [hStores]
  show Host.Outcome.next (State.completeDesc (if d.result.any (fun r => decide (r.1 = colMiss e)) then _ else _) e _) = _
  rw [hAny, hFilter]
  rfl

theorem streamDescComplete_completes {s : State} {e : Fin 8} {d : Started} {q : BitVec 10}
    (h : s.eng[e].started.find? (fun x => decide (x.q = .stream q.toNat)) = some d) (hOps : d.ops = 0) (hErr : d.err = none) :
    CompletesDesc s (.streamDescComplete e q) e d :=
  completesDesc_of_exec (by rw [exec_streamDescComplete, execStreamDescComplete, h]; exact congrArg _ (if_pos ⟨hOps, hErr⟩))

theorem programComplete_completes {s : State} {e : Fin 8} {d : Started} (h : s.startedOn e .signal 0 = some d) :
    CompletesDesc s (.programComplete e) e d :=
  completesDesc_of_exec (by rw [exec_programComplete, execProgramComplete, h])

/-- Settles O16: each row completes the descriptor that it finds, whose results, increment and removal `completeDesc_does` gives. -/
theorem completionsApplyTheirIncrement : Obligations.CompletionsApplyTheirIncrement := by
  intro e k p q s d c sel i hRow hFound hStores hMiss hOps hErr
  suffices h : CompletesDesc s c e d by
    obtain ⟨n, sh, hExec⟩ := h
    obtain ⟨hBytes, hStarted, hReg⟩ := completeDesc_does s e d
    exact ⟨_, hExec, hBytes.trans (sameBytes_of rfl rfl rfl rfl), hStarted, hReg⟩
  simp only [List.mem_cons, Prod.mk.injEq, List.not_mem_nil, or_false] at hRow
  obtain ⟨rfl, rfl, rfl⟩ | ⟨rfl, rfl, rfl⟩ | ⟨rfl, rfl, rfl⟩ | ⟨rfl, rfl, rfl⟩ | ⟨rfl, rfl, rfl⟩ | ⟨rfl, rfl, rfl⟩ | ⟨rfl, rfl, rfl⟩ := hRow
  · exact matmulComplete_completes hFound
  · exact drainComplete_completes hFound
  · exact directInstrComplete_completes hFound
  · exact vectorDescComplete_completes hFound
  · exact collimatorComplete_completes hFound hStores hMiss
  · rw [← List.head?_eq_getElem?, List.head?_filter] at hFound
    exact streamDescComplete_completes hFound hOps hErr
  · exact programComplete_completes hFound

end Sys2Proof.Machine
end

section
/-! SUPPORT. What a stored byte, a journal record, a committed ledger record and the outcome of a command change (R403, R416, R433, R453). -/
namespace Sys2Proof.Machine

/-! ### Stores and journal records -/

/-- From `s` to `t` only memory and its codes, registers, write-backs, Mirror's place in its journal and records that wait for the ledger
have changed. -/
structure Stores (s t : State) : Prop where
  form : ∃ m x r w l i, t = { s with mem := m, ecc := x, regs := r, writeback := w, ledger := l, mirror := i }
  next : t.ledger.next = s.ledger.next

namespace Stores

theorem refl (s : State) : Stores s s := ⟨⟨_, _, _, _, _, _, rfl⟩, rfl⟩

variable {s t u : State}

theorem trans (h : Stores s t) (k : Stores t u) : Stores s u where
  form := by
    obtain ⟨_, _, _, _, _, _, rfl⟩ := h.form
    obtain ⟨_, _, _, _, _, _, rfl⟩ := k.form
    exact ⟨_, _, _, _, _, _, rfl⟩
  next := k.next.trans h.next

theorem of_regs (h : OnlyRegs s t) : Stores s t := by
  obtain ⟨r, rfl⟩ := h
  exact ⟨⟨_, _, _, _, _, _, rfl⟩, rfl⟩

variable (h : Stores s t)
include h

theorem eng : t.eng = s.eng := by obtain ⟨_, _, _, _, _, _, rfl⟩ := h.form; rfl

theorem cmds : t.cmds = s.cmds := by obtain ⟨_, _, _, _, _, _, rfl⟩ := h.form; rfl

theorem jobs : t.jobs = s.jobs := by obtain ⟨_, _, _, _, _, _, rfl⟩ := h.form; rfl

theorem completions : t.completions = s.completions := by obtain ⟨_, _, _, _, _, _, rfl⟩ := h.form; rfl

end Stores

theorem stores_event (s : State) (status unit detail : Nat) : Stores s (s.event status unit detail) := ⟨⟨_, _, _, _, _, _, rfl⟩, rfl⟩

theorem stores_writeback (s : State) (w : List Nat) : Stores s { s with writeback := w } := ⟨⟨_, _, _, _, _, _, rfl⟩, rfl⟩

theorem onlyRegs_setFld (s : State) (a hi lo v : Nat) : OnlyRegs s (s.setFld a hi lo v) := OnlyRegs.setRegN _ _ _

theorem stores_recordUncorr (s : State) (b : Nat) : Stores s (s.recordUncorr b) := by
  unfold State.recordUncorr
  extract_lets u st s1 s2
  have h1 : OnlyRegs s s1 := OnlyRegs.setRegN _ _ _
  have h2 : OnlyRegs s1 s2 := by
    unfold s2
    split
    · exact onlyRegs_setFld _ _ _ _ _
    · exact ((onlyRegs_setFld _ _ _ _ _).trans (onlyRegs_setFld _ _ _ _ _)).trans (OnlyRegs.setReg64 _ _ _)
  exact (Stores.of_regs (h1.trans h2)).trans (stores_event s2 _ _ _)

theorem stores_touch (s : State) (b : Nat) : Stores s (s.touch b).1 := by
  unfold State.touch
  split
  · exact Stores.refl s
  · exact stores_recordUncorr s b
  · exact (Stores.of_regs (OnlyRegs.setRegN _ _ _)).trans (stores_writeback _ _)

theorem stores_touchAll (l : List Nat) : ∀ s : State, Stores s (s.touchAll l).1 := by
  induction l with
  | nil => exact Stores.refl
  | cons b l ih =>
    intro s
    have h := stores_touch s b
    unfold State.touchAll
    split
    · next s1 he => rw [he] at h; exact h.trans (ih s1)
    · next s1 he => rw [he] at h; exact h

/-- Mending blocks changes memory, codes and write-backs. -/
theorem mendAll_form (l : List Nat) : ∀ s : State, ∃ m x w, s.mendAll l = { s with mem := m, ecc := x, writeback := w } := by
  induction l with
  | nil => exact fun s => ⟨_, _, _, rfl⟩
  | cons b l ih =>
    intro s
    obtain ⟨m, x, w, h⟩ := ih (s.mend b)
    have hMend : ∃ m x w, s.mend b = { s with mem := m, ecc := x, writeback := w } := by
      unfold State.mend
      dsimp only
      split <;> exact ⟨_, _, _, rfl⟩
    obtain ⟨_, _, _, hb⟩ := hMend
    exact ⟨m, x, w, by rw [State.mendAll, h, hb]⟩

theorem putBits_form (b : Nat) (l : List (Nat × Byte)) : ∀ s : State,
    ∃ m, l.foldl (fun (t : State) f => t.putByte (b + f.1) (t.rawByte (b + f.1) ^^^ f.2)) s = { s with mem := m } := by
  induction l with
  | nil => exact fun s => ⟨_, rfl⟩
  | cons f l ih =>
    intro s
    obtain ⟨m, h⟩ := ih (s.putByte (b + f.1) (s.rawByte (b + f.1) ^^^ f.2))
    exact ⟨m, by rw [List.foldl_cons, h]; rfl⟩

/-- An armed pattern changes memory, codes and its own register. -/
theorem inject_form (s : State) (b : Nat) : ∃ m x v, s.inject b = ({ s with mem := m, ecc := x } : State).setReg (key (b / 2 ^ 52) (CTL + 0x11C)) v := by
  unfold State.inject
  dsimp only
  obtain ⟨m, h⟩ := putBits_form b (injData (decide (s.memCode b = HBMMEM)) (s.fld (key (b / 2 ^ 52) (CTL + 0x11C)) 2 0)) s
  rw [h]
  exact ⟨_, _, _, rfl⟩

/-- A write changes what `Stores` names, and of the registers only the error records and the injection register of units. -/
theorem write_does (s : State) (a : Nat) (bs : List Byte) :
    Stores s (s.write a bs).1 ∧ ∀ r, CTL + 0x120 ≤ r % 2 ^ 52 → (s.write a bs).1.reg r = s.reg r := by
  unfold State.write
  extract_lets n z dirty part
  split
  · exact ⟨Stores.refl s, fun _ _ => rfl⟩
  have hStores := stores_touchAll part s
  have hSame := touchAll_same part s
  have hReg : ∀ r, CTL + 0x120 ≤ r % 2 ^ 52 → (s.touchAll part).1.reg r = s.reg r := fun r hr => hSame.reg r (.inr (by omega))
  split
  · next s1 he =>
    rw [he] at hStores hReg
    exact ⟨hStores, hReg⟩
  · next s1 he =>
    rw [he] at hStores hReg
    obtain ⟨m, x, w, hMend⟩ := mendAll_form dirty s1
    extract_lets s2 s3
    have hs3 : s3 = { s1 with mem := putBytes m a bs, ecc := x, writeback := w } := by unfold s3 s2; rw [hMend]
    have hPut : Stores s1 s3 := hs3 ▸ ⟨⟨_, _, _, _, _, _, rfl⟩, rfl⟩
    have hPutReg : ∀ r, s3.reg r = s1.reg r := fun r => by rw [hs3]; rfl
    split
    · obtain ⟨m', x', v, hInj⟩ := inject_form s3 (ceilDiv a z * z)
      rw [hInj]
      refine ⟨(hStores.trans hPut).trans ⟨⟨_, _, _, _, _, _, rfl⟩, rfl⟩, fun r hr => ?_⟩
      refine (State.reg_setReg_ne _ _ _ _ fun hk => ?_).trans ((hPutReg r).trans (hReg r hr))
      rw [hk, key_mod _ _ (by unfold CTL; omega)] at hr
      omega
    · exact ⟨hStores.trans hPut, fun r hr => (hPutReg r).trans (hReg r hr)⟩

theorem stores_poke (s : State) (a : Nat) (bs : List Byte) : Stores s (s.poke a bs) := (write_does s a bs).1

theorem poke_reg (s : State) (a : Nat) (bs : List Byte) {u o : Nat} (hLow : CTL + 0x120 ≤ o) (hHigh : o < 2 ^ 52) :
    (s.poke a bs).reg (key u o) = s.reg (key u o) := (write_does s a bs).2 _ (by rw [key_mod u o hHigh]; exact hLow)

theorem stores_journalPut (s : State) (kind src step time : Nat) (payload : List Byte) : Stores s (s.journalPut kind src step time payload) := by
  unfold State.journalPut
  extract_lets b s1
  have h1 : Stores s s1 := stores_poke s _ b
  refine h1.trans ((Stores.of_regs (OnlyRegs.setReg64 s1 (mirKey 4) (s.wptr + b.length))).trans ⟨⟨_, _, _, _, _, _, rfl⟩, rfl⟩)

theorem stores_journal (s : State) (kind src step time : Nat) (payload : List Byte) : Stores s (s.journal kind src step time payload) := by
  unfold State.journal
  split
  · exact Stores.refl s
  · split
    · exact ((Stores.of_regs (OnlyRegs.setRegN s _ _)).trans (Stores.of_regs (onlyRegs_setFld _ _ _ _ _))).trans ⟨⟨_, _, _, _, _, _, rfl⟩, rfl⟩
    · split
      · exact ((Stores.of_regs (onlyRegs_setFld s _ _ _ _)).trans (stores_journalPut _ _ _ _ _ _)).trans (Stores.of_regs (onlyRegs_setFld _ _ _ _ _))
      · exact stores_journalPut s kind src step time payload

/-! ### Ledger records (R453, R454) -/

theorem append_next (l : Ledger) (type time : Nat) (payload : List Byte) (more : List (Nat × Nat)) :
    (l.append type time payload more).next = l.next + 1 := rfl

theorem rewriteOpen_next (l : Ledger) (time : Nat) : l.next ≤ (l.rewriteOpen time).next := by
  unfold Ledger.rewriteOpen
  generalize l.recs.filter _ = rs
  induction rs generalizing l with
  | nil => exact Nat.le_refl _
  | cons r rs ih => exact Nat.le_trans (Nat.le_succ _) (ih (l.append r.type time r.payload r.more))

/-- A committed record changes the ledger alone, and its next LSEQ rises. -/
theorem ledgerCommit_form (s : State) (type : Nat) (payload : List Byte) (more : List (Nat × Nat)) :
    ∃ l, s.ledgerCommit type payload more = { s with ledger := l } ∧ s.ledger.next < l.next := by
  have hNext : s.ledger.next < ((s.ledger.append type s.ledTime payload more).rewriteOpen s.ledTime).next :=
    Nat.lt_of_lt_of_le (Nat.lt_succ_self _) (rewriteOpen_next (s.ledger.append type s.ledTime payload more) s.ledTime)
  unfold State.ledgerCommit
  dsimp only
  split
  · exact ⟨_, rfl, hNext⟩
  · exact ⟨_, rfl, Nat.lt_succ_of_lt hNext⟩

/-! ### Commands and their outcome (R403) -/

/-- A change of a command that keeps its ring and sequence number is what the command reads as. -/
theorem cmdOf_modCmd (s : State) (id : Nat × Nat) {f : Cmd → Cmd} (hPair : ∀ c, (f c).pair = c.pair) (hSeq : ∀ c, (f c).seq = c.seq) :
    (s.modCmd id f).cmdOf id = (s.cmdOf id).map f := by
  unfold State.cmdOf State.modCmd
  dsimp only
  induction s.cmds with
  | nil => rfl
  | cons c cs ih =>
    rw [List.map_cons]
    by_cases hc : c.pair = id.1 ∧ c.seq = id.2
    · rw [if_pos hc, List.find?_cons_of_pos (by simp [hPair, hSeq, hc]), List.find?_cons_of_pos (by simp [hc])]
      rfl
    · have hNot : (decide (c.pair = id.1) && decide (c.seq = id.2)) = false := by rw [← Bool.decide_and]; exact decide_eq_false hc
      rw [if_neg hc, List.find?_cons_of_neg (by simp [hNot]), List.find?_cons_of_neg (by simp [hNot]), ih]

theorem cmdOf_congr {s t : State} (h : t.cmds = s.cmds) (id : Nat × Nat) : t.cmdOf id = s.cmdOf id := by
  unfold State.cmdOf; rw [h]

/-- A command that has no outcome yet gets its one completion and its COMMIT record; the rest of the state stays. -/
theorem finish_ends {s : State} {c : Cmd} (status detail value : Nat) (values : List Byte) (hSelf : s.cmdOf c.id = some c) (hLive : c.replay = false)
    (hPhase : c.phase ≠ .done) (hUp : s.ledger.up = true) :
    Ends s (s.finish c.id status detail value values) c status (detail % 2 ^ 16) (value % 2 ^ 32) ∧
    ∃ l cs ks, s.finish c.id status detail value values = { s with ledger := l, cmds := cs, completions := ks } := by
  have hFinish : s.finish c.id status detail value values =
      let s2 := (s.ledgerCommit 0x02 (idBytes c.id ++ toLE 1 status ++ toLE 2 detail ++ toLE 4 value ++ values)).modCmd c.id
        fun c => { c with phase := .done }
      { s2 with completions := s2.completions ++ [⟨c.pair, c.seq, status, detail % 2 ^ 16, value % 2 ^ 32, bit (fieldLE c.pkt 1 1) 1⟩] } := by
    unfold State.finish
    rw [hSelf]
    dsimp only
    rw [if_neg (by rw [hLive]; decide), if_neg (by simp [hPhase, hUp])]
    rfl
  obtain ⟨l, hCommit, hNext⟩ := ledgerCommit_form s 0x02 (idBytes c.id ++ toLE 1 status ++ toLE 2 detail ++ toLE 4 value ++ values) []
  have hDone := cmdOf_modCmd ({ s with ledger := l } : State) c.id (f := fun c => { c with phase := .done }) (fun _ => rfl) fun _ => rfl
  rw [cmdOf_congr (s := s) (t := { s with ledger := l }) rfl, hSelf] at hDone
  rw [hFinish, hCommit]
  exact ⟨⟨rfl, congrArg (Option.map Cmd.phase) hDone, hNext⟩, _, _, _, rfl⟩

end Sys2Proof.Machine
end

section
/-! SUPPORT. Job commands: how one starts on its engines, and how one that has ended commits (R106, R389, R391, R412). -/
namespace Sys2Proof.Machine

/-! ### Registers written one after another -/

theorem onlyRegs_setReg (s : State) (a : Nat) (v : Reg32) : OnlyRegs s (s.setReg a v) := ⟨_, rfl⟩

theorem onlyRegs_foldl {α : Type} {f : State → α → State} (hf : ∀ s x, OnlyRegs s (f s x)) (l : List α) : ∀ s : State, OnlyRegs s (l.foldl f s) := by
  induction l with
  | nil => exact OnlyRegs.refl
  | cons x l ih => exact fun s => (hf s x).trans (ih _)

theorem OnlyRegs.cmds {s t : State} (h : OnlyRegs s t) : t.cmds = s.cmds := by obtain ⟨_, rfl⟩ := h; rfl

theorem onlyRegs_clearFlags (s : State) (e : Fin 8) : OnlyRegs s (s.clearFlags e) := by
  have hClamp : ∀ t : State, OnlyRegs t (t.clrClamp e (List.range 64)) := onlyRegs_foldl (fun _ _ => OnlyRegs.setRegN _ _ _) _
  have hFlags : ∀ t : State, OnlyRegs t (t.clrFlags e (List.range 64)) :=
    onlyRegs_foldl (fun _ _ => ((onlyRegs_setFld _ _ _ _ _).trans (onlyRegs_setFld _ _ _ _ _)).trans (OnlyRegs.setRegN _ _ _)) _
  have hQnt : ∀ t : State, OnlyRegs t (t.qntClr e) := onlyRegs_foldl (fun _ _ => OnlyRegs.setRegN _ _ _) _
  have hVec : ∀ t : State, OnlyRegs t (t.vecClr e) := onlyRegs_foldl (fun _ _ => OnlyRegs.setRegN _ _ _) _
  have hPrism : ∀ t : State, OnlyRegs t (t.prismClr e) := onlyRegs_foldl (fun _ _ => OnlyRegs.setRegN _ _ _) _
  unfold State.clearFlags
  extract_lets as s1
  have h1 : OnlyRegs s s1 := ((((hClamp _).trans (hFlags _)).trans (hQnt _)).trans (hVec _)).trans (hPrism _)
  iterate 6 refine OnlyRegs.trans ?_ (onlyRegs_setFld _ _ _ _ _)
  exact h1

theorem onlyRegs_setKeys (s : State) (e : Fin 8) (seeds : List Nat) (step : Nat) : OnlyRegs s (s.setKeys e seeds step) :=
  (onlyRegs_foldl (fun _ _ => OnlyRegs.setRegN _ _ _) _ s).trans (OnlyRegs.setReg64 _ _ _)

theorem onlyRegs_dynChoice (s : State) (p : Option (Fin 8)) : OnlyRegs s (s.dynChoice p) := by
  unfold State.dynChoice
  split
  · exact OnlyRegs.setReg64 _ _ _
  · exact OnlyRegs.refl s

/-! ### Launching (R106, R389) -/

/-- Token counters cleared leave the registers of the unit region. -/
theorem clearToks_reg (u o : Nat) (h : CTU ≤ o) (l : List Nat) : ∀ s : State,
    (l.foldl (fun (t : State) k => t.setReg (tokKey u (k % 4096)) 0) s).reg (key u o) = s.reg (key u o) := by
  induction l with
  | nil => exact fun _ => rfl
  | cons k l ih =>
    intro s
    refine (ih _).trans (State.reg_setReg_ne _ _ _ _ (key_ne_key u ?_))
    unfold CTU at h
    unfold CTK
    omega

theorem fld_congr {s t : State} {a : Nat} (h : t.reg a = s.reg a) (hi lo : Nat) : t.fld a hi lo = s.fld a hi lo :=
  congrArg (fun v : Reg32 => bits v.toNat hi lo) h

/-- The state in which the anchor writes ENG_CTL.RUN: prepared registers and context block (R389). -/
def State.prepared (s : State) (e : Fin 8) (j : Job) (entry ctx : List Byte) (step : Nat) : State :=
  let s1 := ((s.wakeEng e).clearFlags e).setKeys e j.seeds step
  let s2 := (((s1.setRegN (key e (CTU + 0xC)) (Config.codeBase entry * 64 % 2 ^ 26)).setRegN (key e (CTU + 0x10))
    (Config.codeSize entry * 8 % 2 ^ 26)).setRegN (key e (CTU + 0x14)) (Config.codeEntry entry * 8 % 2 ^ 26)).setRegN
    (key e (CTU + 0x24)) j.blockLimit
  let s3 := (Config.jobTokens entry).foldl (fun t k => t.setReg (tokKey e.val (k % 4096)) 0) s2
  (s3.setRegN (dbMask e.val) (Config.doorbellMask entry)).poke (key e j.ctx) ctx

theorem launch_eq (s : State) (e : Fin 8) (id : Nat × Nat) (j : Job) (entry ctx : List Byte) (step : Nat) :
    s.launch e id j entry ctx step = ((s.prepared e j entry ctx step).startEng e).modEng e fun en => { en with cmd := some id } := rfl

/-- Preparing an engine wakes it and changes no other, and no accepted command. -/
theorem prepared_stores (s : State) (e : Fin 8) (j : Job) (entry ctx : List Byte) (step : Nat) :
    Stores (s.wakeEng e) (s.prepared e j entry ctx step) := by
  unfold State.prepared
  extract_lets s1 s2 s3
  have h1 : OnlyRegs (s.wakeEng e) s1 := (onlyRegs_clearFlags _ e).trans (onlyRegs_setKeys _ e _ _)
  have h2 : OnlyRegs s1 s2 := (((OnlyRegs.setRegN _ _ _).trans (OnlyRegs.setRegN _ _ _)).trans (OnlyRegs.setRegN _ _ _)).trans (OnlyRegs.setRegN _ _ _)
  have h3 : OnlyRegs s2 s3 := onlyRegs_foldl (fun _ _ => onlyRegs_setReg _ _ _) _ s2
  exact (Stores.of_regs (((h1.trans h2).trans h3).trans (OnlyRegs.setRegN _ _ _))).trans (stores_poke _ _ _)

/-- The code registers that preparing sets. -/
theorem prepared_code (s : State) (e : Fin 8) (j : Job) (entry ctx : List Byte) (step : Nat) :
    (s.prepared e j entry ctx step).fld (key e (CTU + 0xC)) 25 0 = Config.codeBase entry * 64 % 2 ^ 26 ∧
    (s.prepared e j entry ctx step).fld (key e (CTU + 0x14)) 25 0 = Config.codeEntry entry * 8 % 2 ^ 26 := by
  unfold State.prepared
  extract_lets s1 s2 s3
  have hKept : ∀ o, CTU ≤ o → o < CTU + 0x100 → ∀ hi lo,
      ((s3.setRegN (dbMask e.val) (Config.doorbellMask entry)).poke (key e j.ctx) ctx).fld (key e o) hi lo = s2.fld (key e o) hi lo := by
    intro o hLow hHigh
    refine fld_congr ((poke_reg _ _ _ ?_ ?_).trans ((State.reg_setReg_ne _ _ _ _ ?_).trans (clearToks_reg e.val o hLow _ s2)))
    · unfold CTU at hLow; unfold CTL; omega
    · unfold CTU at hHigh; omega
    · exact key_ne_key e.val (by unfold CTU at hLow; unfold CTM; omega)
  have hField : ∀ v : Nat, bits (v % 2 ^ 26 % 2 ^ 32) 25 0 = v % 2 ^ 26 := fun v => by unfold bits; omega
  have hNe : ∀ {o o' : Nat}, o ≠ o' → key e.val o ≠ key e.val o' := key_ne_key e.val
  rw [hKept _ (by decide) (by decide), hKept _ (by decide) (by decide)]
  unfold s2
  constructor
  · rw [State.fld_setRegN_ne _ _ _ _ _ _ (hNe (by decide)), State.fld_setRegN_ne _ _ _ _ _ _ (hNe (by decide)),
      State.fld_setRegN_ne _ _ _ _ _ _ (hNe (by decide)), State.fld_setRegN_eq, hField]
  · rw [State.fld_setRegN_ne _ _ _ _ _ _ (hNe (by decide)), State.fld_setRegN_eq, hField]

/-- Engine `e` runs command `id` from the code of `entry`. -/
def Runs (t : State) (id : Nat × Nat) (entry : List Byte) (e : Fin 8) : Prop :=
  t.eng[e].cmd = some id ∧ t.eng[e].state = .running ∧
    t.eng[e].pc = BitVec.ofNat 64 (Config.codeBase entry * 64 % 2 ^ 26 + Config.codeEntry entry * 8 % 2 ^ 26)

theorem runs_congr {s t : State} {id : Nat × Nat} {entry : List Byte} {e : Fin 8} (h : t.eng[e] = s.eng[e]) (hs : Runs s id entry e) :
    Runs t id entry e := by
  unfold Runs; rw [h]; exact hs

/-- A launched engine runs its command; the other engines and the accepted commands stay. -/
theorem launch_does (s : State) (e : Fin 8) (id : Nat × Nat) (j : Job) (entry ctx : List Byte) (step : Nat) :
    let t := (s.toIdle e).launch e id j entry ctx step
    Runs t id entry e ∧ t.cmds = s.cmds ∧ ∀ i, i ≠ e → t.eng[i] = s.eng[i] := by
  intro t
  obtain ⟨hBase, hEntry⟩ := prepared_code (s.toIdle e) e j entry ctx step
  have hStores := prepared_stores (s.toIdle e) e j entry ctx step
  have ht : t = _ := launch_eq (s.toIdle e) e id j entry ctx step
  generalize (s.toIdle e).prepared e j entry ctx step = z at *
  obtain ⟨hRunning, -, hPc, -⟩ := startEng_does z e
  rw [hBase, hEntry] at hPc
  rw [ht]
  refine ⟨?_, hStores.cmds, fun i hi => ?_⟩
  · unfold Runs
    rw [State.modEng_get]
    exact ⟨rfl, hRunning, hPc⟩
  · rw [State.modEng_get_ne _ _ _ _ hi]
    unfold State.startEng
    rw [State.modEng_get_ne _ _ _ _ hi, eng_congr hStores.eng]
    unfold State.wakeEng State.toIdle
    rw [State.modEng_get_ne _ _ _ _ hi, State.modEng_get_ne _ _ _ _ hi]

/-- Engines launched one after another. -/
theorem launches_do (id : Nat × Nat) (j : Job) (entry ctx : List Byte) (step : Nat) : ∀ (es : List (Fin 8)) (s : State), es.Nodup →
    let t := es.foldl (fun t e => (t.toIdle e).launch e id j entry ctx step) s
    (∀ e ∈ es, Runs t id entry e) ∧ t.cmds = s.cmds ∧ ∀ i, i ∉ es → t.eng[i] = s.eng[i]
  | [], _, _ => ⟨fun _ h => (nomatch h), rfl, fun _ _ => rfl⟩
  | e :: es, s, hNodup => by
    obtain ⟨hNot, hRest⟩ := List.nodup_cons.mp hNodup
    obtain ⟨hRuns, hCmds, hOthers⟩ := launch_does s e id j entry ctx step
    obtain ⟨hRunsAll, hCmdsAll, hOthersAll⟩ := launches_do id j entry ctx step es ((s.toIdle e).launch e id j entry ctx step) hRest
    refine ⟨fun i hi => ?_, hCmdsAll.trans hCmds, fun i hi => ?_⟩
    · rcases List.mem_cons.mp hi with rfl | hi
      · exact runs_congr (hOthersAll _ hNot) hRuns
      · exact hRunsAll i hi
    · obtain ⟨hNe, hMem⟩ := not_or.mp (fun h => hi (List.mem_cons.mpr h))
      exact (hOthersAll i hMem).trans (hOthers i hNe)

/-! ### Starting a job command -/

/-- From `s` to `t` only registers and the fabric have changed. -/
def RegsAndFab (s t : State) : Prop := ∃ r f, t = { s with regs := r, fab := f }

namespace RegsAndFab

theorem refl (s : State) : RegsAndFab s s := ⟨_, _, rfl⟩

variable {s t u : State}

theorem trans (h : RegsAndFab s t) (k : RegsAndFab t u) : RegsAndFab s u := by
  obtain ⟨_, _, rfl⟩ := h
  obtain ⟨_, _, rfl⟩ := k
  exact ⟨_, _, rfl⟩

theorem of_regs (h : OnlyRegs s t) : RegsAndFab s t := by
  obtain ⟨r, rfl⟩ := h
  exact ⟨_, _, rfl⟩

theorem eng (h : RegsAndFab s t) : t.eng = s.eng := by obtain ⟨_, _, rfl⟩ := h; rfl

theorem cmds (h : RegsAndFab s t) : t.cmds = s.cmds := by obtain ⟨_, _, rfl⟩ := h; rfl

end RegsAndFab

theorem regsAndFab_dropHeld (s : State) (u stream : Nat) : RegsAndFab s (s.dropHeld u stream) := by
  unfold State.dropHeld
  extract_lets out window s1
  obtain ⟨f, hf⟩ := (failItems_does (s.ownChain * 256 + u) 6 out s1).1.form
  exact ⟨s.regs, f, hf⟩

theorem regsAndFab_deregister (s : State) (u k : Nat) : RegsAndFab s (s.deregister u k) :=
  (RegsAndFab.of_regs (onlyRegs_setFld s _ _ _ _)).trans (regsAndFab_dropHeld _ _ _)

/-- Rewinding the ordered streams of a re-run changes registers and the fabric (R68). -/
theorem regsAndFab_rewindOrdered (s : State) (c : Cmd) : RegsAndFab s (s.rewindOrdered c) := by
  unfold State.rewindOrdered
  generalize c.fadds = l
  induction l generalizing s with
  | nil => exact RegsAndFab.refl s
  | cons x l ih =>
    rw [List.foldl_cons]
    refine RegsAndFab.trans ?_ (ih _)
    dsimp only
    split
    · exact RegsAndFab.refl s
    · split
      · exact ((regsAndFab_deregister s _ _).trans (RegsAndFab.of_regs (onlyRegs_setFld _ _ _ _ _))).trans
          (RegsAndFab.of_regs (onlyRegs_setFld _ _ _ _ _))
      · exact RegsAndFab.refl s

theorem startEngines_nodup (q : Part) (entry : List Byte) : (q.startEngines entry).Nodup := (List.nodup_finRange 8).filter _

/-- The picked command runs on the engines that its entry names, and the other engines stay (R389). -/
theorem startCmd_does {s : State} {q : Part} {j : Job} {c : Cmd} {dyn : Bool} (hSelf : s.cmdOf c.id = some c) :
    let t := s.startCmd q j c dyn
    (t.cmdOf c.id).map (·.phase) = some .running ∧ (∀ e ∈ q.startEngines (s.entryOf c), Runs t c.id (s.entryOf c) e) ∧
    ∀ e : Fin 8, e ∉ q.startEngines (s.entryOf c) → t.eng[e] = s.eng[e] := by
  intro t
  unfold t State.startCmd
  extract_lets entry step s1 ctx s2 s3 s4
  have hRewind : RegsAndFab s s1 := by
    unfold s1
    split
    · exact regsAndFab_rewindOrdered s c
    · exact RegsAndFab.refl s
  obtain ⟨hRuns, hCmds, hOthers⟩ := launches_do c.id j entry ctx step (q.startEngines entry) s2 (startEngines_nodup q entry)
  have hPhase : (s2.cmdOf c.id).map (·.phase) = some .running := by
    unfold s2
    rw [cmdOf_modCmd s1 c.id, cmdOf_congr hRewind.cmds, hSelf]
    · rfl
    · exact fun _ => rfl
    · exact fun _ => rfl
  have hEng2 : s2.eng = s.eng := (State.modCmd_eng _ _ _).trans hRewind.eng
  have hLast : ∀ u : State, u.eng = s3.eng → u.cmds = s3.cmds → (u.cmdOf c.id).map (·.phase) = some .running ∧
      (∀ e ∈ q.startEngines entry, Runs u c.id entry e) ∧ ∀ e : Fin 8, e ∉ q.startEngines entry → u.eng[e] = s.eng[e] := by
    intro u hEng hCmds3
    refine ⟨?_, fun e he => runs_congr (eng_congr hEng e) (hRuns e he), fun e he => ?_⟩
    · rw [cmdOf_congr (hCmds3.trans hCmds)]; exact hPhase
    · exact (eng_congr hEng e).trans ((hOthers e he).trans (eng_congr hEng2 e))
  split
  · have hDyn := onlyRegs_dynChoice s4 c.partNo
    exact hLast _ hDyn.eng hDyn.cmds
  · exact hLast s4 rfl rfl

theorem preempt_idle {s : State} {p : Nat} (h : s.runningJob p = none) : s.preempt p = s := by
  unfold State.preempt
  split
  · rw [h]
  · rfl

theorem commandStart_starts {s : State} {p : Fin 8} {q : Part} {j : Job} {c : Cmd} {dyn : Bool} (hIdle : s.runningJob p.val = none)
    (hPart : s.parts[p] = some q) (hJob : s.pickJob p.val = some j) (hPick : s.pickCmd q j = some (c, dyn))
    (hMay : s.mayStart q (q.startEngines (s.entryOf c)) (s.entryOf c) = true) (hFull : s.fullIf = true) :
    exec (.commandStart p) s = .next (s.startCmd q j c dyn) := by
  rw [exec_commandStart]
  unfold execCommandStart
  dsimp only
  rw [preempt_idle hIdle, hPart]
  dsimp only
  rw [hJob]
  dsimp only
  rw [hPick]
  dsimp only
  rw [if_pos ⟨hMay, hFull⟩]

/-! ### Committing a job command (R391, R412) -/

theorem jobAt_modJob (s : State) {p k : Nat} {f : Job → Job} (hPart : ∀ x, (f x).part = x.part) (hSlot : ∀ x, (f x).slot = x.slot) :
    (s.modJob p k f).jobAt p k = (s.jobAt p k).map f := by
  unfold State.jobAt State.modJob
  dsimp only
  induction s.jobs with
  | nil => rfl
  | cons x xs ih =>
    rw [List.map_cons]
    by_cases hx : x.part = p ∧ x.slot = k
    · rw [if_pos hx, List.find?_cons_of_pos (by simp [hPart, hSlot, hx]), List.find?_cons_of_pos (by simp [hx])]
      rfl
    · have hNot : (decide (x.part = p) && decide (x.slot = k)) = false := by rw [← Bool.decide_and]; exact decide_eq_false hx
      rw [if_neg hx, List.find?_cons_of_neg (by simp [hNot]), List.find?_cons_of_neg (by simp [hNot]), ih]

theorem jobAt_of_jobOf {s : State} {c : Cmd} {j : Job} (h : s.jobOf c = some j) : s.jobAt j.part j.slot = some j := by
  have hFound := List.find?_some h
  simp only [Bool.and_eq_true, decide_eq_true_iff] at hFound
  unfold State.jobOf at h
  rw [hFound.1, hFound.2]
  exact h

/-- Engines freed of their command: nothing but engines changes, and each of them has none. -/
theorem freeEngines_do : ∀ (es : List (Fin 8)) (s : State),
    let t := es.foldl (fun (t : State) e => t.modEng e fun en => { en with cmd := none, ended := false }) s
    (∃ v, t = { s with eng := v }) ∧ ∀ e : Fin 8, e ∈ es ∨ s.eng[e].cmd = none → t.eng[e].cmd = none
  | [], s => ⟨⟨s.eng, rfl⟩, fun _ h => h.resolve_left fun hx => nomatch hx⟩
  | i :: es, s => by
    obtain ⟨⟨v, hv⟩, hFree⟩ := freeEngines_do es (s.modEng i fun en => { en with cmd := none, ended := false })
    refine ⟨⟨v, hv⟩, fun e he => hFree e ?_⟩
    by_cases hi : e = i
    · subst hi; exact .inr (by rw [State.modEng_get])
    · rw [State.modEng_get_ne _ _ _ _ hi]
      exact he.imp_left fun h => (List.mem_cons.mp h).resolve_left hi

/-- The DIGEST record of a commit that is not replayed. -/
theorem stores_digest (s : State) (p job pair seq step digest dyn : Nat) : Stores s (s.digest false p job pair seq step digest dyn) := by
  unfold State.digest
  rw [if_neg Bool.false_ne_true]
  split
  · exact stores_journal s _ _ _ _ _
  · exact Stores.refl s

theorem ends_of_stores {s t u : State} {c : Cmd} {status detail value : Nat} (h : Ends s t c status detail value) (hCompletions : u.completions = t.completions)
    (hCmds : u.cmds = t.cmds) (hNext : u.ledger.next = t.ledger.next) : Ends s u c status detail value :=
  ⟨hCompletions.trans h.one, (congrArg _ (cmdOf_congr hCmds _)).trans h.done, hNext ▸ h.lseq⟩

/-- A command that has ended commits with its job's new step and selectors, and its engines are free (R391, R412). -/
theorem commitCmd_does {s : State} {j : Job} {c : Cmd} (hJob : s.jobOf c = some j) (hSelf : s.cmdOf c.id = some c) (hPhase : c.phase ≠ .done)
    (hLive : c.replay = false) (hUp : s.ledger.up = true) :
    Ends s (s.commitCmd j c) c (if s.nonfinite (s.cmdEngines c.id) then 5 else 0) 0 (c.reruns2 % 2 ^ 32) ∧
    ((s.commitCmd j c).jobAt j.part j.slot).map (fun x => (x.step, x.sel)) = some ((j.step + 1) % 2 ^ 64, j.sel ^^^ fieldLE (s.entryOf c) 4 4) ∧
    ∀ e : Fin 8, s.eng[e].cmd = some c.id → (s.commitCmd j c).eng[e].cmd = none := by
  unfold State.commitCmd
  rw [hLive]
  extract_lets es st sel step dig dyn s1 s2 s3
  obtain ⟨hEnds, l, cs, ks, hs1⟩ := finish_ends st 0 c.reruns2 (toLE 8 step ++ toLE 4 sel ++ toLE 4 dig ++ toLE 8 dyn) hSelf hLive hPhase hUp
  obtain ⟨⟨v, hs3⟩, hFree⟩ := freeEngines_do es s2
  have hDigest := stores_digest s3 j.part j.slot (c.pair % 0x8000) c.seq c.step0 dig dyn
  generalize s3.digest false j.part j.slot (c.pair % 0x8000) c.seq c.step0 dig dyn = t at *
  have hs3' : s3 = { s2 with eng := v } := hs3
  have hEng : s1.eng = s.eng := (congrArg State.eng hs1 : _)
  have hJobs : s1.jobs = s.jobs := (congrArg State.jobs hs1 : _)
  refine ⟨ends_of_stores hEnds ?_ ?_ ?_, ?_, fun e he => ?_⟩
  · rw [hDigest.completions, hs3']; rfl
  · rw [hDigest.cmds, hs3']; rfl
  · rw [hDigest.next, hs3']; rfl
  · have hAt : t.jobAt j.part j.slot = s2.jobAt j.part j.slot := by
      unfold State.jobAt; rw [hDigest.jobs, hs3']
    have hAt1 : s1.jobAt j.part j.slot = some j := by
      unfold State.jobAt; rw [hJobs]; exact jobAt_of_jobOf hJob
    rw [hAt]
    unfold s2
    rw [jobAt_modJob s1, hAt1]
    · rfl
    · exact fun _ => rfl
    · exact fun _ => rfl
  · rw [eng_congr hDigest.eng]
    exact hFree e (.inl (List.mem_filter.mpr ⟨List.mem_finRange e, decide_eq_true he⟩))

/-- A command that has ended runs, so it has no outcome yet. -/
theorem notDone_of_ended {s : State} {p : Nat} {c : Cmd}
    (h : (decide (c.op = 0x13) && decide (c.part = p) && s.cmdEnded c && !(s.mustHold c)) = true) : c.phase ≠ .done := by
  unfold State.cmdEnded at h
  simp only [Bool.and_eq_true, decide_eq_true_iff] at h
  obtain ⟨⟨-, ⟨hRunning, -⟩, -⟩, -⟩ := h
  rw [hRunning]
  decide

theorem commandCommit_commits {s : State} {p : Fin 8} {j : Job} {c : Cmd}
    (hFirst : s.cmds.find? (fun c => decide (c.op = 0x13) && decide (c.part = p.val) && s.cmdEnded c && !(s.mustHold c)) = some c)
    (hJob : s.jobOf c = some j) (hUp : s.ledger.up = true) : exec (.commandCommit p) s = .next (s.commitCmd j c) := by
  rw [exec_commandCommit]
  unfold execCommandCommit
  rw [hFirst]
  dsimp only
  rw [hJob]
  dsimp only
  rw [if_pos hUp]

/-- Settles O37: the picked command is launched engine by engine, and the command found to have ended is finished, then its job and engines. -/
theorem jobCommandsStartAndCommit : Obligations.JobCommandsStartAndCommit := by
  refine fun p s => ⟨fun q j c dyn hIdle hPart hJob hPick hSelf hMay hFull => ?_, fun j c hFirst hJob hSelf hLive hUp => ?_⟩
  · exact ⟨_, commandStart_starts hIdle hPart hJob hPick hMay hFull, startCmd_does hSelf⟩
  · have hFound := List.find?_some hFirst
    unfold State.cmdEnded at hFound
    simp only [Bool.and_eq_true, decide_eq_true_iff] at hFound
    have hPhase : c.phase ≠ .done := by rw [hFound.1.2.1.1]; decide
    exact ⟨_, commandCommit_commits hFirst hJob hUp, commitCmd_does hJob hSelf hPhase hLive hUp⟩

end Sys2Proof.Machine
end

section
/-! SUPPORT. Registers that the anchor clears: the counts of every unit, the flags of the arrays, and the entries of the pair table
(R176, R177, R185, R204, R231, R280, R335, R461, R490, R507, R521). -/
namespace Sys2Proof.Machine

@[simp] theorem State.wakeEng_reg (s : State) (e : Fin 8) (a : Nat) : (s.wakeEng e).reg a = s.reg a := rfl

@[simp] theorem State.wakeEng_regN (s : State) (e : Fin 8) (a : Nat) : (s.wakeEng e).regN a = s.regN a := rfl

/-! ### Counts (R177, R204, R231, R280, R335, R461, R490, R507, R521) -/

/-- Registers `ks` zeroed in a state `u` that reads as `s` does. -/
theorem clearsOnly_of_zeros {s u : State} {c : Instr} {ks : List Nat} (hExec : exec c s = .next (ks.foldl (fun t k => t.setRegN k 0) u))
    (hReg : ∀ k, u.regN k = s.regN k) (hBytes : SameBytes s u) : ClearsOnly s c ks :=
  ⟨_, hExec, fun k => by rw [regN_zeros, hReg], hBytes.trans (sameBytes_zeros ks u)⟩

/-- A clear of counts of a present engine. -/
theorem clearsOnly_engine {s : State} {e : Fin 8} {c : Instr} {o : Nat} {f : State → State} {ks : List Nat}
    (hExec : exec c s = .next (anchorWrite 0x60 e o f s)) (hOn : s.engPresent e = true)
    (hClear : ∀ t, f t = ks.foldl (fun t k => t.setRegN k 0) t) : ClearsOnly s c ks :=
  clearsOnly_of_zeros (u := s.wakeEng e) (by rw [hExec, anchorWrite_anchor s e o f hOn, hClear]) (fun _ => rfl) (sameBytes_wakeEng s e)

/-- A clear of counts of a unit that answers the anchor. -/
theorem clearsOnly_unit {s : State} {u : Nat} {c : Instr} {o : Nat} {f : State → State} {ks : List Nat}
    (hExec : exec c s = .next (anchorReg (0x60 : BitVec 8).toNat u o f s)) (hOn : s.unitCause u 0x60 = 0)
    (hClear : ∀ t, f t = ks.foldl (fun t k => t.setRegN k 0) t) : ClearsOnly s c ks :=
  clearsOnly_of_zeros (u := s.reach u) (by rw [hExec, anchorReg_anchor s u o f hOn, hClear]) (fun k => reach_regN s u k) (sameBytes_reach s u)

/-- The fields of a value written to ARR_CLR: ARRAY in [5:0], ALL, CLAMP and FLAGS in bits 6, 7 and 8 (Table 5.8). -/
theorem arrClr_fields (all clamp flags : Bool) (a : Fin 64) :
    let v := a.val + 64 * b2n all + 128 * b2n clamp + 256 * b2n flags
    v % 64 = a.val ∧ bit v 6 = all ∧ bit v 7 = clamp ∧ bit v 8 = flags := by
  unfold bit
  simp only [Nat.testBit_eq_decide_div_mod_eq]
  cases all <;> cases clamp <;> cases flags <;> simp [b2n] <;> omega

theorem arrClr_clamp (s : State) (e : Fin 8) (all : Bool) (a : Fin 64) :
    s.arrClr e (a.val + 64 * b2n all + 128) = s.clrClamp e (clrArrays all a.val) := by
  obtain ⟨hArray, hAll, hClamp, hFlags⟩ := arrClr_fields all true false a
  unfold State.arrClr
  rw [show a.val + 64 * b2n all + 128 = a.val + 64 * b2n all + 128 * b2n true + 256 * b2n false from rfl, hArray, hAll, hClamp, hFlags]
  rfl

theorem arrClr_flags (s : State) (e : Fin 8) (all : Bool) (a : Fin 64) :
    s.arrClr e (a.val + 64 * b2n all + 256) = s.clrFlags e (clrArrays all a.val) := by
  obtain ⟨hArray, hAll, hClamp, hFlags⟩ := arrClr_fields all false true a
  unfold State.arrClr
  rw [show a.val + 64 * b2n all + 256 = a.val + 64 * b2n all + 128 * b2n false + 256 * b2n true from rfl, hArray, hAll, hClamp, hFlags]
  rfl

theorem arrKey_add (e : Fin 8) (a o : Nat) : arrKey e a + o = key e (CTU + 0x10000 + 16 * a + o) := Nat.add_assoc _ _ _

theorem clrClamp_zeros (s : State) (e : Fin 8) (as : List Nat) :
    s.clrClamp e as = (as.map fun a => key e (CTU + 0x10000 + 16 * a + 8)).foldl (fun t k => t.setRegN k 0) s := by
  rw [List.foldl_map]
  unfold State.clrClamp
  simp only [arrKey_add]

theorem modClr_zeros (s : State) :
    s.modClr = (key 0x31 (CTU + 8) :: (List.range 8).flatMap fun c => [chKey c 0x30, chKey c 0x34]).foldl (fun t k => t.setRegN k 0) s := by
  rw [List.foldl_cons, List.foldl_flatMap]
  rfl

/-- Settles O15: each clear, as the anchor's write of a register of a unit that answers, sets its list of counts to 0 one by one. -/
theorem counterClearsZeroTheCountsAlone : Obligations.CounterClearsZeroTheCountsAlone := by
  refine fun s => ⟨fun e hOn => ⟨fun all a => ?_, ?_, ?_, ?_⟩, fun f hOn => ?_, fun u hOn hRow => ?_, fun p hOn => ?_, fun p hOn => ?_,
    fun hOn => ?_⟩
  · exact clearsOnly_engine (exec_arrClrClamp _ e all a s) hOn fun t => (arrClr_clamp t e all a).trans (clrClamp_zeros t e _)
  · exact clearsOnly_engine (exec_vecQntClr _ e s) hOn fun _ => rfl
  · exact clearsOnly_engine (exec_vecCntClr _ e s) hOn fun _ => rfl
  · exact clearsOnly_engine (exec_prismCntClr _ e s) hOn fun _ => rfl
  · exact clearsOnly_unit (exec_fctCntClr _ f s) hOn fun _ => rfl
  · refine clearsOnly_unit (o := CTL + 0x100) (f := fun t => t.eccClr u.toNat) ?_ hOn fun _ => rfl
    rw [exec_eccCntClr, execEccCntClr, if_neg hRow]
  · exact clearsOnly_unit (exec_fhCntClr _ p s) hOn fun t => by rw [List.foldl_map]; rfl
  · exact clearsOnly_unit (exec_brvCntClr _ p s) hOn fun _ => rfl
  · exact clearsOnly_unit (exec_modCntClr _ s) hOn modClr_zeros

/-! ### Flags of the arrays (R176) -/

/-- Clearing bits 0 and 1 of a register. -/
theorem setBits_flags (n : Nat) : setBits (setBits n 0 0 0) 1 1 0 = n / 4 * 4 := by
  unfold setBits
  omega

theorem regN_clearFlags (s : State) (k b : Nat) :
    ((s.setFld k 0 0 0).setFld k 1 1 0).regN b = if b = k then s.regN b / 4 * 4 else s.regN b := by
  rw [State.regN_setFld _ _ _ _ _ _ (by decide) (by decide), State.regN_setFld _ _ _ _ _ _ (by decide) (by decide),
    State.regN_setFld _ _ _ _ _ _ (by decide) (by decide), if_pos rfl, setBits_flags]
  by_cases h : b = k
  · rw [if_pos h, if_pos h, h]
  · rw [if_neg h, if_neg h, if_neg h]

/-- ARR_a_STATUS and ARR_a_NF_POS of two arrays are different registers. -/
theorem arrKey_ne_nfPos (e : Fin 8) (a c : Nat) : arrKey e a ≠ arrKey e c + 4 := by
  unfold arrKey key
  omega

/-- The flags and positions of the arrays `as` are clear and every other register is as before (R176). -/
theorem regN_clrFlags (e : Fin 8) : ∀ (as : List Nat) (s : State) (b : Nat), (s.clrFlags e as).regN b =
    if b ∈ as.map (fun a => arrKey e a + 4) then 0 else if b ∈ as.map (arrKey e) then s.regN b / 4 * 4 else s.regN b
  | [], s, b => rfl
  | a :: as, s, b => by
    have hCons : s.clrFlags e (a :: as) = (((s.setFld (arrKey e a) 0 0 0).setFld (arrKey e a) 1 1 0).setRegN (arrKey e a + 4) 0).clrFlags e as := rfl
    rw [hCons, regN_clrFlags e as, State.regN_setRegN, regN_clearFlags]
    simp only [List.map_cons, List.mem_cons]
    by_cases hPos : b = arrKey e a + 4
    · simp [hPos]
    · by_cases hFlag : b = arrKey e a
      · have hNot : ∀ c, arrKey e a ≠ arrKey e c + 4 := arrKey_ne_nfPos e a
        have hTwice : s.regN (arrKey e a) / 4 * 4 / 4 = s.regN (arrKey e a) / 4 := Nat.mul_div_cancel _ (by decide)
        simp [hFlag, hNot, hTwice, eq_comm]
      · simp [hPos, hFlag]

theorem sameBytes_clrFlags (e : Fin 8) : ∀ (as : List Nat) (s : State), SameBytes s (s.clrFlags e as)
  | [], s => SameBytes.refl s
  | _ :: as, s => ((sameBytes_setFld s _ _ _ _).trans ((sameBytes_setFld _ _ _ _ _).trans (sameBytes_setRegN _ _ _))).trans
      (sameBytes_clrFlags e as _)

/-! ### Entries of the pair table (R184, R185) -/

/-- HALTED, bit 19, cleared in a written value. -/
theorem clear_halted (v : Reg32) : BitVec.ofNat 32 (setBits v.toNat 19 19 0) = v &&& 0xFFF7FFFF := by
  have hMask : ∀ i < 32, (0xFFF7FFFF : Reg32).getLsbD i = decide (i ≠ 19) := by decide
  apply BitVec.eq_of_getLsbD_eq
  intro i hi
  rw [BitVec.getLsbD_ofNat, testBit_setBits _ _ _ _ _ (by decide), BitVec.getLsbD_and, hMask i hi]
  by_cases h : i = 19
  · simp [h]
  · rw [if_neg (by omega)]
    simp [h, hi, BitVec.getLsbD]

theorem pairCtl_reg (s : State) (e : Fin 8) (n : Nat) (v : Reg32) (b : Nat) :
    (s.pairCtl e n v.toNat).reg b = if b = key e (CTU + 0x304 + 8 * n) then v &&& 0xFFF7FFFF else s.reg b := by
  unfold State.pairCtl
  rw [State.modEng_reg, ← clear_halted]
  exact State.reg_setReg _ _ _ _

theorem pairCtl_ranks (s : State) (e : Fin 8) (n v k : Nat) : Sparse.get (fun _ => 0) (s.pairCtl e n v).eng[e].ranks k =
    if k = 2 * n ∨ k = 2 * n + 1 then 0 else Sparse.get (fun _ => 0) s.eng[e].ranks k := by
  unfold State.pairCtl
  rw [State.modEng_get]
  dsimp only
  rw [Sparse.get_set, Sparse.get_set, State.setRegN_eng]
  by_cases hScale : k = 2 * n + 1
  · rw [if_pos hScale, if_pos (.inr hScale)]
  · rw [if_neg hScale]
    simp only [hScale, or_false]

theorem pairCtl_others (s : State) {e j : Fin 8} (n v : Nat) (hj : j ≠ e) : (s.pairCtl e n v).eng[j] = s.eng[j] := by
  unfold State.pairCtl
  rw [State.modEng_get_ne _ _ _ _ hj, State.setRegN_eng]

theorem sameBytes_pairCtl (s : State) (e : Fin 8) (n v : Nat) : SameBytes s (s.pairCtl e n v) := by
  unfold State.pairCtl
  exact (sameBytes_setRegN s _ _).trans (sameBytes_modEng _ e _)

/-- Settles O18: the anchor's write reaches the engine, whose flags or pair-table entry alone it changes. -/
theorem arrayFlagClearsAndPairTableWrites : Obligations.ArrayFlagClearsAndPairTableWrites := by
  intro e s hOn
  have hWake := sameBytes_wakeEng s e
  refine ⟨fun all a => ⟨(s.wakeEng e).clrFlags e (clrArrays all a.val), ?_, hWake.trans (sameBytes_clrFlags e _ _), fun b => ?_⟩,
    fun n v => ⟨(s.wakeEng e).pairCtl e n.val v.toNat, ?_, hWake.trans (sameBytes_pairCtl _ e _ _), fun b => ?_, fun k => ?_, fun j hj => ?_⟩⟩
  · rw [exec_arrClrFlags, execArrClrFlags, anchorWrite_anchor s e _ _ hOn, arrClr_flags]
  · rw [regN_clrFlags]
    simp only [arrKey_add, State.wakeEng_regN]
    unfold clrArrays arrKey
    rfl
  · rw [exec_pairCtlWrite, execPairCtlWrite, anchorWrite_anchor s e _ _ hOn]
  · rw [pairCtl_reg, State.wakeEng_reg]
  · rw [pairCtl_ranks, wakeEng_get]
  · rw [pairCtl_others _ _ _ hj]
    exact State.modEng_get_ne _ _ _ _ hj

end Sys2Proof.Machine
end

section
/-! SUPPORT. MATMUL and DRAIN in a state with no bad code bit and no armed injection: every row runs, and only result bytes change
(R151, R159, R164, R167, R168, R171, R175). -/
namespace Sys2Proof.Machine

/-! ### Address ranges -/

/-- Address `c` lies in one of the ranges `w`. -/
def Covers (w : List (Nat × Nat)) (c : Nat) : Prop := ∃ r ∈ w, r.1 ≤ c ∧ c < r.1 + r.2

/-- Every address of [a, a + n) lies in one of the ranges `w`. -/
def Within (w : List (Nat × Nat)) (a n : Nat) : Prop := ∀ c, a ≤ c → c < a + n → Covers w c

theorem within_of_mem {w : List (Nat × Nat)} {r : Nat × Nat} {a n : Nat} (h : r ∈ w) (hLow : r.1 ≤ a) (hHigh : a + n ≤ r.1 + r.2) : Within w a n :=
  fun _ _ _ => ⟨r, h, by omega, by omega⟩

theorem Within.append {w : List (Nat × Nat)} {a k n : Nat} (h : Within w a k) (hNext : Within w (a + k) n) : Within w a (k + n) := by
  intro c hLow hHigh
  by_cases hc : c < a + k
  · exact h c hLow hc
  · exact hNext c (by omega) (by omega)

/-- Merging stores into runs adds no address. -/
theorem mergeRuns_within {w : List (Nat × Nat)} : ∀ {l : List (Nat × List Byte)}, (∀ x ∈ l, Within w x.1 x.2.length) →
    ∀ x ∈ mergeRuns l, Within w x.1 x.2.length
  | [], _ => fun _ hx => nomatch hx
  | (a, bs) :: r, h => by
    obtain ⟨hHead, hTail⟩ := List.forall_mem_cons.mp h
    have hRest := mergeRuns_within hTail
    unfold mergeRuns
    split
    · next b cs t hMerged =>
      rw [hMerged] at hRest
      obtain ⟨hNext, hAfter⟩ := List.forall_mem_cons.mp hRest
      split
      · next hMeet =>
        refine List.forall_mem_cons.mpr ⟨?_, hAfter⟩
        dsimp only
        rw [List.length_append]
        exact hHead.append (hMeet.1 ▸ hNext)
      · exact List.forall_mem_cons.mpr ⟨hHead, hRest⟩
    · exact List.forall_mem_cons.mpr ⟨hHead, fun _ hx => nomatch hx⟩

/-! ### Runs of array rows -/

/-- From `s` to the clean state `t` rows of the arrays of engine `e` have run: no byte outside the ranges `w`, no queue, no descriptor in
progress, no other engine and no byte of host memory has changed. -/
structure ArrayRun (e : Fin 8) (w : List (Nat × Nat)) (s t : State) : Prop where
  clean : t.clean
  queue : t.eng[e].queue = s.eng[e].queue
  started : t.eng[e].started = s.eng[e].started
  others : ∀ j, j ≠ e → t.eng[j] = s.eng[j]
  host : t.host = s.host
  bytes : ∀ c, ¬ Covers w c → t.byte c = s.byte c

/-- A run that no poisoned block has stopped. -/
def RunsOn (e : Fin 8) (w : List (Nat × Nat)) (s : State) (r : State × Bool) : Prop := r.2 = true ∧ ArrayRun e w s r.1

section
variable {e : Fin 8} {w : List (Nat × Nat)} {s t u : State}

theorem ArrayRun.refl (hc : s.clean) : ArrayRun e w s s := ⟨hc, rfl, rfl, fun _ _ => rfl, rfl, fun _ _ => rfl⟩

theorem ArrayRun.trans (h : ArrayRun e w s t) (k : ArrayRun e w t u) : ArrayRun e w s u where
  clean := k.clean
  queue := k.queue.trans h.queue
  started := k.started.trans h.started
  others := fun j hj => (k.others j hj).trans (h.others j hj)
  host := k.host.trans h.host
  bytes := fun c hc => (k.bytes c hc).trans (h.bytes c hc)

theorem arrayRun_setRegN (hc : s.clean) (a v : Nat) (ha : a % 2 ^ 52 ≠ CTL + 0x11C) : ArrayRun e w s (s.setRegN a v) :=
  ⟨clean_setRegN hc a v ha, rfl, rfl, fun _ _ => rfl, rfl, fun c _ => (sameBytes_setRegN s a v).1 c⟩

theorem arrayRun_tiles (hc : s.clean) (f : Engine → List (Nat × Option Tile)) :
    ArrayRun e w s (s.modEng e fun en => { en with tiles := f en }) where
  clean := clean_modEng hc e _
  queue := by rw [State.modEng_get]
  started := by rw [State.modEng_get]
  others := fun j hj => State.modEng_get_ne s e j _ hj
  host := rfl
  bytes := fun c _ => (sameBytes_modEng s e _).1 c

theorem runsOn_write (hc : s.clean) {a : Nat} {bs : List Byte} (h : Within w a bs.length) : RunsOn e w s (s.write a bs) := by
  rw [write_of_clean hc]
  refine ⟨rfl, clean_mem hc _, rfl, rfl, fun _ _ => rfl, rfl, fun c hOut => ?_⟩
  rw [putBytes_byte_clean hc, if_neg fun hIn => hOut (h c hIn.1 hIn.2)]

theorem runsOn_storeAll : ∀ {l : List (Nat × List Byte)} {s : State}, s.clean → (∀ x ∈ l, Within w x.1 x.2.length) →
    RunsOn e w s (s.storeAll l)
  | [], _, hc, _ => ⟨rfl, ArrayRun.refl hc⟩
  | x :: l, s, hc, h => by
    obtain ⟨hHead, hTail⟩ := List.forall_mem_cons.mp h
    obtain ⟨hOk, hRun⟩ := runsOn_write (e := e) hc hHead
    unfold State.storeAll
    split
    · next s1 hWrite =>
      rw [hWrite] at hRun
      obtain ⟨hOks, hRuns⟩ := runsOn_storeAll hRun.clean hTail
      exact ⟨hOks, hRun.trans hRuns⟩
    · next s1 hWrite => rw [hWrite] at hOk; cases hOk

/-- Steps that each run on run on together. -/
theorem runsOn_foldl {β : Type} {l : List β} {f : State × Bool → β → State × Bool} (hc : s.clean)
    (h : ∀ t, ArrayRun e w s t → ∀ x ∈ l, RunsOn e w t (f (t, true) x)) : RunsOn e w s (l.foldl f (s, true)) := by
  refine List.foldlRecOn l f (motive := RunsOn e w s) ⟨rfl, ArrayRun.refl hc⟩ ?_
  rintro ⟨t, ok⟩ ⟨hOk, hRun⟩ x hx
  cases hOk
  obtain ⟨hNext, hStep⟩ := h t hRun x hx
  exact ⟨hNext, hRun.trans hStep⟩

theorem checkAll_of_clean (hc : s.clean) : ∀ l, s.checkAll l = (s, true)
  | [] => rfl
  | r :: l => by
    unfold State.checkAll
    rw [check_of_clean hc]
    exact checkAll_of_clean hc l

/-! ### Flags and counts of an array (R130, R141, R176) -/

theorem arrayOf_lt {mask a : Nat} (h : a ∈ arraysOf mask) : a < 64 := List.mem_range.mp (List.mem_filter.mp h).1

/-- No register of an array is the injection register. -/
theorem arrKey_mod (e : Fin 8) {a o : Nat} (ha : a < 64) (ho : o < 16) : (arrKey e a + o) % 2 ^ 52 ≠ CTL + 0x11C := by
  unfold arrKey key CTU CTL
  omega

theorem arrayRun_arrClamp (hc : s.clean) {a : Nat} (ha : a < 64) (n : Nat) : ArrayRun e w s (s.arrClamp e a n) := by
  unfold State.arrClamp
  split
  · exact ArrayRun.refl hc
  · exact arrayRun_setRegN hc _ _ (arrKey_mod e ha (by decide))

theorem arrayRun_arrFlag (hc : s.clean) {a : Nat} (ha : a < 64) (hi lo v : Nat) : ArrayRun e w s (s.setFld (arrKey e a) hi lo v) := by
  have hKey := arrKey_mod e ha (o := 0) (by decide)
  rw [Nat.add_zero] at hKey
  unfold State.setFld
  exact arrayRun_setRegN hc _ _ hKey

theorem arrayRun_arrFlags (hc : s.clean) {a : Nat} (ha : a < 64) (n q : Nat) (int : Bool) (x : ResPart) (r : Nat × Bool) :
    ArrayRun e w s (s.arrFlags e a n q int x r) := by
  unfold State.arrFlags
  split
  · exact arrayRun_arrFlag hc ha _ _ _
  · split
    · unfold State.arrNonfinite
      split
      · exact ArrayRun.refl hc
      · have hFlag : ArrayRun e w s (s.setFld (arrKey e a) 0 0 1) := arrayRun_arrFlag hc ha _ _ _
        exact hFlag.trans (arrayRun_setRegN hFlag.clean _ _ (arrKey_mod e ha (by decide)))
    · exact ArrayRun.refl hc

/-! ### Result rows of a MATMUL (R156, R159) -/

/-- Bytes of an accumulator row that one quadrant of a MATMUL writes. -/
def MatD.spanLen (m : MatD) : Nat := if m.mode = 1 then 64 else 128

theorem parts_byte {m : MatD} {p : PairInfo} {t : Tile} {wrecs row : List Byte} {q n : Nat} {x : ResPart} (hx : x ∈ m.parts p t wrecs row q n) :
    (m.place q n).2 ≤ x.byte ∧ x.byte + 4 ≤ (m.place q n).2 + m.spanLen := by
  unfold MatD.parts at hx
  obtain ⟨c, hMem, hPart⟩ := List.mem_flatMap.mp hx
  have hCol : c < m.side := List.mem_range.mp (List.mem_filter.mp hMem).1
  unfold MatD.side at hCol
  unfold MatD.spanLen
  split at hPart
  · next hMode =>
    have hPlace : (m.place q n).2 = 0 := by unfold MatD.place; rw [if_neg (by omega)]
    rw [if_neg (by omega)] at hCol
    rw [hPlace, if_neg (by omega)]
    rcases List.mem_pair.mp hPart with rfl | rfl <;> dsimp only <;> omega
  · rw [List.mem_singleton.mp hPart]
    dsimp only
    split at hCol <;> split <;> omega

/-- The part of an accumulator row that a result row of a quadrant occupies. -/
def MatD.span (m : MatD) (e : Fin 8) (a q n : Nat) : Nat × Nat := (accKey e a (m.place q n).1 (m.place q n).2, m.spanLen)

theorem accKey_add (e : Fin 8) (a r j k : Nat) : accKey e a r (j + k) = accKey e a r j + k := by
  unfold accKey key
  omega

theorem runsOn_matRow {m : MatD} {p : PairInfo} {a n : Nat} {t : Tile} {wrecs rows : List (List Byte)} (hc : s.clean) (ha : a < 64)
    (hSpan : ∀ q < m.quads, m.span e a q n ∈ w) : RunsOn e w s (s.matRow e m p a t wrecs rows n) := by
  unfold State.matRow
  refine runsOn_foldl hc fun s1 hRun q hq => ?_
  split
  · exact ⟨rfl, ArrayRun.refl hRun.clean⟩
  · extract_lets row int xs
    have hStores : RunsOn e w s1 (s1.storeAll (mergeRuns (xs.map fun y => (accKey e a row y.1.byte, toLE 4 y.2.1)))) := by
      refine runsOn_storeAll hRun.clean (mergeRuns_within fun x hx => ?_)
      obtain ⟨y, hy, rfl⟩ := List.mem_map.mp hx
      obtain ⟨part, hPart, rfl⟩ := List.mem_map.mp hy
      obtain ⟨hLow, hHigh⟩ := parts_byte hPart
      obtain ⟨k, hk⟩ := Nat.exists_eq_add_of_le hLow
      refine within_of_mem (hSpan q (List.mem_range.mp hq)) ?_ ?_ <;> dsimp only [MatD.span, row] <;> rw [hk, accKey_add]
      · exact Nat.le_add_right _ _
      · rw [toLE_length]; omega
    obtain ⟨hOk, hStored⟩ := hStores
    split
    · next s2 hs2 => rw [hs2] at hOk; cases hOk
    · next s2 hs2 =>
      rw [hs2] at hStored
      refine ⟨rfl, hStored.trans ?_⟩
      exact List.foldlRecOn xs _ (motive := ArrayRun e w s2) (ArrayRun.refl hStored.clean) fun u hu y _ =>
        hu.trans (arrayRun_arrFlags hu.clean ha n q int y.1 y.2)

/-! ### Output rows of a DRAIN (R167) -/

/-- Output row `r` of the `i`-th selected array. -/
def DrainD.span (d : DrainD) (e : Fin 8) (i r : Nat) : Nat × Nat := (key e (d.daddr + i * d.dstride + r * d.dpitch), d.rowBytes)

theorem rowBytes_of_format {d : DrainD} {f : Fmt} (h : tfmtOf d.tfmt = some f) : d.rowBytes = 32 * (f.width / 8) := by
  unfold DrainD.rowBytes
  rw [h]
  rfl

theorem runsOn_drainRow {d : DrainD} {a i row r : Nat} {scales biases : List Byte} (hc : s.clean) (ha : a < 64) (hSpan : d.span e i r ∈ w) :
    RunsOn e w s (s.drainRow e d a i row r scales biases) := by
  unfold State.drainRow
  split
  · exact ⟨rfl, ArrayRun.refl hc⟩
  · next f hFormat =>
    extract_lets xs
    have hLength : (xs.flatMap fun x => toLE (f.width / 8) x.1).length = d.rowBytes := by
      rw [rowBytes_of_format hFormat, List.length_flatMap]
      simp only [toLE_length, List.map_const', List.sum_replicate, smul_eq_mul]
      rw [List.length_map, List.length_range]
    obtain ⟨hOk, hWritten⟩ := runsOn_write (e := e) hc (within_of_mem hSpan (Nat.le_refl _) (Nat.le_of_eq (congrArg _ hLength)))
    dsimp only [DrainD.span] at hOk hWritten
    split
    · next s1 hs1 => rw [hs1] at hOk; cases hOk
    · next s1 hs1 =>
      rw [hs1] at hWritten
      exact ⟨rfl, hWritten.trans (arrayRun_arrClamp hWritten.clean ha _)⟩

theorem drainVecs_of_clean (hc : s.clean) (d : DrainD) (n : Nat) : ∃ v, s.drainVecs e d n = (s, some v) := by
  unfold State.drainVecs
  rw [read_of_clean hc]
  dsimp only
  rw [read_of_clean hc]
  exact ⟨_, rfl⟩

/-! ### Whole descriptors -/

/-- All rows of a descriptor have run. -/
def RunsAll (e : Fin 8) (w : List (Nat × Nat)) (s : State) (r : State × ArrStop) : Prop := r.2 = .none ∧ ArrayRun e w s r.1

theorem mem_zipIdx_arrays {mask : Nat} {x : Nat × Nat} (h : x ∈ (arraysOf mask).zipIdx) : x.1 < 64 :=
  arrayOf_lt (List.fst_mem_of_mem_zipIdx h)

theorem span_mem_writes {m : MatD} {dr : Option DrainD} {x : Nat × Nat} (hx : x ∈ (arraysOf m.amask).zipIdx) {n q : Nat} (hn : n < m.n)
    (hq : q < m.quads) : m.span e x.1 q n ∈ m.writes e dr :=
  List.mem_flatMap.mpr ⟨x, hx, List.mem_append_left _ (List.mem_flatMap.mpr ⟨n, List.mem_range.mpr hn,
    List.mem_map.mpr ⟨q, List.mem_range.mpr hq, rfl⟩⟩)⟩

theorem drainSpan_mem_writes {m : MatD} {d : DrainD} {x : Nat × Nat} (hx : x ∈ (arraysOf m.amask).zipIdx) {n : Nat} (hn : n < m.n) :
    d.span e x.2 n ∈ m.writes e (some d) :=
  List.mem_flatMap.mpr ⟨x, hx, List.mem_append_right _ (List.mem_map.mpr ⟨n, List.mem_range.mpr hn, rfl⟩)⟩

theorem drainSpan_mem_drainWrites {d : DrainD} {x : Nat × Nat} (hx : x ∈ (arraysOf d.amask).zipIdx) {r : Nat} (hr : r < d.n) :
    d.span e x.2 r ∈ drainWrites e d :=
  List.mem_flatMap.mpr ⟨x, hx, List.mem_map.mpr ⟨r, List.mem_range.mpr hr, rfl⟩⟩

/-- Stationary tiles without scale records load (R150, R182). -/
theorem runsAll_loadTiles {m : MatD} {p : PairInfo} (hRecs : m.xrecs p = 0) : ∀ {l : List (Nat × Nat)} {s : State}, s.clean →
    RunsAll e w s (s.loadTiles e m p l)
  | [], _, hc => ⟨rfl, ArrayRun.refl hc⟩
  | (a, i) :: l, s, hc => by
    unfold State.loadTiles
    dsimp only
    rw [read_of_clean hc]
    dsimp only
    rw [read_of_clean hc, hRecs]
    have hLoad : ∀ f : Engine → List (Nat × Option Tile), ArrayRun e w s (s.modEng e fun en => { en with tiles := f en }) := arrayRun_tiles hc
    obtain ⟨hStop, hRest⟩ := runsAll_loadTiles hRecs (l := l) (hLoad _).clean
    exact ⟨hStop, (hLoad _).trans hRest⟩

/-- Weight rows without scale records stream to the last (R164, R171). -/
theorem runsAll_streamRows {m : MatD} {p : PairInfo} {v : Option (DrainD × List Byte × List Byte)} (hRecs : m.wrecs p = 0) :
    ∀ {f n : Nat} {s : State}, s.clean → n + f = m.n → RunsAll e (m.writes e (v.map (·.1))) s (s.streamRows e m p v f n)
  | 0, _, _, hc, _ => ⟨rfl, ArrayRun.refl hc⟩
  | f + 1, n, s, hc, hn => by
    unfold State.streamRows
    extract_lets qs arrs wq rz blk recAt
    rw [checkAll_of_clean hc]
    dsimp only
    rw [if_pos hRecs]
    dsimp only
    generalize hFold : List.foldl _ (s, true) arrs.zipIdx = r
    have hRow : RunsOn e (m.writes e (v.map (·.1))) s r := by
      rw [← hFold]
      refine runsOn_foldl hc fun s1 hRun x hx => ?_
      rw [if_neg (by simp)]
      split
      · exact ⟨rfl, ArrayRun.refl hRun.clean⟩
      · next t _ =>
        have hMat : RunsOn e (m.writes e (v.map (·.1))) s1 (s1.matRow e m p x.1 t (qs.map fun q => s.bytes (recAt q) (m.wrecs p * rz))
            (qs.map fun q => s.bytes (wq q) (m.rb p)) n) :=
          runsOn_matRow hRun.clean (mem_zipIdx_arrays hx) fun q hq => span_mem_writes hx (by omega) hq
        generalize s1.matRow e m p x.1 t _ _ n = y at hMat
        obtain ⟨s3, ok⟩ := y
        obtain ⟨hOk, hMat⟩ := hMat
        cases hOk
        cases v with
        | none => exact ⟨rfl, hMat⟩
        | some v =>
          obtain ⟨hOk, hDrain⟩ := runsOn_drainRow (a := x.1) (row := (m.drow + n) % 1024) (scales := v.2.1) (biases := v.2.2) hMat.clean
            (mem_zipIdx_arrays hx) (drainSpan_mem_writes (d := v.1) hx (n := n) (by omega))
          exact ⟨hOk, hMat.trans hDrain⟩
    obtain ⟨hOk, hRun⟩ := hRow
    rw [if_neg (by rw [hOk]; decide)]
    obtain ⟨hStop, hRest⟩ := runsAll_streamRows hRecs (v := v) (f := f) (n := n + 1) hRun.clean (by omega)
    exact ⟨hStop, hRun.trans hRest⟩

/-- Accumulator rows drain to the last (R168). -/
theorem runsAll_drainRows {d : DrainD} {sc bi : List Byte} :
    ∀ {f r : Nat} {s : State}, s.clean → r + f = d.n → RunsAll e (drainWrites e d) s (s.drainRows e d sc bi f r)
  | 0, _, _, hc, _ => ⟨rfl, ArrayRun.refl hc⟩
  | f + 1, r, s, hc, hr => by
    unfold State.drainRows
    extract_lets arrs
    rw [checkAll_of_clean hc]
    dsimp only
    generalize hFold : List.foldl _ (s, true) arrs.zipIdx = x
    have hRow : RunsOn e (drainWrites e d) s x := by
      rw [← hFold]
      refine runsOn_foldl hc fun s1 hRun x hx => ?_
      rw [if_neg (by simp)]
      exact runsOn_drainRow hRun.clean (mem_zipIdx_arrays hx) (drainSpan_mem_drainWrites hx (by omega))
    obtain ⟨hOk, hRun⟩ := hRow
    rw [if_neg (by rw [hOk]; decide)]
    obtain ⟨hStop, hRest⟩ := runsAll_drainRows (d := d) (sc := sc) (bi := bi) (f := f) (r := r + 1) hRun.clean (by omega)
    exact ⟨hStop, hRun.trans hRest⟩

/-- A descriptor all of whose rows have run is in progress (R165, R168). -/
theorem arrEnd_of_runsAll {r : State × ArrStop} (d : Queued) (h : RunsAll e w s r) : arrEnd e d w r = r.1.startDesc e d w [] := by
  unfold arrEnd
  rw [h.1]

/-- A MATMUL without scale records runs to its end, drained through or not. -/
theorem runMat_of_clean {m : MatD} {p : PairInfo} {d : Queued} {dr : Option DrainD} (hc : s.clean) (hw : m.wrecs p = 0) (hx : m.xrecs p = 0) :
    ∃ t, s.runMat e d m p dr = t.startDesc e d (m.writes e dr) [] ∧ ArrayRun e (m.writes e dr) s t := by
  have hLoad : RunsAll e (m.writes e dr) s (if m.reuse then (s, ArrStop.none) else s.loadTiles e m p (arraysOf m.amask).zipIdx) := by
    split
    · exact ⟨rfl, ArrayRun.refl hc⟩
    · exact runsAll_loadTiles hx hc
  unfold State.runMat
  extract_lets vecs
  obtain ⟨v, hv, hVecs⟩ : ∃ v, v.map (·.1) = dr ∧ vecs = (s, some v) := by
    unfold vecs
    cases dr with
    | none => exact ⟨none, rfl, rfl⟩
    | some x =>
      obtain ⟨v, hRead⟩ := drainVecs_of_clean (e := e) hc x m.n
      exact ⟨some (x, v), rfl, by dsimp only; rw [hRead]⟩
  rw [hVecs]
  dsimp only
  generalize (if m.reuse then (s, ArrStop.none) else s.loadTiles e m p (arraysOf m.amask).zipIdx) = r at hLoad
  obtain ⟨hStop, hRun⟩ := hLoad
  have hRows : RunsAll e (m.writes e dr) r.1 (r.1.streamRows e m p v m.n 0) := hv ▸ runsAll_streamRows hw hRun.clean (Nat.zero_add _)
  rw [hStop]
  exact ⟨_, arrEnd_of_runsAll d hRows, hRun.trans hRows.2⟩

end

/-! ### The head of the array queue (R151, R164, R168, R172) -/

theorem itemStarted_of_run {e : Fin 8} {s t : State} {d : Queued} {w : List (Nat × Nat)} (h : ArrayRun e w (s.dequeue e d.id) t) :
    ItemStarted s (t.startDesc e d w []) e d w [] [] := by
  unfold State.startDesc
  have hQueue : (s.dequeue e d.id).eng[e] = { s.eng[e] with queue := s.eng[e].queue.filter fun x => decide (x.id ≠ d.id) } := State.modEng_get _ _ _
  constructor
  · rw [State.modEng_get, h.queue, hQueue]
  · rw [State.modEng_get, h.started, hQueue]
  · intro a hOut
    refine ((sameBytes_modEng t e _).1 a).trans ((h.bytes a ?_).trans ((sameBytes_modEng s e _).1 a))
    rintro ⟨r, hr, hLow, hHigh⟩
    rcases hOut r hr with hBefore | hAfter <;> omega
  · exact fun j hj => (State.modEng_get_ne _ _ _ _ hj).trans ((h.others j hj).trans (State.modEng_get_ne _ _ _ _ hj))
  · exact h.host

theorem fp8_ne_e2m1 : ∀ b, fp8 b ≠ .e2m1 := by decide

/-- The pairings 0 and 4 to 9 have no E2M1 operand (Table 5.2). -/
theorem pairInfo_not_e2m1 {pair : Nat} {we5 xe5 : Bool} {p : PairInfo} (hPair : pair ∉ [1, 2, 3]) (h : pairInfo pair we5 xe5 = some p) :
    p.wfmt ≠ .e2m1 ∧ p.xfmt ≠ .e2m1 := by
  unfold pairInfo at h
  split at h
  case h_2 | h_3 | h_4 => exact absurd (by decide) hPair
  case h_11 => cases h
  all_goals cases h; simp [fp8_ne_e2m1]

/-- Pairings without E2M1 operands read no scale records (R182). -/
theorem noRecs_of_pair {m : MatD} {p : PairInfo} (hPair : m.pair ∉ [1, 2, 3]) (h : pairInfo m.pair m.we5 m.xe5 = some p) :
    m.wrecs p = 0 ∧ m.xrecs p = 0 := by
  obtain ⟨hWeights, hTile⟩ := pairInfo_not_e2m1 hPair h
  exact ⟨if_neg hWeights, if_neg hTile⟩

/-- What a MATMUL that passes its checks is known to have. -/
theorem matCheck_none {e : Fin 8} {s : State} {m : MatD} {dr : Option DrainD} (h : s.matCheck e m dr = none) :
    ∃ p, pairInfo m.pair m.we5 m.xe5 = some p ∧ m.rangeOk p = true := by
  unfold State.matCheck at h
  by_cases hKind : m.kind ≠ 1
  · rw [if_pos hKind] at h; cases h
  rw [if_neg hKind] at h
  cases hp : pairInfo m.pair m.we5 m.xe5 with
  | none => rw [hp] at h; cases h
  | some p =>
    rw [hp] at h
    dsimp only at h
    refine ⟨p, rfl, Bool.eq_true_of_not_eq_false fun hRange => ?_⟩
    split at h
    · cases h
    · rw [if_pos (.inl hRange)] at h; cases h

/-- The drain descriptor of a drain-through lies on a boundary inside the scratchpad (R154). -/
theorem drainAt_of_rangeOk {m : MatD} {p : PairInfo} (h : m.rangeOk p = true) (hDt : m.dt = true) : m.qstride % 64 = 0 ∧ m.qstride + 64 ≤ SPAD := by
  unfold MatD.rangeOk at h
  rw [hDt] at h
  simp only [Bool.and_eq_true, decide_eq_true_eq, if_true] at h
  obtain ⟨⟨⟨⟨⟨⟨⟨-, hAligned⟩, -⟩, -⟩, -⟩, -⟩, -⟩, hInside⟩ := h
  exact ⟨hAligned, hInside⟩

theorem matCheck_dequeue (e : Fin 8) (s : State) (id : Nat) (m : MatD) (dr : Option DrainD) :
    (s.dequeue e id).matCheck e m dr = s.matCheck e m dr := by
  have hTile : ∀ a, (s.dequeue e id).tileOf e a = s.tileOf e a := fun a => by
    unfold State.tileOf State.dequeue
    rw [State.modEng_get]
  unfold State.matCheck
  simp only [hTile]

theorem clean_dequeue {s : State} (hc : s.clean) (e : Fin 8) (id : Nat) : (s.dequeue e id).clean := clean_modEng hc e _

/-- The drain descriptor of a drain-through, read where the MATMUL says (R171). -/
def State.throughDrain (s : State) (e : Fin 8) (m : MatD) : Option DrainD :=
  if m.dt then some (DrainD.parse (s.bytes (key e m.qstride) 64)) else none

theorem bytes_ne_nil (s : State) (a : Nat) : s.bytes a 64 ≠ [] := by
  unfold State.bytes
  simp

theorem bytes_dequeue (e : Fin 8) (s : State) (id a n : Nat) : (s.dequeue e id).bytes a n = s.bytes a n :=
  bytes_congr (sameBytes_modEng s e _).1 a n

section
variable {e : Fin 8} {s : State} {d : Queued}

/-- The drain descriptor of a MATMUL in range is read whole (R171). -/
theorem throughDrain_read (hc : s.clean) (id : Nat) {m : MatD} {p : PairInfo} (hRange : m.rangeOk p = true) : ∃ b,
    (if m.dt ∧ m.qstride % 64 = 0 ∧ m.qstride + 64 ≤ SPAD then (s.dequeue e id).read (key e m.qstride) 64 else (s.dequeue e id, some [])) =
      (s.dequeue e id, some b) ∧ (if m.dt ∧ b ≠ [] then some (DrainD.parse b) else none) = s.throughDrain e m := by
  unfold State.throughDrain
  by_cases hDt : m.dt = true
  · refine ⟨s.bytes (key e m.qstride) 64, ?_, ?_⟩
    · rw [if_pos ⟨hDt, drainAt_of_rangeOk hRange hDt⟩, read_of_clean (clean_dequeue hc e id), bytes_dequeue]
    · rw [if_pos ⟨hDt, bytes_ne_nil s _⟩, if_pos hDt]
  · exact ⟨[], if_neg fun h => hDt h.1, (if_neg fun h => hDt h.1).trans (if_neg hDt).symm⟩

variable (hHead : s.headOf e .array = some d) (hTok : s.tokensOk e d.desc = true)
include hHead hTok

theorem matmul_empty {m : MatD} (hm : MatD.parse d.desc = m) (hKind : m.kind = 1) (hNone : m.n = 0 ∨ m.amask = 0) :
    exec (.matmul e) s = .next ((s.dequeue e d.id).addTok e d.tctr.toNat 1) := by
  rw [exec_matmul]
  unfold execMatmul
  rw [hHead]
  dsimp only
  rw [hm, if_neg (by simp [hKind, hTok]), if_neg (by simp [hKind]), if_pos hNone]
  rfl

theorem drain_empty {x : DrainD} (hx : DrainD.parse d.desc = x) (hKind : x.kind = 2) (hNone : x.n = 0 ∨ x.amask = 0) :
    exec (.drain e) s = .next ((s.dequeue e d.id).addTok e d.tctr.toNat 1) := by
  rw [exec_drain]
  unfold execDrain
  rw [hHead]
  dsimp only
  rw [hx, if_neg (by simp [hKind, hTok]), if_pos hNone]
  rfl

/-- A MATMUL that passes its checks runs with the drain descriptor that it names (R164, R171). -/
theorem matmul_runs {m : MatD} {p : PairInfo} (hm : MatD.parse d.desc = m) (hc : s.clean) (hKind : m.kind = 1) (hRows : m.n ≠ 0)
    (hArrays : m.amask ≠ 0) (hCheck : s.matCheck e m (s.throughDrain e m) = none) (hp : pairInfo m.pair m.we5 m.xe5 = some p)
    (hRange : m.rangeOk p = true) : exec (.matmul e) s = .next ((s.dequeue e d.id).runMat e d m p (s.throughDrain e m)) := by
  obtain ⟨b, hRead, hThrough⟩ := throughDrain_read (e := e) hc d.id hRange
  rw [exec_matmul]
  unfold execMatmul
  rw [hHead]
  dsimp only
  rw [hm, if_neg (by simp [hKind, hTok]), if_neg (by simp [hKind]), if_neg (by simp [hRows, hArrays]), hRead]
  dsimp only
  rw [hThrough, matCheck_dequeue, hCheck, hp]

/-- A DRAIN that passes its checks runs to its last row (R168). -/
theorem drain_runs {x : DrainD} (hx : DrainD.parse d.desc = x) (hc : s.clean) (hKind : x.kind = 2) (hRows : x.n ≠ 0) (hArrays : x.amask ≠ 0)
    (hCheck : drainCheck x = none) :
    ∃ t, exec (.drain e) s = .next (t.startDesc e d (drainWrites e x) []) ∧ ArrayRun e (drainWrites e x) (s.dequeue e d.id) t := by
  have hClean := clean_dequeue hc e d.id
  obtain ⟨v, hVecs⟩ := drainVecs_of_clean (e := e) hClean x x.n
  have hRun : RunsAll e (drainWrites e x) (s.dequeue e d.id) ((s.dequeue e d.id).drainRows e x v.1 v.2 x.n 0) :=
    runsAll_drainRows hClean (Nat.zero_add _)
  refine ⟨_, ?_, hRun.2⟩
  rw [exec_drain]
  unfold execDrain
  rw [hHead]
  dsimp only
  rw [hx, if_neg (by simp [hKind, hTok]), if_neg (by simp [hRows, hArrays]), hCheck]
  dsimp only
  rw [hVecs]
  exact congrArg _ (arrEnd_of_runsAll d hRun)

end

/-- Settles O17: an empty descriptor completes as it starts; one that passes its checks runs through its rows, each of which writes inside
the descriptor's ranges. -/
theorem matmulsAndDrainsRunFromTheQueueHead : Obligations.MatmulsAndDrainsRunFromTheQueueHead := by
  intro e s d hHead hTok hc m x dt
  refine ⟨matmul_empty hHead hTok rfl, drain_empty hHead hTok rfl, fun hKind hRows hArrays hPair hCheck => ?_, fun hKind hRows hArrays hCheck => ?_⟩
  · obtain ⟨p, hp, hRange⟩ := matCheck_none hCheck
    obtain ⟨hWeights, hTiles⟩ := noRecs_of_pair hPair hp
    obtain ⟨t, ht, hRun⟩ := runMat_of_clean (d := d) (dr := dt) (clean_dequeue hc e d.id) hWeights hTiles
    exact ⟨_, (matmul_runs hHead hTok rfl hc hKind hRows hArrays hCheck hp hRange).trans (congrArg _ ht), itemStarted_of_run hRun⟩
  · obtain ⟨t, ht, hRun⟩ := drain_runs hHead hTok rfl hc hKind hRows hArrays hCheck
    exact ⟨_, ht, itemStarted_of_run hRun⟩

end Sys2Proof.Machine
end

section
/-! SUPPORT. BQUANT, CQUANT, DEQUANT and QACC in a state with no bad code bit and no armed injection: every block or channel runs to its
end, and only bytes of the side that the kind writes change (R187, R189, R193, R227, R230). `ArrayRun` says of a pipe's work what it says of the
arrays' rows. -/
namespace Sys2Proof.Machine

/-! ### Pieces of lists -/

theorem chunksAux_flatten {α : Type} {n : Nat} (hn : n ≠ 0) : ∀ {f : Nat} {l : List α}, l.length ≤ f → (chunksAux n f l).flatten = l
  | 0, l, h => (List.length_eq_zero_iff.mp (Nat.le_zero.mp h)).symm
  | _ + 1, [], _ => rfl
  | f + 1, x :: l, h => by
    have hRest : ((x :: l).drop n).length ≤ f := by
      rw [List.length_drop]
      omega
    rw [chunksAux, List.flatten_cons, chunksAux_flatten hn hRest, List.take_append_drop]
    exact fun h => nomatch h

theorem chunks_flatten {α : Type} {n : Nat} (hn : n ≠ 0) (l : List α) : (chunks n l).flatten = l := by
  unfold chunks
  rw [if_neg hn]
  exact chunksAux_flatten hn (Nat.le_refl _)

theorem chunksAux_two_length {α : Type} : ∀ {f : Nat} {l : List α}, (chunksAux 2 f l).length ≤ (l.length + 1) / 2
  | 0, _ => Nat.zero_le _
  | _ + 1, [] => Nat.zero_le _
  | f + 1, x :: l => by
    have hRest : (chunksAux 2 f ((x :: l).drop 2)).length ≤ (((x :: l).drop 2).length + 1) / 2 := chunksAux_two_length
    rw [List.length_drop, List.length_cons] at hRest
    rw [chunksAux, List.length_cons, List.length_cons]
    · omega
    · exact fun h => nomatch h

/-! ### One descriptor's ranges -/

/-- The scale record of block `b` (R181, R187). -/
def QntD.recordAt (q : QntD) (b : Nat) : Nat := q.dscale + b * recBytes q.skind

/-- The ranges that block `b` writes in: under DEQUANT the wide tensor, otherwise the data tensor and its own record. -/
def QntD.blockRanges (q : QntD) (e : Fin 8) (b : Nat) : List (Nat × Nat) :=
  if q.kind = 5 then [(key e q.src, q.count * q.vsize)]
  else [(key e q.ddata, q.blocks * q.blockBytes), (key e (q.recordAt b), recBytes q.skind)]

/-- The tensors of a descriptor do not overlap. -/
def QntD.Apart (q : QntD) : Prop := q.spans.Pairwise fun x y => x.1 + x.2 ≤ y.1 ∨ y.1 + y.2 ≤ x.1

/-- Block `b` of a tensor of `n` blocks of `k` bytes ends inside it. -/
theorem block_end_le {b n : Nat} (k : Nat) (h : b < n) : b * k + k ≤ n * k := Nat.succ_mul b k ▸ Nat.mul_le_mul_right k h

theorem blocks_lt {q : QntD} {b : Nat} (h : b < q.blocks) : 1024 * b < q.count := by
  unfold QntD.blocks ceilDiv at h
  omega

/-- Elements of block `b` lie in the wide tensor. -/
theorem wide_end_le {q : QntD} {b : Nat} (h : b < q.blocks) :
    1024 * b * q.vsize + min 1024 (q.count - 1024 * b) * q.vsize ≤ q.count * q.vsize := by
  have := blocks_lt h
  rw [← Nat.add_mul]
  exact Nat.mul_le_mul_right _ (by omega)

theorem within_part {w : List (Nat × Nat)} {u o m i n : Nat} (h : (key u o, m) ∈ w) (hEnd : i + n ≤ m) : Within w (key u (o + i)) n := by
  rw [← key_add]
  exact within_of_mem h (Nat.le_add_right _ _) (by rw [Nat.add_assoc]; exact Nat.add_le_add_left hEnd _)

section
variable {e : Fin 8} {q : QntD}

theorem blockRanges_wide (h : q.kind = 5) (b : Nat) : q.blockRanges e b = [(key e q.src, q.count * q.vsize)] := if_pos h

theorem blockRanges_narrow (h : q.kind ≠ 5) (b : Nat) :
    q.blockRanges e b = [(key e q.ddata, q.blocks * q.blockBytes), (key e (q.recordAt b), recBytes q.skind)] := if_neg h

theorem wrote_wide (h : q.kind = 5) : q.wrote e = [(key e q.src, q.count * q.vsize)] := by
  unfold QntD.wrote QntD.spans
  rw [if_pos h, if_neg (by omega)]
  rfl

theorem wrote_narrow (h4 : q.kind ≠ 4) (h5 : q.kind ≠ 5) :
    q.wrote e = [(key e q.ddata, q.blocks * q.blockBytes), (key e q.dscale, q.blocks * recBytes q.skind)] := by
  unfold QntD.wrote QntD.spans
  rw [if_neg h5, if_neg h4]
  rfl

theorem wrote_channels (h : q.kind = 4) : q.wrote e = [(key e q.ddata, q.count * q.chlen), (key e q.dscale, 8 * q.count)] := by
  unfold QntD.wrote QntD.spans
  rw [if_neg (by omega), if_pos h]
  rfl

/-- What a block writes in lies in the tensors that the descriptor writes (R230). -/
theorem covers_wrote {b c : Nat} (hKind : q.kind ≠ 4) (hb : b < q.blocks) (h : Covers (q.blockRanges e b) c) : Covers (q.wrote e) c := by
  by_cases h5 : q.kind = 5
  · rw [wrote_wide h5, ← blockRanges_wide h5 b]
    exact h
  · have hRec := block_end_le (recBytes q.skind) hb
    rw [blockRanges_narrow h5] at h
    rw [wrote_narrow hKind h5]
    obtain ⟨r, hr, hIn⟩ := h
    rcases List.mem_pair.mp hr with rfl | rfl
    · exact ⟨_, List.mem_cons_self, hIn⟩
    · refine ⟨_, List.mem_cons_of_mem _ (List.mem_singleton_self _), ?_⟩
      dsimp only [QntD.recordAt] at hIn ⊢
      rw [← key_add] at hIn
      omega

/-- No block writes in the record of a later block. -/
theorem record_not_covered {j b c : Nat} (hApart : q.Apart) (hKind : q.kind ≠ 4) (hj : j < b) (hb : b < q.blocks)
    (hLow : key e (q.recordAt b) ≤ c) (hHigh : c < key e (q.recordAt b) + recBytes q.skind) : ¬ Covers (q.blockRanges e j) c := by
  have hRec := block_end_le (recBytes q.skind) hb
  have hNext := block_end_le (recBytes q.skind) hj
  unfold QntD.Apart QntD.spans at hApart
  rw [if_neg hKind] at hApart
  simp only [List.pairwise_cons, List.mem_cons, List.not_mem_nil, or_false, forall_eq_or_imp, forall_eq] at hApart
  obtain ⟨⟨-, hWide⟩, hData, -⟩ := hApart
  rintro ⟨r, hr, hIn⟩
  unfold QntD.blockRanges at hr
  unfold QntD.recordAt key at *
  split at hr
  · rw [List.mem_singleton.mp hr] at hIn
    dsimp only at hIn
    omega
  · rcases List.mem_pair.mp hr with rfl | rfl <;> dsimp only at hIn <;> omega

/-! ### Runs of blocks and channels -/

variable {w v : List (Nat × Nat)} {s t : State}

theorem ArrayRun.mono (h : ArrayRun e v s t) (hSub : ∀ c, Covers v c → Covers w c) : ArrayRun e w s t :=
  { h with bytes := fun c hc => h.bytes c fun hv => hc (hSub c hv) }

theorem ArrayRun.bytes_eq (h : ArrayRun e w s t) {a n : Nat} (hOut : ∀ c, a ≤ c → c < a + n → ¬ Covers w c) : t.bytes a n = s.bytes a n :=
  List.map_congr_left fun _ hi => h.bytes _ (hOut _ (Nat.le_add_right _ _) (Nat.add_lt_add_left (List.mem_range.mp hi) _))

/-- A block or channel that ran to its end. -/
def StepRuns (e : Fin 8) (w : List (Nat × Nat)) (s : State) (r : State × Option Nat) : Prop := r.2 = none ∧ ArrayRun e w s r.1

/-- A block or channel that ends in a write runs to its end with it. -/
theorem stepRuns_of_runsOn {r : State × Bool} (h : RunsOn e w s r) : StepRuns e w s (r.1, if r.2 then none else some 5) := by
  obtain ⟨hOk, hRun⟩ := h
  exact ⟨by rw [hOk]; rfl, hRun⟩

/-- A write within the ranges goes through. -/
theorem write_runs (hc : s.clean) {a : Nat} {bs : List Byte} (h : Within w a bs.length) : ∃ t, s.write a bs = (t, true) ∧ ArrayRun e w s t := by
  obtain ⟨hOk, hRun⟩ := runsOn_write (e := e) hc h
  exact ⟨_, Prod.ext rfl hOk, hRun⟩

/-- Steps that each keep `P` run to the last and keep it. -/
theorem qntLoop_runs {step : State → Nat → State × Option Nat} {P : Nat → State → Prop} {n : Nat}
    (hStep : ∀ i < n, ∀ t, P i t → (step t i).2 = none ∧ P (i + 1) (step t i).1) :
    ∀ {f i : Nat} {s : State}, i + f = n → P i s → (qntLoop step s f i).2 = none ∧ P n (qntLoop step s f i).1
  | 0, _, _, hi, h => ⟨rfl, hi ▸ h⟩
  | f + 1, i, s, hi, h => by
    obtain ⟨hNone, hNext⟩ := hStep i (by omega) s h
    have hEq : step s i = ((step s i).1, none) := Prod.ext rfl hNone
    rw [qntLoop, hEq]
    exact qntLoop_runs hStep (by omega) hNext

/-! ### Quantising a block (R189, R190) -/

theorem arrayRun_qntCount (hc : s.clean) {k : Nat} (hk : k < 4) (n : Nat) : ArrayRun e w s (s.qntCount e k n) := by
  unfold State.qntCount
  split
  · exact ArrayRun.refl hc
  · refine arrayRun_setRegN hc _ _ ?_
    unfold qntKey key CTU CTL
    omega

theorem arrayRun_bqBlock (hc : s.clean) (e0 : Nat) (vs : List Val) : ArrayRun e w s (s.bqBlock e q e0 vs).1 := by
  unfold State.bqBlock
  have hUnder := arrayRun_qntCount (w := w) (e := e) hc (k := 0) (by decide)
  have hClamp := fun n => arrayRun_qntCount (w := w) (e := e) (hUnder n).clean (k := 1) (by decide)
  have hFinite := fun n m => arrayRun_qntCount (w := w) (e := e) (hClamp n m).clean (k := 3) (by decide)
  exact ((hUnder _).trans (hClamp _ _)).trans (hFinite _ _ _)

theorem groupSize_ne_zero (kind : Nat) : groupSize kind ≠ 0 := by
  unfold groupSize
  split <;> decide

/-- Every element of a block yields one code. -/
theorem length_flatMap_chunks {α β : Type} {n : Nat} (hn : n ≠ 0) (l : List α) (f : List α × Nat → List β) (hf : ∀ x, (f x).length = x.1.length) :
    ((chunks n l).zipIdx.flatMap f).length = l.length := by
  rw [List.length_flatMap]
  simp only [hf]
  rw [← Function.comp_def List.length Prod.fst, ← List.map_map, List.zipIdx_map_fst, ← List.length_flatten, chunks_flatten hn]

/-- A block's data fills at most its place in the data tensor (R181). -/
theorem bqBlock_data_length {e0 : Nat} {vs : List Val} (h : vs.length ≤ 1024) : (s.bqBlock e q e0 vs).2.1.length ≤ q.blockBytes := by
  unfold State.bqBlock
  extract_lets g groups res all codes data
  have hAll : all.length = vs.length := by
    unfold all res groups
    rw [List.flatMap_map]
    refine length_flatMap_chunks (groupSize_ne_zero _) vs _ fun x => ?_
    rw [List.length_map, List.length_zipIdx]
  have hCodes : codes.length = 1024 := by
    unfold codes
    rw [List.length_append, List.length_map, List.length_replicate, hAll]
    omega
  dsimp only
  unfold data QntD.blockBytes
  split
  · rw [List.length_map]
    have hPairs : (chunks 2 codes).length ≤ (codes.length + 1) / 2 := chunksAux_two_length
    omega
  · rw [List.length_map, hCodes]

theorem mkRecord_length_le (seq kind elem : Nat) (scales : List Nat) : (mkRecord seq kind elem scales).length ≤ recBytes kind :=
  List.length_take_le _ _

theorem runsOn_putBlock {b : Nat} {data : List Byte} (hc : s.clean) (hKind : q.kind ≠ 5) (hb : b < q.blocks) (hData : data.length ≤ q.blockBytes)
    (scales : List Nat) : RunsOn e (q.blockRanges e b) s (s.putBlock e q b data scales) := by
  have hEnd := block_end_le q.blockBytes hb
  obtain ⟨t, hWrite, hRun⟩ := write_runs (e := e) (w := q.blockRanges e b) (bs := data) hc (a := key e (q.ddata + b * q.blockBytes))
    (within_part (m := q.blocks * q.blockBytes) (by simp [blockRanges_narrow hKind]) (by omega))
  obtain ⟨hOk, hRecord⟩ := runsOn_write (e := e) (w := q.blockRanges e b) (a := key e (q.recordAt b))
    (bs := mkRecord ((q.base + b) % 2 ^ 16) q.skind q.efmt scales) hRun.clean
    (within_of_mem (r := (key e (q.recordAt b), recBytes q.skind)) (by simp [blockRanges_narrow hKind]) (Nat.le_refl _)
      (Nat.add_le_add_left (mkRecord_length_le _ _ _ _) _))
  unfold State.putBlock
  rw [hWrite]
  exact ⟨hOk, hRun.trans hRecord⟩

/-- Elements quantised and put with their scales: how a block of BQUANT and QACC ends. -/
theorem stepRuns_quantise {b e0 : Nat} {vs : List Val} (hc : s.clean) (hKind : q.kind ≠ 5) (hb : b < q.blocks) (hLen : vs.length ≤ 1024) :
    let r := s.bqBlock e q e0 vs
    StepRuns e (q.blockRanges e b) s ((r.1.putBlock e q b r.2.1 r.2.2).1, if (r.1.putBlock e q b r.2.1 r.2.2).2 then none else some 5) := by
  have hBlock : ArrayRun e (q.blockRanges e b) s (s.bqBlock e q e0 vs).1 := arrayRun_bqBlock hc e0 vs
  obtain ⟨hNone, hPut⟩ := stepRuns_of_runsOn (runsOn_putBlock (e := e) hBlock.clean hKind hb (bqBlock_data_length hLen) (s.bqBlock e q e0 vs).2.2)
  exact ⟨hNone, hBlock.trans hPut⟩

/-! ### One block or channel -/

/-- The record of block `b` as a read gives it. -/
def QntD.recordOf (q : QntD) (e : Fin 8) (s : State) (b : Nat) : List Byte := s.bytes (key e (q.recordAt b)) (recBytes q.skind)

/-- The record of block `b` passes the consumer check (R187). -/
def QntD.RecordOk (q : QntD) (e : Fin 8) (s : State) (b : Nat) : Prop :=
  recOk (q.recordOf e s b) ((q.base + b) % 2 ^ 16) q.skind q.efmt = true

theorem readRecord_of_clean {b pipe : Nat} (hc : s.clean) (h : q.RecordOk e s b) :
    s.readRecord e pipe q b = (s, none, q.recordOf e s b) := by
  unfold State.readRecord
  rw [read_of_clean hc]
  exact if_pos h

theorem dqBlock_length (q : QntD) (data r : List Byte) (n : Nat) : (dqBlock q data r n).length = n := by
  unfold dqBlock
  rw [List.length_map, List.length_range]

theorem wideVals_length (q : QntD) (bs : List Byte) (n : Nat) : (wideVals q bs n).length = n := by
  unfold wideVals
  rw [List.length_map, List.length_range]

theorem flatMap_toLE_length {α : Type} (l : List α) (n : Nat) (f : α → Nat) : (l.flatMap fun x => toLE n (f x)).length = l.length * n := by
  rw [List.length_flatMap]
  simp only [toLE_length, List.map_const', List.sum_replicate, smul_eq_mul]

/-- One block of BQUANT, DEQUANT or QACC runs to its end (R227). -/
theorem stepRuns_qntBlock {pipe b : Nat} (hc : s.clean) (hb : b < q.blocks) (hRec : q.kind ≠ 3 → q.RecordOk e s b) :
    StepRuns e (q.blockRanges e b) s (s.qntBlock e pipe q b) := by
  unfold State.qntBlock
  extract_lets n
  have hn : n ≤ 1024 := Nat.min_le_left _ _
  split
  · next h3 =>
    rw [read_of_clean hc]
    exact stepRuns_quantise hc (by omega) hb ((wideVals_length _ _ _).trans_le hn)
  · next h3 =>
    rw [readRecord_of_clean hc (hRec h3)]
    dsimp only
    rw [read_of_clean hc]
    dsimp only
    split
    · next h5 =>
      split
      · exact ⟨rfl, ArrayRun.refl hc⟩
      · refine stepRuns_of_runsOn (runsOn_write hc ?_)
        rw [flatMap_toLE_length, List.length_zipIdx, dqBlock_length]
        exact within_part (by simp [blockRanges_wide h5]) (wide_end_le hb)
    · next h5 =>
      rw [read_of_clean hc]
      refine stepRuns_quantise hc h5 hb ?_
      rw [List.length_map, List.length_zipIdx, dqBlock_length]
      exact hn

theorem arrayRun_cqChannel (hc : s.clean) (e0 : Nat) (vs : List Val) : ArrayRun e w s (s.cqChannel e q e0 vs).1 := by
  have hCount : ∀ k < 4, ∀ n, ArrayRun e w s (s.qntCount e k n) := fun _ => arrayRun_qntCount hc
  unfold State.cqChannel
  split
  · exact ArrayRun.refl hc
  · dsimp only
    split
    · exact hCount 3 (by decide) 1
    · split
      · split <;> exact hCount 2 (by decide) 1
      · exact hCount 1 (by decide) _

theorem cqChannel_codes_length (e0 : Nat) (vs : List Val) : (s.cqChannel e q e0 vs).2.2.2.2.length = vs.length := by
  unfold State.cqChannel
  split
  · rfl
  · dsimp only
    split
    · rw [List.length_map]
    · split
      · split <;> rw [List.length_map]
      · rw [List.length_map, List.length_map, List.length_zipIdx]

/-- One channel of CQUANT runs to its end (R193, R227). -/
theorem stepRuns_cqStep {i : Nat} (hc : s.clean) (hKind : q.kind = 4) (hi : i < q.count) : StepRuns e (q.wrote e) s (s.cqStep e q i) := by
  have hEnd := block_end_le q.chlen hi
  have hSides := wrote_channels (e := e) hKind
  unfold State.cqStep
  rw [read_of_clean hc]
  dsimp only
  generalize hVals : wideVals q _ q.chlen = vs
  have hLen := cqChannel_codes_length (s := s) (e := e) (q := q) (i * q.chlen) vs
  rw [← hVals, wideVals_length, hVals] at hLen
  have hChannel : ArrayRun e (q.wrote e) s (s.cqChannel e q (i * q.chlen) vs).1 := arrayRun_cqChannel hc _ _
  generalize s.cqChannel e q (i * q.chlen) vs = r at hLen hChannel
  obtain ⟨s2, full, dv, zp, cs⟩ := r
  dsimp only at hLen hChannel ⊢
  obtain ⟨t, hWrite, hData⟩ := write_runs (e := e) (w := q.wrote e) (a := key e (q.ddata + i * q.chlen))
    (bs := cs.map fun c => BitVec.ofInt 8 c) hChannel.clean
    (within_part (m := q.count * q.chlen) (by simp [hSides]) (by rw [List.length_map, hLen]; exact hEnd))
  obtain ⟨hNone, hRecord⟩ := stepRuns_of_runsOn (runsOn_write (e := e) (w := q.wrote e) (a := key e (q.dscale + 8 * i))
    (bs := toLE 4 full ++ toLE 1 dv ++ toLE 1 (wrapN 8 zp) ++ toLE 2 0) hData.clean
    (within_part (m := 8 * q.count) (by simp [hSides]) (by simp only [List.length_append, toLE_length]; omega)))
  rw [hWrite]
  exact ⟨hNone, (hChannel.trans hData).trans hRecord⟩

/-! ### Whole descriptors -/

/-- After the blocks before `i` only the written tensors have changed, and no record from `i` on. -/
def QntD.RunTo (q : QntD) (e : Fin 8) (s : State) (i : Nat) (t : State) : Prop :=
  ArrayRun e (q.wrote e) s t ∧ ∀ b, i ≤ b → b < q.blocks → q.recordOf e t b = q.recordOf e s b

/-- All blocks of BQUANT, DEQUANT or QACC run: no block changes a record that a later one reads. -/
theorem stepRuns_blocks {pipe : Nat} (hc : s.clean) (hKind : q.kind ≠ 4) (hApart : q.Apart)
    (hRec : q.kind ≠ 3 → ∀ b < q.blocks, q.RecordOk e s b) :
    StepRuns e (q.wrote e) s (qntLoop (fun t b => t.qntBlock e pipe q b) s q.blocks 0) := by
  have hStart : q.RunTo e s 0 s := ⟨ArrayRun.refl hc, fun _ _ _ => rfl⟩
  have hLoop := qntLoop_runs (step := fun t b => t.qntBlock e pipe q b) (P := q.RunTo e s) (n := q.blocks)
    (fun i hi t ⟨hRun, hKept⟩ => ?_) (Nat.zero_add _) hStart
  · exact ⟨hLoop.1, hLoop.2.1⟩
  · obtain ⟨hNone, hBlock⟩ := stepRuns_qntBlock (pipe := pipe) hRun.clean hi fun h3 => by
      unfold QntD.RecordOk
      rw [hKept i (Nat.le_refl _) hi]
      exact hRec h3 i hi
    refine ⟨hNone, hRun.trans (hBlock.mono fun c => covers_wrote hKind hi), fun b hib hb => ?_⟩
    exact (hBlock.bytes_eq fun c => record_not_covered hApart hKind hib hb).trans (hKept b (by omega) hb)

/-- All channels of CQUANT run. -/
theorem stepRuns_channels (hc : s.clean) (hKind : q.kind = 4) :
    StepRuns e (q.wrote e) s (qntLoop (fun t i => t.cqStep e q i) s q.count 0) := by
  refine qntLoop_runs (step := fun t i => t.cqStep e q i) (P := fun _ => ArrayRun e (q.wrote e) s) (fun i hi t hRun => ?_) (Nat.zero_add _)
    (ArrayRun.refl hc)
  obtain ⟨hNone, hStep⟩ := stepRuns_cqStep hRun.clean hKind hi
  exact ⟨hNone, hRun.trans hStep⟩

/-- A quantise descriptor with allowed formats and tensors runs to its end. -/
theorem runQnt_runs {pipe : Nat} {d : Queued} (hc : s.clean) (hq : QntD.parse d.desc = q) (hFormat : q.formatOk = true)
    (hPad : ∀ x ∈ q.spans, inPad x.1 x.2 = true) (hApart : q.Apart) (hRec : 5 ≤ q.kind → ∀ b < q.blocks, q.RecordOk e s b)
    (hKind : 3 ≤ q.kind) : ∃ t, State.runQnt e pipe s d = .ok t (q.wrote e) [] [] ∧ ArrayRun e (q.wrote e) s t := by
  have hRuns : StepRuns e (q.wrote e) s (if q.kind = 4 then qntLoop (fun t i => t.cqStep e q i) s q.count 0
      else qntLoop (fun t b => t.qntBlock e pipe q b) s q.blocks 0) := by
    split
    · next h4 => exact stepRuns_channels hc h4
    · next h4 => exact stepRuns_blocks hc h4 hApart fun h3 => hRec (by omega)
  unfold State.runQnt
  dsimp only
  rw [hq, if_neg (by rw [hFormat]; decide), if_neg (by rw [List.all_eq_true.mpr hPad]; decide)]
  generalize (if q.kind = 4 then _ else _ : State × Option Nat) = r at hRuns
  obtain ⟨t, o⟩ := r
  obtain ⟨hNone, hRun⟩ := hRuns
  cases hNone
  exact ⟨t, rfl, hRun⟩

end

/-! ### The head of a pipe's queue (R99, R206, R207) -/

/-- Without direct instructions in the queues none runs. -/
theorem runDirects_of_none {e : Fin 8} {s : State} (h : ∀ x ∈ s.eng[e].queue, x.dir = none) (n : Nat) : s.runDirects e n = s := by
  cases n with
  | zero => rfl
  | succ n =>
    unfold State.runDirects
    split
    · rfl
    · next x hx =>
      rw [h x (List.mem_of_find?_eq_some hx)]

/-- A descriptor of the kind asked for, whose run goes through, starts. -/
theorem startVec_of_run {e : Fin 8} {s t : State} {d : Queued} {q : EngQ} {u kind : Nat} {kinds : List Nat} {w : List (Nat × Nat)}
    {run : State → Queued → DescOut} (hHead : s.headOf e q = some d) (hDir : d.dir = none) (hTok : s.tokensOk e d.desc = true)
    (hDirs : ∀ x ∈ s.eng[e].queue, x.dir = none) (hKind : fieldLE d.desc 0 1 % 16 = kind) (hMem : kind ∈ kinds)
    (hOk : run (s.dequeue e d.id) d = .ok t w [] []) (hRun : ArrayRun e w (s.dequeue e d.id) t) :
    ItemStarted s (s.startVec e q u kinds kind run) e d w [] [] := by
  have hStarted := itemStarted_of_run hRun
  unfold State.startVec
  rw [hHead]
  dsimp only
  rw [hKind, if_neg (by simp [hDir, hTok]), if_neg (not_not_intro hMem), if_neg (not_not_intro rfl), hOk]
  dsimp only
  rw [runDirects_of_none fun x hx => hDirs x (List.mem_of_mem_filter (hStarted.queue ▸ hx))]
  exact hStarted

/-- The four rows of Table 7.11 start their own kind at the head of the pipe's queue. -/
theorem exec_quantiser {k : Nat} {c : Instr} {e : Fin 8} {p : Fin 4}
    (h : (k, c) ∈ [(3, .bquant e p), (4, .cquant e p), (5, .dequant e p), (6, .qacc e p)]) (s : State) :
    exec c s = .next (s.startVec e (.pipe p.val) p.val pipeKinds k (State.runQnt e p.val)) ∧ 3 ≤ k ∧ k ∈ pipeKinds := by
  simp only [List.mem_cons, Prod.mk.injEq, List.not_mem_nil, or_false] at h
  rcases h with ⟨rfl, rfl⟩ | ⟨rfl, rfl⟩ | ⟨rfl, rfl⟩ | ⟨rfl, rfl⟩ <;> exact ⟨rfl, by decide, by decide⟩

/-- Settles O24: every block or channel writes in the tensors of its side alone, and none touches a record that a later block reads. -/
theorem quantisersWriteTheirTensors : Obligations.QuantisersWriteTheirTensors := by
  intro e p s d k c hRow hHead hDir hTok hc hDirs q hKind hFormat hPad hApart hRec
  obtain ⟨hExec, hLow, hMem⟩ := exec_quantiser hRow s
  obtain ⟨t, hOk, hRun⟩ := runQnt_runs (e := e) (pipe := p.val) (d := d) (clean_dequeue hc e d.id) rfl hFormat hPad hApart
    (fun h5 b hb => by
      unfold QntD.RecordOk QntD.recordOf
      rw [bytes_dequeue]
      exact hRec (hKind ▸ h5) b hb)
    (hKind ▸ hLow)
  refine ⟨_, hExec, ?_⟩
  rw [← hKind]
  exact startVec_of_run hHead hDir hTok hDirs rfl (hKind ▸ hMem) hOk hRun

end Sys2Proof.Machine
end

section
/-! SUPPORT. Numbers as bytes and as elements, and what memory and the register files of the vector unit hold after a write (R6, R42, R208, R210). -/
namespace Sys2Proof.Machine

/-! ### Little-endian numbers -/

theorem leNat_lt : ∀ bs : List Byte, leNat bs < 256 ^ bs.length
  | [] => Nat.one_pos
  | b :: bs => by
    have hByte := b.isLt
    have hRest := leNat_lt bs
    rw [leNat, List.length_cons, Nat.pow_succ]
    omega

theorem leNat_toLE : ∀ n v, leNat (toLE n v) = v % 256 ^ n
  | 0, v => (Nat.mod_one v).symm
  | n + 1, v => by
    rw [toLE, leNat, leNat_toLE n, BitVec.toNat_ofNat, Nat.pow_succ' (m := 256)]
    exact Nat.mod_mul.symm

/-- `n` bytes hold `8 * n` bits. -/
theorem pow_bytes {n k : Nat} (h : 8 * n = k) : 256 ^ n = 2 ^ k := by
  rw [← h, Nat.pow_mul]

theorem fieldLE_lt (bs : List Byte) (i n : Nat) : fieldLE bs i n < 256 ^ n := by
  have h := leNat_lt (slice bs i n)
  rwa [slice, List.length_map, List.length_range] at h

/-- A list read back by its indices. -/
theorem map_range_getD {α : Type} (l : List α) (d : α) : ((List.range l.length).map fun i => l.getD i d) = l := by
  refine List.ext_getElem (by simp) fun i hi _ => ?_
  rw [List.getElem_map, List.getElem_range]
  exact List.getD_eq_getElem l d _

theorem getD_map_range {α : Type} {n i : Nat} (f : Nat → α) (d : α) (h : i < n) : ((List.range n).map f).getD i d = f i := by
  rw [List.getD_eq_getElem _ d (by simpa using h), List.getElem_map, List.getElem_range]

/-! ### Memory after a write -/

/-- What was put is read back. -/
theorem map_get_putBytes (m : List (Nat × Byte)) (a : Nat) (bs : List Byte) :
    ((List.range bs.length).map fun i => Sparse.get memZero (putBytes m a bs) (a + i)) = bs := by
  refine Eq.trans (List.map_congr_left fun i hi => ?_) (map_range_getD bs 0)
  have hLt := List.mem_range.mp hi
  rw [get_putBytes, if_pos (by omega), Nat.add_sub_cancel_left]

theorem map_get_putBytes_apart (m : List (Nat × Byte)) {a b n : Nat} {bs : List Byte} (h : b + n ≤ a ∨ a + bs.length ≤ b) :
    ((List.range n).map fun i => Sparse.get memZero (putBytes m a bs) (b + i)) = (List.range n).map fun i => Sparse.get memZero m (b + i) := by
  refine List.map_congr_left fun i hi => ?_
  have hLt := List.mem_range.mp hi
  rw [get_putBytes, if_neg (by omega)]

/-- A number read where one was put, and elsewhere. -/
theorem leNat_get_put (m : List (Nat × Byte)) (a n v : Nat) :
    leNat ((List.range n).map fun i => Sparse.get memZero (putBytes m a (toLE n v)) (a + i)) = v % 256 ^ n := by
  have hPut := map_get_putBytes m a (toLE n v)
  rw [toLE_length] at hPut
  rw [hPut, leNat_toLE]

theorem leNat_get_put_apart (m : List (Nat × Byte)) {a b n : Nat} (v : Nat) (h : b + n ≤ a ∨ a + n ≤ b) :
    leNat ((List.range n).map fun i => Sparse.get memZero (putBytes m a (toLE n v)) (b + i)) =
      leNat ((List.range n).map fun i => Sparse.get memZero m (b + i)) :=
  congrArg leNat (map_get_putBytes_apart m (by rwa [toLE_length]))

/-- Without bad bits a read returns the stored byte. -/
theorem byte_of_clean {s : State} (h : s.clean) (a : Nat) : s.byte a = s.rawByte a := by
  refine byte_clean s a ?_
  unfold State.eccAt
  rw [h.1]
  rfl

theorem bytes_put {s : State} (h : s.clean) (a : Nat) (bs : List Byte) :
    ({ s with mem := putBytes s.mem a bs } : State).bytes a bs.length = bs := by
  refine Eq.trans (List.map_congr_left fun i _ => ?_) (map_get_putBytes s.mem a bs)
  exact byte_of_clean (clean_mem h _) _

/-! ### Vector and tile registers (R208, R210) -/

theorem vr_lt (en : Engine) (r : Nat) : en.vr r < 2 ^ 4096 := by
  have h := leNat_lt ((List.range 512).map fun i => Sparse.get memZero en.vreg (512 * r + i))
  rwa [List.length_map, List.length_range, pow_bytes (k := 4096) rfl] at h

/-- A vector register read after one was written. -/
theorem vr_setVr (en : Engine) (r v q : Nat) : (en.setVr r v).vr q = if q = r then v % 2 ^ 4096 else en.vr q := by
  by_cases h : q = r
  · rw [if_pos h, h, ← pow_bytes (n := 512) rfl]
    unfold Engine.vr Engine.setVr
    dsimp only
    rw [leNat_get_put]
  · rw [if_neg h]
    unfold Engine.vr Engine.setVr
    dsimp only
    rw [leNat_get_put_apart _ _ (by omega)]

/-- A tile element read after one was written. -/
theorem tr_setTr (en : Engine) (t i v j : Nat) : (en.setTr t i v).tr t j = if j = i then v % 2 ^ 32 else en.tr t j := by
  by_cases h : j = i
  · rw [if_pos h, h, ← pow_bytes (n := 4) rfl]
    exact leNat_get_put en.treg (4096 * t + 4 * i) 4 v
  · rw [if_neg h]
    exact leNat_get_put_apart en.treg v (by omega)

/-! ### Elements of a register (R210) -/

theorem elems_getD {w n l : Nat} (reg : Nat) (h : l < n) : (elems w n reg).getD l 0 = reg / 2 ^ (w * l) % 2 ^ w := getD_map_range _ 0 h

theorem elems_length (w n reg : Nat) : (elems w n reg).length = n := by
  unfold elems
  rw [List.length_map, List.length_range]

/-- Codes of `w` bits side by side. -/
theorem codes_lt (w : Nat) : ∀ codes : List Nat, codes.foldr (fun c a => c % 2 ^ w + 2 ^ w * a) 0 < 2 ^ (w * codes.length)
  | [] => Nat.one_pos
  | c :: codes => by
    have hCode : c % 2 ^ w < 2 ^ w := Nat.mod_lt _ (Nat.two_pow_pos w)
    rw [List.foldr_cons, List.length_cons, Nat.mul_succ, Nat.add_comm (w * _), Nat.pow_add]
    calc c % 2 ^ w + 2 ^ w * codes.foldr (fun c a => c % 2 ^ w + 2 ^ w * a) 0
        < 2 ^ w * (codes.foldr (fun c a => c % 2 ^ w + 2 ^ w * a) 0 + 1) := by rw [Nat.mul_succ]; omega
      _ ≤ 2 ^ w * 2 ^ (w * codes.length) := Nat.mul_le_mul_left _ (codes_lt w codes)

/-- A register with its first elements replaced is a register. -/
theorem packElems_lt {w reg k : Nat} {codes : List Nat} (hReg : reg < 2 ^ k) (hLen : w * codes.length ≤ k) : packElems w reg codes < 2 ^ k := by
  have hHigh : reg / 2 ^ (w * codes.length) < 2 ^ (k - w * codes.length) := by
    rw [Nat.div_lt_iff_lt_mul (Nat.two_pow_pos _), ← Nat.pow_add, Nat.sub_add_cancel hLen]
    exact hReg
  have hSplit : 2 ^ (k - w * codes.length) * 2 ^ (w * codes.length) = 2 ^ k := by rw [← Nat.pow_add, Nat.sub_add_cancel hLen]
  have hRows := Nat.mul_le_mul_right (2 ^ (w * codes.length)) (Nat.succ_le_of_lt hHigh)
  rw [Nat.succ_mul, hSplit] at hRows
  unfold packElems
  have hCodes := codes_lt w codes
  omega

end Sys2Proof.Machine
end

section
/-! SUPPORT. Direct instructions of pipe 0, from fetch and issue to their start, and what their effects leave (R207, R209, R210, R214, R216). -/
namespace Sys2Proof.Machine

/-! ### Issue and start (R206, R207) -/

/-- A direct instruction of engine `e` fetched in `s` stands ready to act in `z`: it has left pipe 0's queue, which is empty, and the vector
unit, the scalar registers and all memory are still those of `s`. -/
structure DirectReady (s z : State) (e : Fin 8) : Prop where
  eng : ∃ i g q n, z.eng[e] = { s.eng[e] with
    icount := i, tags := g, queue := q, nextId := n, state := .running, wait := .none, pc := s.eng[e].pc + 8 }
  empty : z.headOf e (.pipe 0) = none
  frame : SeqFrame s z e
  ecc : z.ecc = s.ecc

/-- From `z` to `t` a direct instruction of engine `e` has acted: of the engine only vector and tile registers and the three settings have
changed, of the other registers only the counts of Table 7.14. -/
structure DirectKeeps (e : Fin 8) (z t : State) : Prop where
  eng : ∃ v x vl bound base, t.eng[e] = { z.eng[e] with vreg := v, treg := x, vl := vl, vbound := bound, srbase := base }
  others : ∀ j, j ≠ e → t.eng[j] = z.eng[j]
  host : t.host = z.host
  reg : ∀ a, (∀ k, k < 3 → a ≠ vecCnt e k) → t.reg a = z.reg a

/-- The vector unit of engine `e` and all bytes of memory are the same in `t` and `u`. -/
structure VectorSame (e : Fin 8) (t u : State) : Prop where
  vreg : u.eng[e].vreg = t.eng[e].vreg
  treg : u.eng[e].treg = t.eng[e].treg
  vl : u.eng[e].vl = t.eng[e].vl
  vbound : u.eng[e].vbound = t.eng[e].vbound
  srbase : u.eng[e].srbase = t.eng[e].srbase
  bytes : SameBytes t u

namespace VectorSame
variable {e : Fin 8} {t u : State} (hSame : VectorSame e t u)
include hSame

theorem vr (r : Nat) : u.eng[e].vr r = t.eng[e].vr r := by
  unfold Engine.vr
  rw [hSame.vreg]

theorem tr (r i : Nat) : u.eng[e].tr r i = t.eng[e].tr r i := by
  unfold Engine.tr
  rw [hSame.treg]

theorem vn (w : Nat) : u.eng[e].vn w = min t.eng[e].vl.toNat (4096 / w) := by
  unfold Engine.vn
  rw [hSame.vl]

theorem byte (a : Nat) : u.byte a = t.byte a := hSame.bytes.1 a

theorem readBytes (a n : Nat) : u.bytes a n = t.bytes a n := bytes_congr hSame.bytes.1 a n

end VectorSame

/-- What issue puts into pipe 0's queue. -/
def directQueued (s : State) (e : Fin 8) (op : Nat) (f : DirectF) : Queued :=
  ⟨.pipe 0, s.eng[e].nextId, f.tctr, s.eng[e].pc.toNat, [], some ⟨op, f, s.eng[e].rx f.xa⟩⟩

/-- Engine `en` with a direct instruction issued (R206, R207). -/
def Engine.issued (en : Engine) (op : Nat) (f : DirectF) : Engine := { en with
  queue := en.queue ++ [⟨.pipe 0, en.nextId, f.tctr, en.pc.toNat, [], some ⟨op, f, en.rx f.xa⟩⟩]
  nextId := en.nextId + 1
  state := .running
  wait := .none
  pc := en.pc + 8 }

/-- Engine `e` with `x` in progress. -/
def State.inProgress (s : State) (e : Fin 8) (x : Started) : State := s.modEng e fun en => { en with started := en.started ++ [x] }

/-- The direct instruction `q` in progress, with the ranges that it wrote and the summary that it will write. -/
def directStarted (q : Queued) (f : DirectF) (w : List (Nat × Nat)) (m : List (Nat × Reg32)) : Started :=
  ⟨.direct, q.id, if f.ten then some q.tctr else none, q.origin, [], none, w, 0, m, []⟩

/-- The state in which a direct instruction acts. -/
def State.directIssued (s : State) (e : Fin 8) (op : Nat) (f : DirectF) : State :=
  ((s.fetched e (0xC0 + op)).modEng e fun en => en.issued op f).dequeue e s.eng[e].nextId

theorem fetched_ecc (s : State) (e : Fin 8) (code : Nat) : (s.fetched e code).ecc = s.ecc := by
  obtain ⟨_, _, _, _, _, h⟩ := fetched_form s e code
  rw [h]

section
variable {s : State} {e : Fin 8} {op : Nat} {f : DirectF}

theorem empty_of_headOf (hEmpty : s.headOf e (.pipe 0) = none) : ∀ x ∈ s.eng[e].queue, x.q ≠ .pipe 0 := fun x hx =>
  of_decide_eq_false (Bool.eq_false_of_not_eq_true (List.find?_eq_none.mp hEmpty x hx))

theorem room_of_empty (hEmpty : s.headOf e (.pipe 0) = none) : s.room e (.pipe 0) = true := by
  unfold State.room
  rw [List.filter_eq_nil_iff.mpr fun x hx => by simpa using empty_of_headOf hEmpty x hx]
  rfl

theorem directIssued_ready (hEmpty : s.headOf e (.pipe 0) = none) : DirectReady s (s.directIssued e op f) e := by
  obtain ⟨i, g, he⟩ := fetched_eng s e (0xC0 + op)
  have hEng : (s.directIssued e op f).eng[e] = { ({ s.eng[e] with icount := i, tags := g } : Engine).issued op f with
      queue := (s.eng[e].queue ++ [directQueued s e op f]).filter fun x => decide (x.id ≠ s.eng[e].nextId) } := by
    unfold State.directIssued State.dequeue
    rw [State.modEng_get, State.modEng_get, he]
    rfl
  refine ⟨⟨i, g, _, _, hEng⟩, ?_, ?_, ?_⟩
  · unfold State.headOf
    rw [hEng, List.find?_eq_none]
    intro x hx
    obtain ⟨hIn, hId⟩ := List.mem_filter.mp hx
    rcases List.mem_append.mp hIn with hOld | hNew
    · simpa using empty_of_headOf hEmpty x hOld
    · rw [List.mem_singleton.mp hNew] at hId
      exact absurd hId (by simp [directQueued])
  · unfold State.directIssued State.dequeue
    exact ((fetched_frame s e _).trans (seqFrame_modEng _ _ _)).trans (seqFrame_modEng _ _ _)
  · exact fetched_ecc s e (0xC0 + op)

/-- A legal direct instruction that issues while pipe 0 has nothing waiting starts at once. -/
theorem directInstr_starts (h : s.issues e) (hLegal : directLegal op f = true) (hEmpty : s.headOf e (.pipe 0) = none) :
    directInstr op e f s =
      .next (((s.directIssued e op f).startDirect e (directQueued s e op f) ⟨op, f, s.eng[e].rx f.xa⟩).runDirects e 16) := by
  obtain ⟨i, g, he⟩ := fetched_eng s e (0xC0 + op)
  have hRoom : (s.fetched e (0xC0 + op)).room e (.pipe 0) = true :=
    ((fetchedFrom_fetched s e _).room _).trans (room_of_empty hEmpty)
  have hHead : ((s.fetched e (0xC0 + op)).modEng e fun en => en.issued op f).headOf e (.pipe 0) = some (directQueued s e op f) := by
    unfold State.headOf at hEmpty ⊢
    rw [State.modEng_get, he]
    unfold Engine.issued
    rw [List.find?_append, hEmpty]
    rfl
  unfold directInstr
  rw [hLegal, onSeq_issues _ _ _ _ h]
  unfold State.issueDirect
  rw [if_neg (by rw [hRoom]; decide)]
  refine congrArg _ ?_
  change State.runDirects ((s.fetched e (0xC0 + op)).modEng e fun en => en.issued op f) e (16 + 1) = _
  rw [State.runDirects, hHead]
  rfl

end

/-! ### What an effect leaves -/

theorem runDirects_of_empty {s : State} {e : Fin 8} (h : s.headOf e (.pipe 0) = none) (n : Nat) : s.runDirects e n = s := by
  cases n with
  | zero => rfl
  | succ n => rw [State.runDirects, h]

/-- The summary of a direct instruction with SUMEN whose elements have format `vf` (R214, R226). -/
def directSums (e : Fin 8) (d : Direct) (vf : VFmt) (codes : List Nat) : List (Nat × Reg32) :=
  if d.f.sumen then summaryRegs e d.f.slot.toNat
    (if d.op = 0x3B then summaryOf vf (d.f.vb.toNat % 8) (d.xa.toNat % 2 ^ 32) codes else summaryOf vf 0 0 codes) else []

theorem directSums_eq_sumRegs {e : Fin 8} {d : Direct} (h : d.op ≠ 0x3B) (vf : VFmt) (codes : List Nat) :
    directSums e d vf codes = sumRegs e d.f vf codes := by
  unfold directSums sumRegs
  rw [if_neg h]

theorem startDirect_ok {z t : State} {e : Fin 8} {q : Queued} {d : Direct} {w : List (Nat × Nat)} {codes : List Nat} {c : Nat} {vf : VFmt}
    (hFmt : vfmt c = some vf) (hEffect : z.directEffect e d = .ok t w codes c) :
    z.startDirect e q d = t.inProgress e (directStarted q d.f w (directSums e d vf codes)) := by
  unfold State.startDirect directSums
  rw [hEffect]
  dsimp only
  rw [hFmt]
  cases d.f.sumen with
  | false => rfl
  | true =>
    dsimp only
    rw [if_pos rfl]
    by_cases hOp : d.op = 0x3B
    · rw [if_pos hOp, if_pos hOp]
      rfl
    · rw [if_neg hOp, if_neg hOp]
      rfl

section
variable {s z t : State} {e : Fin 8} {op c : Nat} {f : DirectF} {vf : VFmt} {w : List (Nat × Nat)} {codes : List Nat}

theorem DirectKeeps.refl (e : Fin 8) (z : State) : DirectKeeps e z z := ⟨⟨_, _, _, _, _, rfl⟩, fun _ _ => rfl, rfl, fun _ _ => rfl⟩

theorem DirectKeeps.trans {u : State} (h : DirectKeeps e z t) (k : DirectKeeps e t u) : DirectKeeps e z u where
  eng := by
    obtain ⟨_, _, _, _, _, ht⟩ := h.eng
    obtain ⟨_, _, _, _, _, hu⟩ := k.eng
    exact ⟨_, _, _, _, _, hu.trans (by rw [ht])⟩
  others := fun j hj => (k.others j hj).trans (h.others j hj)
  host := k.host.trans h.host
  reg := fun a ha => (k.reg a ha).trans (h.reg a ha)

theorem vectorSame_inProgress (t : State) (e : Fin 8) (x : Started) : VectorSame e t (t.inProgress e x) := by
  unfold State.inProgress
  constructor
  case bytes => exact sameBytes_modEng t e _
  all_goals rw [State.modEng_get]

/-- A ready instruction that has acted is in progress. -/
theorem directRan_of_keeps (op : Nat) (hReady : DirectReady s z e) (hKeeps : DirectKeeps e z t) (m : List (Nat × Reg32)) :
    DirectRan s (t.inProgress e (directStarted (directQueued s e op f) f w m)) e f w m := by
  obtain ⟨i, g, qs, n, hz⟩ := hReady.eng
  obtain ⟨_, _, _, _, _, ht⟩ := hKeeps.eng
  rw [hz] at ht
  unfold State.inProgress
  constructor
  · rw [State.modEng_get, ht]
  · rw [State.modEng_get, ht]
  · intro r
    rw [State.modEng_get, ht]
    rfl
  · rw [State.modEng_get, ht]
    rfl
  · exact fun j hj => (State.modEng_get_ne _ _ _ _ hj).trans ((hKeeps.others j hj).trans (hReady.frame.others j hj))
  · exact hKeeps.host.trans hReady.frame.bytes.2
  · exact fun a hErr hLoupe hCount => (hKeeps.reg a hCount).trans (hReady.frame.reg a hErr hLoupe)

/-- A direct instruction whose effect goes through runs. -/
theorem direct_runs {P : State → Prop} (h : s.issues e) (hLegal : directLegal op f = true) (hEmpty : s.headOf e (.pipe 0) = none)
    (hFmt : vfmt c = some vf)
    (hEffect : ∀ z, DirectReady s z e → ∃ t, z.directEffect e ⟨op, f, s.eng[e].rx f.xa⟩ = .ok t w codes c ∧ DirectKeeps e z t ∧ P t) :
    ∃ t u, directInstr op e f s = .next u ∧ DirectRan s u e f w (directSums e ⟨op, f, s.eng[e].rx f.xa⟩ vf codes) ∧ VectorSame e t u ∧ P t := by
  have hReady : DirectReady s (s.directIssued e op f) e := directIssued_ready hEmpty
  obtain ⟨t, hOk, hKeeps, hP⟩ := hEffect _ hReady
  obtain ⟨_, _, _, _, _, ht⟩ := hKeeps.eng
  refine ⟨t, _, ?_, directRan_of_keeps op hReady hKeeps _, ?_, hP⟩
  · rw [directInstr_starts h hLegal hEmpty, startDirect_ok hFmt hOk, runDirects_of_empty]
    have hStill := hReady.empty
    unfold State.headOf at hStill ⊢
    unfold State.inProgress
    rw [State.modEng_get, ht]
    exact hStill
  · exact vectorSame_inProgress t e _

/-! ### What a ready instruction finds -/

namespace DirectReady
variable (hReady : DirectReady s z e)
include hReady

theorem same : VectorSame e s z := by
  obtain ⟨_, _, _, _, h⟩ := hReady.eng
  constructor
  case bytes => exact hReady.frame.bytes
  all_goals rw [h]

theorem clean (hc : s.clean) : z.clean := by
  refine clean_of hc hReady.ecc fun u => hReady.frame.reg _ (.inr ?_) ?_ <;> unfold key CTL
  · omega
  · unfold loupeKey key CTU
    omega

end DirectReady

end

end Sys2Proof.Machine
end

section
/-! SUPPORT. What the direct operations and moves write (R210, R211, R215, R220 to R223). -/
namespace Sys2Proof.Machine

/-! ### Counts (Table 7.14) -/

theorem vecCount_zero (s : State) (e : Fin 8) (k : Nat) : s.vecCount e k 0 = s := if_pos rfl

section
variable {s z t u : State} {e : Fin 8} {op c k m : Nat} {f : DirectF} {vf : VFmt} {w : List (Nat × Nat)} {codes : List Nat}

theorem vecCount_eng (s : State) (e : Fin 8) (k m : Nat) : (s.vecCount e k m).eng = s.eng := by
  unfold State.vecCount
  split
  · rfl
  · exact State.countUp_eng s _ _

theorem sameBytes_vecCount (s : State) (e : Fin 8) (k m : Nat) : SameBytes s (s.vecCount e k m) := by
  unfold State.vecCount
  split
  · exact SameBytes.refl s
  · exact sameBytes_setRegN s _ _

theorem vectorSame_vecCount (h : VectorSame e s z) (k m : Nat) : VectorSame e s (z.vecCount e k m) := by
  obtain ⟨hVreg, hTreg, hVl, hBound, hBase, hBytes⟩ := h
  constructor
  case bytes => exact hBytes.trans (sameBytes_vecCount z e k m)
  all_goals
    rw [vecCount_eng]
    assumption

theorem arrayRun_vecCount {w : List (Nat × Nat)} (hc : s.clean) (hk : k < 3) (m : Nat) : ArrayRun e w s (s.vecCount e k m) := by
  unfold State.vecCount
  split
  · exact ArrayRun.refl hc
  · refine arrayRun_setRegN hc _ _ ?_
    unfold vecCnt key CTU CTL
    omega

theorem directKeeps_vecCount (s : State) (e : Fin 8) (hk : k < 3) (m : Nat) : DirectKeeps e s (s.vecCount e k m) where
  eng := ⟨_, _, _, _, _, by rw [vecCount_eng]⟩
  others := fun j _ => by rw [vecCount_eng]
  host := (sameBytes_vecCount s e k m).2
  reg := fun a ha => by
    unfold State.vecCount
    split
    · rfl
    · exact State.reg_setReg_ne _ _ _ _ (ha k hk)

/-! ### Results in VD (R210) -/

theorem directKeeps_modEng {g : Engine → Engine}
    (hForm : ∃ v x vl bound base, g s.eng[e] = { s.eng[e] with vreg := v, treg := x, vl := vl, vbound := bound, srbase := base }) :
    DirectKeeps e s (s.modEng e g) where
  eng := by rwa [State.modEng_get]
  others := fun _ hj => State.modEng_get_ne _ _ _ _ hj
  host := rfl
  reg := fun _ _ => rfl

/-- The elements that an instruction writes to VD, over the vector unit that it finds. -/
theorem vdHolds_setVr (hSame : VectorSame e s z) (hLen : k * codes.length ≤ 4096)
    (hActed : VectorSame e (z.modEng e fun en => en.setVr f.vd.toNat (packElems k (en.vr f.vd.toNat) codes)) u) : VdHolds s u e f k codes := by
  have hVr : ∀ r, u.eng[e].vr r = if r = f.vd.toNat then packElems k (s.eng[e].vr f.vd.toNat) codes else s.eng[e].vr r := fun r => by
    rw [hActed.vr, State.modEng_get, vr_setVr, Nat.mod_eq_of_lt (packElems_lt (vr_lt _ _) hLen), hSame.vr, hSame.vr]
  exact ⟨(hVr _).trans (if_pos rfl), fun r hr => (hVr r).trans (if_neg hr)⟩

theorem vwidth_of_vfmt (h : vfmt c = some vf) : vwidth c = vf.width := by
  unfold vwidth
  rw [h]
  rfl

/-- An instruction whose effect is to write elements to VD, perhaps after counting. -/
theorem direct_toVd (h : s.issues e) (hLegal : directLegal op f = true) (hEmpty : s.headOf e (.pipe 0) = none) (hOp : op ≠ 0x3B)
    (hFmt : vfmt c = some vf) (hLen : vf.width * codes.length ≤ 4096)
    (hEffect : ∀ z, DirectReady s z e → ∃ k < 3, ∃ m, z.directEffect e ⟨op, f, s.eng[e].rx f.xa⟩ = (z.vecCount e k m).toVd e f c codes) :
    ∃ u, directInstr op e f s = .next u ∧ DirectRan s u e f [] (sumRegs e f vf codes) ∧ VdHolds s u e f vf.width codes
      ∧ ∀ a, u.byte a = s.byte a := by
  obtain ⟨_, u, hExec, hRan, hActed, y, hSame, rfl⟩ := direct_runs (w := []) (codes := codes)
    (P := fun t => ∃ y, VectorSame e s y ∧ t = y.modEng e fun en => en.setVr f.vd.toNat (packElems vf.width (en.vr f.vd.toNat) codes))
    h hLegal hEmpty hFmt fun z hReady => by
      obtain ⟨k, hk, m, hTo⟩ := hEffect z hReady
      unfold State.toVd at hTo
      rw [vwidth_of_vfmt hFmt] at hTo
      exact ⟨_, hTo, (directKeeps_vecCount z e hk m).trans (directKeeps_modEng ⟨_, _, _, _, _, rfl⟩), _, vectorSame_vecCount hReady.same k m, rfl⟩
  rw [directSums_eq_sumRegs hOp] at hRan
  exact ⟨u, hExec, hRan, vdHolds_setVr hSame hLen hActed, fun a =>
    (hActed.byte a).trans (((sameBytes_modEng y e _).1 a).trans (hSame.byte a))⟩

/-! ### Operations of Table 7.3 (R209, R211, R216) -/

/-- The engine's key registers are those that the fetch found (R202). -/
theorem rnd_ready (hReady : DirectReady s z e) (code idx : Nat) : z.rnd e code idx = s.rnd e code idx := by
  have hReg : ∀ o, CTU ≤ o → o < CTU + 0x300 → z.regN (key e o) = s.regN (key e o) := fun o hLow hHigh => by
    have hMod := key_mod e.val o (by unfold CTU at hHigh; omega)
    exact congrArg BitVec.toNat (hReady.frame.reg _ (.inr (by rw [hMod]; unfold CTL; unfold CTU at hLow; omega)) (key_ne_key e.val (by omega)))
  unfold State.rnd State.srDraw State.reg64
  dsimp only
  rw [key_add, hReg (CTU + 0x200 + 4 * 0) (by omega) (by omega), hReg (CTU + 0x200 + 4 * 1) (by omega) (by omega),
    hReg (CTU + 0x200 + 4 * 2) (by omega) (by omega), hReg (CTU + 0x200 + 4 * 3) (by omega) (by omega),
    hReg (CTU + 0x210) (by omega) (by omega), hReg (CTU + 0x210 + 4) (by omega) (by omega)]

/-- The operation of Table 7.3 with code `op` on element `l` of the sources of an instruction of engine `e`. -/
def aluCode (s : State) (e : Fin 8) (op : Nat) (f : DirectF) (vf sf : VFmt) (l : Nat) : Nat :=
  vecAlu op vf sf (s.rnd e f.rnd.toNat ((s.eng[e].srbase.toNat + l) % 2 ^ 32)) f.sat
    (s.eng[e].vr f.va.toNat / 2 ^ (sf.width * l) % 2 ^ sf.width) (s.eng[e].vr f.vb.toNat / 2 ^ (vf.width * l) % 2 ^ vf.width)
    (s.eng[e].vr f.vd.toNat / 2 ^ (vf.width * l) % 2 ^ vf.width)

theorem directEffect_arith {sf : VFmt} {xa : Word} (hReady : DirectReady s z e) (hOp : op ≤ 26) (hOk : opFmtOk op f.fmt.toNat (f.vb.toNat % 16) = true)
    (hFmt : vfmt f.fmt.toNat = some vf) (hSrc : vfmt (if op = 17 then f.vb.toNat % 16 else f.fmt.toNat) = some sf) :
    z.directEffect e ⟨op + 16, f, xa⟩ = z.toVd e f f.fmt.toNat
      ((List.range (min s.eng[e].vl.toNat (4096 / max vf.width sf.width))).map (aluCode s e op f vf sf)) := by
  unfold State.directEffect
  dsimp only
  rw [if_pos (by omega), Nat.add_sub_cancel, if_pos hOk]
  unfold State.vecArith
  dsimp only
  rw [hFmt, hSrc]
  dsimp only
  rw [hReady.same.vn]
  refine congrArg _ (List.map_congr_left fun l hl => ?_)
  have hLt := List.mem_range.mp hl
  unfold aluCode
  rw [elems_getD _ hLt, elems_getD _ hLt, elems_getD _ hLt, rnd_ready hReady, hReady.same.srbase, hReady.same.vr, hReady.same.vr, hReady.same.vr]

theorem exec_vectorArithmetic {c : Instr}
    (h : (op, c) ∈ [(0, .vecAdd e f), (1, .vecSub e f), (2, .vecMul e f), (3, .vecFma e f), (4, .vecMin e f), (5, .vecMax e f),
      (6, .vecAbs e f), (7, .vecNeg e f), (8, .vecCeq e f), (9, .vecClt e f), (10, .vecCle e f), (11, .vecSel e f),
      (12, .vecAnd e f), (13, .vecOr e f), (14, .vecXor e f), (15, .vecShl e f), (16, .vecShr e f), (17, .cvt e f),
      (18, .scalb e f), (19, .recip e f), (20, .rsqrt e f), (21, .sqrt e f), (22, .exp e f), (23, .log e f), (24, .sin e f),
      (25, .cos e f), (26, .atan2 e f)]) (s : State) : exec c s = directInstr (op + 16) e f s ∧ op ≤ 26 := by
  simp only [List.mem_cons, Prod.mk.injEq, List.not_mem_nil, or_false] at h
  rcases h with ⟨rfl, rfl⟩ | ⟨rfl, rfl⟩ | ⟨rfl, rfl⟩ | ⟨rfl, rfl⟩ | ⟨rfl, rfl⟩ | ⟨rfl, rfl⟩ | ⟨rfl, rfl⟩ | ⟨rfl, rfl⟩ | ⟨rfl, rfl⟩ | ⟨rfl, rfl⟩
    | ⟨rfl, rfl⟩ | ⟨rfl, rfl⟩ | ⟨rfl, rfl⟩ | ⟨rfl, rfl⟩ | ⟨rfl, rfl⟩ | ⟨rfl, rfl⟩ | ⟨rfl, rfl⟩ | ⟨rfl, rfl⟩ | ⟨rfl, rfl⟩ | ⟨rfl, rfl⟩
    | ⟨rfl, rfl⟩ | ⟨rfl, rfl⟩ | ⟨rfl, rfl⟩ | ⟨rfl, rfl⟩ | ⟨rfl, rfl⟩ | ⟨rfl, rfl⟩ | ⟨rfl, rfl⟩
  all_goals exact ⟨rfl, by decide⟩

/-- `n` elements of at most `w` bits, as many as fit a register with elements of a width `w` or more, fit it. -/
theorem elements_fit {w v n m : Nat} (hWidth : w ≤ v) (hn : n = min m (4096 / v)) : w * n ≤ 4096 :=
  calc w * n ≤ v * (4096 / v) := Nat.mul_le_mul hWidth (hn ▸ Nat.min_le_right _ _)
    _ ≤ 4096 := Nat.mul_div_le 4096 v

end

/-- Settles O19: the instruction finds registers and settings as the fetch left them, and its effect is to write its codes to VD. -/
theorem vectorArithmeticWritesVd : Obligations.VectorArithmeticWritesVd := by
  intro e f s op c vf sf hRow h hLegal hEmpty hOk hFmt hSrc en n codes
  obtain ⟨hExec, hOp⟩ := exec_vectorArithmetic hRow s
  rw [hExec]
  refine direct_toVd h hLegal hEmpty (by omega) hFmt ?_ fun z hReady =>
    ⟨0, by decide, 0, (directEffect_arith hReady hOp hOk hFmt hSrc).trans (by rw [vecCount_zero]; rfl)⟩
  rw [List.length_map, List.length_range]
  exact elements_fit (Nat.le_max_left _ _) rfl

end Sys2Proof.Machine
end

section
/-! SUPPORT. Direct instructions that set the vector length, the gather bound and the rounding base, and the moves of whole tiles (R210, R215, R221). -/
namespace Sys2Proof.Machine

/-! ### Instructions without a summary (R214) -/

theorem sumen_of_legal {op : Nat} {f : DirectF} (hLegal : directLegal op f = true) (hSum : sumAllowed op = false) : f.sumen = false := by
  unfold directLegal at hLegal
  cases hf : f.sumen with
  | false => rfl
  | true =>
    rw [hf, hSum] at hLegal
    simp at hLegal

section
variable {s z : State} {e : Fin 8} {op : Nat} {f : DirectF} {w : List (Nat × Nat)}

/-- A direct instruction that may not have a summary runs without one. -/
theorem direct_runs_noSum {P : State → Prop} (h : s.issues e) (hLegal : directLegal op f = true) (hEmpty : s.headOf e (.pipe 0) = none)
    (hSum : sumAllowed op = false)
    (hEffect : ∀ z, DirectReady s z e → ∃ t, z.directEffect e ⟨op, f, s.eng[e].rx f.xa⟩ = .ok t w [] 0 ∧ DirectKeeps e z t ∧ P t) :
    ∃ t u, directInstr op e f s = .next u ∧ DirectRan s u e f w [] ∧ VectorSame e t u ∧ P t := by
  obtain ⟨t, u, hExec, hRan, hRest⟩ := direct_runs h hLegal hEmpty (c := 0) rfl hEffect
  unfold directSums at hRan
  rw [sumen_of_legal hLegal hSum] at hRan
  exact ⟨t, u, hExec, hRan, hRest⟩

/-! ### Settings (R210, R221) -/

/-- The place that VSETVL, VSETBND and VSETSR each set, whatever FMT holds (R215). -/
theorem directEffect_vsetvl (z : State) (e : Fin 8) (f : DirectF) (xa : Word) :
    z.directEffect e ⟨0x3C, f, xa⟩ = .ok (z.modEng e fun en => { en with vl := (xa + f.imm.setWidth 64).setWidth 32 }) [] [] 0 := rfl

theorem directEffect_vsetbnd (z : State) (e : Fin 8) (f : DirectF) (xa : Word) :
    z.directEffect e ⟨0x3D, f, xa⟩ = .ok (z.modEng e fun en => { en with vbound := (xa + f.imm.setWidth 64).setWidth 32 }) [] [] 0 := rfl

theorem directEffect_vsetsr (z : State) (e : Fin 8) (f : DirectF) (xa : Word) :
    z.directEffect e ⟨0x3E, f, xa⟩ = .ok (z.modEng e fun en => { en with srbase := xa.setWidth 32 + f.imm.setWidth 32 }) [] [] 0 := rfl

theorem setting_value (xa : Word) (i : BitVec 7) : (xa + i.setWidth 64).setWidth 32 = (BitVec.ofNat 32 (xa.toNat + i.toNat) : Reg32) := by
  bv_omega

theorem base_value (xa : Word) (i : BitVec 7) : xa.setWidth 32 + i.setWidth 32 = (BitVec.ofNat 32 (xa.toNat + i.toNat) : Reg32) := by
  bv_omega

/-- An instruction whose effect is to set the settings. -/
theorem direct_settings {vl bound base : Engine → Reg32} {a b c : Reg32} (h : s.issues e) (hLegal : directLegal op f = true)
    (hEmpty : s.headOf e (.pipe 0) = none) (hSum : sumAllowed op = false)
    (hEffect : ∀ z : State, z.directEffect e ⟨op, f, s.eng[e].rx f.xa⟩ =
      .ok (z.modEng e fun en => { en with vl := vl en, vbound := bound en, srbase := base en }) [] [] 0)
    (hSets : ∀ z, DirectReady s z e → vl z.eng[e] = a ∧ bound z.eng[e] = b ∧ base z.eng[e] = c) :
    ∃ u, directInstr op e f s = .next u ∧ DirectRan s u e f [] [] ∧ u.eng[e].vl = a ∧ u.eng[e].vbound = b ∧ u.eng[e].srbase = c
      ∧ u.eng[e].vreg = s.eng[e].vreg ∧ u.eng[e].treg = s.eng[e].treg ∧ SameBytes s u := by
  obtain ⟨t, u, hExec, hRan, hSame, z, hReady, rfl⟩ := direct_runs_noSum (w := [])
    (P := fun t => ∃ z, DirectReady s z e ∧ t = z.modEng e fun en => { en with vl := vl en, vbound := bound en, srbase := base en })
    h hLegal hEmpty hSum fun z hReady => ⟨_, hEffect z, directKeeps_modEng ⟨_, _, _, _, _, rfl⟩, z, hReady, rfl⟩
  obtain ⟨hVl, hBound, hBase⟩ := hSets z hReady
  obtain ⟨hu1, hu2, hu3, hu4, hu5, hBytes⟩ := hSame
  rw [State.modEng_get] at hu1 hu2 hu3 hu4 hu5
  exact ⟨u, hExec, hRan, hu3.trans hVl, hu4.trans hBound, hu5.trans hBase, hu1.trans hReady.same.vreg, hu2.trans hReady.same.treg,
    hReady.frame.bytes.trans ((sameBytes_modEng z e _).trans hBytes)⟩

/-! ### Whole tiles (R215) -/

theorem bytes_getD (s : State) (a : Nat) {n i : Nat} (h : i < n) : (s.bytes a n).getD i 0 = s.byte (a + i) := getD_map_range _ 0 h

theorem directKeeps_mem (z : State) (e : Fin 8) (m : List (Nat × Byte)) : DirectKeeps e z { z with mem := m } :=
  ⟨⟨_, _, _, _, _, rfl⟩, fun _ _ => rfl, rfl, fun _ _ => rfl⟩

theorem directEffect_vldt (z : State) (e : Fin 8) (f : DirectF) (xa : Word) : z.directEffect e ⟨0x33, f, xa⟩ = z.vLdt e f xa := by
  simp [State.directEffect, noFmt]

theorem directEffect_vstt (z : State) (e : Fin 8) (f : DirectF) (xa : Word) : z.directEffect e ⟨0x34, f, xa⟩ = z.vStt e f xa := by
  simp [State.directEffect, noFmt]

theorem vLdt_of_clean (hc : z.clean) (h64 : dirOff f xa % 64 = 0) (hIn : dirOff f xa + 4096 ≤ SPAD) :
    z.vLdt e f xa = if z.eng[e].vl = 0 then .ok z [] [] 0 else
      .ok (z.modEng e fun en => { en with treg := putBytes en.treg (4096 * (f.vd.toNat % 8)) (z.bytes (key e (dirOff f xa)) 4096) }) [] [] 0 := by
  unfold State.vLdt
  dsimp only
  rw [if_neg (by omega), read_of_clean hc]

/-- The bytes of tile register `t` in order. -/
def Engine.tileBytes (en : Engine) (t : Nat) : List Byte := (List.range 4096).map fun i => Sparse.get memZero en.treg (4096 * t + i)

theorem tileBytes_length (en : Engine) (t : Nat) : (en.tileBytes t).length = 4096 := by
  unfold Engine.tileBytes
  rw [List.length_map, List.length_range]

theorem vStt_of_clean (hc : z.clean) (h64 : dirOff f xa % 64 = 0) (hIn : dirOff f xa + 4096 ≤ SPAD) :
    z.vStt e f xa = if z.eng[e].vl = 0 then .ok z [] [] 0 else
      .ok { z with mem := putBytes z.mem (key e (dirOff f xa)) (z.eng[e].tileBytes (f.va.toNat % 8)) } [(key e (dirOff f xa), 4096)] [] 0 := by
  unfold State.vStt
  dsimp only
  rw [if_neg (by omega), write_of_clean hc]
  rfl

theorem vldt_effect (hc : s.clean) {o : Nat} (ho : dirOff f (s.eng[e].rx f.xa) = o) (h64 : o % 64 = 0) (hIn : o + 4096 ≤ SPAD)
    (hReady : DirectReady s z e) :
    ∃ t, z.directEffect e ⟨0x33, f, s.eng[e].rx f.xa⟩ = .ok t [] [] 0 ∧ DirectKeeps e z t ∧ SameBytes s t ∧
      ∀ k, Sparse.get memZero t.eng[e].treg k =
        if k / 4096 = f.vd.toNat % 8 ∧ s.eng[e].vl ≠ 0 then s.byte (key e o + k % 4096) else Sparse.get memZero s.eng[e].treg k := by
  subst ho
  rw [directEffect_vldt, vLdt_of_clean (hReady.clean hc) h64 hIn, hReady.same.vl]
  by_cases hVl : s.eng[e].vl = 0
  · rw [if_pos hVl]
    refine ⟨z, rfl, DirectKeeps.refl e z, hReady.frame.bytes, fun k => ?_⟩
    rw [if_neg fun hk => hk.2 hVl, hReady.same.treg]
  · rw [if_neg hVl]
    refine ⟨_, rfl, directKeeps_modEng ⟨_, _, _, _, _, rfl⟩, hReady.frame.bytes.trans (sameBytes_modEng z e _), fun k => ?_⟩
    rw [State.modEng_get, get_putBytes, bytes_length, hReady.same.treg]
    by_cases hk : k / 4096 = f.vd.toNat % 8
    · rw [if_pos (by omega), if_pos ⟨hk, hVl⟩, bytes_getD _ _ (by omega), hReady.same.byte]
      exact congrArg s.byte (by omega)
    · rw [if_neg (by omega), if_neg fun hx => hk hx.1]

/-- VLDT fills its tile register from the scratchpad, or leaves it under a vector length of 0. -/
theorem direct_vldt (h : s.issues e) (hLegal : directLegal 0x33 f = true) (hEmpty : s.headOf e (.pipe 0) = none) (hc : s.clean) {o : Nat}
    (ho : dirOff f (s.eng[e].rx f.xa) = o) (h64 : o % 64 = 0) (hIn : o + 4096 ≤ SPAD) :
    ∃ u, directInstr 0x33 e f s = .next u ∧ DirectRan s u e f [] [] ∧ (∀ a, u.byte a = s.byte a) ∧
      ∀ k, k < 32768 → Sparse.get memZero u.eng[e].treg k =
        if k / 4096 = f.vd.toNat % 8 ∧ s.eng[e].vl ≠ 0 then s.byte (key e o + k % 4096) else Sparse.get memZero s.eng[e].treg k := by
  obtain ⟨t, u, hExec, hRan, hSame, hBytes, hTile⟩ := direct_runs_noSum h hLegal hEmpty rfl fun _ => vldt_effect hc ho h64 hIn
  exact ⟨u, hExec, hRan, fun a => (hSame.byte a).trans (hBytes.1 a), fun k _ => by rw [hSame.treg]; exact hTile k⟩

theorem vstt_effect (hc : s.clean) {o : Nat} (ho : dirOff f (s.eng[e].rx f.xa) = o) (h64 : o % 64 = 0) (hIn : o + 4096 ≤ SPAD)
    (hReady : DirectReady s z e) :
    ∃ t, z.directEffect e ⟨0x34, f, s.eng[e].rx f.xa⟩ = .ok t (if s.eng[e].vl = 0 then [] else [(key e o, 4096)]) [] 0 ∧ DirectKeeps e z t ∧
      t.eng[e].treg = s.eng[e].treg ∧
      ∀ a, t.byte a = if key e o ≤ a ∧ a < key e o + 4096 ∧ s.eng[e].vl ≠ 0
        then Sparse.get memZero s.eng[e].treg (4096 * (f.va.toNat % 8) + (a - key e o)) else s.byte a := by
  subst ho
  rw [directEffect_vstt, vStt_of_clean (hReady.clean hc) h64 hIn, hReady.same.vl]
  by_cases hVl : s.eng[e].vl = 0
  · rw [if_pos hVl, if_pos hVl]
    refine ⟨z, rfl, DirectKeeps.refl e z, hReady.same.treg, fun a => ?_⟩
    rw [if_neg fun ha => ha.2.2 hVl, hReady.same.byte]
  · rw [if_neg hVl, if_neg hVl]
    refine ⟨_, rfl, directKeeps_mem z e _, hReady.same.treg, fun a => ?_⟩
    rw [putBytes_byte_clean (hReady.clean hc), tileBytes_length, hReady.same.byte]
    generalize key e (dirOff f (s.eng[e].rx f.xa)) = u
    by_cases ha : u ≤ a ∧ a < u + 4096
    · rw [if_pos ha, if_pos ⟨ha.1, ha.2, hVl⟩]
      unfold Engine.tileBytes
      rw [getD_map_range _ 0 (by omega), hReady.same.treg]
    · rw [if_neg ha, if_neg fun hx => ha ⟨hx.1, hx.2.1⟩]

/-- VSTT writes its tile register's 4,096 bytes to the scratchpad, or nothing under a vector length of 0. -/
theorem direct_vstt (h : s.issues e) (hLegal : directLegal 0x34 f = true) (hEmpty : s.headOf e (.pipe 0) = none) (hc : s.clean) {o : Nat}
    (ho : dirOff f (s.eng[e].rx f.xa) = o) (h64 : o % 64 = 0) (hIn : o + 4096 ≤ SPAD) :
    ∃ u, directInstr 0x34 e f s = .next u ∧ DirectRan s u e f (if s.eng[e].vl = 0 then [] else [(key e o, 4096)]) [] ∧
      u.eng[e].treg = s.eng[e].treg ∧
      ∀ a, u.byte a = if key e o ≤ a ∧ a < key e o + 4096 ∧ s.eng[e].vl ≠ 0
        then Sparse.get memZero s.eng[e].treg (4096 * (f.va.toNat % 8) + (a - key e o)) else s.byte a := by
  obtain ⟨t, u, hExec, hRan, hSame, hTile, hByte⟩ := direct_runs_noSum h hLegal hEmpty rfl fun _ => vstt_effect hc ho h64 hIn
  exact ⟨u, hExec, hRan, hSame.treg.trans hTile, fun a => (hSame.byte a).trans (hByte a)⟩

end

/-- Settles O21: a setting is one field of the engine that the effect replaces, a tile move one read and one write of 4,096 bytes. -/
theorem vectorSettingsAndTileMoves : Obligations.VectorSettingsAndTileMoves := by
  intro e f s h hEmpty en v o ran
  refine ⟨fun hLegal => ?_, fun hLegal => ?_, fun hLegal => ?_, fun hLegal hc h64 hIn => ?_, fun hLegal hc h64 hIn => ?_⟩
  · exact direct_settings h hLegal hEmpty rfl (fun z => directEffect_vsetvl z e f _) fun z hReady => ⟨setting_value _ _, hReady.same.vbound, hReady.same.srbase⟩
  · exact direct_settings h hLegal hEmpty rfl (fun z => directEffect_vsetbnd z e f _) fun z hReady => ⟨hReady.same.vl, setting_value _ _, hReady.same.srbase⟩
  · exact direct_settings h hLegal hEmpty rfl (fun z => directEffect_vsetsr z e f _) fun z hReady => ⟨hReady.same.vl, hReady.same.vbound, base_value _ _⟩
  · exact direct_vldt h hLegal hEmpty hc rfl h64 hIn
  · exact direct_vstt h hLegal hEmpty hc rfl h64 hIn

end Sys2Proof.Machine
end

section
/-! SUPPORT. The direct moves: elements loaded, permuted, gathered and reduced into VD, elements stored and scattered, and elements of tiles
(R215, R220 to R223, R226). -/
namespace Sys2Proof.Machine

/-! ### Scattered elements (R222) -/

/-- A memory after elements of `n` bytes were stored in lane order. -/
def scatterMem (e : Fin 8) (n : Nat) (m : List (Nat × Byte)) (l : List (Nat × Nat)) : List (Nat × Byte) :=
  l.foldl (fun m x => putBytes m (key e x.1) (toLE n x.2)) m

theorem scatter_of_clean {e : Fin 8} {n : Nat} : ∀ {l : List (Nat × Nat)} {s : State}, s.clean →
    s.scatter e n l = ({ s with mem := scatterMem e n s.mem l }, true)
  | [], _, _ => rfl
  | (o, v) :: l, s, hc => by
    unfold State.scatter
    rw [write_of_clean hc]
    exact scatter_of_clean (clean_mem hc _)

section
variable {e : Fin 8} {n : Nat}

theorem get_scatterMem_apart {a : Nat} : ∀ {l : List (Nat × Nat)} {m : List (Nat × Byte)}, (∀ x ∈ l, a < key e x.1 ∨ key e x.1 + n ≤ a) →
    Sparse.get memZero (scatterMem e n m l) a = Sparse.get memZero m a
  | [], _, _ => rfl
  | x :: l, m, h => by
    obtain ⟨hHead, hTail⟩ := List.forall_mem_cons.mp h
    refine (get_scatterMem_apart (m := putBytes m (key e x.1) (toLE n x.2)) hTail).trans ?_
    rw [get_putBytes, toLE_length, if_neg (by omega)]

/-- The last element stored at a place stays there. -/
theorem get_scatterMem_last {pre post : List (Nat × Nat)} {m : List (Nat × Byte)} {o v : Nat} (h : ∀ x ∈ post, o + n ≤ x.1 ∨ x.1 + n ≤ o) :
    ((List.range n).map fun i => Sparse.get memZero (scatterMem e n m (pre ++ (o, v) :: post)) (key e o + i)) = toLE n v := by
  unfold scatterMem
  rw [List.foldl_append, List.foldl_cons]
  have hPut := map_get_putBytes (scatterMem e n m pre) (key e o) (toLE n v)
  rw [toLE_length] at hPut
  refine Eq.trans (List.map_congr_left fun i hi => get_scatterMem_apart fun x hx => ?_) hPut
  have hLt := List.mem_range.mp hi
  have hApart := h x hx
  unfold key
  omega

/-- The pairs of two lists that pass a test, around place `l`: after it come pairs of later places alone. -/
theorem filter_zip_split {xs ys : List Nat} {p : Nat × Nat → Bool} {l : Nat} (hLen : xs.length = ys.length) (hl : l < xs.length)
    (hp : p (xs.getD l 0, ys.getD l 0) = true) :
    ∃ pre post, (xs.zip ys).filter p = pre ++ (xs.getD l 0, ys.getD l 0) :: post ∧ ∀ x ∈ post, ∃ k, l < k ∧ k < xs.length ∧ x.1 = xs.getD k 0 := by
  have hZip : l < (xs.zip ys).length := by rw [List.length_zip]; omega
  have hAt : (xs.zip ys)[l] = (xs.getD l 0, ys.getD l 0) := by
    rw [List.getElem_zip, List.getD_eq_getElem _ 0 hl, List.getD_eq_getElem _ 0 (hLen ▸ hl)]
  refine ⟨((xs.zip ys).take l).filter p, ((xs.zip ys).drop (l + 1)).filter p, ?_, fun x hx => ?_⟩
  · calc (xs.zip ys).filter p = ((xs.zip ys).take l ++ (xs.zip ys).drop l).filter p := by rw [List.take_append_drop]
      _ = _ := by rw [List.drop_eq_getElem_cons hZip, hAt, List.filter_append, List.filter_cons_of_pos hp]
  · obtain ⟨k, hk, hx⟩ := List.mem_iff_getElem.mp (List.mem_filter.mp hx).1
    rw [List.length_drop, List.length_zip] at hk
    refine ⟨l + 1 + k, by omega, by omega, ?_⟩
    rw [← hx, List.getElem_drop, List.getElem_zip, List.getD_eq_getElem _ 0 (by omega)]

/-! ### Elements of a tile register (R215) -/

theorem tilePos_inj {f : DirectF} {i j : Nat} (h : tilePos f i = tilePos f j) : i = j := by
  unfold tilePos at h
  dsimp only at h
  split at h <;> omega

/-- Elements put into tile register `t` at places `pos 0`, `pos 1` and so on, from the `k`-th on. -/
def Engine.putElems (en : Engine) (t : Nat) (pos : Nat → Nat) (k : Nat) (xs : List Nat) : Engine :=
  (xs.zipIdx k).foldl (fun en x => en.setTr t (pos x.2) x.1) en

theorem putElems_cons (en : Engine) (t : Nat) (pos : Nat → Nat) (k x : Nat) (xs : List Nat) :
    en.putElems t pos k (x :: xs) = (en.setTr t (pos k) x).putElems t pos (k + 1) xs := rfl

theorem putElems_form (t : Nat) (pos : Nat → Nat) : ∀ (xs : List Nat) (en : Engine) (k : Nat), ∃ m, en.putElems t pos k xs = { en with treg := m }
  | [], en, _ => ⟨en.treg, rfl⟩
  | x :: xs, en, k => by
    obtain ⟨m, h⟩ := putElems_form t pos xs (en.setTr t (pos k) x) (k + 1)
    exact ⟨m, by rw [putElems_cons, h]; rfl⟩

theorem tr_putElems_before {t : Nat} {pos : Nat → Nat} (hPos : ∀ i j, pos i = pos j → i = j) {l : Nat} :
    ∀ {xs : List Nat} {en : Engine} {k : Nat}, l < k → (en.putElems t pos k xs).tr t (pos l) = en.tr t (pos l)
  | [], _, _, _ => rfl
  | x :: xs, en, k, hl => by
    rw [putElems_cons, tr_putElems_before hPos (by omega), tr_setTr, if_neg fun h => by have := hPos _ _ h; omega]

theorem tr_putElems {t : Nat} {pos : Nat → Nat} (hPos : ∀ i j, pos i = pos j → i = j) :
    ∀ {xs : List Nat} {en : Engine} {k l : Nat}, l < xs.length → (en.putElems t pos k xs).tr t (pos (k + l)) = xs.getD l 0 % 2 ^ 32
  | [], _, _, _, hl => absurd hl (Nat.not_lt_zero _)
  | x :: xs, en, k, 0, _ => by
    rw [putElems_cons, show k + 0 = k from rfl, tr_putElems_before hPos (Nat.lt_add_one k), tr_setTr, if_pos rfl]
    rfl
  | x :: xs, en, k, l + 1, hl => by
    rw [putElems_cons, show k + (l + 1) = k + 1 + l by omega, tr_putElems hPos (Nat.lt_of_succ_lt_succ hl)]
    rfl

end

/-! ### Effects -/

theorem plain_width {c : Nat} {vf : VFmt} (h : vfmt c = some vf) (hc : c < 8) : vf.width = 8 ∨ vf.width = 16 ∨ vf.width = 32 := by
  interval_cases c <;> cases h <;> decide

section
variable {s z : State} {e : Fin 8} {op : Nat} {f : DirectF} {vf : VFmt} {xa : Word}

/-! Once FMT is a plain format, each move that reads it has the effect that its own definition gives (R209). -/

section
variable (h : plainFmt f.fmt.toNat = true)
include h

theorem directEffect_vbcast : z.directEffect e ⟨0x30, f, xa⟩ = z.vBcast e f xa := by
  simp [State.directEffect, noFmt, h]

theorem directEffect_vld : z.directEffect e ⟨0x31, f, xa⟩ = z.vLd e f xa := by
  simp [State.directEffect, noFmt, h]

theorem directEffect_vst : z.directEffect e ⟨0x32, f, xa⟩ = z.vSt e f xa := by
  simp [State.directEffect, noFmt, h]

theorem directEffect_vtget : z.directEffect e ⟨0x35, f, xa⟩ = z.vTget e f := by
  simp [State.directEffect, noFmt, h]

theorem directEffect_vtput : z.directEffect e ⟨0x36, f, xa⟩ = z.vTput e f := by
  simp [State.directEffect, noFmt, h]

theorem directEffect_vperm : z.directEffect e ⟨0x37, f, xa⟩ = z.vPerm e f := by
  simp [State.directEffect, noFmt, h]

theorem directEffect_vgather : z.directEffect e ⟨0x38, f, xa⟩ = z.vGather e f xa := by
  simp [State.directEffect, noFmt, h]

theorem directEffect_vscatter : z.directEffect e ⟨0x39, f, xa⟩ = z.vScatter e f xa := by
  simp [State.directEffect, noFmt, h]

theorem directEffect_vredt : z.directEffect e ⟨0x3A, f, xa⟩ = z.vRedt e f := by
  simp [State.directEffect, noFmt, h]

theorem directEffect_vsumm : z.directEffect e ⟨0x3B, f, xa⟩ =
    .ok z [] (elems (vwidth f.fmt.toNat) (z.eng[e].vn (vwidth f.fmt.toNat)) (z.eng[e].vr f.va.toNat)) f.fmt.toNat := by
  simp [State.directEffect, noFmt, h]

end

/-! ### Moves into VD (R215, R220, R221) -/

theorem vBcast_ready (hReady : DirectReady s z e) (hFmt : vfmt f.fmt.toNat = some vf) (xa : Word) :
    z.vBcast e f xa = z.toVd e f f.fmt.toNat (List.replicate (min s.eng[e].vl.toNat (4096 / vf.width)) (xa.toNat % 2 ^ vf.width)) := by
  unfold State.vBcast
  dsimp only
  rw [vwidth_of_vfmt hFmt, hReady.same.vn]

theorem vLd_ready (hReady : DirectReady s z e) (hFmt : vfmt f.fmt.toNat = some vf) (hc : s.clean) (h64 : dirOff f xa % 64 = 0)
    (hIn : dirOff f xa + 512 ≤ SPAD) :
    z.vLd e f xa = z.toVd e f f.fmt.toNat
      (elems vf.width (min s.eng[e].vl.toNat (4096 / vf.width)) (leNat (s.bytes (key e (dirOff f xa)) 512))) := by
  unfold State.vLd
  dsimp only
  rw [if_neg (by omega), read_of_clean (hReady.clean hc), vwidth_of_vfmt hFmt, hReady.same.vn, hReady.same.readBytes]

theorem vTget_ready (hReady : DirectReady s z e) (hFmt : vfmt f.fmt.toNat = some vf) :
    z.vTget e f = z.toVd e f f.fmt.toNat ((List.range (min 32 (min s.eng[e].vl.toNat (4096 / vf.width)))).map fun l =>
      s.eng[e].tr (f.va.toNat % 8) (tilePos f l) % 2 ^ vf.width) := by
  unfold State.vTget
  dsimp only
  simp only [vwidth_of_vfmt hFmt, hReady.same.vn, hReady.same.tr]

theorem vPerm_ready (hReady : DirectReady s z e) (hFmt : vfmt f.fmt.toNat = some vf) {n : Nat}
    (hn : min s.eng[e].vl.toNat (4096 / vf.width) = n) :
    ∃ m, z.vPerm e f = (z.vecCount e 0 m).toVd e f f.fmt.toNat ((elems vf.width n (s.eng[e].vr f.vb.toNat)).map fun i =>
      (elems vf.width n (s.eng[e].vr f.va.toNat)).getD (min i (n - 1)) 0) := by
  unfold State.vPerm
  dsimp only
  rw [vwidth_of_vfmt hFmt, hReady.same.vn, hn, hReady.same.vr, hReady.same.vr]
  exact ⟨_, rfl⟩

theorem checkLines_of_clean (hc : z.clean) (e : Fin 8) (offs : List Nat) : z.checkLines e offs = (z, true) := checkAll_of_clean hc _

/-- The offsets that VGATHER reads, of elements of `b` bytes from `a` on (R221). -/
def gatherOffs (a b bound : Nat) (idx : List Nat) : List Nat := if bound = 0 then [] else idx.map fun i => a + min i (bound - 1) * b

theorem gatherOffs_length (a b bound : Nat) (idx : List Nat) : (gatherOffs a b bound idx).length ≤ idx.length := by
  unfold gatherOffs
  split
  · exact Nat.zero_le _
  · rw [List.length_map]

theorem vGather_ready (hReady : DirectReady s z e) (hFmt : vfmt f.fmt.toNat = some vf) (hc : s.clean) {idx : List Nat}
    (hIdx : elems 32 (min (min s.eng[e].vl.toNat (4096 / vf.width)) 128) (s.eng[e].vr f.vb.toNat) = idx) (h64 : dirOff f xa % 64 = 0)
    (hIn : ∀ o ∈ gatherOffs (dirOff f xa) (vf.width / 8) s.eng[e].vbound.toNat idx, o + vf.width / 8 ≤ SPAD) :
    ∃ m, z.vGather e f xa = (z.vecCount e 0 m).toVd e f f.fmt.toNat
      ((gatherOffs (dirOff f xa) (vf.width / 8) s.eng[e].vbound.toNat idx).map fun o => leNat (s.bytes (key e o) (vf.width / 8))) := by
  have hRange : ((gatherOffs (dirOff f xa) (vf.width / 8) s.eng[e].vbound.toNat idx).any fun o => decide (SPAD < o + vf.width / 8)) = false :=
    List.any_eq_false.mpr fun o ho => by simpa using hIn o ho
  unfold gatherOffs at *
  unfold State.vGather
  simp only [vwidth_of_vfmt hFmt, hReady.same.vn, hReady.same.vbound, hReady.same.vr, hIdx]
  rw [if_neg (by rw [hRange]; simpa using h64), checkLines_of_clean (hReady.clean hc)]
  simp only [hReady.same.readBytes]
  exact ⟨_, rfl⟩

/-- VGATHER writes what stands at the places that it reads. -/
theorem direct_vgather (h : s.issues e) (hLegal : directLegal 0x38 f = true) (hEmpty : s.headOf e (.pipe 0) = none) (hc : s.clean)
    (hFmt : vfmt f.fmt.toNat = some vf) {o b bound : Nat} {idx : List Nat} (ho : dirOff f (s.eng[e].rx f.xa) = o) (h64 : o % 64 = 0)
    (hb : vf.width / 8 = b) (hBound : s.eng[e].vbound.toNat = bound)
    (hIdx : elems 32 (min (min s.eng[e].vl.toNat (4096 / vf.width)) 128) (s.eng[e].vr f.vb.toNat) = idx) (hLow : f.fmt.toNat < 8)
    (hIn : ∀ x ∈ gatherOffs o b bound idx, x + b ≤ SPAD) :
    ∃ u, directInstr 0x38 e f s = .next u ∧
      DirectRan s u e f [] (sumRegs e f vf ((gatherOffs o b bound idx).map fun x => leNat (s.bytes (key e x) b))) ∧
      VdHolds s u e f vf.width ((gatherOffs o b bound idx).map fun x => leNat (s.bytes (key e x) b)) ∧ ∀ a, u.byte a = s.byte a := by
  subst ho hb hBound hIdx
  refine direct_toVd h hLegal hEmpty (by decide) hFmt ?_ fun z hReady => ⟨0, by decide, ?_⟩
  · refine (Nat.mul_le_mul_left _ ?_).trans (elements_fit (Nat.le_refl _) (m := s.eng[e].vl.toNat) rfl)
    rw [List.length_map]
    refine (gatherOffs_length _ _ _ _).trans ?_
    rw [elems_length]
    exact Nat.min_le_left _ _
  · rw [directEffect_vgather (decide_eq_true hLow)]
    exact vGather_ready hReady hFmt hc rfl h64 hIn

/-! ### Summaries (R226) -/

theorem directSums_vsumm {xa : Word} {codes : List Nat} (hLegal : directLegal 0x3B f = true) :
    directSums e ⟨0x3B, f, xa⟩ vf codes = summaryRegs e f.slot.toNat (summaryOf vf (f.vb.toNat % 8) (xa.toNat % 2 ^ 32) codes) := by
  have hSum : f.sumen = true := by
    unfold directLegal at hLegal
    cases hf : f.sumen with
    | true => rfl
    | false =>
      rw [hf] at hLegal
      simp at hLegal
  unfold directSums
  rw [if_pos hSum, if_pos rfl]

/-! ### Reductions of a tile (R223) -/

/-- Results of a reduction are 32 bits wide. -/
theorem vfmt_redFmt (op : Nat) (isf : Bool) : ∃ v, vfmt (redFmt op isf) = some v ∧ v.width = 32 := by
  unfold redFmt
  split <;> exact ⟨_, rfl, rfl⟩

/-- Result `i` of VREDT with fields `f` on engine `en`, and whether it saturated. -/
def redtResult (en : Engine) (f : DirectF) (vf : VFmt) (i : Nat) : Nat × Bool :=
  redResult (f.vb.toNat % 8) vf.fmt.isFloat (redTree (f.vb.toNat % 8) vf.fmt.isFloat
    (redLine (bit f.vb.toNat 3) 32 32 i (fun r c => vf.value (en.tr (f.va.toNat % 8) (32 * r + c) % 2 ^ vf.width)) 0))

theorem vRedt_ready (hReady : DirectReady s z e) (hFmt : vfmt f.fmt.toNat = some vf) :
    ∃ m, z.vRedt e f = (z.vecCount e 2 m).toVd e f (redFmt (f.vb.toNat % 8) vf.fmt.isFloat)
      (((List.range (min 32 s.eng[e].vl.toNat)).map (redtResult s.eng[e] f vf)).map (·.1)) := by
  unfold State.vRedt redtResult
  rw [hFmt]
  simp only [hReady.same.tr, hReady.same.vl]
  exact ⟨_, rfl⟩

/-- VREDT writes one result of 32 bits for each row or column below the vector length. -/
theorem direct_vredt (h : s.issues e) (hLegal : directLegal 0x3A f = true) (hEmpty : s.headOf e (.pipe 0) = none)
    (hFmt : vfmt f.fmt.toNat = some vf) (hPlain : plainFmt f.fmt.toNat = true) :
    ∃ m u, directInstr 0x3A e f s = .next u ∧ DirectRan s u e f [] m ∧
      VdHolds s u e f 32 (((List.range (min 32 s.eng[e].vl.toNat)).map (redtResult s.eng[e] f vf)).map (·.1)) ∧ ∀ a, u.byte a = s.byte a := by
  obtain ⟨v, hRes, hWidth⟩ := vfmt_redFmt (f.vb.toNat % 8) vf.fmt.isFloat
  obtain ⟨u, hExec, hRan, hHolds, hBytes⟩ := direct_toVd h hLegal hEmpty (by decide) hRes
    (codes := ((List.range (min 32 s.eng[e].vl.toNat)).map (redtResult s.eng[e] f vf)).map (·.1))
    (by rw [hWidth, List.length_map, List.length_map, List.length_range]; omega) fun z hReady => ⟨2, by decide, by
      rw [directEffect_vredt hPlain]
      exact vRedt_ready hReady hFmt⟩
  rw [hWidth] at hHolds
  exact ⟨_, u, hExec, hRan, hHolds, hBytes⟩

/-! ### Stores (R215, R222) -/

theorem vst_effect (hReady : DirectReady s z e) (hFmt : vfmt f.fmt.toNat = some vf) (hPlain : plainFmt f.fmt.toNat = true) (hc : s.clean)
    {n o : Nat} (hn : min s.eng[e].vl.toNat (4096 / vf.width) = n) (ho : dirOff f xa = o) (h64 : o % 64 = 0) (hIn : o + 512 ≤ SPAD) :
    ∃ t, z.directEffect e ⟨0x32, f, xa⟩ = .ok t [(key e o, n * vf.width / 8)] [] 0 ∧ DirectKeeps e z t ∧
      (∀ r, t.eng[e].vr r = s.eng[e].vr r) ∧
      ∀ a, t.byte a = if key e o ≤ a ∧ a < key e o + n * vf.width / 8
        then (toLE (n * vf.width / 8) (s.eng[e].vr f.va.toNat)).getD (a - key e o) 0 else s.byte a := by
  rw [directEffect_vst hPlain]
  unfold State.vSt
  dsimp only
  rw [ho, if_neg (by omega), vwidth_of_vfmt hFmt, hReady.same.vn, hn, hReady.same.vr, write_of_clean (hReady.clean hc)]
  refine ⟨_, rfl, directKeeps_mem z e _, hReady.same.vr, fun a => ?_⟩
  rw [putBytes_byte_clean (hReady.clean hc), toLE_length, hReady.same.byte]

theorem vtput_effect (hReady : DirectReady s z e) (hFmt : vfmt f.fmt.toNat = some vf) (hPlain : plainFmt f.fmt.toNat = true)
    (hWidth : vf.width ≤ 32) {n : Nat} (hn : min s.eng[e].vl.toNat (4096 / vf.width) = n) :
    ∃ t, z.directEffect e ⟨0x36, f, xa⟩ = .ok t [] [] 0 ∧ DirectKeeps e z t ∧ (∀ a, t.byte a = s.byte a) ∧
      (∀ r, t.eng[e].vr r = s.eng[e].vr r) ∧ ∀ l, l < min 32 n →
        t.eng[e].tr (f.vd.toNat % 8) (tilePos f l) = (elems vf.width n (s.eng[e].vr f.va.toNat)).getD l 0 := by
  rw [directEffect_vtput hPlain]
  unfold State.vTput
  dsimp only
  rw [vwidth_of_vfmt hFmt, hReady.same.vn, hn, hReady.same.vr]
  obtain ⟨m, hForm⟩ := putElems_form (f.vd.toNat % 8) (tilePos f) (elems vf.width (min 32 n) (s.eng[e].vr f.va.toNat)) z.eng[e] 0
  have hEng : (z.modEng e fun en => en.putElems (f.vd.toNat % 8) (tilePos f) 0 (elems vf.width (min 32 n) (s.eng[e].vr f.va.toNat))).eng[e] =
      z.eng[e].putElems (f.vd.toNat % 8) (tilePos f) 0 (elems vf.width (min 32 n) (s.eng[e].vr f.va.toNat)) := State.modEng_get _ _ _
  refine ⟨_, rfl, directKeeps_modEng ⟨_, m, _, _, _, hForm⟩,
    fun a => ((sameBytes_modEng z e _).1 a).trans (hReady.same.byte a), fun r => ?_, fun l hl => ?_⟩
  · refine (congrArg (Engine.vr · r) (hEng.trans hForm)).trans ?_
    exact hReady.same.vr r
  · refine (congrArg (Engine.tr · _ _) hEng).trans ?_
    have hPut := tr_putElems (t := f.vd.toNat % 8) (pos := tilePos f) (fun _ _ => tilePos_inj) (en := z.eng[e]) (k := 0) (l := l)
      (xs := elems vf.width (min 32 n) (s.eng[e].vr f.va.toNat)) (by rwa [elems_length])
    rw [Nat.zero_add] at hPut
    rw [hPut, elems_getD _ hl, elems_getD _ (by omega)]
    exact Nat.mod_eq_of_lt (Nat.lt_of_lt_of_le (Nat.mod_lt _ (Nat.two_pow_pos _)) (Nat.pow_le_pow_right (by decide) hWidth))

/-- Elements of `b` bytes at different places do not meet. -/
theorem elements_apart {i j : Nat} (b : Nat) (h : i ≠ j) : i * b + b ≤ j * b ∨ j * b + b ≤ i * b :=
  (Nat.lt_or_gt_of_ne h).imp (block_end_le b) (block_end_le b)

/-- The elements that VSCATTER stores, with their places: those whose index is below the bound (R222). -/
def scatterPairs (bound : Nat) (idx xs : List Nat) : List (Nat × Nat) := (idx.zip xs).filter fun p => decide (p.1 < bound)

theorem mem_scatterPairs {bound : Nat} {idx xs : List Nat} {p : Nat × Nat} (h : p ∈ scatterPairs bound idx xs) : p.1 ∈ idx ∧ p.1 < bound := by
  obtain ⟨hZip, hBound⟩ := List.mem_filter.mp h
  exact ⟨(List.of_mem_zip hZip).1, of_decide_eq_true hBound⟩

section
variable {o b bound : Nat} {idx xs : List Nat}

/-- Bytes apart from every element stored are the same. -/
theorem scattered_apart (m : List (Nat × Byte)) {a : Nat}
    (h : ∀ i ∈ idx, i < bound → a < key e (o + i * b) ∨ key e (o + i * b) + b ≤ a) :
    Sparse.get memZero (scatterMem e b m ((scatterPairs bound idx xs).map fun p => (o + p.1 * b, p.2))) a = Sparse.get memZero m a := by
  refine get_scatterMem_apart fun x hx => ?_
  obtain ⟨p, hp, rfl⟩ := List.mem_map.mp hx
  obtain ⟨hIn, hBound⟩ := mem_scatterPairs hp
  exact h p.1 hIn hBound

/-- The highest lane that names a place decides what stands there. -/
theorem scattered_last (m : List (Nat × Byte)) {l : Nat} (hLen : idx.length = xs.length) (hl : l < idx.length) (hBound : idx.getD l 0 < bound)
    (hLast : ∀ k, l < k → k < idx.length → idx.getD k 0 ≠ idx.getD l 0) :
    ((List.range b).map fun i => Sparse.get memZero (scatterMem e b m ((scatterPairs bound idx xs).map fun p => (o + p.1 * b, p.2)))
      (key e (o + idx.getD l 0 * b) + i)) = toLE b (xs.getD l 0) := by
  obtain ⟨pre, post, hSplit, hPost⟩ := filter_zip_split (p := fun p => decide (p.1 < bound)) hLen hl (decide_eq_true hBound)
  unfold scatterPairs
  rw [hSplit, List.map_append, List.map_cons]
  refine get_scatterMem_last fun x hx => ?_
  obtain ⟨p, hp, rfl⟩ := List.mem_map.mp hx
  obtain ⟨k, hlk, hk, hIdx⟩ := hPost p hp
  dsimp only
  rw [hIdx]
  have hApart := elements_apart b (hLast k hlk hk)
  omega

end

theorem vscatter_effect (hReady : DirectReady s z e) (hFmt : vfmt f.fmt.toNat = some vf) (hPlain : plainFmt f.fmt.toNat = true) (hc : s.clean)
    {n o b bound : Nat} (hn : min s.eng[e].vl.toNat (4096 / vf.width) = n) (ho : dirOff f xa = o) (hb : vf.width / 8 = b)
    (hBound : s.eng[e].vbound.toNat = bound) {idx : List Nat} (hIdx : elems 32 (min n 128) (s.eng[e].vr f.vb.toNat) = idx) (h64 : o % 64 = 0)
    (hIn : ∀ i ∈ idx, i < bound → o + i * b + b ≤ SPAD) :
    ∃ t, z.directEffect e ⟨0x39, f, xa⟩ =
        .ok t ((scatterPairs bound idx (elems vf.width (min n 128) (s.eng[e].vr f.va.toNat))).map fun p => (key e (o + p.1 * b), b)) [] 0 ∧
      DirectKeeps e z t ∧
      (∀ l, l < idx.length → idx.getD l 0 < bound → (∀ k, l < k → k < idx.length → idx.getD k 0 ≠ idx.getD l 0) →
        t.bytes (key e (o + idx.getD l 0 * b)) b = toLE b ((elems vf.width n (s.eng[e].vr f.va.toNat)).getD l 0)) ∧
      ∀ a, (∀ i ∈ idx, i < bound → a < key e (o + i * b) ∨ key e (o + i * b) + b ≤ a) → t.byte a = s.byte a := by
  have hLength : idx.length = min n 128 := hIdx ▸ elems_length _ _ _
  generalize hXs : elems vf.width (min n 128) (s.eng[e].vr f.va.toNat) = xs
  have hLen : idx.length = xs.length := hLength.trans (hXs ▸ (elems_length _ _ _).symm)
  have hRange : (((scatterPairs bound idx xs).map fun p => (o + p.1 * b, p.2)).any fun x => decide (SPAD < x.1 + b)) = false := by
    refine List.any_eq_false.mpr fun x hx => ?_
    obtain ⟨p, hp, rfl⟩ := List.mem_map.mp hx
    obtain ⟨hMem, hLt⟩ := mem_scatterPairs hp
    simpa using hIn p.1 hMem hLt
  have hCount : ∀ m, ArrayRun e [] z (z.vecCount e 1 m) := arrayRun_vecCount (hReady.clean hc) (by decide)
  rw [directEffect_vscatter hPlain]
  unfold State.vScatter
  dsimp only
  rw [ho, vwidth_of_vfmt hFmt, hReady.same.vn, hn, hReady.same.vr, hReady.same.vr, hReady.same.vbound, hBound, hb, hIdx, hXs,
    show ((idx.zip xs).filter fun p => decide (p.1 < bound)) = scatterPairs bound idx xs from rfl]
  rw [if_neg (by rw [hRange]; simpa using h64), scatter_of_clean (hCount _).clean, List.map_map]
  have hMem : ∀ m k a, ({ z.vecCount e 1 k with mem := m } : State).byte a = Sparse.get memZero m a := fun m k =>
    byte_of_clean (clean_mem (hCount k).clean m)
  refine ⟨_, rfl, (directKeeps_vecCount z e (by decide) _).trans (directKeeps_mem _ e _), fun l hl hLt hLast => ?_, fun a ha => ?_⟩
  · rw [elems_getD _ (by omega), ← elems_getD (n := min n 128) _ (by omega), hXs, ← scattered_last _ hLen hl hLt hLast]
    exact List.map_congr_left fun i _ => hMem _ _ _
  · rw [hMem, scattered_apart _ ha, ← hReady.same.byte]
    exact (byte_of_clean (hCount _).clean a).symm.trans ((sameBytes_vecCount z e 1 _).1 a)

end

/-- Settles O20: each move that writes VD is one effect whose codes are those of the statement; a store, a scatter and a tile write are effects of
their own, and VSUMM has none. -/
theorem vectorMovesReadAndWriteWhatTheyName : Obligations.VectorMovesReadAndWriteWhatTheyName := by
  intro e f s vf h hc hEmpty hFmt hLow en w n o va idx bound ran keep toVd
  have hPlain : plainFmt f.fmt.toNat = true := decide_eq_true hLow
  have hWidth : w = 8 ∨ w = 16 ∨ w = 32 := plain_width hFmt hLow
  have hFit : ∀ k, k ≤ n → w * k ≤ 4096 := fun k hk => (Nat.mul_le_mul_left w hk).trans (elements_fit (Nat.le_refl w) rfl)
  refine ⟨fun hLegal => ?_, fun hLegal h64 hIn => ?_, fun hLegal h64 hIn => ?_, fun hLegal => ?_, fun hLegal => ?_, fun hLegal => ?_,
    fun hLegal h64 hBound hIn => ?_, fun hLegal h64 hBound => ?_, fun hLegal h64 hIn => ?_, fun hLegal => ?_, fun hLegal => ?_⟩
  · refine direct_toVd h hLegal hEmpty (by decide) hFmt (hFit _ (by rw [List.length_replicate])) fun z hReady => ⟨0, by decide, 0, ?_⟩
    rw [directEffect_vbcast hPlain, vBcast_ready hReady hFmt, vecCount_zero]
  · refine direct_toVd h hLegal hEmpty (by decide) hFmt (hFit _ (by rw [elems_length])) fun z hReady => ⟨0, by decide, 0, ?_⟩
    rw [directEffect_vld hPlain, vLd_ready hReady hFmt hc h64 hIn, vecCount_zero]
    rfl
  · obtain ⟨t, u, hExec, hRan, hSame, hVr, hByte⟩ := direct_runs_noSum h hLegal hEmpty rfl fun z hReady =>
      vst_effect hReady hFmt hPlain hc rfl rfl h64 hIn
    exact ⟨u, hExec, hRan, fun r => (hSame.vr r).trans (hVr r), fun a => (hSame.byte a).trans (hByte a)⟩
  · refine direct_toVd h hLegal hEmpty (by decide) hFmt (hFit _ ?_) fun z hReady => ⟨0, by decide, 0, ?_⟩
    · rw [List.length_map, List.length_range]
      exact Nat.min_le_right _ _
    · rw [directEffect_vtget hPlain, vTget_ready hReady hFmt, vecCount_zero]
  · obtain ⟨t, u, hExec, hRan, hSame, hByte, hVr, hTr⟩ := direct_runs_noSum h hLegal hEmpty rfl fun z hReady =>
      vtput_effect hReady hFmt hPlain (by omega) rfl
    exact ⟨u, hExec, hRan, fun a => (hSame.byte a).trans (hByte a), fun r => (hSame.vr r).trans (hVr r),
      fun l hl => (hSame.tr _ _).trans (hTr l hl)⟩
  · refine direct_toVd h hLegal hEmpty (by decide) hFmt (hFit _ (by rw [List.length_map, elems_length])) fun z hReady => ⟨0, by decide, ?_⟩
    rw [directEffect_vperm hPlain]
    exact vPerm_ready hReady hFmt rfl
  · have hOffs : gatherOffs o (w / 8) bound idx = idx.map fun i => o + min i (bound - 1) * (w / 8) := if_neg hBound
    have hGather := direct_vgather h hLegal hEmpty hc hFmt (o := o) (b := w / 8) (bound := bound) (idx := idx) rfl h64 rfl rfl rfl hLow
      (hOffs ▸ List.forall_mem_map.mpr hIn)
    rw [hOffs, List.map_map] at hGather
    exact hGather
  · have hOffs : gatherOffs o (w / 8) bound idx = [] := if_pos hBound
    have hGather := direct_vgather h hLegal hEmpty hc hFmt (o := o) (b := w / 8) (bound := bound) (idx := idx) rfl h64 rfl rfl rfl hLow
      (hOffs ▸ fun _ hx => nomatch hx)
    rw [hOffs] at hGather
    exact hGather
  · obtain ⟨t, u, hExec, hRan, hSame, hLast, hByte⟩ := direct_runs_noSum h hLegal hEmpty rfl fun z hReady =>
      vscatter_effect hReady hFmt hPlain hc rfl rfl rfl rfl rfl h64 hIn
    exact ⟨u, hExec, hRan, fun l hl hLt hk => (hSame.readBytes _ _).trans (hLast l hl hLt hk),
      fun a ha => (hSame.byte a).trans (hByte a ha)⟩
  · exact direct_vredt h hLegal hEmpty hFmt hPlain
  · obtain ⟨t, u, hExec, hRan, hSame, hReady⟩ := direct_runs (P := fun t => DirectReady s t e) h hLegal hEmpty hFmt fun z hReady => by
      rw [directEffect_vsumm hPlain, vwidth_of_vfmt hFmt, hReady.same.vn, hReady.same.vr]
      exact ⟨z, rfl, DirectKeeps.refl e z, hReady⟩
    rw [directSums_vsumm hLegal] at hRan
    exact ⟨u, hExec, hRan, fun a => (hSame.byte a).trans (hReady.same.byte a), fun r => (hSame.vr r).trans (hReady.same.vr r)⟩

end Sys2Proof.Machine
end

section
/-! SUPPORT. Descriptors of the vector unit with results, and Collimator's checks and fills (R99, R206, R228, Table 7.12). -/
namespace Sys2Proof.Machine

/-! ### The head of a queue starts (R99, R206) -/

/-- The descriptor `d` in progress, with the ranges that it wrote and what its completion writes. -/
def descStarted (d : Queued) (w : List (Nat × Nat)) (result : List (Nat × Reg32)) (stores : List (Nat × List Byte)) : Started :=
  ⟨d.q, d.id, some d.tctr, d.origin, d.desc, none, w, 0, result, stores⟩

section
variable {e : Fin 8} {s t : State} {d : Queued} {q : EngQ} {u kind : Nat} {kinds : List Nat} {w : List (Nat × Nat)} {run : State → Queued → DescOut}
  {result : List (Nat × Reg32)} {stores : List (Nat × List Byte)}

theorem itemStarted_inProgress (h : ArrayRun e w (s.dequeue e d.id) t) (result : List (Nat × Reg32)) (stores : List (Nat × List Byte)) :
    ItemStarted s (t.inProgress e (descStarted d w result stores)) e d w result stores := by
  have hStarted : t.eng[e].started = s.eng[e].started := h.started.trans (by unfold State.dequeue; rw [State.modEng_get])
  obtain ⟨hQueue, -, hBytes, hOthers, hHost⟩ := itemStarted_of_run h
  unfold State.startDesc at hQueue hBytes hOthers hHost
  unfold State.inProgress
  refine ⟨?_, ?_, fun a ha => ?_, fun j hj => ?_, hHost⟩
  · rw [State.modEng_get] at hQueue ⊢
    exact hQueue
  · rw [State.modEng_get, hStarted]
    rfl
  · exact ((sameBytes_modEng t e _).1 a).trans (((sameBytes_modEng t e _).1 a).symm.trans (hBytes a ha))
  · exact (State.modEng_get_ne _ _ _ _ hj).trans ((State.modEng_get_ne _ _ _ _ hj).symm.trans (hOthers j hj))

/-- A descriptor of the kind asked for, whose run goes through, starts, and memory is what the run left. -/
theorem startVec_starts (hHead : s.headOf e q = some d) (hDir : d.dir = none) (hTok : s.tokensOk e d.desc = true)
    (hDirs : ∀ x ∈ s.eng[e].queue, x.dir = none) (hKind : fieldLE d.desc 0 1 % 16 = kind) (hMem : kind ∈ kinds)
    (hOk : run (s.dequeue e d.id) d = .ok t w result stores) (hRun : ArrayRun e w (s.dequeue e d.id) t) :
    ItemStarted s (s.startVec e q u kinds kind run) e d w result stores ∧ SameBytes t (s.startVec e q u kinds kind run) := by
  have hStarted := itemStarted_inProgress hRun result stores
  have hStart : s.startVec e q u kinds kind run = t.inProgress e (descStarted d w result stores) := by
    unfold State.startVec
    rw [hHead]
    dsimp only
    rw [hKind, if_neg (by simp [hDir, hTok]), if_neg (not_not_intro hMem), if_neg (not_not_intro rfl), hOk]
    exact runDirects_of_none (fun x hx => hDirs x (List.mem_of_mem_filter (hStarted.queue ▸ hx))) 17
  rw [hStart]
  exact ⟨hStarted, sameBytes_modEng t e _⟩

end

/-! ### Words of 64 bits -/

theorem chunksAux_of_flatten {α : Type} {n : Nat} (hn : n ≠ 0) : ∀ {l : List (List α)} {f : Nat}, (∀ x ∈ l, x.length = n) → l.length ≤ f →
    chunksAux n f l.flatten = l
  | [], 0, _, _ => rfl
  | [], _ + 1, _, _ => rfl
  | x :: l, f + 1, h, hf => by
    obtain ⟨hHead, hTail⟩ := List.forall_mem_cons.mp h
    have hRest := chunksAux_of_flatten hn hTail (Nat.le_of_succ_le_succ hf)
    rw [List.flatten_cons, chunksAux, List.take_left' hHead, List.drop_left' hHead, hRest]
    intro hNil
    rw [(List.append_eq_nil_iff.mp hNil).1] at hHead
    exact hn hHead.symm

theorem length_le_flatten {α : Type} : ∀ {l : List (List α)}, (∀ x ∈ l, x ≠ []) → l.length ≤ l.flatten.length
  | [], _ => Nat.le_refl 0
  | x :: l, h => by
    obtain ⟨hHead, hTail⟩ := List.forall_mem_cons.mp h
    have hRest := length_le_flatten hTail
    have hPos := List.length_pos_iff.mpr hHead
    rw [List.flatten_cons, List.length_append, List.length_cons]
    omega

/-- The words that pieces of 8 bytes spell. -/
theorem words64_flatten {l : List (List Byte)} (h : ∀ x ∈ l, x.length = 8) : words64 l.flatten = l.map leNat := by
  unfold words64 chunks
  rw [if_neg (by decide), chunksAux_of_flatten (by decide) h (length_le_flatten fun x hx hNil => by simpa [hNil] using h x hx)]

theorem bytes_words (s : State) (a : Nat) : ∀ k, s.bytes a (8 * k) = ((List.range k).map fun i => s.bytes (a + 8 * i) 8).flatten
  | 0 => rfl
  | k + 1 => by
    rw [List.range_succ, List.map_append, List.flatten_append, ← bytes_words s a k, Nat.mul_succ]
    unfold State.bytes
    rw [List.range_add, List.map_append, List.map_map]
    simp [Function.comp_def, Nat.add_assoc]

theorem words64_bytes (s : State) (a k : Nat) : words64 (s.bytes a (8 * k)) = (List.range k).map fun i => leNat (s.bytes (a + 8 * i) 8) := by
  rw [bytes_words, words64_flatten (List.forall_mem_map.mpr fun _ _ => bytes_length s _ 8), List.map_map]
  rfl

/-- Words of 64 bits put side by side are read back. -/
theorem words64_flatMap {ws : List Nat} (h : ∀ w ∈ ws, w < 2 ^ 64) : words64 (ws.flatMap (toLE 8)) = ws := by
  rw [List.flatMap_def, words64_flatten (List.forall_mem_map.mpr fun w _ => toLE_length 8 w), List.map_map]
  refine (List.map_congr_left fun w hw => ?_).trans (List.map_id ws)
  exact (leNat_toLE 8 w).trans (Nat.mod_eq_of_lt (h w hw))

/-- A write runs, changes its own range alone, and is read back. -/
theorem write_whole {e : Fin 8} {s : State} (hc : s.clean) (a : Nat) {bs : List Byte} {n : Nat} (hn : bs.length = n) :
    ∃ t, s.write a bs = (t, true) ∧ ArrayRun e [(a, n)] s t ∧ t.bytes a n = bs := by
  subst hn
  obtain ⟨t, hWrite, hRun⟩ := write_runs (e := e) (w := [(a, bs.length)]) hc (within_of_mem (List.mem_singleton_self _) (Nat.le_refl a) (Nat.le_refl _))
  refine ⟨t, hWrite, hRun, ?_⟩
  rw [write_of_clean hc] at hWrite
  obtain ⟨rfl, -⟩ := Prod.mk.inj hWrite
  exact bytes_put hc a bs

/-! ### Checks of a Collimator descriptor (R228, Table 7.12) -/

/-- The checks that all kinds share: LEN and ADDR1 in whole blocks, RADDR in whole words, the bytes from ADDR1 in range. -/
structure ColFits (b : List Byte) : Prop where
  len : fieldLE b 4 4 % 64 = 0
  addr : fieldLE b 8 4 % 64 = 0
  raddr : fieldLE b 24 4 % 8 = 0
  range : fieldLE b 4 4 ≠ 0 → colRange (fieldLE b 8 4) (fieldLE b 4 4) = true

/-- The checks that a kind has beside: RADDR's range for every kind but FILL, ADDR2 for COMPARE. -/
structure ColFitsKind (b : List Byte) (kind : Nat) : Prop extends ColFits b where
  result : kind ≠ 0xA → colRange (fieldLE b 24 4) 8 = true
  second : kind = 0xB → fieldLE b 12 4 % 64 = 0 ∧ (fieldLE b 4 4 ≠ 0 → colRange (fieldLE b 12 4) (fieldLE b 4 4) = true)

theorem ColFitsKind.passes {b : List Byte} {kind : Nat} (h : ColFitsKind b kind) :
    ¬(fieldLE b 4 4 % 64 ≠ 0 ∨ fieldLE b 8 4 % 64 ≠ 0 ∨ (kind = 0xB ∧ fieldLE b 12 4 % 64 ≠ 0) ∨ fieldLE b 24 4 % 8 ≠ 0
      ∨ (fieldLE b 4 4 ≠ 0 ∧ colRange (fieldLE b 8 4) (fieldLE b 4 4) = false)
      ∨ (fieldLE b 4 4 ≠ 0 ∧ kind = 0xB ∧ colRange (fieldLE b 12 4) (fieldLE b 4 4) = false)
      ∨ (kind ≠ 0xA ∧ colRange (fieldLE b 24 4) 8 = false)) := by
  obtain ⟨⟨hLen, hAddr, hRaddr, hRange⟩, hResult, hSecond⟩ := h
  rintro (hx | hx | ⟨hk, hx⟩ | hx | ⟨h0, hx⟩ | ⟨h0, hk, hx⟩ | ⟨hk, hx⟩)
  · exact hx hLen
  · exact hx hAddr
  · exact hx (hSecond hk).1
  · exact hx hRaddr
  · exact Bool.false_ne_true (hx.symm.trans (hRange h0))
  · exact Bool.false_ne_true (hx.symm.trans ((hSecond hk).2 h0))
  · exact Bool.false_ne_true (hx.symm.trans (hResult hk))

/-- Word `i` of a FILL (Table 7.12). -/
def fillWord (pm pat i : Nat) : Nat := if pm = 0 then pat else if pm = 1 then pat ^^^ i else 2 ^ 64 - 1 - (pat ^^^ i)

theorem fillWord_lt {pm pat i : Nat} (hPat : pat < 2 ^ 64) (hi : i < 2 ^ 64) : fillWord pm pat i < 2 ^ 64 := by
  unfold fillWord
  split
  · exact hPat
  · split
    · exact Nat.xor_lt_two_pow hPat hi
    · omega

section
variable {e : Fin 8} {s : State} {d : Queued} {len a1 a2 ra : Nat}

theorem runCol_fill (hc : s.clean) (hFits : ColFitsKind d.desc 0xA) (hKind : fieldLE d.desc 0 1 % 16 = 0xA) (hMode : fieldLE d.desc 1 1 % 4 ≠ 3)
    {ws : List Nat} (hWords : (List.range (fieldLE d.desc 4 4 / 8)).map (fillWord (fieldLE d.desc 1 1 % 4) (fieldLE d.desc 16 8)) = ws) :
    ∃ t, State.runCol e s d = .ok t [(key e (fieldLE d.desc 8 4), fieldLE d.desc 4 4)] [] [] ∧
      ArrayRun e [(key e (fieldLE d.desc 8 4), fieldLE d.desc 4 4)] s t ∧
      t.bytes (key e (fieldLE d.desc 8 4)) (fieldLE d.desc 4 4) = ws.flatMap (toLE 8) := by
  have hLength : (ws.flatMap (toLE 8)).length = fieldLE d.desc 4 4 := by
    have hLen := hFits.len
    have hFlat := flatMap_toLE_length ws 8 fun w => w
    rw [← hWords, List.length_map, List.length_range, hWords] at hFlat
    exact hFlat.trans (by omega)
  obtain ⟨t, hWrite, hRun, hBytes⟩ := write_whole (e := e) hc (key e (fieldLE d.desc 8 4)) hLength
  refine ⟨t, ?_, hRun, hBytes⟩
  unfold State.runCol
  dsimp only
  rw [hKind, if_neg (fun hx => hMode hx.2), if_neg hFits.passes, if_pos rfl]
  unfold fillWord at hWords
  rw [hWords, hWrite]

theorem runCol_crc (hc : s.clean) (hFits : ColFitsKind d.desc 8) (hKind : fieldLE d.desc 0 1 % 16 = 8) :
    State.runCol e s d = colResult e (fieldLE d.desc 24 4)
      (if fieldLE d.desc 4 4 = 0 then 0 else crc32c (s.bytes (key e (fieldLE d.desc 8 4)) (fieldLE d.desc 4 4))) [] s := by
  unfold State.runCol
  dsimp only
  rw [hKind, if_neg (fun hx => absurd hx.1 (by decide)), if_neg hFits.passes, if_neg (by decide), read_of_clean hc]
  exact if_pos rfl

theorem runCol_sum64 (hc : s.clean) (hFits : ColFitsKind d.desc 9) (hKind : fieldLE d.desc 0 1 % 16 = 9) :
    State.runCol e s d = colResult e (fieldLE d.desc 24 4)
      ((words64 (s.bytes (key e (fieldLE d.desc 8 4)) (fieldLE d.desc 4 4))).sum % 2 ^ 64) [] s := by
  unfold State.runCol
  dsimp only
  rw [hKind, if_neg (fun hx => absurd hx.1 (by decide)), if_neg hFits.passes, if_neg (by decide), read_of_clean hc]
  dsimp only
  rw [if_neg (by decide), if_pos rfl, List.sum_eq_foldl]

theorem zipIdx_map_range {α : Type} (g : Nat → α) (k : Nat) : ((List.range k).map g).zipIdx = (List.range k).map fun i => (g i, i) := by
  refine List.ext_getElem (by simp) fun i _ _ => ?_
  simp

/-- The words of [a1, a1 + 8 k) that differ from those at a2, by their number. -/
def wordDiff (s : State) (e : Fin 8) (a1 a2 k : Nat) : List Nat :=
  (List.range k).filter fun i => decide (leNat (s.bytes (key e (a1 + 8 * i)) 8) ≠ leNat (s.bytes (key e (a2 + 8 * i)) 8))

/-- What COMPARE finds are those words. -/
theorem compare_words (s : State) (e : Fin 8) (a1 a2 k : Nat) :
    (((words64 (s.bytes (key e a1) (8 * k))).zip (words64 (s.bytes (key e a2) (8 * k)))).zipIdx.filter fun w => decide (w.1.1 ≠ w.1.2)) =
      (wordDiff s e a1 a2 k).map fun i => ((leNat (s.bytes (key e (a1 + 8 * i)) 8), leNat (s.bytes (key e (a2 + 8 * i)) 8)), i) := by
  simp only [words64_bytes, key_add]
  rw [List.zip_map', zipIdx_map_range, List.filter_map]
  unfold wordDiff
  simp only [Function.comp_def]

/-- VEC_COL_MISS takes the place of the first difference, if there is one. -/
def firstMiss (e : Fin 8) (diff : List Nat) : List (Nat × Reg32) :=
  match diff with
  | i :: _ => [(colMiss e, BitVec.ofNat 32 (8 * i % 2 ^ 29))]
  | [] => []

theorem runCol_compare (hc : s.clean) (hFits : ColFitsKind d.desc 0xB) (hKind : fieldLE d.desc 0 1 % 16 = 0xB) {diff : List Nat}
    (hDiff : wordDiff s e (fieldLE d.desc 8 4) (fieldLE d.desc 12 4) (fieldLE d.desc 4 4 / 8) = diff) :
    State.runCol e s d = colResult e (fieldLE d.desc 24 4) diff.length (firstMiss e diff) s := by
  have hWhole : fieldLE d.desc 4 4 = 8 * (fieldLE d.desc 4 4 / 8) := by
    have := hFits.len
    omega
  have hWords := compare_words s e (fieldLE d.desc 8 4) (fieldLE d.desc 12 4) (fieldLE d.desc 4 4 / 8)
  rw [← hWhole, hDiff] at hWords
  unfold State.runCol
  dsimp only
  rw [hKind, if_neg (fun hx => absurd hx.1 (by decide)), if_neg hFits.passes, if_neg (by decide), read_of_clean hc]
  dsimp only
  rw [if_neg (by decide), if_neg (by decide), read_of_clean hc]
  dsimp only
  rw [hWords, List.length_map]
  cases diff <;> rfl

/-! ### Collimator's items start (R228) -/

/-- A check that reads alone starts, and holds its result for its completion. -/
theorem col_held {c : Instr} {kind v : Nat} {miss : List (Nat × Reg32)} (hHead : s.headOf e .col = some d) (hDir : d.dir = none)
    (hTok : s.tokensOk e d.desc = true) (hc : s.clean) (hDirs : ∀ x ∈ s.eng[e].queue, x.dir = none) (hKind : fieldLE d.desc 0 1 % 16 = kind)
    (hMem : kind ∈ colKinds) (hExec : exec c s = .next (s.startVec e .col 4 colKinds kind (State.runCol e)))
    (hRun : State.runCol e (s.dequeue e d.id) d = colResult e ra v miss (s.dequeue e d.id)) :
    ∃ t, exec c s = .next t ∧ ItemStarted s t e d [(key e ra, 8)]
        ([(colLo e, BitVec.ofNat 32 v), (colLo e + 4, BitVec.ofNat 32 (v / 2 ^ 32))] ++ miss) [(key e ra, toLE 8 v)]
      ∧ ∀ a, t.byte a = s.byte a := by
  obtain ⟨hStarted, hSame⟩ := startVec_starts (u := 4) hHead hDir hTok hDirs hKind hMem hRun (ArrayRun.refl (clean_dequeue hc e d.id))
  exact ⟨_, hExec, hStarted, fun a => (hSame.1 a).trans ((sameBytes_modEng s e _).1 a)⟩

/-- FILL starts and leaves its words in memory at once. -/
theorem col_filled (hHead : s.headOf e .col = some d) (hDir : d.dir = none) (hTok : s.tokensOk e d.desc = true) (hc : s.clean)
    (hDirs : ∀ x ∈ s.eng[e].queue, x.dir = none) (hFits : ColFitsKind d.desc 0xA) (hKind : fieldLE d.desc 0 1 % 16 = 0xA)
    (hMode : fieldLE d.desc 1 1 % 4 ≠ 3) :
    ∃ t, exec (.fill e) s = .next t ∧ ItemStarted s t e d [(key e (fieldLE d.desc 8 4), fieldLE d.desc 4 4)] [] [] ∧
      ∀ i, i < fieldLE d.desc 4 4 / 8 →
        leNat (t.bytes (key e (fieldLE d.desc 8 4 + 8 * i)) 8) = fillWord (fieldLE d.desc 1 1 % 4) (fieldLE d.desc 16 8) i := by
  have hLt : fieldLE d.desc 4 4 < 2 ^ 32 := fieldLE_lt _ _ _
  have hPat : fieldLE d.desc 16 8 < 2 ^ 64 := fieldLE_lt _ _ _
  have hWhole : 8 * (fieldLE d.desc 4 4 / 8) = fieldLE d.desc 4 4 := by
    have := hFits.len
    omega
  obtain ⟨t, hFill, hWrite, hBytes⟩ := runCol_fill (e := e) (clean_dequeue hc e d.id) hFits hKind hMode rfl
  obtain ⟨hStarted, hSame⟩ := startVec_starts (u := 4) (kinds := colKinds) hHead hDir hTok hDirs hKind (by decide) hFill hWrite
  refine ⟨_, rfl, hStarted, fun i hi => ?_⟩
  have hWords := words64_bytes t (key e (fieldLE d.desc 8 4)) (fieldLE d.desc 4 4 / 8)
  rw [hWhole, hBytes, words64_flatMap (List.forall_mem_map.mpr fun j hj => fillWord_lt hPat (by have := List.mem_range.mp hj; omega))] at hWords
  rw [bytes_congr hSame.1, ← key_add]
  exact (List.map_inj_left.mp hWords i (List.mem_range.mpr hi)).symm

end

/-- Settles O25: each check reads its bytes whole and holds what it computed, and FILL's bytes, read back as words, are its words. -/
theorem collimatorChecksAndFills : Obligations.CollimatorChecksAndFills := by
  intro e s d hHead hDir hTok hc hDirs b len a1 a2 ra pm x y held hLen hA1 hRa hRange
  have hFits : ColFits d.desc := ⟨hLen, hA1, hRa, hRange⟩
  have hClean := clean_dequeue hc e d.id
  refine ⟨fun hKind hRes => ?_, fun hKind hRes => ?_, ?_, fun hKind hMode => ?_⟩
  · refine col_held hHead hDir hTok hc hDirs hKind (by decide) rfl ((runCol_crc hClean ⟨hFits, fun _ => hRes, fun h => nomatch h⟩ hKind).trans ?_)
    rw [bytes_dequeue]
  · refine col_held hHead hDir hTok hc hDirs hKind (by decide) rfl ((runCol_sum64 hClean ⟨hFits, fun _ => hRes, fun h => nomatch h⟩ hKind).trans ?_)
    rw [bytes_dequeue]
  · intro hKind hRes hA2 hRange2 diff
    have hDiff : wordDiff (s.dequeue e d.id) e a1 a2 (len / 8) = diff := by
      unfold wordDiff
      simp only [bytes_dequeue]
      rfl
    have hHeld := col_held (c := .compare e) hHead hDir hTok hc hDirs hKind (by decide) rfl
      (runCol_compare hClean ⟨hFits, fun _ => hRes, fun _ => ⟨hA2, hRange2⟩⟩ hKind hDiff)
    unfold firstMiss at hHeld
    cases hd : diff <;> rw [hd] at hHeld <;> exact hHeld
  · exact col_filled hHead hDir hTok hc hDirs ⟨hFits, fun h => absurd rfl h, fun h => nomatch h⟩ hKind hMode

end Sys2Proof.Machine
end

section
/-! SUPPORT. REDUCE and element programs in a state with no bad code bit and no armed injection (R217, R218, R223 to R225). -/
namespace Sys2Proof.Machine

/-! ### REDUCE (R223 to R225) -/

/-- The checks of a REDUCE of at least one tile: format, operation, lengths and ranges (Table 7.10). -/
structure ReduceFits (b : List Byte) (vf : VFmt) : Prop where
  format : vfmt (fieldLE b 0 1 / 16) = some vf
  plain : fieldLE b 0 1 / 16 < 8
  op : fieldLE b 1 1 % 8 ≤ 4
  tiles : fieldLE b 6 2 ≠ 0
  rows : fieldLE b 2 1 % 64 ≤ 32
  cols : fieldLE b 3 1 % 64 ≤ 32
  source : inPad (d26 b 8) (fieldLE b 6 2 * 1024 * (vf.width / 8)) = true
  dest : inPad (d26 b 12) (if bit (fieldLE b 1 1) 4 then 4 else 128) = true

section
variable {e : Fin 8} {s : State} {d : Queued} {vf : VFmt}

theorem redElem_dequeue (s : State) (e : Fin 8) (id sa : Nat) (vf : VFmt) (t r c : Nat) :
    (s.dequeue e id).redElem e sa vf t r c = s.redElem e sa vf t r c := by
  unfold State.redElem
  rw [bytes_dequeue]

theorem reduceResults_dequeue (s : State) (e : Fin 8) (id : Nat) (b : List Byte) (vf : VFmt) :
    reduceResults (s.dequeue e id) e b vf = reduceResults s e b vf := by
  unfold reduceResults
  simp only [redElem_dequeue]

theorem reduceResults_length (s : State) (e : Fin 8) (b : List Byte) (vf : VFmt) :
    (reduceResults s e b vf).length = if bit (fieldLE b 1 1) 4 then 1 else 32 := by
  unfold reduceResults
  extract_lets b1 line acc
  have hAcc : acc.length = 32 := by
    refine List.foldlRecOn (List.range (fieldLE b 6 2)) _ (motive := fun a : List (Option (Val × Nat)) => a.length = 32) (List.length_replicate) fun a ha t _ => ?_
    rw [List.length_map, List.length_zip, List.length_map, List.length_range, ha]
    rfl
  rw [List.length_map]
  split
  · rfl
  · exact hAcc

/-- A REDUCE that passes its checks runs, and its results stand at the destination. -/
theorem runReduce_runs (hc : s.clean) (hFits : ReduceFits d.desc vf) {n : Nat} (hn : (if bit (fieldLE d.desc 1 1) 4 then 4 else 128) = n) :
    ∃ m t, State.runReduce e s d = .ok t [(key e (d26 d.desc 12), n)] m [] ∧ ArrayRun e [(key e (d26 d.desc 12), n)] s t ∧
      t.bytes (key e (d26 d.desc 12)) n = (reduceResults s e d.desc vf).flatMap fun r => toLE 4 r.1 := by
  obtain ⟨hFormat, hPlain, hOp, hTiles, hRows, hCols, hSource, hDest⟩ := hFits
  rw [hn] at hDest
  have hLength : ((reduceResults s e d.desc vf).flatMap fun r => toLE 4 r.1).length = n := by
    rw [flatMap_toLE_length, reduceResults_length, ← hn]
    split <;> rfl
  have hCount : ArrayRun e [(key e (d26 d.desc 12), n)] s (s.vecCount e 2 ((reduceResults s e d.desc vf).filter (·.2)).length) :=
    arrayRun_vecCount hc (by decide) _
  obtain ⟨t, hWrite, hRun, hBytes⟩ := write_whole (e := e) hCount.clean (key e (d26 d.desc 12)) hLength
  suffices h : ∃ m, State.runReduce e s d = .ok t [(key e (d26 d.desc 12), n)] m [] from
    h.imp fun m hm => ⟨t, hm, hCount.trans hRun, hBytes⟩
  unfold State.runReduce
  dsimp only
  rw [if_neg (by simp [plainFmt, hPlain, hOp]), hFormat]
  dsimp only
  rw [if_neg hTiles, hn, if_neg (by simp [hSource, hDest]; omega), check_of_clean hc]
  dsimp only
  rw [if_neg hTiles]
  unfold reduceResults at hWrite
  dsimp only at hWrite
  rw [hWrite]
  exact ⟨_, rfl⟩

end

/-! ### Elements of a program's tensors (R218) -/

theorem vwidth_cases (c : Nat) : vwidth c = 4 ∨ vwidth c = 8 ∨ vwidth c = 16 ∨ vwidth c = 32 := by
  unfold vwidth vfmt
  split <;> decide

section
variable {e : Fin 8} {s : State} {w : List (Nat × Nat)}

theorem readElem_of_clean (hc : s.clean) (e : Fin 8) (off k el : Nat) : ∃ v, s.readElem e off k el = (s, some v) := by
  unfold State.readElem
  rw [read_of_clean hc]
  exact ⟨_, rfl⟩

theorem readIns_of_clean (hc : s.clean) (e : Fin 8) (el : Nat) : ∀ l, ∃ vs, s.readIns e el l = (s, some vs)
  | [] => ⟨[], rfl⟩
  | (off, f) :: l => by
    obtain ⟨v, hElem⟩ := readElem_of_clean hc e off (vwidth f) el
    obtain ⟨vs, hRest⟩ := readIns_of_clean hc e el l
    exact ⟨v :: vs, by rw [State.readIns, hElem]; dsimp only; rw [hRest]⟩

/-- An element of a tensor of `count` lies in it. -/
theorem elem_end_le {count el : Nat} (f : Nat) (h : el < count) :
    el * vwidth f / 8 + (if vwidth f = 4 then 1 else vwidth f / 8) ≤ tensorBytes count f := by
  unfold tensorBytes ceilDiv
  rcases vwidth_cases f with hf | hf | hf | hf <;> rw [hf]
  · rw [if_pos rfl]
    omega
  all_goals
    rw [if_neg (by decide)]
    omega

theorem runsOn_writeElem {off f count el : Nat} (hc : s.clean) (h : (key e off, tensorBytes count f) ∈ w) (hEl : el < count) (v : Nat) :
    RunsOn e w s (s.writeElem e off (vwidth f) el v) := by
  have hEnd := elem_end_le f hEl
  unfold State.writeElem
  dsimp only
  split
  · next h4 =>
    rw [if_pos h4] at hEnd
    exact runsOn_write hc (within_part h (by rwa [toLE_length]))
  · next h4 =>
    rw [if_neg h4] at hEnd
    exact runsOn_write hc (within_part h (by rwa [toLE_length]))

theorem runsOn_writeOuts {count el : Nat} (hEl : el < count) : ∀ {l : List ((Nat × Nat) × Nat)} {s : State}, s.clean →
    (∀ x ∈ l, (key e x.1.1, tensorBytes count x.1.2) ∈ w) → RunsOn e w s (s.writeOuts e el l)
  | [], _, hc, _ => ⟨rfl, ArrayRun.refl hc⟩
  | ((off, f), v) :: l, s, hc, h => by
    obtain ⟨hHead, hTail⟩ := List.forall_mem_cons.mp h
    obtain ⟨hOk, hRun⟩ := runsOn_writeElem hc hHead hEl v
    unfold State.writeOuts
    generalize s.writeElem e off (vwidth f) el v = r at hOk hRun
    obtain ⟨s1, ok⟩ := r
    cases hOk
    obtain ⟨hOks, hRuns⟩ := runsOn_writeOuts hEl hRun.clean hTail
    exact ⟨hOks, hRun.trans hRuns⟩

/-- The ranges that a program writes: its output tensors (R218). -/
def Prog.writes (p : Prog) (e : Fin 8) : List (Nat × Nat) := (p.outs.zip p.fout).map fun x => (key e x.1, tensorBytes p.count x.2)

/-- A program runs through its elements. -/
theorem runElems_runs (p : Prog) : ∀ {n el : Nat} {s : State}, s.clean → el + n = p.count →
    ∃ t o0, s.runElems e p n el = (t, true, o0) ∧ ArrayRun e (p.writes e) s t
  | 0, _, s, hc, _ => ⟨s, [], rfl, ArrayRun.refl hc⟩
  | n + 1, el, s, hc, hn => by
    obtain ⟨vs, hIns⟩ := readIns_of_clean hc e el (p.ins.zip p.fin)
    have hOuts : RunsOn e (p.writes e) s (s.writeOuts e el ((p.outs.zip p.fout).zipIdx.map fun x =>
        (x.1, (s.runEp e p el (p.regs vs)).getD (0x14 + x.2) 0))) := by
      refine runsOn_writeOuts (count := p.count) (by omega) hc (List.forall_mem_map.mpr fun x hx => ?_)
      exact List.mem_map.mpr ⟨x.1, List.fst_mem_of_mem_zipIdx hx, rfl⟩
    rw [State.runElems, hIns]
    dsimp only
    generalize s.writeOuts e el _ = r at hOuts
    obtain ⟨s2, ok⟩ := r
    obtain ⟨hOk, hRun⟩ := hOuts
    cases hOk
    obtain ⟨t, o0, hRest, hRuns⟩ := runElems_runs p (n := n) (el := el + 1) hRun.clean (by omega)
    dsimp only
    rw [hRest]
    exact ⟨t, _, rfl, hRun.trans hRuns⟩

/-! ### Element programs (R217, R218) -/

theorem progOf_dequeue (s : State) (e : Fin 8) (id : Nat) (b : List Byte) : progOf (s.dequeue e id) e b = progOf s e b := by
  unfold progOf
  simp only [bytes_dequeue]

theorem progFits_dequeue {id : Nat} {b : List Byte} (h : progFits s e b) : progFits (s.dequeue e id) e b := by
  unfold progFits at h ⊢
  rw [progOf_dequeue, bytes_dequeue]
  exact h

theorem inPad_start {off n m : Nat} (h : inPad off (n + m) = true) : inPad off n = true := by
  unfold inPad at h ⊢
  simp only [Bool.and_eq_true, decide_eq_true_eq] at h ⊢
  omega

/-- A program that passes its checks runs to its last element. -/
theorem runProg_runs {d : Queued} (hc : s.clean) (hFits : progFits s e d.desc) :
    ∃ m t, State.runProg e s d = .ok t ((progOf s e d.desc).writes e) m [] ∧ ArrayRun e ((progOf s e d.desc).writes e) s t := by
  obtain ⟨hFormats, hSum, hOps, hMost, hLane, hIns, hOuts, hImage, hChecks, hWide, hTensors⟩ := hFits
  obtain ⟨t, o0, hElems, hRun⟩ := runElems_runs (e := e) (progOf s e d.desc) hc (Nat.zero_add _)
  suffices h : ∃ m, State.runProg e s d = .ok t ((progOf s e d.desc).writes e) m [] from h.imp fun m hm => ⟨t, hm, hRun⟩
  unfold progOf at *
  dsimp only at *
  unfold State.runProg
  dsimp only
  rw [if_neg (by rw [hFormats]; simpa using hSum), if_neg (by rw [inPad_start hImage]; decide), read_of_clean hc]
  dsimp only
  rw [if_neg (by omega), if_neg (by rw [hImage]; decide), read_of_clean hc]
  dsimp only
  have hLegal := List.all_eq_true.mpr fun o ho => (hChecks o ho).1
  have hNarrow := List.any_eq_false.mpr fun f hf => Bool.not_eq_true _ ▸ hWide f hf
  rw [if_neg (by rw [hLegal, hNarrow]; decide), if_neg (by rw [List.all_eq_true.mpr fun o ho => (hChecks o ho).2]; decide),
    if_neg (by rw [List.all_eq_true.mpr hTensors]; decide), hElems]
  exact ⟨_, rfl⟩

end

/-- Settles O23: past the checks the results go through one write, and what it wrote is read back. -/
theorem reductionsWriteTheirResults : Obligations.ReductionsWriteTheirResults := by
  intro e p s d vf hHead hDir hTok hc hDirs b b1 n hKind hFormat hPlain hOp hTiles hRows hCols hSource hDest
  obtain ⟨m, t, hOk, hRun, hBytes⟩ := runReduce_runs (e := e) (d := d) (clean_dequeue hc e d.id)
    ⟨hFormat, hPlain, hOp, hTiles, hRows, hCols, hSource, hDest⟩ (n := n) rfl
  rw [reduceResults_dequeue] at hBytes
  by_cases hCol : p.val = 4
  · rw [if_pos hCol] at hHead
    obtain ⟨hStarted, hSame⟩ := startVec_starts (u := 4) (kinds := colKinds) hHead hDir hTok hDirs hKind (by decide) hOk hRun
    exact ⟨_, m, congrArg Host.Outcome.next (if_pos hCol), hStarted, (bytes_congr hSame.1 _ _).trans hBytes⟩
  · rw [if_neg hCol] at hHead
    obtain ⟨hStarted, hSame⟩ := startVec_starts (u := p.val) (kinds := pipeKinds) hHead hDir hTok hDirs hKind (by decide) hOk hRun
    exact ⟨_, m, congrArg Host.Outcome.next (if_neg hCol), hStarted, (bytes_congr hSame.1 _ _).trans hBytes⟩

/-- Settles O22: past the checks every element reads its inputs and writes within its output tensors. -/
theorem elementProgramsRunOverTheirTensors : Obligations.ElementProgramsRunOverTheirTensors := by
  intro e p s d hHead hDir hTok hc hDirs hKind hFits
  obtain ⟨m, t, hOk, hRun⟩ := runProg_runs (clean_dequeue hc e d.id) (progFits_dequeue hFits)
  rw [progOf_dequeue] at hOk hRun
  exact ⟨_, m, rfl, (startVec_starts (u := p.val) hHead hDir hTok hDirs hKind (by decide) hOk hRun).1⟩

end Sys2Proof.Machine
end

section
/-! SUPPORT. Paired transfers, single remote operations and aging of the stream queues, in a state with no bad code bit and no armed injection
(R267 to R270, R273). -/
namespace Sys2Proof.Machine

/-! ### The head of a stream queue starts (R250, R254, R278) -/

section
variable {e : Fin 8} {q : Nat} {s z : State} {d : Queued}

/-- A head that may start, of one of the five kinds, leaves its queue and is run. -/
theorem startStrm_of_mayStart {kind : Nat} (h : mayStart s e q d kind) (hKind : kind ≠ 0 ∧ kind ≤ 5) (k : State → Queued → State) :
    s.startStrm e q kind k = k (s.dequeue e d.id) d := by
  obtain ⟨hHead, hTok, hHeld, hHalt, -, hKd⟩ := h
  have hReady : ¬(s.tokensOk e d.desc = false ∨ 16 ≤ s.strmHeld e q ∨ q ∈ s.eng[e].eccHalt) :=
    not_or.mpr ⟨by rw [hTok]; decide, not_or.mpr ⟨Nat.not_le_of_lt hHeld, hHalt⟩⟩
  unfold State.startStrm
  rw [hHead]
  dsimp only
  rw [hKd, if_neg hReady, if_neg (by omega), if_neg (not_not_intro rfl)]

theorem clean_of_mayStart {kind : Nat} (h : mayStart s e q d kind) : (s.dequeue e d.id).clean := by
  obtain ⟨-, -, -, -, hc, -⟩ := h
  exact clean_dequeue hc e d.id

theorem sameBytes_dequeue (s : State) (e : Fin 8) (id : Nat) : SameBytes s (s.dequeue e id) := sameBytes_modEng s e _

theorem sameBytes_strmBegin (z : State) (e : Fin 8) (d : Queued) (w : List (Nat × Nat)) (ops : Nat) (err : Option (Nat × Nat × Nat)) :
    SameBytes z (z.strmBegin e d w ops err) := sameBytes_modEng z e _

theorem strmBegin_others (z : State) {e j : Fin 8} (hj : j ≠ e) (d : Queued) (w : List (Nat × Nat)) (ops : Nat)
    (err : Option (Nat × Nat × Nat)) : (z.strmBegin e d w ops err).eng[j] = z.eng[j] := State.modEng_get_ne z e j _ hj

/-- What has only left its queue is then in progress. -/
theorem strmStarted_strmBegin (hEng : z.eng = (s.dequeue e d.id).eng) (hHost : z.host = s.host) (w : List (Nat × Nat)) (ops : Nat) :
    StrmStarted s (z.strmBegin e d w ops none) e d w ops := by
  have hGet : z.eng[e] = { s.eng[e] with queue := s.eng[e].queue.filter fun x => decide (x.id ≠ d.id) } :=
    (eng_congr hEng e).trans (State.modEng_get _ _ _)
  unfold State.strmBegin
  refine ⟨?_, ?_, hHost⟩ <;> rw [State.modEng_get, hGet]

/-- Operations that a descriptor sends wait in its stream queue, behind what waited there. -/
theorem sent_sendOps (hEng : z.eng = (s.dequeue e d.id).eng) (hFab : z.fab = s.fab) (hBytes : SameBytes s z) (w : List (Nat × Nat))
    {items : List FabItem} (hItems : ∀ i ∈ items, i.owner = .desc e d.id ∧ i.queue = streamQueue e q ∧ i.hdr.srcUnit = BitVec.ofNat 8 e.val) :
    Sent s (z.sendOps e d q items none w) e q d w items := by
  have hWaiting := congrArg (fun f : Fab => f.waiting ++ items) hFab
  exact ⟨strmStarted_strmBegin hEng hBytes.2 w items.length, hWaiting, hBytes.trans (sameBytes_strmBegin z e d w items.length none),
    fun j hj => (strmBegin_others z hj d w items.length none).trans ((eng_congr hEng j).trans (State.modEng_get_ne s e j _ hj)), hItems⟩

end

/-! ### Bytes copied inside a scratchpad -/

/-- Two ranges (start, length) share no address. -/
def Apart (a b : Nat × Nat) : Prop := a.1 + a.2 ≤ b.1 ∨ b.1 + b.2 ≤ a.1

/-- Parts of two such ranges of a unit's window share no address either. -/
theorem Apart.parts {a n b m : Nat} (h : Apart (a, n) (b, m)) (u : Nat) {k j l : Nat} (hk : k ≤ n) (hl : j + l ≤ m) :
    Apart (key u a, k) (key u b + j, l) := by
  unfold Apart key at *
  dsimp only at *
  omega

theorem Apart.starts {a n b m : Nat} (h : Apart (a, n) (b, m)) (u : Nat) {k l : Nat} (hk : k ≤ n) (hl : l ≤ m) :
    Apart (key u a, k) (key u b, l) := by
  have hParts := h.parts u hk (j := 0) (l := l) (by omega)
  rwa [Nat.add_zero] at hParts

theorem Apart.symm {a b : Nat × Nat} (h : Apart a b) : Apart b a := Or.symm h

/-- From `s` to `t` `n` bytes have been copied from address `src` to `dst` and `n'` bytes from `src'` to `dst'`, as `s` held them, and nothing else
has changed. -/
structure TwoCopies (s t : State) (dst src n dst' src' n' : Nat) : Prop where
  form : ∃ l, t = { s with mem := l }
  byte : ∀ a, t.byte a = if dst ≤ a ∧ a < dst + n then s.byte (src + (a - dst))
    else if dst' ≤ a ∧ a < dst' + n' then s.byte (src' + (a - dst')) else s.byte a

namespace TwoCopies

variable {s t : State} {dst src n dst' src' n' : Nat}

theorem refl (s : State) (dst src dst' src' : Nat) : TwoCopies s s dst src 0 dst' src' 0 :=
  ⟨⟨_, rfl⟩, fun a => by rw [if_neg (by omega), if_neg (by omega)]⟩

theorem clean (h : TwoCopies s t dst src n dst' src' n') (hc : s.clean) : t.clean := by
  obtain ⟨l, rfl⟩ := h.form
  exact clean_mem hc l

theorem eng_eq (h : TwoCopies s t dst src n dst' src' n') : t.eng = s.eng := by
  obtain ⟨l, rfl⟩ := h.form
  rfl

theorem host_eq (h : TwoCopies s t dst src n dst' src' n') : t.host = s.host := by
  obtain ⟨l, rfl⟩ := h.form
  rfl

/-- Where the destinations share no address, neither copy hides a part of the other. -/
theorem swap (h : TwoCopies s t dst src n dst' src' n') (hApart : Apart (dst, n) (dst', n')) : TwoCopies s t dst' src' n' dst src n := by
  refine ⟨h.form, fun a => ?_⟩
  unfold Apart at hApart
  rw [h.byte]
  by_cases hFirst : dst ≤ a ∧ a < dst + n
  · rw [if_pos hFirst, if_neg (by omega), if_pos hFirst]
  · rw [if_neg hFirst, if_neg hFirst]

/-- A byte outside both destinations is as it was. -/
theorem byte_apart (h : TwoCopies s t dst src n dst' src' n') {a : Nat} (hFirst : ¬(dst ≤ a ∧ a < dst + n))
    (hSecond : ¬(dst' ≤ a ∧ a < dst' + n')) : t.byte a = s.byte a := by
  rw [h.byte, if_neg hFirst, if_neg hSecond]

theorem bytes_apart (h : TwoCopies s t dst src n dst' src' n') {a k : Nat} (hFirst : Apart (dst, n) (a, k)) (hSecond : Apart (dst', n') (a, k)) :
    t.bytes a k = s.bytes a k := by
  unfold Apart at hFirst hSecond
  refine List.map_congr_left fun i hi => ?_
  have hLt := List.mem_range.mp hi
  exact h.byte_apart (by omega) (by omega)

/-- The first copy goes on, with bytes that neither copy has touched. -/
theorem extend (h : TwoCopies s t dst src n dst' src' n') (hc : s.clean) {k : Nat} (hFirst : Apart (dst, n) (src + n, k))
    (hSecond : Apart (dst', n') (src + n, k)) :
    TwoCopies s { t with mem := putBytes t.mem (dst + n) (t.bytes (src + n) k) } dst src (n + k) dst' src' n' := by
  obtain ⟨l, hForm⟩ := h.form
  refine ⟨⟨_, by rw [hForm]⟩, fun a => ?_⟩
  rw [putBytes_byte_clean (h.clean hc), bytes_length, h.bytes_apart hFirst hSecond, h.byte]
  by_cases hNew : dst + n ≤ a ∧ a < dst + n + k
  · rw [if_pos hNew, if_pos (by omega), bytes_getD s _ (by omega)]
    exact congrArg s.byte (by omega)
  · have hOld : (dst ≤ a ∧ a < dst + (n + k)) ↔ dst ≤ a ∧ a < dst + n := by omega
    simp only [if_neg hNew, hOld]

end TwoCopies

/-! ### Paired loads (R267) -/

/-- What a PLOAD writes in its own scratchpad shares no address with what it reads there, its two destinations share none, and neither source
wraps in its window. -/
structure PairsFit (x : StrmD) : Prop where
  data_recs : Apart (x.laddr, x.nblk * x.blockB) (x.sladdr, x.nblk * x.recB)
  data_source : Apart (x.laddr, x.nblk * x.blockB) (offOf x.raddr, x.nblk * x.blockB)
  recs_source : Apart (x.sladdr, x.nblk * x.recB) (offOf x.raddr, x.nblk * x.blockB)
  data_recSource : Apart (x.laddr, x.nblk * x.blockB) (offOf x.sraddr, x.nblk * x.recB)
  recs_recSource : Apart (x.sladdr, x.nblk * x.recB) (offOf x.sraddr, x.nblk * x.recB)
  source_whole : offOf x.raddr + x.nblk * x.blockB < 2 ^ 52
  recSource_whole : offOf x.sraddr + x.nblk * x.recB < 2 ^ 52

/-- Both destinations with each source in turn, no two of which overlap. -/
theorem pairsFit_of_pairwise {x : StrmD}
    (hData : [(x.laddr, x.nblk * x.blockB), (x.sladdr, x.nblk * x.recB), (offOf x.raddr, x.nblk * x.blockB)].Pairwise Apart)
    (hRecs : [(x.laddr, x.nblk * x.blockB), (x.sladdr, x.nblk * x.recB), (offOf x.sraddr, x.nblk * x.recB)].Pairwise Apart)
    (hWhole : offOf x.raddr + x.nblk * x.blockB < 2 ^ 52) (hRecWhole : offOf x.sraddr + x.nblk * x.recB < 2 ^ 52) : PairsFit x := by
  simp only [List.pairwise_cons, List.mem_cons, List.not_mem_nil, or_false, forall_eq_or_imp, forall_eq] at hData hRecs
  obtain ⟨⟨hDests, hDataSource⟩, hRecsSource, -⟩ := hData
  obtain ⟨⟨-, hDataRecSource⟩, hRecsRecSource, -⟩ := hRecs
  exact ⟨hDests, hDataSource, hRecsSource, hDataRecSource, hRecsRecSource, hWhole, hRecWhole⟩

section
variable {e : Fin 8} {q : Nat} {s z : State} {d : Queued} {x : StrmD}

/-- From `s` to `t` the blocks of the first `n` pairs and the records of the first `m` have been copied. -/
abbrev PairsCopied (e : Fin 8) (x : StrmD) (s t : State) (n m : Nat) : Prop :=
  TwoCopies s t (key e x.laddr) (key e (offOf x.raddr)) (n * x.blockB) (key e x.sladdr) (key e (offOf x.sraddr)) (m * x.recB)

/-- A GET from the own scratchpad of bytes that pass their check stores them. -/
theorem moveIn_own {ok : List Byte → Option (Nat × Nat)} {addr n : Nat} (hc : z.clean) (hOk : ok (z.bytes (key e (offOf addr)) n) = none)
    (stream seq dst : Nat) : z.moveIn e .own stream seq addr dst n ok =
      ({ z with mem := putBytes z.mem (key e dst) (z.bytes (key e (offOf addr)) n) }, none) := by
  have hSource : z.sideBytes e .own (offOf addr) n = z.bytes (key e (offOf addr)) n :=
    List.map_congr_left fun i _ => congrArg z.byte (key_add e (offOf addr) i).symm
  have hRead : z.sideRead .own e [(offOf addr, n)] = (z, none) := by
    unfold State.sideRead
    rw [hc.1]
    rfl
  unfold State.moveIn
  dsimp only [State.sideCause]
  rw [hRead]
  dsimp only
  rw [hSource, hOk, if_pos rfl, write_of_clean hc]
  rfl

theorem offOf_add {a k n : Nat} (h : offOf a + n < 2 ^ 52) (hk : k ≤ n) : offOf (a + k) = offOf a + k := by
  unfold offOf at h ⊢
  omega

/-- Part `i` of `k` parts of `b` bytes ends inside them. -/
theorem part_end_le {i k : Nat} (h : i < k) (b : Nat) : i * b + b ≤ k * b := by
  rw [← Nat.succ_mul]
  exact Nat.mul_le_mul_right b h

/-- The next block of a PLOAD. -/
theorem moveIn_block {i : Nat} (h : PairsCopied e x s z i i) (hc : s.clean) (hFit : PairsFit x) (hi : i < x.nblk) (seq : Nat) :
    ∃ t, z.moveIn e .own x.stream seq (x.raddr + i * x.blockB) (x.laddr + i * x.blockB) x.blockB (fun _ => none) = (t, none) ∧
      PairsCopied e x s t (i + 1) i := by
  have hBlock := part_end_le hi x.blockB
  have hRec := part_end_le hi x.recB
  refine ⟨_, moveIn_own (h.clean hc) rfl _ _ _, ?_⟩
  rw [offOf_add hFit.source_whole (by omega), ← key_add, ← key_add]
  unfold PairsCopied
  rw [Nat.add_mul, Nat.one_mul]
  exact h.extend hc (hFit.data_source.parts e (by omega) hBlock) (hFit.recs_source.parts e (by omega) hBlock)

/-- The record of the next pair, which carries its sequence. -/
theorem moveIn_record {i : Nat} (h : PairsCopied e x s z (i + 1) i) (hc : s.clean) (hFit : PairsFit x) (hi : i < x.nblk)
    (hCheck : x.recCheck i (s.bytes (key e (offOf x.sraddr + i * x.recB)) x.recB) = none) (seq : Nat) :
    ∃ t, z.moveIn e .own x.sstream seq (x.sraddr + i * x.recB) (x.sladdr + i * x.recB) x.recB (x.recCheck i) = (t, none) ∧
      PairsCopied e x s t (i + 1) (i + 1) := by
  have hBlock := Nat.mul_le_mul_right x.blockB (Nat.succ_le_of_lt hi)
  have hRec := part_end_le hi x.recB
  have hData := hFit.data_recSource.parts e hBlock hRec
  have hRecs := hFit.recs_recSource.parts e (k := i * x.recB) (by omega) hRec
  have hOff := offOf_add hFit.recSource_whole (k := i * x.recB) (by omega)
  rw [← key_add, ← h.bytes_apart hData hRecs, key_add, ← hOff] at hCheck
  refine ⟨_, moveIn_own (h.clean hc) hCheck _ _ _, ?_⟩
  rw [hOff, ← key_add, ← key_add]
  have hNext := (h.swap (hFit.data_recs.starts e hBlock (by omega))).extend hc hRecs hData
  rw [← Nat.succ_mul] at hNext
  exact hNext.swap (hFit.data_recs.starts e hBlock (Nat.mul_le_mul_right x.recB hi)).symm

/-- The pairs of a PLOAD between ranges of its own scratchpad, from pair `i` on. -/
theorem ploadFrom_copies (hc : s.clean) (hFit : PairsFit x)
    (hCheck : ∀ i, i < x.nblk → x.recCheck i (s.bytes (key e (offOf x.sraddr + i * x.recB)) x.recB) = none) :
    ∀ {n i : Nat} {z : State}, PairsCopied e x s z i i → i + n = x.nblk →
      ∃ t, z.ploadFrom e q x .own .own n i = (t, none) ∧ PairsCopied e x s t x.nblk x.nblk
  | 0, _, z, h, hn => ⟨z, rfl, hn ▸ h⟩
  | n + 1, i, z, h, hn => by
    obtain ⟨z1, hMove, hBlock⟩ := moveIn_block h hc hFit (by omega) ((x.baseseq + i) % 2 ^ 16)
    obtain ⟨z2, hMoveRec, hPair⟩ := moveIn_record hBlock hc hFit (by omega) (hCheck i (by omega)) ((x.baseseq + i) % 2 ^ 16)
    rw [State.ploadFrom, hMove]
    dsimp only
    rw [hMoveRec]
    exact ploadFrom_copies hc hFit hCheck hPair (by omega)

/-- A PLOAD of no block is in progress with nothing to do. -/
theorem runPload_empty (hNone : (StrmD.parse d.desc).nblk = 0) : State.runPload e q z d = z.strmBegin e d [] 0 none := if_pos hNone

/-- A PLOAD between ranges of its own scratchpad copies its pairs. -/
theorem runPload_copies (hx : StrmD.parse d.desc = x) (hc : z.clean) (hSome : x.nblk ≠ 0) (hData : z.sideOf e x.raddr = .own)
    (hRecs : z.sideOf e x.sraddr = .own) (hPaired : x.pairedCheck true true = 0) (hFit : PairsFit x)
    (hCheck : ∀ i, i < x.nblk → x.recCheck i (z.bytes (key e (offOf x.sraddr + i * x.recB)) x.recB) = none) :
    ∃ t, State.runPload e q z d = t.strmBegin e d [(key e x.laddr, x.nblk * x.blockB), (key e x.sladdr, x.nblk * x.recB)] 0 none ∧
      PairsCopied e x z t x.nblk x.nblk := by
  have hZero : PairsCopied e x z z 0 0 := by
    unfold PairsCopied
    rw [Nat.zero_mul, Nat.zero_mul]
    exact TwoCopies.refl z _ _ _ _
  obtain ⟨t, hLoad, hCopied⟩ := ploadFrom_copies (q := q) hc hFit hCheck hZero (Nat.zero_add _)
  refine ⟨t, ?_, hCopied⟩
  unfold State.runPload
  rw [hx]
  dsimp only
  rw [if_neg hSome, hData, hRecs, decide_eq_true rfl, hPaired, if_neg (not_not_intro rfl), hLoad]

/-- A PLOAD that may start and passes its checks is in progress after its copies. -/
theorem pload_copied (hStart : mayStart s e q d 3) (hx : StrmD.parse d.desc = x) (hSome : x.nblk ≠ 0) (hData : s.sideOf e x.raddr = .own)
    (hRecs : s.sideOf e x.sraddr = .own) (hPaired : x.pairedCheck true true = 0) (hFit : PairsFit x)
    (hCheck : ∀ i, i < x.nblk → x.recCheck i (s.bytes (key e (offOf x.sraddr + i * x.recB)) x.recB) = none) :
    ∃ t, s.startStrm e q 3 (State.runPload e q) = t.strmBegin e d [(key e x.laddr, x.nblk * x.blockB), (key e x.sladdr, x.nblk * x.recB)] 0 none ∧
      PairsCopied e x (s.dequeue e d.id) t x.nblk x.nblk := by
  simp only [← bytes_dequeue e s d.id] at hCheck
  rw [startStrm_of_mayStart hStart (by decide)]
  exact runPload_copies hx (clean_of_mayStart hStart) hSome hData hRecs hPaired hFit hCheck

end

/-! ### Paired stores (R268) -/

section
variable {e : Fin 8} {q : Nat} {s z : State} {d : Queued} {x : StrmD}

/-- Block `i` of a PSTORE, then its record: address, sequence, stream and bytes. -/
def State.pairOps (s : State) (e : Fin 8) (x : StrmD) (i : Nat) : List (Nat × Nat × Nat × List Byte) :=
  [(x.raddr + i * x.blockB, x.baseseq + i, x.stream, s.bytes (key e (x.laddr + i * x.blockB)) x.blockB),
   (x.sraddr + i * x.recB, x.baseseq + i, x.sstream, s.bytes (key e (x.sladdr + i * x.recB)) x.recB)]

/-- The operations that a PSTORE sends for its pairs. -/
def State.pairItems (s : State) (e : Fin 8) (d : Queued) (q : Nat) (x : StrmD) : List FabItem :=
  ((List.range' 0 x.nblk).flatMap (s.pairOps e x)).zipIdx.map fun p =>
    s.dataItem e d q x p.2 (2 * x.nblk) p.1.1 (p.1.2.1 % 2 ^ 16) p.1.2.2.1 p.1.2.2.2

/-- A PSTORE whose records carry their sequences reads all its pairs. -/
theorem pstoreFrom_pairs (hc : z.clean) : ∀ {n i : Nat},
    (∀ j, i ≤ j → j < i + n → x.recCheck j (z.bytes (key e (x.sladdr + j * x.recB)) x.recB) = none) →
    z.pstoreFrom e q x n i = (z, (List.range' i n).flatMap (z.pairOps e x), none)
  | 0, _, _ => rfl
  | n + 1, i, hCheck => by
    have hRest := pstoreFrom_pairs hc (n := n) (i := i + 1) fun j hLow hHigh => hCheck j (by omega) (by omega)
    rw [State.pstoreFrom, read_of_clean hc]
    dsimp only
    rw [read_of_clean hc]
    dsimp only
    rw [hCheck i (Nat.le_refl i) (by omega), hRest, List.range'_succ, List.flatMap_cons]
    rfl

/-- Two entries for each index stand at twice the index and after it. -/
theorem getElem?_flatMap_two {α : Type} (f g : Nat → α) : ∀ {n k i : Nat}, i < n →
    ((List.range' k n).flatMap fun j => [f j, g j])[2 * i]? = some (f (k + i)) ∧
    ((List.range' k n).flatMap fun j => [f j, g j])[2 * i + 1]? = some (g (k + i))
  | 0, _, _, h => absurd h (Nat.not_lt_zero _)
  | n + 1, k, 0, _ => by rw [List.range'_succ, List.flatMap_cons]; exact ⟨rfl, rfl⟩
  | n + 1, k, i + 1, h => by
    have hRest := getElem?_flatMap_two f g (n := n) (k := k + 1) (i := i) (by omega)
    rw [List.range'_succ, List.flatMap_cons, show k + (i + 1) = k + 1 + i by omega]
    exact hRest

/-- A PSTORE whose records carry their sequences sends its pairs. -/
theorem runPstore_sends (hx : StrmD.parse d.desc = x) (hc : z.clean) (hSome : x.nblk ≠ 0) (hPaired : x.pairedCheck false false = 0)
    (hCheck : ∀ i, i < x.nblk → x.recCheck i (z.bytes (key e (x.sladdr + i * x.recB)) x.recB) = none) :
    State.runPstore e q z d = z.sendOps e d q (z.pairItems e d q x) none := by
  have hPairs := pstoreFrom_pairs (q := q) hc (n := x.nblk) (i := 0) fun j _ hHigh => hCheck j (by omega)
  unfold State.runPstore
  rw [hx]
  dsimp only
  rw [if_neg hSome, hPaired, if_neg (not_not_intro rfl), hPairs]
  rfl

theorem pairItems_length (z : State) (e : Fin 8) (d : Queued) (q : Nat) (x : StrmD) : (z.pairItems e d q x).length = 2 * x.nblk := by
  unfold State.pairItems
  rw [List.length_map, List.length_zipIdx, List.length_flatMap]
  simp [State.pairOps, Nat.mul_comm]

/-- The operations of pair `i`. -/
theorem getElem?_pairItems {i : Nat} (hi : i < x.nblk) :
    (z.pairItems e d q x)[2 * i]? = some (z.dataItem e d q x (2 * i) (2 * x.nblk) (x.raddr + i * x.blockB) ((x.baseseq + i) % 2 ^ 16) x.stream
      (z.bytes (key e (x.laddr + i * x.blockB)) x.blockB)) ∧
    (z.pairItems e d q x)[2 * i + 1]? = some (z.dataItem e d q x (2 * i + 1) (2 * x.nblk) (x.sraddr + i * x.recB) ((x.baseseq + i) % 2 ^ 16) x.sstream
      (z.bytes (key e (x.sladdr + i * x.recB)) x.recB)) := by
  obtain ⟨hBlock, hRec⟩ := getElem?_flatMap_two
    (fun j => (x.raddr + j * x.blockB, x.baseseq + j, x.stream, z.bytes (key e (x.laddr + j * x.blockB)) x.blockB))
    (fun j => (x.sraddr + j * x.recB, x.baseseq + j, x.sstream, z.bytes (key e (x.sladdr + j * x.recB)) x.recB)) (k := 0) hi
  unfold State.pairItems State.pairOps
  rw [List.getElem?_map, List.getElem?_map, List.getElem?_zipIdx, List.getElem?_zipIdx, hBlock, hRec]
  simp only [Nat.zero_add]
  exact ⟨rfl, rfl⟩

/-- A PSTORE that may start and passes its checks leaves its pairs waiting. -/
theorem pstore_sent (hStart : mayStart s e q d 4) (hx : StrmD.parse d.desc = x) (hSome : x.nblk ≠ 0) (hPaired : x.pairedCheck false false = 0)
    (hCheck : ∀ i, i < x.nblk → x.recCheck i (s.bytes (key e (x.sladdr + i * x.recB)) x.recB) = none) :
    Sent s (s.startStrm e q 4 (State.runPstore e q)) e q d [] ((s.dequeue e d.id).pairItems e d q x) := by
  simp only [← bytes_dequeue e s d.id] at hCheck
  rw [startStrm_of_mayStart hStart (by decide), runPstore_sends hx (clean_of_mayStart hStart) hSome hPaired hCheck]
  refine sent_sendOps rfl rfl (sameBytes_dequeue s e d.id) [] fun i hi => ?_
  obtain ⟨p, -, rfl⟩ := List.mem_map.mp hi
  exact ⟨rfl, rfl, rfl⟩

theorem ofNat_mod_two_pow (w k : Nat) : BitVec.ofNat w (k % 2 ^ w) = BitVec.ofNat w k := BitVec.eq_of_toNat_eq (by simp)

end

/-- Settles O28: a PLOAD copies pair after pair, and what it has copied lies apart from what it reads next; a PSTORE reads all its pairs and
changes nothing. -/
theorem pairedTransfersMoveBlocksWithRecords : Obligations.PairedTransfersMoveBlocksWithRecords := by
  intro e q s d x nb nr
  refine ⟨fun hStart => ⟨fun hNone => ?_, fun hSome hData hRecs hPaired hApart hApartRecs hWhole hRecWhole hCheck => ?_⟩,
    fun hStart hSome hPaired hCheck => ?_⟩
  · have hExec := startStrm_of_mayStart hStart (by decide) (State.runPload e q.toNat)
    rw [runPload_empty hNone] at hExec
    exact ⟨_, congrArg Host.Outcome.next hExec, strmStarted_strmBegin rfl rfl _ _,
      (sameBytes_dequeue s e d.id).trans (sameBytes_strmBegin _ e d _ _ _)⟩
  · have hFit : PairsFit x := pairsFit_of_pairwise hApart hApartRecs hWhole hRecWhole
    obtain ⟨t, hExec, hCopied⟩ := pload_copied hStart rfl hSome hData hRecs hPaired hFit hCheck
    refine ⟨_, congrArg Host.Outcome.next hExec, strmStarted_strmBegin hCopied.eng_eq hCopied.host_eq _ _, fun a => ?_⟩
    rw [(sameBytes_strmBegin t e d _ 0 none).1, hCopied.byte]
    simp only [(sameBytes_dequeue s e d.id).1]
    rfl
  · refine ⟨_, _, rfl, pstore_sent hStart rfl hSome hPaired hCheck, pairItems_length _ e d _ x, fun i hi => ?_⟩
    obtain ⟨hBlock, hRec⟩ := getElem?_pairItems (z := s.dequeue e d.id) (e := e) (d := d) (q := q.toNat) hi
    exact ⟨_, _, hBlock, hRec, rfl, bytes_dequeue _ _ _ _ _, rfl, bytes_dequeue _ _ _ _ _, ofNat_mod_two_pow 16 _, ofNat_mod_two_pow 16 _⟩

/-! ### Single remote operations (R269, R270) -/

section
variable {e : Fin 8} {q : Nat} {z : State} {op : FabOp}

/-- The alignment and the range of an RMO's payload, if it has one, and of its return, if it has one (Table 9.4). -/
structure RmoFits (b : List Byte) (op : FabOp) : Prop where
  payload : op ≠ .get ∧ op ≠ .signal → d26 b 12 % 8 = 0 ∧ d26 b 12 + fieldLE b 2 2 % 2 ^ 13 ≤ SPAD
  ret : op.returns = true → d26 b 16 % 8 = 0 ∧ d26 b 16 + op.retLen (fieldLE b 2 2 % 2 ^ 13) ≤ SPAD

theorem RmoFits.aligned {b : List Byte} (h : RmoFits b op) :
    ¬(decide (op ≠ .get ∧ op ≠ .signal) = true ∧ d26 b 12 % 8 ≠ 0 ∨ op.returns = true ∧ d26 b 16 % 8 ≠ 0) := by
  rintro (⟨hPay, hBad⟩ | ⟨hReturns, hBad⟩)
  · exact hBad (h.payload (of_decide_eq_true hPay)).1
  · exact hBad (h.ret hReturns).1

theorem RmoFits.inside {b : List Byte} (h : RmoFits b op) :
    ¬(decide (op ≠ .get ∧ op ≠ .signal) = true ∧ SPAD < d26 b 12 + fieldLE b 2 2 % 2 ^ 13 ∨
      op.returns = true ∧ SPAD < d26 b 16 + op.retLen (fieldLE b 2 2 % 2 ^ 13)) := by
  rintro (⟨hPay, hBad⟩ | ⟨hReturns, hBad⟩)
  · exact Nat.not_lt_of_le (h.payload (of_decide_eq_true hPay)).2 hBad
  · exact Nat.not_lt_of_le (h.ret hReturns).2 hBad

/-- `i` is the operation `op` of the RMO `d`, with the header that `d`'s fields give in state `z`. -/
structure RmoOp (z : State) (e : Fin 8) (q : Nat) (d : Queued) (op : FabOp) (i : FabItem) : Prop where
  owner : i.owner = .desc e d.id
  queue : i.queue = streamQueue e q
  op : i.op = op
  hdr : ∃ mc unord rctr raddr, i.hdr = { z.mkHdr e.val (fieldLE d.desc 4 8) (fieldLE d.desc 2 2 % 2 ^ 13) (fieldLE d.desc 22 2 % 4096)
    (fieldLE d.desc 26 2) (fieldLE d.desc 20 2) (fieldLE d.desc 24 2) with mc := mc, unord := unord, rctr := rctr, raddr := raddr }

/-- Noting the stream of an ordered addition changes commands alone. -/
theorem noteFadd_frame (z : State) (e : Fin 8) (h : Hdr) :
    (z.noteFadd e h).eng = z.eng ∧ (z.noteFadd e h).fab = z.fab ∧ SameBytes z (z.noteFadd e h) := by
  have hSame : z.eng = z.eng ∧ z.fab = z.fab ∧ SameBytes z z := ⟨rfl, rfl, SameBytes.refl z⟩
  unfold State.noteFadd
  split
  · exact hSame
  · dsimp only
    split
    · exact hSame
    · exact ⟨State.modCmd_eng _ _ _, State.modCmd_fab _ _ _, sameBytes_of (State.modCmd_mem _ _ _) (State.modCmd_ecc _ _ _)
        (State.modCmd_fuse _ _ _) (State.modCmd_host _ _ _)⟩

/-- An RMO that passes its checks sends its operation. -/
theorem runRmo_sends {d : Queued} (hOp : FabOp.ofCode (fieldLE d.desc 0 1 / 16) = some op) (hFit : RmoFits d.desc op) :
    ∃ y i, State.runRmo e q z d = y.sendOps e d q [i] none
        (if op.returns then [(key e (d26 d.desc 16), op.retLen (fieldLE d.desc 2 2 % 2 ^ 13))] else []) ∧
      (y.eng = z.eng ∧ y.fab = z.fab ∧ SameBytes z y) ∧ RmoOp z e q d op i := by
  unfold State.runRmo
  dsimp only
  rw [hOp]
  dsimp only
  rw [if_neg hFit.aligned, if_neg hFit.inside]
  split
  · exact ⟨_, _, rfl, noteFadd_frame z e _, rfl, rfl, rfl, _, _, _, _, rfl⟩
  · exact ⟨z, _, rfl, ⟨rfl, rfl, SameBytes.refl z⟩, rfl, rfl, rfl, _, _, _, _, rfl⟩

theorem mkHdr_dequeue (s : State) (e : Fin 8) (id unit addr len tctr seq stream tinc : Nat) :
    (s.dequeue e id).mkHdr unit addr len tctr seq stream tinc = s.mkHdr unit addr len tctr seq stream tinc := rfl

/-- An RMO that may start and passes its checks leaves its one operation waiting. -/
theorem rmo_sent {s : State} {d : Queued} (hStart : mayStart s e q d 5) (hOp : FabOp.ofCode (fieldLE d.desc 0 1 / 16) = some op)
    (hFit : RmoFits d.desc op) :
    ∃ i, Sent s (s.startStrm e q 5 (State.runRmo e q)) e q d
      (if op.returns then [(key e (d26 d.desc 16), op.retLen (fieldLE d.desc 2 2 % 2 ^ 13))] else []) [i] ∧ RmoOp s e q d op i := by
  obtain ⟨y, i, hRun, ⟨hEng, hFab, hBytes⟩, hItem⟩ := runRmo_sends (e := e) (q := q) (z := s.dequeue e d.id) hOp hFit
  rw [startStrm_of_mayStart hStart (by decide), hRun]
  obtain ⟨hOwner, hQueue, hIs, mc, unord, rctr, raddr, hHdr⟩ := hItem
  rw [mkHdr_dequeue] at hHdr
  refine ⟨i, sent_sendOps hEng hFab ((sameBytes_dequeue s e d.id).trans hBytes) _ fun j hj => ?_, hOwner, hQueue, hIs, mc, unord, rctr, raddr, hHdr⟩
  rw [List.mem_singleton.mp hj]
  exact ⟨hOwner, hQueue, by rw [hHdr]; rfl⟩

end

/-! ### Aging of a stream queue (R273) -/

theorem effLevel_modEng (s : State) (e : Fin 8) (q : Nat) (f : Engine → Engine) :
    (s.modEng e f).effLevel e q = if (s.queueDesc (streamQueue e q)).level ≤ 5
      then min 6 ((s.queueDesc (streamQueue e q)).level + Sparse.get (fun _ => 0) (f s.eng[e]).aged q)
      else (s.queueDesc (streamQueue e q)).level := by
  unfold State.effLevel
  rw [State.modEng_get]
  rfl

/-- A queue of a low base level below the highest effective one rises by one level. -/
theorem effLevel_aged {s : State} {e : Fin 8} {q : Nat} (hBase : (s.queueDesc (streamQueue e q)).level ≤ 5) (hBelow : s.effLevel e q < 6) :
    (s.modEng e fun en => { en with aged := Sparse.set (fun _ => 0) en.aged q (Sparse.get (fun _ => 0) en.aged q + 1) }).effLevel e q =
      s.effLevel e q + 1 := by
  rw [effLevel_modEng, if_pos hBase, Sparse.get_set_eq]
  unfold State.effLevel at hBelow ⊢
  dsimp only at hBelow ⊢
  rw [if_pos hBase] at hBelow ⊢
  omega

/-- Settles O29: an RMO that passes its checks sends its item, whose header is its descriptor's; aging adds one to the count that the effective
level adds to the base level. -/
theorem remoteOperationsAreQueuedAndQueuesAge : Obligations.RemoteOperationsAreQueuedAndQueuesAge := by
  intro e q s
  refine ⟨?_, fun hBase hInterval hBelow hHolds => ?_⟩
  · intro d op hStart hOp b len pay hPayload hRet
    obtain ⟨i, hSent, hItem⟩ := rmo_sent hStart hOp ⟨hPayload, hRet⟩
    obtain ⟨-, -, hIs, mc, unord, rctr, raddr, hHdr⟩ := hItem
    refine ⟨_, i, rfl, hSent, hIs, ?_⟩
    rw [hHdr]
    exact ⟨rfl, rfl, rfl, rfl, rfl, rfl⟩
  · obtain ⟨i, hWaits, hQueue⟩ := hHolds
    have hAny : (s.fab.waiting.any fun x => decide (x.queue = streamQueue e q.toNat)) = true :=
      List.any_eq_true.mpr ⟨i, hWaits, decide_eq_true hQueue⟩
    exact ⟨_, if_pos ⟨hBase, hInterval, hBelow, hAny⟩, effLevel_aged hBase hBelow, fun _ => rfl, sameBytes_modEng s e _⟩

end Sys2Proof.Machine
end

section
/-! SUPPORT. Slot requests as the anchor reads and checks them, and how their commands end or wait (R293, R304, R369, R378). -/
namespace Sys2Proof.Machine

/-! ### Ring commands that may execute (R370) -/

theorem onCmd_ready {s : State} {pair : BitVec 16} {op : Nat} {c : Cmd} {k : Cmd → State → State} (h : Ready s pair op c) :
    onCmd op pair k s = .next (k c s) := by
  unfold onCmd
  rw [h.next]
  exact congrArg Host.Outcome.next (if_pos ⟨h.op, h.barrier, h.full, h.up⟩)

/-- A command that may execute has not started. -/
theorem phase_ne_done_of_ready {s : State} {pair : BitVec 16} {op : Nat} {c : Cmd} (h : Ready s pair op c) : c.phase ≠ .done := by
  have hNext := h.next
  unfold State.nextCmd at hNext
  split at hNext
  · cases hNext
  · have hFound := List.find?_some hNext
    simp only [Bool.and_eq_true, decide_eq_true_iff] at hFound
    rw [hFound.2]
    decide

/-- A command that may execute gets its outcome in every state that its row reaches with the same commands, completions and ledger. -/
theorem ends_of_ready {s z : State} {pair : BitVec 16} {op : Nat} {c : Cmd} (h : Ready s pair op c) (hCmds : z.cmds = s.cmds)
    (hLedger : z.ledger = s.ledger) (hCompletions : z.completions = s.completions) (status detail : Nat) (hDetail : detail < 2 ^ 16) :
    Ends s (c.ends status detail 0 z) c status detail 0 := by
  have hSelf : z.cmdOf c.id = some c := (cmdOf_congr hCmds c.id).trans h.self
  obtain ⟨⟨hOne, hDone, hNext⟩, -⟩ := finish_ends status detail 0 [] hSelf h.live (phase_ne_done_of_ready h) (by rw [hLedger]; exact h.up)
  rw [Nat.mod_eq_of_lt hDetail, hCompletions] at hOne
  rw [hLedger] at hNext
  exact ⟨hOne, hDone, hNext⟩

/-- A command that its row lets wait is WAITING. -/
theorem waits_of_ready {s z : State} {pair : BitVec 16} {op : Nat} {c : Cmd} (h : Ready s pair op c) (hCmds : z.cmds = s.cmds) :
    ((z.modCmd c.id fun c => { c with phase := .waiting }).cmdOf c.id).map (·.phase) = some .waiting := by
  rw [cmdOf_modCmd z c.id, cmdOf_congr hCmds c.id, h.self]
  · rfl
  · exact fun _ => rfl
  · exact fun _ => rfl

/-! ### Slot requests (R293, R304) -/

/-- Where no code block is bad, reading a request block changes nothing. -/
theorem slotReq_state {s : State} (h : s.clean) (c : Cmd) (dl : Bool) : (s.slotReq c dl).1 = s := by
  unfold State.slotReq
  simp only [read_of_clean h]
  split
  · split_ifs <;> rfl
  · rfl

theorem slotReq_eq {s : State} (h : s.clean) {c : Cmd} {dl : Bool} {r : Nat ⊕ (Carrier × Nat × List Byte)} (hr : (s.slotReq c dl).2 = r) :
    s.slotReq c dl = (s, r) := Prod.ext (slotReq_state h c dl) hr

/-- The request's slot counter rises above the latest of its pair (R293). -/
def UlInOrder (s : State) (c : Cmd) : Prop := ∀ m, s.prevUl c.pair = some m → m < c.param 8 8

/-- The pair's latest uplink slot counter is that of the request. -/
def State.noteUl (s : State) (c : Cmd) : State :=
  { s with lastUl := (s.lastUl.filter fun x => decide (x.1 ≠ c.pair)) ++ [(c.pair, c.param 8 8)] }

theorem prevUl_noteUl (s : State) (c : Cmd) : (s.noteUl c).prevUl c.pair = some (c.param 8 8) := by
  unfold State.prevUl State.noteUl
  dsimp only
  rw [List.find?_append, List.find?_eq_none.mpr fun x hx => by simpa using (List.mem_filter.mp hx).2, Option.none_or,
    List.find?_cons_of_pos (by simp)]
  rfl

theorem prevUl_any_iff (s : State) (c : Cmd) : ((s.prevUl c.pair).any fun m => decide (c.param 8 8 ≤ m)) = true ↔ ¬ UlInOrder s c := by
  unfold UlInOrder
  cases s.prevUl c.pair <;> simp

theorem ulSlot_outOfOrder {s : State} {c : Cmd} (h : ¬ UlInOrder s c) : State.ulSlot c s = c.ends BAD_PARAM 0 0 s :=
  if_pos ((prevUl_any_iff s c).mpr h)

theorem ulSlot_failed {s : State} {c : Cmd} {st : Nat} (h : UlInOrder s c) (hReq : s.slotReq c false = (s, .inl st)) :
    State.ulSlot c s = c.ends st 0 0 (if st = BAD_PARAM then s else s.noteUl c) := by
  unfold State.ulSlot
  dsimp only
  rw [if_neg fun hAny => (prevUl_any_iff s c).mp hAny h, hReq]
  rfl

theorem ulSlot_sound {s : State} {c : Cmd} {x : Carrier} {n : Nat} {b : List Byte} (h : UlInOrder s c)
    (hReq : s.slotReq c false = (s, .inr (x, n, b))) :
    State.ulSlot c s =
      if cResSize x.desc < resultBytes b then c.ends NO_RESOURCE 0 0 (s.noteUl c)
      else if s.estTrigger x.desc (x.abs n) ≤ s.timeFor x.part then c.ends DEADLINE_MISS 32 0 (s.noteUl c)
      else
        let z := (s.noteUl c).modCmd c.id fun c => { c with phase := .waiting }
        { z with ul := z.ul ++ [⟨x.id, n, c.id, b, none, false, false, false, false⟩] } := by
  unfold State.ulSlot
  dsimp only
  rw [if_neg fun hAny => (prevUl_any_iff s c).mp hAny h, hReq]
  rfl

theorem dlSlot_failed {s : State} {c : Cmd} {st : Nat} (hReq : s.slotReq c true = (s, .inl st)) : State.dlSlot c s = c.ends st 0 0 s := by
  unfold State.dlSlot
  rw [hReq]

theorem dlSlot_sound {s : State} {c : Cmd} {x : Carrier} {n : Nat} {b : List Byte} (hReq : s.slotReq c true = (s, .inr (x, n, b))) :
    State.dlSlot c s =
      if s.txTrigger (cEng x.desc) x.desc (x.abs n) ≤ s.timeFor x.part then c.ends DEADLINE_MISS 32 0 s
      else
        let z := s.modCmd c.id fun c => { c with phase := .waiting }
        { z with dl := z.dl ++ [⟨x.id, n, c.id, b, false, [], false, false⟩] } := by
  unfold State.dlSlot
  rw [hReq]

/-- Settles O47: the request is read without a change of state, and each outcome of its checks ends its command or lets it wait. -/
theorem slotRequestsAreAcceptedOrEnd : Obligations.SlotRequestsAreAcceptedOrEnd := by
  intro pair s c hClean n order
  refine ⟨fun hReady => ?_, fun hReady => ?_⟩
  · have hEnds : ∀ st d, d < 2 ^ 16 → Ends s (c.ends st d 0 (s.noteUl c)) c st d 0 := ends_of_ready hReady rfl rfl rfl
    rw [exec_ulSlot, execUlSlot, onCmd_ready hReady]
    refine ⟨fun hOrder => ⟨_, rfl, ?_⟩, fun st hOrder hReq => ⟨_, rfl, ?_⟩, fun x b hOrder hReq => ?_⟩
    · rw [ulSlot_outOfOrder hOrder]
      exact ends_of_ready hReady rfl rfl rfl _ _ (by decide)
    · rw [ulSlot_failed hOrder (slotReq_eq hClean hReq)]
      split
      · exact ends_of_ready hReady rfl rfl rfl _ _ (by decide)
      · exact hEnds st 0 (by decide)
    · rw [ulSlot_sound hOrder (slotReq_eq hClean hReq)]
      refine ⟨fun hRoom => ⟨_, rfl, ?_⟩, fun hRoom hPast => ⟨_, rfl, ?_⟩, fun hRoom hTime => ⟨_, rfl, ?_⟩⟩
      · rw [if_pos hRoom]
        exact hEnds _ 0 (by decide)
      · rw [if_neg (Nat.not_lt.mpr hRoom), if_pos hPast]
        exact hEnds _ 32 (by decide)
      · rw [if_neg (Nat.not_lt.mpr hRoom), if_neg (Nat.not_le.mpr hTime)]
        exact ⟨waits_of_ready hReady rfl, rfl, sameBytes_of rfl rfl rfl rfl, prevUl_noteUl s c, rfl⟩
  · rw [exec_dlSlot, execDlSlot, onCmd_ready hReady]
    refine ⟨fun st hReq => ⟨_, rfl, ?_⟩, fun x b hReq => ?_⟩
    · rw [dlSlot_failed (slotReq_eq hClean hReq)]
      exact ends_of_ready hReady rfl rfl rfl _ _ (by decide)
    · rw [dlSlot_sound (slotReq_eq hClean hReq)]
      refine ⟨fun hPast => ⟨_, rfl, ?_⟩, fun hTime => ⟨_, rfl, ?_⟩⟩
      · rw [if_pos hPast]
        exact ends_of_ready hReady rfl rfl rfl _ _ (by decide)
      · rw [if_neg (Nat.not_le.mpr hTime)]
        exact ⟨waits_of_ready hReady rfl, rfl, sameBytes_of rfl rfl rfl rfl, rfl⟩

end Sys2Proof.Machine
end

section
/-! SUPPORT. Stage commands: what their triggers start and kill, and what a killed one leaves (R295 to R297, R304). -/
namespace Sys2Proof.Machine

/-! ### Triggers -/

/-- Time that passes moves the PTP clock or the replay clock alone (R420). -/
theorem passTime_form (s : State) (p w : Nat) : ∃ m t, s.passTime p w = { s with mirror := m, ptp := t } := by
  unfold State.passTime
  split
  · exact ⟨_, _, rfl⟩
  · exact ⟨_, _, rfl⟩

/-- Without requests that need an SRS slot, none is dropped at the TX trigger (R306). -/
theorem dropSrs_eq_self {s : State} {e k : Nat} (h : ∀ x ∈ s.dlOf e k, Config.srsSlot x.2.req = 0) : s.dropSrs e k = s := by
  refine List.foldlRecOn (motive := fun t => t = s) (s.dlOf e k) _ rfl fun t ht x hx => ?_
  dsimp only
  rw [if_neg fun hSrs => hSrs.1 (h x hx)]
  exact ht

/-- The trigger of a stage command that is next (R295): the clock moves, and the stage starts on a free engine or the command of another
class is killed. -/
theorem runStage_due {s : State} {e : Fin 8} {mine : Nat → Bool} {k kind : Nat} (hCollected : s.collectStages = s)
    (hNext : s.nextStage e.val = some (k, kind)) (hMine : mine kind = true)
    (hDl : kind = 30 → s.dlOf e.val k ≠ [] ∧ ∀ x ∈ s.dlOf e.val k, Config.srsSlot x.2.req = 0) :
    ∃ m t, let z : State := { s with mirror := m, ptp := t }
      (s.eng[e].cmd = none → s.engFree e = true → s.runStage e mine = z.startStage e kind k) ∧
      ∀ id, s.eng[e].cmd = some id → isStage id = false → s.isRealtime (s.ownerPart e) = false →
        s.runStage e mine = z.killCmdOn e ⟨.uncounted, KILLED, 0⟩ := by
  obtain ⟨m, t, hTime⟩ := passTime_form s (((s.group e.val).head?.map (·.part)).getD 0) (s.stageTime e.val kind k)
  have hDrop : (if kind = 30 then ({ s with mirror := m, ptp := t } : State).dropSrs e.val k else { s with mirror := m, ptp := t }) =
      { s with mirror := m, ptp := t } := by
    split
    · next hTx => exact dropSrs_eq_self (hDl hTx).2
    · rfl
  have hSome : ¬ (kind = 30 ∧ ({ s with mirror := m, ptp := t } : State).dlOf e.val k = []) := fun h => (hDl h.1).1 h.2
  refine ⟨m, t, ?_⟩
  unfold State.runStage
  dsimp only
  rw [hCollected, hNext]
  dsimp only
  rw [if_neg (by rw [hMine]; decide), hTime, hDrop, if_neg hSome]
  refine ⟨fun hCmd hFree => ?_, fun id hCmd hStage hReal => ?_⟩
  · rw [hCmd]
    exact if_pos hFree
  · rw [hCmd]
    refine if_neg fun h => ?_
    rcases h with h | h
    · exact Bool.false_ne_true (hStage.symm.trans h)
    · exact Bool.false_ne_true (hReal.symm.trans h)

theorem exec_stageRow (s : State) (e : Fin 8) {kind : Nat} (h : kind ≤ 30) :
    ∃ mine : Nat → Bool, exec (stageRow e kind) s = .next (s.runStage e mine) ∧ mine kind = true := by
  unfold stageRow
  split_ifs with hEst hTx
  · exact ⟨_, rfl, decide_eq_true hEst⟩
  · exact ⟨_, rfl, decide_eq_true hTx⟩
  · exact ⟨_, rfl, decide_eq_true (by omega)⟩

/-! ### Starting a stage -/

/-- From `s` to `t` the engines and the stage commands are the same. -/
def SameStages (s t : State) : Prop := t.eng = s.eng ∧ t.stages = s.stages

theorem SameStages.trans {s t u : State} (h : SameStages s t) (k : SameStages t u) : SameStages s u := ⟨k.1.trans h.1, k.2.trans h.2⟩

theorem sameStages_of_stores {s t : State} (h : Stores s t) : SameStages s t := by
  obtain ⟨_, _, _, _, _, _, rfl⟩ := h.form
  exact ⟨rfl, rfl⟩

theorem sameStages_poke (s : State) (a : Nat) (bs : List Byte) : SameStages s (s.poke a bs) := sameStages_of_stores (stores_poke s a bs)

theorem sameStages_record (s : State) (a n : Nat) (bs : List Byte) (cs : List Capture) :
    SameStages s { (s.undef a n).poke a bs with captures := cs } := sameStages_poke (s.undef a n) a bs

/-- The capture of a slot writes its ring and its group's counts (R341). -/
theorem sameStages_capture (s : State) (e k : Nat) : SameStages s (s.capture e k) := by
  unfold State.capture
  split
  · exact ⟨rfl, rfl⟩
  extract_lets us recs size area ps last n
  split
  · exact ⟨rfl, rfl⟩
  split
  · exact SameStages.trans (t := s.modGroup e _) ⟨rfl, rfl⟩ (sameStages_poke _ _ _)
  · refine List.foldlRecOn (motive := SameStages s) ps _ ⟨rfl, rfl⟩ fun t ht p _ => ht.trans ?_
    dsimp only
    split
    · exact sameStages_poke t _ _
    · split
      · exact ⟨rfl, rfl⟩
      · exact sameStages_record t _ _ _ _

theorem launch_stages (s : State) (e : Fin 8) (id : Nat × Nat) (j : Job) (entry ctx : List Byte) (step : Nat) :
    (s.launch e id j entry ctx step).stages = s.stages :=
  (sameStages_of_stores (prepared_stores s e j entry ctx step)).2

/-- A stage starts by a launch, after its slot's capture records are claimed (R295, R341). -/
theorem startStage_form {s : State} {e : Fin 8} {kind k : Nat} {j : Job} (hJob : ((s.group e.val).head?.bind fun c => s.radioJob c.part) = some j) :
    ∃ z entry ctx ul, SameStages s z ∧ s.startStage e kind k =
      let t := (z.toIdle e).launch e (stageId e.val kind k) j entry ctx j.step
      { t with stages := t.stages ++ [⟨e.val, kind, k, s.stageCarriers e.val kind k, true, false, false⟩], ul := ul } := by
  unfold State.startStage
  rw [hJob]
  refine ⟨if kind = 0 then s.capture e.val k else s, _, _, _, ?_, rfl⟩
  split
  · exact sameStages_capture s e.val k
  · exact ⟨rfl, rfl⟩

/-- A stage that starts runs on its engine for its slot's carriers; the other engines stay (R295). -/
theorem startStage_does {s : State} {e : Fin 8} {kind k : Nat} {j : Job} (hJob : ((s.group e.val).head?.bind fun c => s.radioJob c.part) = some j) :
    (s.startStage e kind k).eng[e].cmd = some (stageId e.val kind k) ∧ (s.startStage e kind k).eng[e].state = .running ∧
    (s.startStage e kind k).stages = s.stages ++ [⟨e.val, kind, k, s.stageCarriers e.val kind k, true, false, false⟩] ∧
    ∀ i : Fin 8, i ≠ e → (s.startStage e kind k).eng[i] = s.eng[i] := by
  obtain ⟨z, entry, ctx, ul, ⟨hEng, hStages⟩, hForm⟩ := startStage_form (kind := kind) (k := k) hJob
  obtain ⟨⟨hCmd, hRunning, -⟩, -, hOthers⟩ := launch_does z e (stageId e.val kind k) j entry ctx j.step
  rw [hForm]
  exact ⟨hCmd, hRunning, congrArg (· ++ _) ((launch_stages _ e _ j entry ctx j.step).trans hStages), fun i hi => (hOthers i hi).trans (eng_congr hEng i)⟩

/-! ### Killing a command -/

/-- Engine `e` is being killed for the reason `k`. -/
def KilledFor (k : KillInfo) (e : Fin 8) (s : State) : Prop := s.eng[e].state = .killing ∧ s.eng[e].kill = some k

theorem killEng_stops {s : State} {e : Fin 8} (k : KillInfo) (h : s.eng[e].state ∈ [.running, .waiting, .halted]) : KilledFor k e (s.killEng e k) := by
  have hKilled : s.killEng e k = (s.abortUnits e).setEng e { (s.abortUnits e).eng[e] with state := .killing, kill := some k } := by
    unfold State.killEng
    split
    · next hIdle => rw [hIdle] at h; exact absurd h (by decide)
    · next hKilling => rw [hKilling] at h; exact absurd h (by decide)
    · next hTrapped => rw [hTrapped] at h; exact absurd h (by decide)
    · rfl
  unfold KilledFor
  rw [hKilled, State.setEng_get]
  exact ⟨rfl, rfl⟩

/-- A kill does not reach an engine that is being killed already. -/
theorem killEng_of_killed {s : State} {e : Fin 8} {k : KillInfo} (h : KilledFor k e s) : s.killEng e k = s := by
  unfold State.killEng
  rw [h.1]

/-- A command that is killed on every engine on which it runs is killed on engine `e`. -/
theorem killEngs_stop {e : Fin 8} {id : Nat × Nat} (k : KillInfo) : ∀ (l : List (Fin 8)) (s : State), s.eng[e].cmd = some id →
    (KilledFor k e s ∨ s.eng[e].state ∈ [.running, .waiting, .halted] ∧ e ∈ l) →
    KilledFor k e (l.foldl (fun t j => if t.eng[j].cmd = some id then t.killEng j k else t) s)
  | [], _, _, h => h.resolve_right fun hx => nomatch hx.2
  | j :: l, s, hCmd, h => by
    rw [List.foldl_cons]
    by_cases hj : e = j
    · subst hj
      rw [if_pos hCmd]
      refine killEngs_stop k l _ ((killEng_cmd s e e k).trans hCmd) (.inl ?_)
      rcases h with h | h
      · rwa [killEng_of_killed h]
      · exact killEng_stops k h.1
    · have hMem := h.imp_right fun hx => And.imp_right (fun hx => (List.mem_cons.mp hx).resolve_left hj) hx
      split
      · exact killEngs_stop k l _ ((killEng_cmd s e j k).trans hCmd) (by unfold KilledFor at *; rwa [killEng_get_ne s k hj])
      · exact killEngs_stop k l s hCmd hMem

theorem killEng_stages (s : State) (e : Fin 8) (k : KillInfo) : (s.killEng e k).stages = s.stages := by
  obtain ⟨m, n, b, hAbort⟩ := abortUnits_form s e
  unfold State.killEng
  split
  iterate 3 rfl
  rw [hAbort]
  rfl

/-- A command on a stoppable engine is killed there, and the stage commands stay (R80). -/
theorem killCmdOn_stops {s : State} {e : Fin 8} {id : Nat × Nat} (k : KillInfo) (hCmd : s.eng[e].cmd = some id)
    (h : s.eng[e].state ∈ [.running, .waiting, .halted]) : KilledFor k e (s.killCmdOn e k) ∧ (s.killCmdOn e k).stages = s.stages := by
  unfold State.killCmdOn
  rw [hCmd]
  refine ⟨killEngs_stop k _ s hCmd (.inr ⟨h, List.mem_finRange e⟩), ?_⟩
  refine List.foldlRecOn (motive := fun t : State => t.stages = s.stages) _ _ rfl fun t ht j _ => ?_
  split
  · exact (killEng_stages t j k).trans ht
  · exact ht

/-! ### Stages due again (R297) -/

/-- A killed stage command leaves the stages and marks the uplink slots that it serves. -/
theorem execStageRerun_of_stage {s : State} {id : Nat × Nat} {k : KillInfo} {rest : List ((Nat × Nat) × KillInfo)}
    (hFirst : s.stageKills = (id, k) :: rest) (hKind : (id.1 - 0x10000) % 32 < 30) :
    ∃ ul, exec .stageRerun s = .next { s with
        stageKills := rest
        stages := s.stages.filter fun g => decide (stageId g.eng g.kind g.slot ≠ id)
        ul := ul } ∧
      ∀ u ∈ s.ul, ∀ x, s.carrier u.carrier = some x → cEng x.desc = (id.1 - 0x10000) / 32 → x.abs u.n = id.2 → k.why ≠ .uncounted →
        { u with rerun := true } ∈ ul := by
  rw [exec_stageRerun, execStageRerun, hFirst]
  dsimp only
  rw [if_neg (by omega)]
  refine ⟨_, rfl, fun u hu x hCarrier hEng hSlot hWhy => List.mem_map.mpr ⟨u, hu, ?_⟩⟩
  rw [hCarrier]
  exact if_pos ⟨hKind, hEng, hSlot, hWhy⟩

/-- Settles O48: the trigger's stage starts or the command in its way is killed; DEC and the re-run change the stages alone. -/
theorem stagesRunAtTheirTriggers : Obligations.StagesRunAtTheirTriggers := by
  intro e s hCollected
  refine ⟨fun k kind c j hNext hKind hHead hJob hDl => ?_, fun k hFirst => ?_, fun id k rest hKills hKind => ?_⟩
  · obtain ⟨mine, hRow, hMine⟩ := exec_stageRow s e hKind
    obtain ⟨m, w, hStart, hKill⟩ := runStage_due hCollected hNext hMine hDl
    have hImage : ((s.group e.val).head?.bind fun c => s.radioJob c.part) = some j := by rw [hHead]; exact hJob
    refine ⟨fun hCmd hFree => ⟨_, hRow, ?_⟩, fun id hCmd hStage hReal hState => ⟨_, hRow, ?_⟩⟩
    · rw [hStart hCmd hFree]
      exact startStage_does (s := { s with mirror := m, ptp := w }) hImage
    · rw [hKill id hCmd hStage hReal]
      obtain ⟨⟨hKilling, hWhy⟩, hStages⟩ := killCmdOn_stops (s := { s with mirror := m, ptp := w }) ⟨.uncounted, KILLED, 0⟩ hCmd hState
      exact ⟨hKilling, hWhy, hStages⟩
  · obtain ⟨m, w, hTime⟩ := passTime_form s (((s.group e.val).head?.map (·.part)).getD 0) (s.stageTime e.val 31 k)
    rw [exec_dec, execDec]
    dsimp only
    rw [hFirst]
    dsimp only
    rw [hTime]
    exact ⟨_, rfl, rfl, sameBytes_of rfl rfl rfl rfl, rfl⟩
  · obtain ⟨ul, hRow, hMarked⟩ := execStageRerun_of_stage hKills hKind
    refine ⟨_, hRow, rfl, rfl, fun g hg => of_decide_eq_true (List.mem_filter.mp hg).2, sameBytes_of rfl rfl rfl rfl, hMarked⟩

end Sys2Proof.Machine
end

section
/-! SUPPORT. Delivery of blocks, the close of receive windows, and the ends of downlink requests (R285 to R288, R305, R307). -/
namespace Sys2Proof.Machine

/-! ### What a carrier and a command are found by -/

theorem id_of_carrier {s : State} {n : Nat} {x : Carrier} (h : s.carrier n = some x) : x.id = n := by
  have hFound := List.find?_some h
  rw [Bool.and_eq_true, decide_eq_true_iff] at hFound
  exact hFound.1

theorem id_of_cmdOf {s : State} {id : Nat × Nat} {c : Cmd} (h : s.cmdOf id = some c) : c.id = id := by
  have hFound := List.find?_some h
  simp only [Bool.and_eq_true, decide_eq_true_iff] at hFound
  exact Prod.ext hFound.1 hFound.2

/-- What a list without the entry of two keys keeps does not have both. -/
theorem not_both {p q : Prop} [Decidable p] [Decidable q] (h : (!(decide p && decide q)) = true) : ¬ (p ∧ q) := by
  rwa [← Bool.decide_and, Bool.not_eq_true', decide_eq_false_iff_not] at h

/-! ### Delivery of blocks (R286) -/

/-- The oldest block of a port leaves when no older slot of its carrier holds the buffer. -/
theorem blockDelivery_delivers {s : State} {port : Fin 16} {b : ReadyBlk} {rest : List ReadyBlk} {c : Carrier}
    (hFirst : takeFirst (fun b => decide (b.port = port.val)) s.front.ready = some (b, rest)) (hCarrier : s.carrier b.carrier = some c)
    (hHeld : s.heldSlots c.id b.n = []) :
    ∃ a, exec (.blockDelivery port) s = .next ((s.modFront fun r => { r with ready := rest, asm := a }).pushItems [s.blockItem c b]) := by
  rw [exec_blockDelivery, execBlockDelivery, hFirst]
  dsimp only
  rw [show (s.modFront fun r => { r with ready := rest }).carrier b.carrier = some c from hCarrier]
  dsimp only
  rw [show (s.modFront fun r => { r with ready := rest }).heldSlots c.id b.n = [] from hHeld]
  simp only [List.isEmpty_nil, Bool.not_true, Bool.false_and, Bool.false_eq_true, if_false, List.foldl_nil, List.not_mem_nil, decide_false,
    Bool.and_false, Bool.not_false]
  refine ⟨s.front.asm.filter fun _ => true, congrArg Host.Outcome.next ?_⟩
  simp only [State.modFront, List.filter_true]
  rfl

/-! ### Reception of a slot (R285, R287) -/

/-- Reception of a slot as a change of it finds it. -/
def State.rxAt (s : State) (c n : Nat) : RxSlot := (s.rxOf c n).getD ⟨c, n, [], [], [], none⟩

/-- Changing the elements that `p` selects into ones that `p` selects changes what `find?` finds. -/
theorem find?_map_ite {α : Type} {p : α → Bool} {q : α → Prop} [DecidablePred q] {f : α → α} (hq : ∀ a, q a ↔ p a = true)
    (hf : ∀ a, p (f a) = p a) (l : List α) : (l.map fun a => if q a then f a else a).find? p = (l.find? p).map f := by
  induction l with
  | nil => rfl
  | cons a l ih =>
    rw [List.map_cons]
    by_cases ha : p a = true
    · rw [if_pos ((hq a).mpr ha), List.find?_cons_of_pos ((hf a).trans ha), List.find?_cons_of_pos ha]
      rfl
    · rw [if_neg fun h => ha ((hq a).mp h), List.find?_cons_of_neg ha, List.find?_cons_of_neg ha, ih]

/-- A change of a slot's reception that keeps whose it is, is what the reception reads as. -/
theorem rxOf_modRx (s : State) (c n : Nat) {f : RxSlot → RxSlot} (hf : ∀ r, (f r).carrier = r.carrier ∧ (f r).n = r.n) :
    (s.modRx c n f).rxOf c n = some (f (s.rxAt c n)) := by
  unfold State.modRx State.rxAt
  cases hRx : s.rxOf c n with
  | some r => exact (find?_map_ite (by simp) (fun r => by rw [(hf r).1, (hf r).2]) s.rx).trans (congrArg (Option.map f) hRx)
  | none =>
    have hNew : ([f ⟨c, n, [], [], [], none⟩] : List RxSlot).find? (fun r => decide (r.carrier = c) && decide (r.n = n)) =
        some (f ⟨c, n, [], [], [], none⟩) := List.find?_cons_of_pos (by simp [hf])
    refine (List.find?_append (xs := s.rx)).trans ?_
    rw [show s.rx.find? _ = none from hRx, hNew]
    rfl

theorem rxAt_modRx (s : State) (c n : Nat) {f : RxSlot → RxSlot} (hf : ∀ r, (f r).carrier = r.carrier ∧ (f r).n = r.n) :
    (s.modRx c n f).rxAt c n = f (s.rxAt c n) := by
  rw [State.rxAt, rxOf_modRx s c n hf]
  rfl

/-- A damaged block that is ready counts as delivered and as missing. -/
theorem rxAt_blockReady (s : State) (p : Nat) (c : Carrier) (n blk : Nat) (bytes : List Byte) :
    (s.blockReady p c n blk bytes true).rxAt c.id n =
      { s.rxAt c.id n with done := (s.rxAt c.id n).done ++ [blk], missing := (s.rxAt c.id n).missing ++ [blk] } :=
  rxAt_modRx s c.id n fun _ => ⟨rfl, rfl⟩

/-- Damaged blocks that become ready one after another. -/
theorem rxAt_blocksReady (c : Carrier) (n : Nat) (port : Nat × Nat → Nat) (bytes : State → Nat × Nat → List Byte) (l : List (Nat × Nat)) :
    ∀ s : State, (l.foldl (fun t x => t.blockReady (port x) c n x.2 (bytes t x) true) s).rxAt c.id n =
      { s.rxAt c.id n with
        done := (s.rxAt c.id n).done ++ l.map (·.2)
        missing := (s.rxAt c.id n).missing ++ l.map (·.2) } := by
  induction l with
  | nil => intro s; simp
  | cons x l ih => intro s; rw [List.foldl_cons, ih, rxAt_blockReady]; simp

/-- The start of a slot's deadline clock changes its reception's start alone (R20). -/
theorem rxOf_startClock {s : State} {c : Carrier} {n : Nat} {r : RxSlot} (t : Nat) (h : s.rxOf c.id n = some r) :
    ∃ w, (s.startClock c n t).rxOf c.id n = some { r with start := w } := by
  have hAt : s.rxAt c.id n = r := by unfold State.rxAt; rw [h]; rfl
  unfold State.startClock
  dsimp only
  rw [h]
  dsimp only
  split
  · refine ⟨some t, (rxOf_modRx s c.id n (f := fun r => { r with start := some t }) fun _ => ⟨rfl, rfl⟩).trans ?_⟩
    rw [hAt]
  · exact ⟨_, h⟩

theorem stores_journalCarrier (s : State) (kind src carrier part time : Nat) (payload : List Byte) :
    Stores s (s.journalCarrier kind src carrier part time payload) := by
  unfold State.journalCarrier
  dsimp only
  generalize (bit s.mirror.carriers carrier && _) = on
  cases on
  · exact Stores.refl s
  · exact stores_journal s _ _ _ _ _

theorem Stores.rxOf {s t : State} (h : Stores s t) (c n : Nat) : t.rxOf c n = s.rxOf c n := by
  obtain ⟨_, _, _, _, _, _, rfl⟩ := h.form; rfl

/-- The blocks of symbol `sym`, with their streams (R285). -/
def symBlocks (d : List Byte) (sym : Nat) : List (Nat × Nat) :=
  (List.range (cUl d)).flatMap fun i => (List.range (cNblk d)).map fun k => (i, (i * 14 + sym) * 8 + k)

theorem mem_symBlocks {d : List Byte} {sym i k : Nat} (hi : i < cUl d) (hk : k < cNblk d) : (i, (i * 14 + sym) * 8 + k) ∈ symBlocks d sym :=
  List.mem_flatMap.mpr ⟨i, List.mem_range.mpr hi, List.mem_map.mpr ⟨k, List.mem_range.mpr hk, rfl⟩⟩

/-- The blocks of the symbol that reception `r` has not delivered. -/
def lateBlocks (d : List Byte) (sym : Nat) (r : RxSlot) : List Nat := ((symBlocks d sym).filter fun x => decide (x.2 ∉ r.done)).map (·.2)

theorem mem_lateBlocks {d : List Byte} {sym i k : Nat} {r : RxSlot} (hi : i < cUl d) (hk : k < cNblk d) (h : (i * 14 + sym) * 8 + k ∉ r.done) :
    (i * 14 + sym) * 8 + k ∈ lateBlocks d sym r :=
  List.mem_map.mpr ⟨_, List.mem_filter.mpr ⟨mem_symBlocks hi hk, decide_eq_true h⟩, rfl⟩

/-- At a window's close the symbol's blocks that have not been delivered are delivered as missing (R287). -/
theorem rxOf_closeWindow (s : State) (c : Carrier) (n sym : Nat) :
    ∃ w, (s.closeWindow c n sym).rxOf c.id n =
      let r := s.rxAt c.id n
      some { r with
        done := r.done ++ lateBlocks c.desc sym r
        missing := r.missing ++ lateBlocks c.desc sym r
        closed := r.closed ++ [sym]
        start := w } := by
  unfold State.closeWindow
  extract_lets d blks rx todo s1 s2 t s3
  have h1 := rxAt_blocksReady c n (fun x => mPort (mapEntry c.map x.1))
    (fun t x => asmBytes (blkPrbs d (x.2 % 8)) (((t.asmOf c.id n x.2).map (·.prbs)).getD [])) todo s
  have h2 : s2.rxOf c.id n = some { s1.rxAt c.id n with closed := (s1.rxAt c.id n).closed ++ [sym] } :=
    rxOf_modRx s1 c.id n fun _ => ⟨rfl, rfl⟩
  rw [show s1.rxAt c.id n = _ from h1] at h2
  have h3 : s3.rxOf c.id n = s2.rxOf c.id n := (stores_journalCarrier s2 _ _ _ _ _ _).rxOf c.id n
  split
  · exact rxOf_startClock t (h3.trans h2)
  · exact ⟨_, h3.trans h2⟩

/-- The close of a window that is open, of a slot that waits in a partition without replay. -/
theorem rxWindowClose_closes {s : State} {c : Fin 24} {n : BitVec 64} {sym : Fin 14} {x : Carrier} (hCarrier : s.carrier c.val = some x)
    (hSym : sym.val < cNsym x.desc) (hUnpublished : (c.val, n.toNat) ∉ s.published) (hLive : s.replayOf x.part = none)
    (hOpen : ∀ r, s.rxOf c.val n.toNat = some r → sym.val ∉ r.closed) :
    ∃ m w, exec (.rxWindowClose c n sym) s = .next (({ s with mirror := m, ptp := w } : State).closeWindow x n.toNat sym.val) := by
  obtain ⟨m, w, hTime⟩ := passTime_form s x.part (s.airTime x.desc (x.abs n.toNat) (sym.val + 1) + nsT (cRxClose x.desc))
  have hClosed : ((s.rxOf c.val n.toNat).map (·.closed)).any (fun l => decide (sym.val ∈ l)) = false := by
    cases hRx : s.rxOf c.val n.toNat with
    | none => rfl
    | some r => exact decide_eq_false (hOpen r hRx)
  rw [exec_rxWindowClose, execRxWindowClose, hCarrier]
  dsimp only
  rw [hLive, hClosed, if_neg (by simp [hSym, hUnpublished]), hTime]
  exact ⟨m, w, rfl⟩

/-! ### Downlink requests that end (R307) -/

/-- A downlink request that ends completes its command. -/
theorem endDl_ends {s : State} {u : DlSlot} {c : Cmd} (status : Nat) (hCmd : s.cmdOf u.cmd = some c) (hLive : c.replay = false)
    (hPhase : c.phase ≠ .done) (hUp : s.ledger.up = true) : Ends s (s.endDl u status) c status 0 0 := by
  have hId := id_of_cmdOf hCmd
  rw [← hId] at hCmd
  obtain ⟨⟨hOne, hDone, hNext⟩, -⟩ := finish_ends status 0 0 [] hCmd hLive hPhase hUp
  unfold State.endDl
  rw [← hId]
  exact ⟨hOne, hDone, hNext⟩

theorem endDl_gone (s : State) (u : DlSlot) (status : Nat) : ∀ v ∈ (s.endDl u status).dl, ¬ (v.carrier = u.carrier ∧ v.n = u.n) :=
  fun _ hv => not_both (List.mem_filter.mp hv).2

/-- A request whose symbols are all sent or dropped ends, and of the rest only the list of stages may change. -/
theorem dlSlotComplete_ends {s : State} {c : Fin 24} {n : BitVec 64} {x : Carrier} {u : DlSlot} (hCollected : s.collectStages = s)
    (hCarrier : s.carrier c.val = some x) (hFirst : s.dl.find? (fun u => decide (u.carrier = c.val) && decide (u.n = n.toNat)) = some u)
    (hCplane : u.cplane = true) (hUp : s.ledger.up = true) (hAll : ∀ i y, i < cDl x.desc → y < cNsym x.desc → i * 14 + y ∈ u.done) :
    ∃ l, exec (.dlSlotComplete c n) s = .next { s.endDl u (if u.missed then DEADLINE_MISS else OK) with stages := l } := by
  have hEvery : ((List.range (cDl x.desc)).all fun i => (List.range (cNsym x.desc)).all fun y => decide (i * 14 + y ∈ u.done)) = true := by
    simpa using fun i hi y hy => hAll i y hi hy
  rw [exec_dlSlotComplete, execDlSlotComplete, hCarrier, hFirst]
  dsimp only
  rw [if_neg (by simp [hEvery, hCplane, hUp]), hCollected]
  generalize s.endDl u _ = t
  split
  · exact ⟨_, rfl⟩
  · exact ⟨_, rfl⟩

end Sys2Proof.Machine
end

section
/-! SUPPORT. Slot results: what a publication writes, lists and completes (R296, R300 to R302, R340). -/
namespace Sys2Proof.Machine

/-! ### Writes where no code block is bad -/

/-- From `s` to `t` bytes of device memory and free values have been written alone. -/
def Draws (s t : State) : Prop := ∃ m f, t = { s with mem := m, fresh := f }

theorem Draws.refl (s : State) : Draws s s := ⟨_, _, rfl⟩

theorem Draws.trans {s t u : State} (h : Draws s t) (k : Draws t u) : Draws s u := by
  obtain ⟨_, _, rfl⟩ := h
  obtain ⟨_, _, rfl⟩ := k
  exact ⟨_, _, rfl⟩

theorem Draws.clean {s t : State} (h : Draws s t) (hc : s.clean) : t.clean := by
  obtain ⟨_, _, rfl⟩ := h
  exact clean_of hc rfl fun _ => rfl

theorem draws_draw (s : State) : Draws s s.draw.2 := ⟨_, _, rfl⟩

theorem draws_undef (s : State) (a n : Nat) : Draws s (s.undef a n) := ⟨_, _, rfl⟩

/-- Where no code block is bad, a write changes bytes alone. -/
theorem Draws.poke {s t : State} (h : Draws s t) (hc : s.clean) (a : Nat) (bs : List Byte) : Draws s (t.poke a bs) := by
  refine h.trans ?_
  rw [poke_of_clean (h.clean hc)]
  exact ⟨_, _, rfl⟩

theorem draws_tbRecords (dead : Bool) (rs : List (List Byte)) : ∀ s : State, Draws s (s.tbRecords dead rs).2.2 := by
  induction rs with
  | nil => exact Draws.refl
  | cons r rs ih => exact fun s => (draws_draw s).trans (ih _)

theorem bytes_take (s : State) (a n m : Nat) : (s.bytes a (n + m)).take n = s.bytes a n := by
  unfold State.bytes
  rw [← List.map_take, List.take_range, Nat.min_eq_left (Nat.le_add_right n m)]

/-- The first bytes of a write are read back. -/
theorem bytes_put_first {s : State} (h : s.clean) (a : Nat) (bs rest : List Byte) :
    ({ s with mem := putBytes s.mem a (bs ++ rest) } : State).bytes a bs.length = bs := by
  have hAll := bytes_put h a (bs ++ rest)
  rw [List.length_append] at hAll
  rw [← bytes_take _ a bs.length rest.length, hAll, List.take_left]

/-- A write where no code block is bad, and its first bytes. -/
theorem Draws.poke_first {s t : State} (h : Draws s t) (hc : s.clean) (a : Nat) (bs rest : List Byte) :
    Draws s (t.poke a (bs ++ rest)) ∧ (t.poke a (bs ++ rest)).bytes a bs.length = bs := by
  refine ⟨h.poke hc _ _, ?_⟩
  rw [poke_of_clean (h.clean hc)]
  exact bytes_put_first (h.clean hc) a bs rest

/-! ### The parts of a publication -/

/-- A state without pending capture records commits none (R340). -/
theorem captureCommit_of_none {s : State} (h : s.captures = []) (e : Nat) (c : Carrier) (n : Nat) (bad : Bool) (missing : List Nat)
    (pass : Nat → Bool) : s.captureCommit e c n bad missing pass = { s with captures := [] } := by
  unfold State.captureCommit
  extract_lets mine s1 s2
  have hMine : mine = [] := by unfold mine; rw [h]; rfl
  have h1 : s1 = s := by unfold s1; rw [hMine]; rfl
  have h2 : s2 = s := by
    unfold s2
    rw [hMine, h1]
    cases s.shGroup e <;> rfl
  rw [h2, h]
  rfl

/-- An EVENT record that is issued or not leaves bytes and registers. -/
theorem event_or_not (p : Prop) [Decidable p] (s : State) (status unit detail : Nat) :
    let t := if p then s.event status unit detail else s
    Stores s t ∧ (∀ a, t.byte a = s.byte a) ∧ t.regs = s.regs := by
  dsimp only
  split
  · exact ⟨stores_event _ _ _ _, (sameBytes_event _ _ _ _).1, rfl⟩
  · exact ⟨Stores.refl _, fun _ => rfl, rfl⟩

/-- Without a recording, a commit that is not replayed leaves no DIGEST record. -/
theorem digest_of_not_recording {s : State} (h : s.recording = false) (p job pair seq step digest dyn : Nat) :
    s.digest false p job pair seq step digest dyn = s := by
  unfold State.digest State.journal
  rw [if_neg Bool.false_ne_true, if_pos h, ite_self]

theorem recording_congr {s t : State} (h : t.regs = s.regs) : t.recording = s.recording := by
  unfold State.recording State.fld State.regN State.reg
  rw [h]

/-- What the publication of slot `n` of carrier `c` leaves for the command `id`: the slot is published, its request is gone, commands wait as
before, and the result begins with the slot counter. -/
structure Publishes (s : State) (c : Carrier) (id : Nat × Nat) (n : Nat) (o : PubOut) : Prop where
  id : o.id = id
  status : o.status ∈ [0, 1, 5, 8]
  value : o.value = n % cResCount c.desc
  cmds : o.st.cmds = s.cmds
  completions : o.st.completions = s.completions
  shadow : o.st.shadow = s.shadow
  published : o.st.published = s.published ++ [(c.id, n)]
  ul : o.st.ul = s.ul.filter fun x => !(decide (x.carrier = c.id) && decide (x.n = n))
  head : s.recording = false → o.st.bytes (key 0x40 (cResBase c.desc + n % cResCount c.desc * cResSize c.desc)) 8 = toLE 8 n

theorem Stores.slots {s t : State} (h : Stores s t) : t.shadow = s.shadow ∧ t.published = s.published ∧ t.ul = s.ul := by
  obtain ⟨_, _, _, _, _, _, rfl⟩ := h.form
  exact ⟨rfl, rfl, rfl⟩

/-- A slot whose stages have ended, of a live command, is published; without pending capture records that is its result, its place in the
lists, and a DIGEST record (R300 to R302). -/
theorem publishSlot_publishes {s : State} {c : Carrier} {u : UlSlot} (hClean : s.clean) (hCaptures : s.captures = [])
    (hLive : (s.cmdOf u.cmd).any (·.replay) = false) : Publishes s c u.cmd u.n (s.publishSlot c u .done) := by
  unfold State.publishSlot
  extract_lets d k b e rx dead now start lat late maybe dr missing gen change detail status base tb d2 np nm uci off mo head s1 s2 s3 s4 s5 harq s6
    s7 s8 img dig rep
  have hDrawn : Draws s s4 := by
    have h1 : Draws s s1 := (((draws_draw s).trans (draws_tbRecords _ _ _)).trans (draws_draw _)).trans (draws_undef _ _ _)
    have h2 : Draws s s2 := h1.poke hClean _ _
    have h3 : Draws s s3 := List.foldlRecOn (motive := Draws s) _ _ h2 fun t ht x _ => ht.poke hClean _ _
    unfold s4
    split
    · exact h3
    · exact h3.poke hClean _ _
  obtain ⟨rest, hHead⟩ : ∃ rest, head = toLE 8 u.n ++ rest := by
    unfold head
    simp only [List.append_assoc]
    exact ⟨_, rfl⟩
  obtain ⟨hForm, hBytes⟩ : Draws s s5 ∧ s5.bytes base (toLE 8 u.n).length = toLE 8 u.n := by
    unfold s5
    rw [hHead]
    exact hDrawn.poke_first hClean base _ rest
  rw [toLE_length] at hBytes
  clear_value s5
  obtain ⟨m, f, rfl⟩ := hForm
  have h7 : s7 = { s6 with captures := [] } := captureCommit_of_none (s := s6) hCaptures _ _ _ _ _ _
  obtain ⟨hEvent, hSame, hRegs⟩ : Stores s7 s8 ∧ (∀ a, s8.byte a = s7.byte a) ∧ s8.regs = s7.regs := event_or_not _ s7 _ _ _
  have hRep : rep = false := hLive
  rw [hRep]
  have hAfter := hEvent.trans (stores_digest s8 c.part c.id (u.cmd.1 % 0x8000) u.cmd.2 (s.radioStep c.part) dig 0)
  obtain ⟨hShadow, hPublished, hUl⟩ := hAfter.slots
  have hStatus : status ∈ [0, 1, 5, 8] := by
    unfold status
    rw [if_neg (by decide)]
    split_ifs <;> decide
  refine ⟨rfl, hStatus, rfl, ?_, ?_, ?_, ?_, ?_, fun hRecording => ?_⟩
  · exact hAfter.cmds.trans (congrArg State.cmds h7 :)
  · exact hAfter.completions.trans (congrArg State.completions h7 :)
  · exact hShadow.trans (congrArg State.shadow h7 :)
  · exact hPublished.trans (congrArg State.published h7 :)
  · exact hUl.trans (congrArg State.ul h7 :)
  · have hQuiet : s8.recording = false := (recording_congr (hRegs.trans (congrArg State.regs h7 :))).trans hRecording
    dsimp only
    rw [digest_of_not_recording hQuiet, bytes_congr hSame, h7]
    exact hBytes

/-! ### SLOT_PUBLISH (R296) -/

/-- One publication of a live command commits one record, and its command is finished (R296). -/
theorem finishGroup_one {s : State} {id : Nat × Nat} {c : Cmd} (status detail value : Nat) (hCmd : s.cmdOf id = some c) (hLive : c.replay = false) :
    ∃ l cs, let t : State := { s with
        ledger := l
        cmds := cs
        completions := s.completions ++ [⟨id.1, id.2, status, detail, value, bit (fieldLE c.pkt 1 1) 1⟩] }
      s.finishGroup [(id, status, detail, value)] = t ∧ (t.cmdOf id).map (·.phase) = some .done := by
  obtain ⟨l, hCommit, -⟩ := ledgerCommit_form s 0x02
    ([(id, status, detail, value)].flatMap fun y => idBytes y.1 ++ toLE 1 y.2.1 ++ toLE 2 y.2.2.1 ++ toLE 4 y.2.2.2)
    (([] : List ((Nat × Nat) × Nat × Nat × Nat)).map (·.1))
  have hReal : [(id, status, detail, value)].filter (fun x => (s.cmdOf x.1).any fun c => !c.replay) = [(id, status, detail, value)] := by
    simp [hCmd, hLive]
  have hSelf : ({ s with ledger := l } : State).cmdOf id = some c := hCmd
  have hDone := cmdOf_modCmd ({ s with ledger := l } : State) id (f := fun c => { c with phase := .done }) (fun _ => rfl) fun _ => rfl
  rw [hSelf] at hDone
  refine ⟨l, _, ?_, congrArg (Option.map (·.phase)) hDone⟩
  unfold State.finishGroup
  rw [hReal]
  dsimp only [List.foldl_cons, List.foldl_nil]
  rw [hCommit, hSelf]
  dsimp only
  rw [if_neg (by rw [hLive]; decide)]
  rfl

/-- One slot is published from the carrier's latest entry. -/
theorem publishAll_one {s : State} {c : Carrier} (hFound : s.carriers.find? (fun y => decide (y.id = c.id)) = some c) (why : PubWhy) (u : UlSlot) :
    s.publishAll why [(c, u)] =
      let o := s.publishSlot c u why
      o.st.finishGroup [(o.id, o.status, o.detail, o.value)] := by
  unfold State.publishAll
  dsimp only [List.foldl_cons, List.foldl_nil]
  rw [hFound]
  rfl

/-- A group without a shadow configuration holds no trial. -/
theorem trialSlot_of_none {s : State} {e : Nat} (h : s.shGroup e = none) (k : Nat) (us : List (Carrier × UlSlot)) (captured : Bool) :
    s.trialSlot e k us captured = s := by
  unfold State.trialSlot
  rw [h]
  rfl

/-- The one request of a slot that has ended, in a group that no reset has hit, is published before its trial looks at it (R296). -/
theorem slotPublish_one {s : State} {e : Fin 8} {k : BitVec 64} {c : Carrier} {u : UlSlot} (hCollected : s.collectStages = s)
    (hUp : s.ledger.up = true) (hFull : s.fullIf = true) (hOne : s.ulOf e.val k.toNat = [(c, u)]) (hAborted : ∀ x ∈ s.ul, x.aborted = false)
    (hEnded : s.slotEnded e.val k.toNat = true) (hIdle : s.decodersIdle c.part = true)
    (hFound : s.carriers.find? (fun y => decide (y.id = c.id)) = some c) :
    ∃ nf l captured, let o := s.publishSlot c { u with nonfinite := nf } .done
      let t : State := { o.st.finishGroup [(o.id, o.status, o.detail, o.value)] with stages := l }
      exec (.slotPublish e k) s = .next (t.trialSlot e.val k.toNat [(c, u)] captured) := by
  have hAlive : ((s.group e.val).flatMap fun c =>
      (s.ul.filter fun u => decide (u.carrier = c.id) && decide (c.abs u.n = k.toNat) && u.aborted).map fun u => (c, u)) = [] := by
    refine List.flatMap_eq_nil_iff.mpr fun x _ => List.map_eq_nil_iff.mpr (List.filter_eq_nil_iff.mpr fun v hv => ?_)
    rw [hAborted v hv, Bool.and_false]
    decide
  rw [exec_slotPublish, execSlotPublish]
  dsimp only
  rw [hCollected, hAlive, hOne, if_neg (by simp [hUp, hFull]), if_neg (by decide)]
  dsimp only
  rw [if_neg (by simp [hEnded, hIdle]), List.map_cons, List.map_nil, publishAll_one hFound]
  exact ⟨_, _, _, rfl⟩

/-- What SLOT_PUBLISH leaves of the one request, when its group has no shadow configuration and no capture records are pending. -/
theorem slotPublish_publishes {s : State} {e : Fin 8} {k : BitVec 64} {c : Carrier} {u : UlSlot} {cc : Cmd} (hClean : s.clean)
    (hCollected : s.collectStages = s) (hUp : s.ledger.up = true) (hFull : s.fullIf = true) (hOne : s.ulOf e.val k.toNat = [(c, u)])
    (hAborted : ∀ x ∈ s.ul, x.aborted = false) (hEnded : s.slotEnded e.val k.toNat = true) (hIdle : s.decodersIdle c.part = true)
    (hFound : s.carriers.find? (fun y => decide (y.id = c.id)) = some c) (hNoShadow : s.shGroup e.val = none) (hCaptures : s.captures = [])
    (hCmd : s.cmdOf u.cmd = some cc) (hLive : cc.replay = false) :
    ∃ o stages l cs, let t : State := { o.st with
        stages := stages
        ledger := l
        cmds := cs
        completions := s.completions ++ [⟨u.cmd.1, u.cmd.2, o.status, o.detail, u.n % cResCount c.desc, bit (fieldLE cc.pkt 1 1) 1⟩] }
      Publishes s c u.cmd u.n o ∧ exec (.slotPublish e k) s = .next t ∧ (t.cmdOf u.cmd).map (·.phase) = some .done := by
  obtain ⟨nf, stages, captured, hExec⟩ := slotPublish_one hCollected hUp hFull hOne hAborted hEnded hIdle hFound
  have hPub : Publishes s c u.cmd u.n (s.publishSlot c { u with nonfinite := nf } .done) :=
    publishSlot_publishes (u := { u with nonfinite := nf }) hClean hCaptures (by dsimp only; rw [hCmd]; exact hLive)
  generalize s.publishSlot c { u with nonfinite := nf } .done = o at hExec hPub
  obtain ⟨l, cs, hGroup, hDone⟩ := finishGroup_one o.status o.detail o.value ((cmdOf_congr hPub.cmds u.cmd).trans hCmd) hLive
  rw [hPub.completions, hPub.value] at hGroup hDone
  refine ⟨o, stages, l, cs, hPub, hExec.trans (congrArg Host.Outcome.next ?_), hDone⟩
  rw [hPub.id, hPub.value, hGroup]
  refine trialSlot_of_none (Eq.trans ?_ hNoShadow) _ _ _
  unfold State.shGroup
  rw [hPub.shadow]

/-- Settles O49: a group's one request is published and its command finished; a ready block is sent; a closed window marks the blocks that have
not come; a downlink request without symbols left ends. -/
theorem slotsArePublishedOnce : Obligations.SlotsArePublishedOnce := by
  intro s
  refine ⟨?_, ?_, ?_, ?_⟩
  · intro e k c u cc hCollected hUp hFull hClean hOne hAborted hEnded hIdle hFound hNoShadow hCaptures hCmd hLive _
    obtain ⟨o, stages, l, cs, hPub, hExec, hDone⟩ :=
      slotPublish_publishes hClean hCollected hUp hFull hOne hAborted hEnded hIdle hFound hNoShadow hCaptures hCmd hLive
    refine ⟨_, o.status, o.detail, hExec, hPub.status, hPub.published, fun x hx => ?_, hDone, rfl, fun _ hQuiet => hPub.head hQuiet⟩
    dsimp only at hx
    rw [hPub.ul] at hx
    exact not_both (List.mem_filter.mp hx).2
  · intro port b rest c hFirst hCarrier hHeld x
    obtain ⟨a, hExec⟩ := blockDelivery_delivers hFirst hCarrier hHeld
    exact ⟨_, _, hExec, rfl, rfl, sameBytes_of rfl rfl rfl rfl, rfl, rfl, rfl, rfl, rfl, rfl⟩
  · intro c n sym x hCarrier hSym hUnpublished hLive hOpen before
    obtain ⟨m, w, hExec⟩ := rxWindowClose_closes hCarrier hSym hUnpublished hLive hOpen
    obtain ⟨start, hRx⟩ := rxOf_closeWindow { s with mirror := m, ptp := w } x n.toNat sym.val
    rw [id_of_carrier hCarrier] at hRx
    have hBefore : before = (({ s with mirror := m, ptp := w } : State).rxAt c.val n.toNat).done := by
      unfold before State.rxAt
      show _ = ((s.rxOf c.val n.toNat).getD _).done
      cases s.rxOf c.val n.toNat <;> rfl
    refine ⟨_, _, hExec, hRx, List.mem_append_right _ (List.mem_singleton_self _), fun i k hi hk => ?_⟩
    rw [hBefore]
    refine ⟨?_, fun hNot => List.mem_append_right _ (mem_lateBlocks hi hk hNot)⟩
    by_cases hHad : (i * 14 + sym.val) * 8 + k ∈ (({ s with mirror := m, ptp := w } : State).rxAt c.val n.toNat).done
    · exact List.mem_append_left _ hHad
    · exact List.mem_append_right _ (mem_lateBlocks hi hk hHad)
  · intro c n x u cc hCollected hCarrier hFirst hCplane hUp hAll hCmd hLive hPhase
    obtain ⟨l, hExec⟩ := dlSlotComplete_ends hCollected hCarrier hFirst hCplane hUp hAll
    have hKey := List.find?_some hFirst
    simp only [Bool.and_eq_true, decide_eq_true_iff] at hKey
    have hEnds := endDl_ends (if u.missed then DEADLINE_MISS else OK) hCmd hLive hPhase hUp
    refine ⟨_, hExec, ends_of_stores hEnds rfl rfl rfl, ?_⟩
    rw [← hKey.1, ← hKey.2]
    exact endDl_gone s u (if u.missed then DEADLINE_MISS else OK)

end Sys2Proof.Machine
end

section
/-! SUPPORT. Pairs of rings and windows as commands and the host set them: descriptors, pointers, and the commands that end at once (R357,
R359, R363, R366, R370, R375, R376). -/
namespace Sys2Proof.Machine

/-! ### Descriptors of pairs (R375, R376) -/

/-- The host's queues have the descriptors that are listed. -/
theorem queueDesc_of_lt (s : State) {q : Nat} (h : q < 4096) : s.queueDesc q = Sparse.get (fun _ => QueueDesc.none) s.queues q :=
  if_neg fun hStream => Nat.not_lt.mpr hStream.2.1 h

theorem OnlyRegs.queueDesc_of_lt {s t : State} (h : OnlyRegs s t) {q : Nat} (hq : q < 4096) : t.queueDesc q = s.queueDesc q := by
  rw [Machine.queueDesc_of_lt _ hq, Machine.queueDesc_of_lt _ hq]
  obtain ⟨_, rfl⟩ := h
  rfl

theorem queueDesc_setQueue (s : State) (k : Nat) (d : QueueDesc) {q : Nat} (h : q < 4096) :
    (s.setQueue k d).queueDesc q = if q = k then d else s.queueDesc q := by
  rw [queueDesc_of_lt _ h, queueDesc_of_lt _ h]
  exact Sparse.get_set _ _ _ _ _

theorem queueDesc_setPair (s : State) {p : Nat} (hp : p ≤ 2047) (cd rd : QueueDesc) :
    ((s.setQueue (2 * p) cd).setQueue (2 * p + 1) rd).queueDesc (2 * p) = cd ∧
    ((s.setQueue (2 * p) cd).setQueue (2 * p + 1) rd).queueDesc (2 * p + 1) = rd := by
  rw [queueDesc_setQueue _ _ _ (by omega), queueDesc_setQueue _ _ _ (by omega), queueDesc_setQueue _ _ _ (by omega), if_neg (by omega),
    if_pos rfl, if_pos rfl]
  exact ⟨rfl, rfl⟩

theorem setPair_form (s : State) (p : Nat) (cd rd : QueueDesc) :
    ∃ q, (s.setQueue (2 * p) cd).setQueue (2 * p + 1) rd = { s with queues := q } := ⟨_, rfl⟩

/-- A removed pair is not valid, and nothing but its descriptors has changed. -/
theorem dropPair_does (s : State) {p : Nat} (hp : p ≤ 2047) :
    (s.dropPair p).pairValid p = false ∧ ((s.dropPair p).queueDesc (2 * p + 1)).valid = false ∧ ∃ q, s.dropPair p = { s with queues := q } := by
  obtain ⟨hCommand, hCompletion⟩ := queueDesc_setPair s hp { s.queueDesc (2 * p) with valid := false }
    { s.queueDesc (2 * p + 1) with valid := false }
  exact ⟨congrArg QueueDesc.valid hCommand, congrArg QueueDesc.valid hCompletion, _, rfl⟩

theorem fieldLE_eight_lt (b : List Byte) (i : Nat) : fieldLE b i 8 < 2 ^ 64 := (fieldLE_lt b i 8).trans_eq (pow_bytes rfl)

theorem reg64_setReg64_of_lt (s : State) (a : Nat) {v : Nat} (h : v < 2 ^ 64) : (s.setReg64 a v).reg64 a = v :=
  (reg64_setReg64 s a v).trans (Nat.mod_eq_of_lt h)

theorem reg64_setRegN_ne (s : State) {a b : Nat} (v : Nat) (h : b ≠ a) (h' : b + 4 ≠ a) : (s.setRegN a v).reg64 b = s.reg64 b := by
  unfold State.reg64
  rw [State.regN_setRegN_ne _ _ _ _ h, State.regN_setRegN_ne _ _ _ _ h']

/-- A pair as its parameters build it: descriptors, NEXTSEQ at SEQBASE, pointers and status 0 (R376). -/
structure PairBuilt (t : State) (p part : Nat) (b : List Byte) : Prop where
  command : t.queueDesc (2 * p) = ⟨fieldLE b 8 8, fieldLE b 4 1, part, 0, true, 0, 0, 0xFFFF, fieldLE b 24 8⟩
  completion : t.queueDesc (2 * p + 1) = ⟨fieldLE b 16 8, fieldLE b 5 1, part, 0, true, 1, 0, fieldLE b 6 2, 0⟩
  nextseq : t.reg64 (qNextseq p) = fieldLE b 24 8
  zeros : ∀ a ∈ [qTail p, qAcc p, qCtail p, qChead p, qStatus p], t.regN a = 0

/-- NEXTSEQ stands apart from the pointers and the status of its pair. -/
theorem pointer_ne_nextseq {p a : Nat} (ha : a ∈ [qTail p, qAcc p, qCtail p, qChead p, qStatus p]) :
    a ≠ qNextseq p ∧ a ≠ qNextseq p + 4 := by
  simp only [List.mem_cons, List.not_mem_nil, or_false] at ha
  unfold qAcc qCtail qChead qNextseq qStatus qTail key at *
  omega

/-- What builds a pair writes its descriptors and registers. -/
theorem buildPair_form (s : State) (p part : Nat) (b : List Byte) : ∃ m q, s.buildPair p part b = { s with regs := m, queues := q } := by
  unfold State.buildPair
  extract_lets cd rd s1
  obtain ⟨q, hq⟩ : ∃ q, s1 = { s with queues := q } := setPair_form s p cd rd
  obtain ⟨m, hm⟩ := (onlyRegs_foldl (fun t a => OnlyRegs.setRegN t a 0) [qTail p, qAcc p, qCtail p, qChead p, qStatus p] s1).trans
    (OnlyRegs.setReg64 _ (qNextseq p) (fieldLE b 24 8))
  exact ⟨m, q, hm.trans (by rw [hq])⟩

theorem buildPair_builds (s : State) {p : Nat} (hp : p ≤ 2047) (part : Nat) (b : List Byte) : PairBuilt (s.buildPair p part b) p part b := by
  unfold State.buildPair
  extract_lets cd rd s1
  have hRegs := (onlyRegs_foldl (fun t a => OnlyRegs.setRegN t a 0) [qTail p, qAcc p, qCtail p, qChead p, qStatus p] s1).trans
    (OnlyRegs.setReg64 _ (qNextseq p) (fieldLE b 24 8))
  obtain ⟨hCommand, hCompletion⟩ := queueDesc_setPair s hp cd rd
  refine ⟨(hRegs.queueDesc_of_lt (by omega)).trans hCommand, (hRegs.queueDesc_of_lt (by omega)).trans hCompletion, ?_, fun a ha => ?_⟩
  · exact reg64_setReg64_of_lt _ _ (fieldLE_eight_lt b 24)
  · obtain ⟨hLow, hHigh⟩ := pointer_ne_nextseq ha
    unfold State.regN
    rw [reg_setReg64_ne _ _ hLow hHigh]
    exact (regN_zeros _ _ a).trans (if_pos ha)

theorem pairOk_aligned {b : List Byte} (h : pairOk b = true) : fieldLE b 8 8 % 64 = 0 ∧ fieldLE b 16 8 % 64 = 0 := by
  unfold pairOk at h
  simp only [Bool.and_eq_true, decide_eq_true_iff] at h
  obtain ⟨⟨-, hCommand⟩, hCompletion⟩ := h
  exact ⟨hCommand, hCompletion⟩

/-! ### Commands that end at once (R370, R403) -/

/-- A command that may execute gets its outcome with its value, and nothing but commands, completions and the ledger changes. -/
theorem finish_of_ready {s : State} {pair : BitVec 16} {op : Nat} {c : Cmd} (h : Ready s pair op c) (status : Nat) {value : Nat}
    (hValue : value < 2 ^ 32) (values : List Byte) :
    Ends s (s.finish c.id status 0 value values) c status 0 value ∧
    ∃ l cs ks, s.finish c.id status 0 value values = { s with ledger := l, cmds := cs, completions := ks } := by
  have hEnds := finish_ends status 0 value values h.self h.live (phase_ne_done_of_ready h) h.up
  rwa [Nat.mod_eq_of_lt hValue] at hEnds

theorem reg_congr {s t : State} (h : t.regs = s.regs) (a : Nat) : t.reg a = s.reg a := congrArg (Sparse.get regReset · a) h

/-- An outcome is in commands, completions and the ledger: no register and no byte. -/
theorem reg_finish {s t : State} {l : Ledger} {cs : List Cmd} {ks : List Completion}
    (h : t = { s with ledger := l, cmds := cs, completions := ks }) (a : Nat) : t.reg a = s.reg a := by
  rw [h]
  rfl

theorem sameBytes_finish {s t : State} {l : Ledger} {cs : List Cmd} {ks : List Completion}
    (h : t = { s with ledger := l, cmds := cs, completions := ks }) : SameBytes s t := by
  rw [h]
  exact sameBytes_of rfl rfl rfl rfl

/-- Registers and descriptors set after the outcome leave it. -/
theorem ends_of_form {s t u : State} {c : Cmd} {status detail value : Nat} {m : List (Nat × Reg32)} {q : List (Nat × QueueDesc)}
    (h : Ends s t c status detail value) (hForm : u = { t with regs := m, queues := q }) : Ends s u c status detail value := by
  rw [hForm]
  exact ends_of_stores h rfl rfl rfl

/-! ### QUEUE_CONFIG (R376) -/

/-- QUEUE_CONFIG `c` names another pair `p` in range, of an owner in range, that holds no open command. -/
structure ConfigLegal (s : State) (c : Cmd) (p part : Nat) : Prop where
  named : fieldLE (c.pkt.drop 16) 0 2 = p
  owned : fieldLE (c.pkt.drop 16) 3 1 = part
  admin : p ≠ 0
  range : p ≤ 2047
  other : p ≠ c.pair
  owner : part ≤ 7 ∨ part = 0xFF
  idle : s.openCmds p = []

section
variable {s : State} {c : Cmd} {p part : Nat} (h : ConfigLegal s c p part)
include h

/-- Past its checks the command completes, and then builds or removes its pair. -/
theorem queueConfig_legal {del : Bool} (hDel : bit (fieldLE (c.pkt.drop 16) 2 1) 0 = del) (hCommand : fieldLE (c.pkt.drop 16) 8 8 % 64 = 0)
    (hCompletion : fieldLE (c.pkt.drop 16) 16 8 % 64 = 0) (hOk : del = false → pairOk (c.pkt.drop 16) = true) :
    State.queueConfig c s =
      let z := s.finish c.id OK 0 p ((c.pkt.drop 16).take 32)
      if del then z.dropPair p else z.buildPair p part (c.pkt.drop 16) := by
  have hFields : (!del && !pairOk (c.pkt.drop 16)) = false := by
    cases del with
    | true => rfl
    | false => rw [hOk rfl]; rfl
  have hRange := h.range
  have hOwner := h.owner
  unfold State.queueConfig
  dsimp only
  rw [h.named, h.owned, hDel, hFields, h.idle, if_neg, if_neg (by decide)]
  rintro (hBad | hBad | hBad | hBad | hBad | hBad | hBad)
  · exact h.admin hBad
  · omega
  · exact h.other hBad
  · omega
  · exact hBad hCommand
  · exact hBad hCompletion
  · exact Bool.false_ne_true hBad

theorem queueConfig_builds (hDel : bit (fieldLE (c.pkt.drop 16) 2 1) 0 = false) (hOk : pairOk (c.pkt.drop 16) = true) :
    State.queueConfig c s = (s.finish c.id OK 0 p ((c.pkt.drop 16).take 32)).buildPair p part (c.pkt.drop 16) := by
  obtain ⟨hCommand, hCompletion⟩ := pairOk_aligned hOk
  exact (queueConfig_legal h hDel hCommand hCompletion fun _ => hOk).trans (if_neg Bool.false_ne_true)

theorem queueConfig_removes (hDel : bit (fieldLE (c.pkt.drop 16) 2 1) 0 = true) (hCommand : fieldLE (c.pkt.drop 16) 8 8 % 64 = 0)
    (hCompletion : fieldLE (c.pkt.drop 16) 16 8 % 64 = 0) :
    State.queueConfig c s = (s.finish c.id OK 0 p ((c.pkt.drop 16).take 32)).dropPair p :=
  (queueConfig_legal h hDel hCommand hCompletion nofun).trans (if_pos rfl)

end

/-! ### Windows (R357, R359) -/

/-- WINDOW_OPEN of a legal range that the command's partition owns. -/
theorem windowOpen_legal {s : State} {c : Cmd} (hWindow : c.param 0 1 ≤ 15) (hLow : 12 ≤ c.param 1 1) (hHigh : c.param 1 1 ≤ 32)
    (hDevice : c.param 8 8 / 2 ^ 60 = 0xF) (hAligned : c.param 8 8 % 2 ^ c.param 1 1 = 0)
    (hOwned : ∀ p, c.partNo = some p → s.ownsRange p (unitOf (c.param 8 8)) (offOf (c.param 8 8)) (2 ^ c.param 1 1) = true) :
    State.windowOpen c s = ((s.finish c.id OK 0 0 (slice c.pkt 16 16)).setReg64 (winKey (c.param 0 1)) (c.param 8 8)).setRegN
      (winKey (c.param 0 1) + 8) (1 + 2 * (c.param 2 1 % 2) + 4 * (c.param 1 1 % 32)) := by
  unfold State.windowOpen
  refine if_neg ?_
  rintro (h | h | h | h | h | h)
  · omega
  · omega
  · omega
  · exact h hDevice
  · exact h hAligned
  · cases hPart : c.partNo with
    | none => rw [hPart] at h; cases h
    | some p => rw [hPart] at h; exact Bool.false_ne_true (h.symm.trans (hOwned p hPart))

theorem windowClose_open {s : State} {c : Cmd} (hWindow : c.param 0 1 ≤ 15) (h : s.fld (winKey (c.param 0 1) + 8) 0 0 = 1) :
    State.windowClose c s = (s.finish c.id OK 0 0 (slice c.pkt 16 1)).setFld (winKey (c.param 0 1) + 8) 0 0 0 := by
  unfold State.windowClose
  dsimp only
  rw [if_neg (Nat.not_lt.mpr hWindow), if_neg (by rw [h]; decide)]

theorem windowClose_closed {s : State} {c : Cmd} (hWindow : c.param 0 1 ≤ 15) (h : s.fld (winKey (c.param 0 1) + 8) 0 0 = 0) :
    State.windowClose c s = c.ends OK_EMPTY 0 0 s := by
  unfold State.windowClose
  dsimp only
  rw [if_neg (Nat.not_lt.mpr hWindow), if_pos h]

/-- Settles O30: the outcome comes first and changes no register, and what the command sets comes after it and changes no outcome. -/
theorem ringCommandsCompleteWithTheirStatus : Obligations.RingCommandsCompleteWithTheirStatus := by
  intro pair s c
  refine ⟨fun hReady => ?_, fun hReady => ?_, fun hReady => ?_, fun hReady => ?_⟩
  · obtain ⟨hEnds, l, cs, ks, hForm⟩ := finish_of_ready hReady OK (value := 0) (by decide) []
    rw [exec_nop, execNop, onCmd_ready hReady]
    exact ⟨_, rfl, hEnds, sameBytes_finish hForm, reg_finish hForm⟩
  · intro b p part hAdmin hp hOther hOwner hOpen
    have hLegal : ConfigLegal s c p part := ⟨rfl, rfl, hAdmin, hp, hOther, hOwner, hOpen⟩
    obtain ⟨hEnds, l, cs, ks, hForm⟩ := finish_of_ready hReady OK (value := p) (by omega) (b.take 32)
    rw [exec_queueConfig, execQueueConfig, onCmd_ready hReady]
    refine ⟨fun hDel hOk => ?_, fun hDel hCommand hCompletion => ?_⟩
    · rw [queueConfig_builds hLegal hDel hOk]
      obtain ⟨hCommand, hCompletion, hNextseq, hZeros⟩ := buildPair_builds (s.finish c.id OK 0 p (b.take 32)) hp part b
      obtain ⟨m, q, hBuilt⟩ := buildPair_form (s.finish c.id OK 0 p (b.take 32)) p part b
      exact ⟨_, rfl, ends_of_form hEnds hBuilt, hCommand, hCompletion, hNextseq, hZeros⟩
    · rw [queueConfig_removes hLegal hDel hCommand hCompletion]
      obtain ⟨hPair, hRing, q, hDropped⟩ := dropPair_does (s.finish c.id OK 0 p (b.take 32)) hp
      exact ⟨_, rfl, ends_of_form hEnds hDropped, hPair, hRing,
        fun a => (reg_congr (congrArg State.regs hDropped :) a).trans (reg_finish hForm a)⟩
  · intro w n base hWindow hLow hHigh hDevice hAligned hOwned
    obtain ⟨hEnds, -⟩ := finish_of_ready hReady OK (value := 0) (by decide) (slice c.pkt 16 16)
    obtain ⟨m, hSet⟩ := (OnlyRegs.setReg64 (s.finish c.id OK 0 0 (slice c.pkt 16 16)) (winKey w) base).trans
      (OnlyRegs.setRegN _ (winKey w + 8) (1 + 2 * (c.param 2 1 % 2) + 4 * (n % 32)))
    rw [exec_windowOpen, execWindowOpen, onCmd_ready hReady, windowOpen_legal hWindow hLow hHigh hDevice hAligned hOwned]
    refine ⟨_, rfl, ends_of_form hEnds hSet, ?_, ?_⟩
    · rw [reg64_setRegN_ne (b := winKey w) (a := winKey w + 8) _ _ (by omega) (by omega)]
      exact reg64_setReg64_of_lt _ _ (fieldLE_eight_lt c.pkt 24)
    · rw [State.regN_setRegN_eq]
      exact Nat.mod_eq_of_lt (by omega)
  · intro hWindow
    rw [exec_windowClose, execWindowClose, onCmd_ready hReady]
    refine ⟨fun hOpen => ?_, fun hClosed => ?_⟩
    · obtain ⟨hEnds, l, cs, ks, hForm⟩ := finish_of_ready hReady OK (value := 0) (by decide) (slice c.pkt 16 1)
      obtain ⟨m, hSet⟩ := onlyRegs_setFld (s.finish c.id OK 0 0 (slice c.pkt 16 1)) (winKey (c.param 0 1) + 8) 0 0 0
      rw [windowClose_open hWindow hOpen]
      exact ⟨_, rfl, ends_of_form hEnds hSet, State.fld_setFld_eq _ _ _ _ _ (by decide) (by decide),
        fun a ha => (State.reg_setReg_ne _ _ _ _ ha).trans (reg_finish hForm a)⟩
    · obtain ⟨hEnds, l, cs, ks, hForm⟩ := finish_of_ready hReady OK_EMPTY (value := 0) (by decide) []
      rw [windowClose_closed hWindow hClosed]
      exact ⟨_, rfl, hEnds, reg_finish hForm⟩

end Sys2Proof.Machine
end

section
/-! SUPPORT. The host's writes of ring pointers and of Q_ADM_CTL (R366, R375). -/
namespace Sys2Proof.Machine

/-! ### Writes of BAR0 -/

theorem hostReg_full {s : State} (hUp : s.hostUp = true) (hFull : s.fullIf = true) (f : State → State) : hostReg s f = f s :=
  if_pos (by rw [hUp, hFull]; rfl)

theorem setRegN_toNat (s : State) (a : Nat) (v : Reg32) : s.setRegN a v.toNat = s.setReg a v := by
  unfold State.setRegN
  rw [BitVec.ofNat_toNat, BitVec.setWidth_eq]

/-- Setting one bit of a register. -/
theorem setFld_one (s : State) (a k : Nat) : s.setFld a k k 1 = s.setReg a (s.reg a ||| BitVec.ofNat 32 (2 ^ k)) := by
  unfold State.setFld State.setRegN State.regN
  congr 1
  apply BitVec.eq_of_getLsbD_eq
  intro i hi
  rw [BitVec.getLsbD_ofNat, testBit_setBits _ _ _ _ _ (Nat.le_refl k), BitVec.getLsbD_or, BitVec.getLsbD_ofNat, Nat.testBit_two_pow]
  by_cases h : k = i
  · simp [h, hi]
  · rw [if_neg (by omega)]
    simp [h, hi, BitVec.getLsbD]

/-- From `s` to `t` no byte and no command has changed, and of the registers `a` alone, which holds `x`. -/
def SetsOnly (s t : State) (a : Nat) (x : Reg32) : Prop := SameBytes s t ∧ t.cmds = s.cmds ∧ ∀ b, t.reg b = if b = a then x else s.reg b

theorem setsOnly_setReg (s : State) (a : Nat) (x : Reg32) : SetsOnly s (s.setReg a x) a x :=
  ⟨sameBytes_setReg s a x, State.setReg_cmds s a x, State.reg_setReg s a x⟩

/-! ### Pointers (R366) -/

section
variable {s : State} {p v : Nat} (hPair : s.pairValid p = true)
include hPair

theorem tailWrite_stores (h : ringDist v (s.regN (qAcc p)) ≤ 2 ^ (s.queueDesc (2 * p)).log2size) : s.tailWrite p v = s.setRegN (qTail p) v := by
  unfold State.tailWrite
  rw [if_neg (by rw [hPair]; decide), if_neg (Nat.not_lt.mpr h)]

theorem tailWrite_overruns (h : 2 ^ (s.queueDesc (2 * p)).log2size < ringDist v (s.regN (qAcc p))) :
    s.tailWrite p v = s.setFld (qStatus p) 1 1 1 := by
  unfold State.tailWrite
  rw [if_neg (by rw [hPair]; decide), if_pos h]

theorem cheadWrite_stores (h : ringDist v (s.regN (qChead p)) ≤ ringDist (s.regN (qCtail p)) (s.regN (qChead p))) :
    s.cheadWrite p v = s.setRegN (qChead p) v := by
  unfold State.cheadWrite
  rw [if_neg (by rw [hPair]; decide), if_neg (Nat.not_lt.mpr h)]

theorem cheadWrite_ignored (h : ringDist (s.regN (qCtail p)) (s.regN (qChead p)) < ringDist v (s.regN (qChead p))) : s.cheadWrite p v = s := by
  unfold State.cheadWrite
  rw [if_neg (by rw [hPair]; decide), if_pos h]

end

/-! ### Pair 0 (R375) -/

/-- Without an open command, EN = 1 with legal parameters builds pair 0 for every partition. -/
theorem admWrite_enables {s : State} (hOpen : s.openCmds 0 = []) (hOk : pairOk s.admBytes = true) (hPair : fieldLE s.admBytes 0 2 = 0) :
    s.admWrite true = (s.buildPair 0 0xFF s.admBytes).setFld (key BAR0 0x1040) 0 0 1 := by
  unfold State.admWrite
  rw [hOpen, if_neg (by decide), if_neg (by decide), if_pos ⟨hOk, hPair⟩]

theorem admWrite_disables {s : State} (hOpen : s.openCmds 0 = []) : s.admWrite false = (s.dropPair 0).setFld (key BAR0 0x1040) 0 0 0 := by
  unfold State.admWrite
  rw [hOpen, if_neg (by decide), if_pos rfl]

/-- Descriptors and registers are no bytes of memory. -/
theorem sameBytes_of_form {s t : State} {m : List (Nat × Reg32)} {q : List (Nat × QueueDesc)} (h : t = { s with regs := m, queues := q }) :
    SameBytes s t := by
  rw [h]
  exact sameBytes_of rfl rfl rfl rfl

theorem pairValid_setFld (s : State) (a hi lo v : Nat) {p : Nat} (hp : p ≤ 2047) : (s.setFld a hi lo v).pairValid p = s.pairValid p :=
  congrArg QueueDesc.valid ((onlyRegs_setFld s a hi lo v).queueDesc_of_lt (by omega))

/-- Settles O31: each write of a pointer is one register or none, and EN writes its own bit after pair 0 is built or removed. -/
theorem hostWritesOfRingPointers : Obligations.HostWritesOfRingPointers := by
  intro p v s hUp hFull n only
  have hSets : ∀ {c a x}, exec c s = .next (s.setReg a x) → only c a x := fun h => ⟨_, h, setsOnly_setReg _ _ _⟩
  refine ⟨fun hPair => ⟨fun h => hSets ?_, fun h => hSets ?_, fun h => hSets ?_, fun h => ⟨s, ?_, SameBytes.refl s, fun _ => rfl⟩⟩,
    fun hOpen => ⟨fun hOk hAdmin => ?_, ?_⟩⟩
  · rw [exec_qTailWrite, execQTailWrite, hostReg_full hUp hFull, tailWrite_stores hPair h, setRegN_toNat]
  · rw [exec_qTailWrite, execQTailWrite, hostReg_full hUp hFull, tailWrite_overruns hPair h, setFld_one]
    rfl
  · rw [exec_qCheadWrite, execQCheadWrite, hostReg_full hUp hFull, cheadWrite_stores hPair h, setRegN_toNat]
  · rw [exec_qCheadWrite, execQCheadWrite, hostReg_full hUp hFull, cheadWrite_ignored hPair h]
  · obtain ⟨hCommand, hCompletion, hNextseq, -⟩ := buildPair_builds s (p := 0) (by decide) 0xFF s.admBytes
    obtain ⟨m, q, hBuilt⟩ := buildPair_form s 0 0xFF s.admBytes
    have hRegs := onlyRegs_setFld (s.buildPair 0 0xFF s.admBytes) (key BAR0 0x1040) 0 0 1
    have h0 := (hRegs.queueDesc_of_lt (q := 0) (by decide)).trans hCommand
    have h1 := (hRegs.queueDesc_of_lt (q := 1) (by decide)).trans hCompletion
    rw [exec_qAdmEnable, execQAdmEnable, hostReg_full hUp hFull, admWrite_enables hOpen hOk hAdmin]
    refine ⟨_, rfl, (sameBytes_of_form hBuilt).trans (sameBytes_setFld _ _ _ _ _), ?_, ?_, ?_, ?_, State.fld_setFld_bit _ _ _ (by decide), ?_⟩
    · exact (pairValid_setFld _ _ _ _ _ (by decide)).trans (congrArg QueueDesc.valid hCommand)
    · rw [h0]
    · rw [h0]
    · rw [h1]
    · exact (reg64_setRegN_ne _ _ (by unfold qNextseq qStatus key; omega) (by unfold qNextseq qStatus key; omega)).trans hNextseq
  · obtain ⟨hInvalid, -, q, hDropped⟩ := dropPair_does s (p := 0) (by decide)
    rw [exec_qAdmEnable, execQAdmEnable, hostReg_full hUp hFull, admWrite_disables hOpen]
    exact ⟨_, rfl, (sameBytes_of_form hDropped).trans (sameBytes_setFld _ _ _ _ _), (pairValid_setFld _ _ _ _ _ (by decide)).trans hInvalid,
      State.fld_setFld_eq _ _ _ _ _ (by decide) (by decide)⟩

end Sys2Proof.Machine
end

section
/-! SUPPORT. Mailboxes and doorbells: the register that a write of their block reaches, and what a post, an acknowledgement and DB_SET do
(R379 to R381). -/
namespace Sys2Proof.Machine

/-! ### The row of MBX_n_CTL (Table 13.13) -/

/-- The row ends below the mailbox block, or begins after the block's mailboxes. -/
def RegRow.offMailboxes (r : RegRow) : Bool :=
  decide (CTM + 0x1000 ≤ r.off) || (decide (0 < r.stride) && decide (r.off + r.count * r.stride ≤ CTM))

theorem hits_offMailboxes {r : RegRow} (h : r.offMailboxes = true) {o : Nat} (hLow : CTM ≤ o) (hHigh : o < CTM + 0x1000) : r.hits o = false := by
  unfold RegRow.offMailboxes at h
  simp only [Bool.or_eq_true, Bool.and_eq_true, decide_eq_true_iff] at h
  unfold RegRow.hits
  rcases h with h | ⟨hStride, hEnd⟩
  · rw [decide_eq_false (by omega : ¬ r.off ≤ o)]
    rfl
  · have hCount : r.count ≤ (o - r.off) / r.stride := (Nat.le_div_iff_mul_le hStride).mpr (by omega)
    rw [decide_eq_false (Nat.not_lt.mpr hCount), Bool.and_false]
    rfl

theorem find?_offMailboxes {l : List RegRow} (h : l.all RegRow.offMailboxes = true) {o : Nat} (hLow : CTM ≤ o) (hHigh : o < CTM + 0x1000) :
    l.find? (fun r => r.hits o) = none :=
  List.find?_eq_none.mpr fun r hr => by rw [hits_offMailboxes (List.all_eq_true.mp h r hr) hLow hHigh]; exact Bool.false_ne_true

/-- GO, DISCARD and SRCUNIT of a mailbox (Table 13.13). -/
def mbxCtlRow : RegRow := { off := CTM + 0x40, flds := [w1s 0 0, w1c 1 1, ro 15 2, ro 23 16, ro 31 24], stride := 0x80, count := 32 }

theorem find?_mailboxRows (n : Fin 32) : (mailboxRows CTM).find? (fun r => r.hits (CTM + 0x80 * n.val + 0x40)) = some mbxCtlRow := by
  have hOffset : CTM + 0x80 * n.val + 0x40 - CTM = 0x80 * n.val + 0x40 ∧ CTM + 0x80 * n.val + 0x40 - (CTM + 0x40) = 0x80 * n.val := by omega
  unfold mailboxRows
  rw [List.find?_cons_of_neg, List.find?_cons_of_pos]
  · rfl
  · unfold RegRow.hits
    simp only [Bool.and_eq_true, decide_eq_true_iff, hOffset.2]
    omega
  · unfold RegRow.hits
    simp only [Bool.and_eq_true, decide_eq_true_iff, hOffset.1]
    omega

/-- Rows of a unit with a mailbox block: those before the block lie below it. -/
theorem find?_mbxCtl {a b c : List RegRow} (h : (a ++ b).all RegRow.offMailboxes = true) (n : Fin 32) :
    (a ++ b ++ mailboxRows CTM ++ c).find? (fun r => r.hits (CTM + 0x80 * n.val + 0x40)) = some mbxCtlRow := by
  rw [List.find?_append, List.find?_append, find?_offMailboxes h (by omega) (by omega), find?_mailboxRows]
  rfl

theorem regRow_key (u : Nat) {o : Nat} (h : o < 2 ^ 52) : regRow (key u o) = (unitRows u).find? fun r => r.hits o := by
  have hUnit : key u o / 2 ^ 52 = u := by unfold key; omega
  unfold regRow
  rw [hUnit, key_mod u o h]

/-- Only engines and the anchor have mailboxes. -/
theorem unitRows_mailboxes (u : Nat) : (unitRows u).all RegRow.offMailboxes = true ∨
    ∃ a b c, unitRows u = a ++ b ++ mailboxRows CTM ++ c ∧ (a ++ b).all RegRow.offMailboxes = true := by
  unfold unitRows
  split
  case h_1 => exact .inr ⟨fabricRows .engine, eccRows, _, by simp only [List.append_assoc]; rfl, rfl⟩
  case h_2 => exact .inr ⟨fabricRows .anchor, eccRows, _, by simp only [List.append_assoc]; rfl, rfl⟩
  case h_9 =>
    refine .inl ?_
    unfold brivelRows
    split <;> rfl
  all_goals exact .inl rfl

/-- Where MBX_n_CTL is a register, its row is that of Table 13.13. -/
theorem regRow_mbxCtl {u : Nat} {n : Fin 32} (h : (regRow (key u (CTM + 0x80 * n.val + 0x40))).isSome = true) :
    regRow (key u (CTM + 0x80 * n.val + 0x40)) = some mbxCtlRow := by
  rw [regRow_key u (by unfold CTM; omega)] at h ⊢
  rcases unitRows_mailboxes u with hAll | ⟨a, b, c, hRows, hBefore⟩
  · rw [find?_offMailboxes hAll (by omega) (by omega)] at h
    cases h
  · rw [hRows]
    exact find?_mbxCtl hBefore n

/-! ### A write of the block (R379, R380) -/

theorem setBits_bits (n hi lo : Nat) (h : lo ≤ hi) : setBits n hi lo (bits n hi lo) = n := by
  apply Nat.eq_of_testBit_eq
  intro k
  rw [testBit_setBits _ _ _ _ _ h]
  split
  · next hk => rw [testBit_bits, decide_eq_true (by omega), Bool.true_and, Nat.add_sub_cancel' hk.1]
  · rfl

/-- A write of 0 leaves GO, DISCARD and SRCUNIT. -/
theorem mbxCtlRow_merge_zero (n : Nat) : mbxCtlRow.merge n 0 = n := by
  have hZero : ∀ hi lo, bits 0 hi lo = 0 := fun hi lo => by unfold bits; simp
  unfold RegRow.merge mbxCtlRow w1s w1c ro
  simp [Acc.write, hZero, setBits_bits]

theorem mergeReg_mbxCtl {s : State} {u : Nat} {n : Fin 32} (h : (regRow (key u (CTM + 0x80 * n.val + 0x40))).isSome = true) :
    s.mergeReg (mbxKey u n.val 0x40) 0 = s.setReg (mbxKey u n.val 0x40) (s.reg (mbxKey u n.val 0x40)) := by
  rw [mergeReg_of_row s (mbxKey u n.val 0x40) 0 (regRow_mbxCtl h), mbxCtlRow_merge_zero]
  exact setRegN_toNat s _ _

/-- A register that is written with its value keeps it. -/
theorem reg_setReg_self (s : State) (a b : Nat) : (s.setReg a (s.reg a)).reg b = s.reg b := by
  rw [State.reg_setReg]
  split
  · next h => rw [h]
  · rfl

/-- A write of a register in the mailbox block goes by the block's rules. -/
theorem regWrite_mailbox (s : State) (du u v : Nat) {o : Nat} (ho : o < 0x10000) (hRow : (regRow (key u (CTM + o))).isSome = true) :
    s.regWrite du u (CTM + o) v = s.mboxWrite (du % 256) u o v := by
  unfold State.regWrite
  rw [if_neg (by unfold CTM CTC; omega), if_pos (by omega), if_pos hRow, Nat.add_sub_cancel_left]

/-- A unit that answers takes the write, from the host through BAR0 or from a unit through the fabric. -/
theorem mailboxRow_writes {s : State} {src unit : BitVec 8} {o a b : Nat} (h : Answers s src unit.toNat b) (hb : b = CTM + o) (ha : a = 0x20000 + o)
    (ho : o < 0x10000) (h4 : o % 4 = 0) (v : Nat) :
    (if src = 0x62 ∧ unit = 0x60 then s.hostWriteReg a v else s.regPut src.toNat unit.toNat b v) =
      (s.reach unit.toNat).mboxWrite src.toNat unit.toNat o v := by
  subst ha hb
  obtain ⟨hCause, hAllowed, hRow, hHost⟩ := h
  split
  · next hBar =>
    obtain ⟨rfl, rfl⟩ := hBar
    unfold State.hostWriteReg
    rw [hHost ⟨rfl, rfl⟩, if_neg (by simp; omega), if_pos (by omega), Nat.add_sub_cancel_left]
    refine (regWrite_mailbox s _ 0x60 v ho hRow).trans ?_
    rw [Nat.add_comm (s.ownChain * 256), Nat.add_mul_mod_self_right]
    rfl
  · rw [regPut_allowed s _ _ _ v (by unfold CTL CTM; omega) hCause (by unfold CTM; omega) hAllowed, regWrite_mailbox _ _ _ v ho hRow,
      Nat.add_comm (s.ownChain * 256), Nat.add_mul_mod_self_right, Nat.mod_eq_of_lt src.isLt]

theorem mboxWrite_post {s : State} {src u : Nat} (n : Fin 32) (hRow : (regRow (key u (CTM + 0x80 * n.val + 0x40))).isSome = true) :
    s.mboxWrite src u (0x80 * n.val + 0x40) 1 = (s.setReg (mbxKey u n.val 0x40) (s.reg (mbxKey u n.val 0x40))).mbxPost src u n.val := by
  have hBox : (0x80 * n.val + 0x40) / 0x80 = n.val ∧ (0x80 * n.val + 0x40) % 0x80 = 0x40 := by omega
  unfold State.mboxWrite
  dsimp only
  rw [hBox.1, hBox.2, if_pos (by omega), if_neg (by decide), if_pos rfl, if_pos (by decide)]
  exact congrArg (State.mbxPost · src u n.val) (mergeReg_mbxCtl hRow)

theorem mboxWrite_ack (s : State) (src u v : Nat) (n : Fin 32) : s.mboxWrite src u (0x80 * n.val + 0x44) v = s.mbxAck u n.val v := by
  have hBox : (0x80 * n.val + 0x44) / 0x80 = n.val ∧ (0x80 * n.val + 0x44) % 0x80 = 0x44 := by omega
  unfold State.mboxWrite
  dsimp only
  rw [hBox.1, hBox.2, if_pos (by omega), if_neg (by decide), if_neg (by decide), if_pos rfl]

theorem mboxWrite_dbSet (s : State) (src u v : Nat) : s.mboxWrite src u 0x1004 v = s.raiseDb u v := by
  unfold State.mboxWrite
  dsimp only
  rw [if_neg (by decide), if_pos rfl]

/-! ### Doorbells (R381) -/

/-- A vector's message goes to host memory, and of the registers only its pending bit changes (R354). -/
theorem msix_does (s : State) (v : Nat) : (∀ a, (s.msix v).byte a = s.byte a) ∧ ∀ a, a ≠ msixPba v → (s.msix v).reg a = s.reg a := by
  unfold State.msix
  dsimp only
  split
  · exact ⟨fun a => byte_congr rfl rfl rfl a, fun a ha => State.reg_setReg_ne _ _ _ _ ha⟩
  · exact ⟨(sameBytes_setFld s _ _ _ _).1, fun a ha => State.reg_setReg_ne _ _ _ _ ha⟩

theorem key_ne_msixPba {u o : Nat} (hu : u < 256) (ho : o < 2 ^ 52) : key u o ≠ msixPba 0 := by
  unfold msixPba key BAR0
  omega

/-- Raised doorbell bits stand in DB_RAW; of the unit's other registers and of its bytes none changes. -/
theorem raiseDb_does (s : State) {u : Nat} (hu : u < 256) (v : Nat) :
    (∀ a, (s.raiseDb u v).byte a = s.byte a) ∧ (s.raiseDb u v).reg (dbRaw u) = s.reg (dbRaw u) ||| BitVec.ofNat 32 v ∧
    ∀ o < 2 ^ 52, o ≠ CTM + 0x1000 → (s.raiseDb u v).reg (key u o) = s.reg (key u o) := by
  have hRaised : ∀ t : State, (∀ a, (t.doorbells s u).byte a = t.byte a) ∧
      ∀ o < 2 ^ 52, (t.doorbells s u).reg (key u o) = t.reg (key u o) := fun t => by
    unfold State.doorbells
    split
    · exact ⟨(msix_does t 0).1, fun o ho => (msix_does t 0).2 _ (key_ne_msixPba hu ho)⟩
    · exact ⟨fun _ => rfl, fun _ _ => rfl⟩
  obtain ⟨hBytes, hRegs⟩ := hRaised (s.setReg (dbRaw u) (s.reg (dbRaw u) ||| BitVec.ofNat 32 v))
  refine ⟨fun a => (hBytes a).trans ((sameBytes_setReg s _ _).1 a), ?_, fun o ho hNot => ?_⟩
  · exact (hRegs _ (by decide)).trans (State.reg_setReg_eq _ _ _)
  · exact (hRegs o ho).trans (State.reg_setReg_ne _ _ _ _ (key_ne_key u hNot))

/-! ### Posts and acknowledgements (R379, R380) -/

section
variable (s : State) {u : Nat} (src : Nat) (n : Fin 32)

/-- A post of an empty mailbox sets GO, stores its writer and raises the mailbox's doorbell bit. -/
theorem mbxPost_empty (hu : u < 256) (h : s.fld (mbxKey u n.val 0x40) 0 0 = 0) :
    (∀ a, (s.mbxPost src u n.val).byte a = s.byte a) ∧ (s.mbxPost src u n.val).fld (mbxKey u n.val 0x40) 0 0 = 1 ∧
    (s.mbxPost src u n.val).fld (mbxKey u n.val 0x40) 23 16 = src % 2 ^ 8 ∧
    (s.mbxPost src u n.val).reg (dbRaw u) = s.reg (dbRaw u) ||| BitVec.ofNat 32 (2 ^ n.val) := by
  have hOffset : CTM + 0x80 * n.val + 0x40 < 2 ^ 52 := by unfold CTM; omega
  have hOther : CTM + 0x1000 ≠ CTM + 0x80 * n.val + 0x40 := by omega
  unfold State.mbxPost
  extract_lets k
  rw [if_neg (by rw [h]; decide)]
  obtain ⟨hBytes, hRaw, hRegs⟩ := raiseDb_does ((s.setFld k 0 0 1).setFld k 23 16 src) hu (2 ^ n.val)
  have hBox := hRegs _ hOffset hOther.symm
  refine ⟨fun a => (hBytes a).trans (((sameBytes_setFld s _ _ _ _).trans (sameBytes_setFld _ _ _ _ _)).1 a), ?_, ?_, ?_⟩
  · refine (fld_congr hBox 0 0).trans ((State.fld_setFld_ne _ _ _ _ _ _ _ _ (by decide) (by decide) (.inr (.inl (by decide)))).trans ?_)
    exact State.fld_setFld_bit s k 0 (by decide)
  · exact (fld_congr hBox 23 16).trans (State.fld_setFld_eq _ _ _ _ _ (by decide) (by decide))
  · rw [hRaw]
    congr 1
    exact (State.reg_setReg_ne _ _ _ _ (key_ne_key u hOther)).trans (State.reg_setReg_ne _ _ _ _ (key_ne_key u hOther))

/-- A post of a full mailbox sets DISCARD alone. -/
theorem mbxPost_full (h : s.fld (mbxKey u n.val 0x40) 0 0 = 1) : s.mbxPost src u n.val = s.setFld (mbxKey u n.val 0x40) 1 1 1 := if_pos h

end

/-- The state that an acknowledgement leaves before its notification. -/
def State.acked (s : State) (u n v : Nat) : State := (s.setRegN (mbxKey u n 0x44) v).setFld (mbxKey u n 0x40) 0 0 0

theorem mbxAck_silent {s : State} {u n v : Nat} (h : s.fld (mbxKey u n 0x40) 0 0 = 1) (hNtf : s.fld (mbxKey u n 0x48) 31 31 = 0) :
    s.mbxAck u n v = s.acked u n v := by
  unfold State.mbxAck
  dsimp only
  rw [if_neg (by rw [h]; decide), if_neg (by rw [bit_regN_iff, hNtf]; decide)]
  rfl

theorem mbxAck_notifies {s : State} {u n v : Nat} (h : s.fld (mbxKey u n 0x40) 0 0 = 1) (hNtf : s.fld (mbxKey u n 0x48) 31 31 = 1) :
    s.mbxAck u n v = (s.acked u n v).pushItems [(s.acked u n v).ntfItem u (s.regN (mbxKey u n 0x48))] := by
  unfold State.mbxAck
  dsimp only
  rw [if_neg (by rw [h]; decide), if_pos ((bit_regN_iff _ _ _).mpr hNtf)]
  rfl

theorem acked_fab (s : State) (u n v : Nat) : (s.acked u n v).fab = s.fab := by
  unfold State.acked
  rw [State.setFld_fab, State.setRegN_fab]

/-- Operations that join their queue change no byte and no register. -/
theorem pushItems_does (s : State) (xs : List FabItem) : SameBytes s (s.pushItems xs) ∧ (∀ a, (s.pushItems xs).reg a = s.reg a) ∧
    (s.pushItems xs).fab.waiting = s.fab.waiting ++ xs := ⟨sameBytes_of rfl rfl rfl rfl, fun _ => rfl, rfl⟩

theorem acked_does (s : State) (u n : Nat) (v : Reg32) : SameBytes s (s.acked u n v.toNat) ∧ (s.acked u n v.toNat).fld (mbxKey u n 0x40) 0 0 = 0 ∧
    (s.acked u n v.toNat).reg (mbxKey u n 0x44) = v := by
  unfold State.acked
  rw [setRegN_toNat]
  refine ⟨(sameBytes_setReg s _ _).trans (sameBytes_setFld _ _ _ _ _), State.fld_setFld_eq _ _ _ _ _ (by decide) (by decide), ?_⟩
  exact (State.reg_setReg_ne _ _ _ _ (key_ne_key u (by omega))).trans (State.reg_setReg_eq _ _ _)

theorem registered_of_answers {s : State} {src : BitVec 8} {u o : Nat} (h : Answers s src u o) : (regRow (key u o)).isSome = true := by
  obtain ⟨-, -, hRow, -⟩ := h
  exact hRow

section
variable {s : State} {src unit : BitVec 8} {n : Fin 32}

/-- A post that its unit answers acts on a state that has `s`'s bytes and registers. -/
theorem exec_mbxPost_answers (h : Answers s src unit.toNat (CTM + 0x80 * n.val + 0x40)) :
    ∃ z, SameBytes s z ∧ (∀ a, z.reg a = s.reg a) ∧ exec (.mbxPost src unit n) s = .next (z.mbxPost src.toNat unit.toNat n.val) := by
  rw [exec_mbxPost, execMbxPost, mailboxRow_writes h (Nat.add_assoc _ _ _) (Nat.add_assoc _ _ _) (by omega) (by omega),
    mboxWrite_post n (registered_of_answers h)]
  refine ⟨_, ?_, fun a => ?_, rfl⟩
  · exact (sameBytes_reach s unit.toNat).trans (sameBytes_setReg _ _ _)
  · exact (reg_setReg_self _ _ a).trans (State.reach_reg s unit.toNat a)

theorem exec_mbxAck_answers (h : Answers s src unit.toNat (CTM + 0x80 * n.val + 0x44)) (v : Reg32) :
    exec (.mbxAck src unit n v) s = .next ((s.reach unit.toNat).mbxAck unit.toNat n.val v.toNat) := by
  rw [exec_mbxAck, execMbxAck, mailboxRow_writes h (Nat.add_assoc _ _ _) (Nat.add_assoc _ _ _) (by omega) (by omega), mboxWrite_ack]

theorem fld_bit_cases (s : State) (a k : Nat) : s.fld a k k = 0 ∨ s.fld a k k = 1 := by
  unfold State.fld bits
  rw [Nat.add_sub_cancel_left, Nat.pow_one]
  exact Nat.mod_two_eq_zero_or_one _

/-- An acknowledgement of a full mailbox stores its value and clears GO; with NTF.EN, the block's SIGNAL follows. -/
theorem mbxAck_full {z : State} {u : Nat} (n : Nat) (v : Reg32) (h : z.fld (mbxKey u n 0x40) 0 0 = 1) :
    SameBytes z (z.mbxAck u n v.toNat) ∧ (z.mbxAck u n v.toNat).fld (mbxKey u n 0x40) 0 0 = 0 ∧
    (z.mbxAck u n v.toNat).reg (mbxKey u n 0x44) = v ∧
    (z.fld (mbxKey u n 0x48) 31 31 = 0 → (z.mbxAck u n v.toNat).fab.waiting = z.fab.waiting) ∧
    (z.fld (mbxKey u n 0x48) 31 31 = 1 → (z.mbxAck u n v.toNat).fab.waiting =
      z.fab.waiting ++ [(z.acked u n v.toNat).ntfItem u (z.regN (mbxKey u n 0x48))]) := by
  obtain ⟨hBytes, hClear, hCode⟩ := acked_does z u n v
  rcases fld_bit_cases z (mbxKey u n 0x48) 31 with hOff | hOn
  · rw [mbxAck_silent h hOff]
    exact ⟨hBytes, hClear, hCode, fun _ => congrArg Fab.waiting (acked_fab z u n _), fun hOn => absurd (hOff.symm.trans hOn) (by decide)⟩
  · rw [mbxAck_notifies h hOn]
    obtain ⟨hSame, hRegs, hWaiting⟩ := pushItems_does (z.acked u n v.toNat) [(z.acked u n v.toNat).ntfItem u (z.regN (mbxKey u n 0x48))]
    rw [hRegs, fld_congr (hRegs _), hWaiting, acked_fab]
    exact ⟨hBytes.trans hSame, hClear, hCode, fun hOff => absurd (hOn.symm.trans hOff) (by decide), fun _ => rfl⟩

theorem exec_dbSet_answers (h : Answers s src unit.toNat (CTM + 0x1004)) (v : Reg32) :
    exec (.dbSet src unit v) s = .next ((s.reach unit.toNat).raiseDb unit.toNat v.toNat) := by
  rw [exec_dbSet, execDbSet, mailboxRow_writes (o := 0x1004) h rfl rfl (by decide) (by decide), mboxWrite_dbSet]

end

/-- Settles O34: the write reaches the unit's block, whose registers are as `s` has them, and goes by the block's rules. -/
theorem mailboxesAndDoorbells : Obligations.MailboxesAndDoorbells := by
  intro src unit n v s u m
  have hKey : ∀ o, key u (m + o) = mbxKey u n.val o := fun _ => rfl
  have hWake := sameBytes_reach s u
  simp only [hKey]
  refine ⟨fun hAnswers => ?_, fun hAnswers hFull => ?_, fun hAnswers => ?_⟩
  · obtain ⟨z, hBytes, hRegs, hExec⟩ := exec_mbxPost_answers hAnswers
    have hFld : ∀ a hi lo, z.fld a hi lo = s.fld a hi lo := fun a => fld_congr (hRegs a)
    refine ⟨fun hEmpty => ?_, fun hFull => ?_⟩
    · obtain ⟨hSame, hGo, hSource, hRaw⟩ := mbxPost_empty z src.toNat n unit.isLt ((hFld _ _ _).trans hEmpty)
      exact ⟨_, hExec, fun a => (hSame a).trans (hBytes.1 a), hGo, hSource.trans (Nat.mod_eq_of_lt src.isLt), hRaw.trans (by rw [hRegs])⟩
    · have hGo : z.fld (mbxKey u n.val 0x40) 0 0 = 1 := (hFld _ _ _).trans hFull
      rw [mbxPost_full z src.toNat n hGo] at hExec
      refine ⟨_, hExec, hBytes.trans (sameBytes_setFld _ _ _ _ _), State.fld_setFld_bit _ _ _ (by decide), ?_, ?_⟩
      · exact (State.fld_setFld_ne _ _ _ _ _ _ _ _ (by decide) (by decide) (.inr (.inl (by decide)))).trans hGo
      · exact (State.reg_setReg_ne _ _ _ _ (key_ne_key u (by omega))).trans (hRegs _)
  · obtain ⟨hBytes, hClear, hCode, hSilent, hNotifies⟩ := mbxAck_full n.val v ((State.reach_fld s u _ 0 0).trans hFull)
    have hNtf : (s.reach u).fld (mbxKey u n.val 0x48) 31 31 = s.fld (mbxKey u n.val 0x48) 31 31 := State.reach_fld s u _ 31 31
    rw [hNtf, State.reach_fab] at hSilent hNotifies
    refine ⟨_, exec_mbxAck_answers hAnswers v, hWake.trans hBytes, hClear, hCode, hSilent, fun hOn => ⟨_, hNotifies hOn, ?_⟩⟩
    exact ⟨rfl, rfl, congrArg (BitVec.ofNat 12) (State.reach_fld s u _ 11 0)⟩
  · obtain ⟨hBytes, hRaw, -⟩ := raiseDb_does (s.reach u) unit.isLt v.toNat
    refine ⟨_, exec_dbSet_answers hAnswers v, fun a => (hBytes a).trans (hWake.1 a), ?_⟩
    rw [hRaw, State.reach_reg, BitVec.ofNat_toNat, BitVec.setWidth_eq]

end Sys2Proof.Machine
end

section
/-! SUPPORT. Accesses of the host through windows: one page at a time, to memory that answers unit 0x62 (R356 to R358). -/
namespace Sys2Proof.Machine

/-! ### Pages -/

/-- An access within one 4 KiB page is one piece. -/
theorem pages_one {k o n : Nat} (hk : 0 < k) (hn : 0 < n) (hPage : o % 4096 + n ≤ 4096) : pages k o n = [(o, n)] := by
  obtain ⟨k, rfl⟩ := Nat.exists_eq_succ_of_ne_zero (Nat.ne_of_gt hk)
  have hWhole : min n (4096 - o % 4096) = n := Nat.min_eq_left (by omega)
  have hRest : pages k (o + n) 0 = [] := by cases k <;> rfl
  unfold pages
  dsimp only
  rw [if_neg (Nat.ne_of_gt hn), hWhole, Nat.sub_self, hRest]

theorem slice_all (l : List Byte) : slice l 0 l.length = l := by
  unfold slice
  simp only [Nat.zero_add]
  exact map_range_getD l 0

section
variable {s : State} {o : BitVec 64} (hUp : s.hostUp = true) (hFull : s.fullIf = true) (hLink : s.ucie.retraining = false)
include hUp hFull hLink

theorem exec_windowRead_page {len : BitVec 13} (hn : 0 < len.toNat) (hPage : o.toNat % 4096 + len.toNat ≤ 4096) :
    exec (.windowRead o len) s =
      .next { (s.winRead o.toNat len.toNat).1 with readOut := (s.winRead o.toNat len.toNat).2 } := by
  rw [exec_windowRead, execWindowRead, if_neg (by unfold State.winHeld; simp [hUp, hLink]), if_neg (by rw [hFull]; decide),
    pages_one (by decide) hn hPage]
  rfl

theorem exec_windowWrite_page {data : List Byte} (hn : data ≠ []) (hPage : o.toNat % 4096 + data.length ≤ 4096) :
    exec (.windowWrite o data) s = .next (s.winWrite o.toNat data) := by
  have hLength := List.length_pos_iff.mpr hn
  rw [exec_windowWrite, execWindowWrite, if_neg (by unfold State.winHeld; simp [hUp, hFull, hLink]), pages_one hLength hLength hPage,
    List.foldl_cons, List.foldl_nil, Nat.sub_self, slice_all]

end

/-! ### Hits and misses (R357, R358) -/

/-- An open window maps to a fabric address. -/
theorem winAt_lt {s : State} {o w a : Nat} (h : s.winAt o = some (w, a)) : a < 2 ^ 64 := by
  unfold State.winAt at h
  dsimp only at h
  split at h
  · cases h
  · cases h
    exact BitVec.isLt _

/-- A read of clean memory that answers the host returns its bytes; it wakes what it reaches, and changes nothing else. -/
theorem winRead_hit {s : State} {o n w a : Nat} (hWindow : s.winAt o = some (w, a)) (hDevice : devOf a = s.ownChain)
    (hCause : s.landCause (s.winItem .get a n []) (unitOf a) = 0) (hMemory : offOf a < CTL) (hClean : s.clean) :
    ∃ z, Reached s z ∧ s.winRead o n = (z, s.bytes (key (unitOf a) (offOf a)) n) := by
  have hz := reached_reachAt s (unitOf a) (offOf a) n
  have hRead : (s.reachAt (unitOf a) (offOf a) n).targetRead (unitOf a) (offOf a) n =
      (s.reachAt (unitOf a) (offOf a) n, some (s.bytes (key (unitOf a) (offOf a)) n)) := by
    unfold State.targetRead
    rw [if_pos hMemory, read_of_clean (clean_of hClean hz.ecc fun _ => hz.reg _), hz.bytes]
  refine ⟨_, hz, ?_⟩
  unfold State.winRead
  rw [hWindow]
  dsimp only
  rw [if_neg (not_not_intro hDevice), hCause, if_neg (not_not_intro rfl), hRead]

theorem winRead_miss {s : State} {o n : Nat} (h : s.winAt o = none) : s.winRead o n = (s.winMiss o, List.replicate n 0) := by
  unfold State.winRead
  rw [h]

/-- The first miss is recorded, and the flag stands after every one. -/
theorem winMiss_does (s : State) (o : Nat) : (s.winMiss o).fld winStatus 0 0 = 1 ∧ SameBytes s (s.winMiss o) := by
  unfold State.winMiss
  split
  · next h => exact ⟨h, SameBytes.refl s⟩
  · refine ⟨?_, (sameBytes_setFld s _ _ _ _).trans (OnlyRegs.setReg64 _ _ _).sameBytes⟩
    exact (fld_congr (reg_setReg64_ne _ _ (by omega) (by omega)) 0 0).trans (State.fld_setFld_bit s winStatus 0 (by decide))

theorem winWrite_refused {s : State} {o w a : Nat} {b : List Byte} (hWindow : s.winAt o = some (w, a)) (h : s.fld (winKey w + 8) 1 1 = 0) :
    s.winWrite o b = s.setFld winStatus 1 1 1 := by
  unfold State.winWrite
  rw [hWindow]
  exact if_pos h

/-- A write to memory that answers the host and that no pair entry watches puts its bytes. -/
theorem winWrite_wrote {s : State} {o w a : Nat} {b : List Byte} (hWindow : s.winAt o = some (w, a)) (hWritable : s.fld (winKey w + 8) 1 1 = 1)
    (hDevice : devOf a = s.ownChain) (hCause : s.landCause (s.winItem .put a b.length b) (unitOf a) = 0)
    (hCalm : Calm s (unitOf a) (offOf a) b.length) (hPairs : ∀ e, engOf (unitOf a) = some e → s.pairOf e 0xFFFD = none) :
    Wrote s (s.winWrite o b) (key (unitOf a) (offOf a)) b := by
  have hAddr : (s.winItem .put a b.length b).hdr.addr.toNat = a := Nat.mod_eq_of_lt (winAt_lt hWindow)
  obtain ⟨z, hz, hLand⟩ := land_put hCause rfl (by rw [hAddr]; exact hCalm) hPairs
  rw [hAddr] at hLand
  have hWrite : s.winWrite o b = z.stored (unitOf a) (offOf a) b := by
    unfold State.winWrite
    rw [hWindow]
    dsimp only
    rw [if_neg (by rw [hWritable]; decide), if_neg (not_not_intro hDevice), hLand]
    rfl
  rw [hWrite]
  exact hCalm.wrote_stored hz (SameBytes.refl _)

/-- Settles O33: an access within a page is one piece, which reads or writes where its window maps, or leaves a flag. -/
theorem hostAccessesThroughWindows : Obligations.HostAccessesThroughWindows := by
  intro o len data s hUp hFull hLink n
  refine ⟨fun hn hPage => ⟨fun w a hWindow hDevice hCause hMemory hClean => ?_, fun hNone => ?_⟩,
    fun hn hPage w a hWindow => ⟨fun hReadOnly => ?_, fun hWritable hDevice hCause hClean hMemory hEngine => ?_⟩⟩
  · obtain ⟨z, hz, hRead⟩ := winRead_hit hWindow hDevice hCause hMemory hClean
    refine ⟨_, exec_windowRead_page hUp hFull hLink hn hPage, ?_⟩
    rw [hRead]
    exact ⟨rfl, hz.sameBytes.trans (sameBytes_of rfl rfl rfl rfl)⟩
  · obtain ⟨hFlag, hBytes⟩ := winMiss_does s o.toNat
    refine ⟨_, exec_windowRead_page hUp hFull hLink hn hPage, ?_⟩
    rw [winRead_miss hNone]
    exact ⟨rfl, hFlag, hBytes.trans (sameBytes_of rfl rfl rfl rfl)⟩
  · refine ⟨_, exec_windowWrite_page hUp hFull hLink hn hPage, ?_⟩
    rw [winWrite_refused hWindow hReadOnly]
    exact ⟨State.fld_setFld_bit s winStatus 1 (by decide), sameBytes_setFld s _ _ _ _⟩
  · have hCalm : Calm s (unitOf a) (offOf a) data.length := ⟨hClean, hMemory, fun e he => .inl (hEngine e he).2⟩
    obtain ⟨-, hWrote⟩ := winWrite_wrote hWindow hWritable hDevice hCause hCalm fun e he => (hEngine e he).1
    exact ⟨_, exec_windowWrite_page hUp hFull hLink hn hPage, hWrote⟩

end Sys2Proof.Machine
end

section
/-! SUPPORT. Partitions: what PART_CREATE waits for and makes, and what PART_DESTROY removes (R382, R384, R425, R554). -/
namespace Sys2Proof.Machine

theorem devState_setDev (s : State) {v : Nat} (h : v < 8) : (s.setDev v).devState = v :=
  (State.fld_setFld_eq s secState 2 0 v (by decide) (by decide)).trans (Nat.mod_eq_of_lt h)

/-! ### PART_CREATE (R382, R425, R554) -/

/-- Partition `q` names engine `e`, which is in E-OFF (R554). -/
def Asleep (s : State) (q : Part) (e : Fin 8) : Prop := bit (q.engmask ||| q.borrow) e.val = true ∧ s.eng[e].power = .off

theorem anyAsleep_iff (s : State) (q : Part) :
    ((List.finRange 8).any fun e => bit (q.engmask ||| q.borrow) e.val && decide (s.eng[e].power = .off)) = true ↔ ∃ e, Asleep s q e := by
  simp [Asleep]

/-- Every engine of the mask that is in E-OFF has its power-up requested. -/
theorem mem_wakeq_wakeMask {s : State} {m : Nat} {e : Fin 8} (hNamed : bit m e.val = true) (hOff : s.eng[e].power = .off) :
    e.val ∈ (s.wakeMask m).power.wakeq := by
  by_cases h : e.val ∈ s.power.wakeq
  · exact List.mem_append_left _ h
  · exact List.mem_append_right _ (List.mem_map_of_mem (List.mem_filter.mpr ⟨List.mem_finRange e, by simpa [hNamed, h] using hOff⟩))

/-- Partition `n` is `q` from now on, with no timing-dependent choice yet, on a device that is RUNNING. -/
def State.addPart (s : State) (n : Fin 8) (q : Part) : State :=
  (({ s with parts := s.parts.set n.val (some q) } : State).setReg64 (dynKey n.val) 0).setDev 4

theorem parts_set_same (s : State) (n : Fin 8) (q : Option Part) : (s.parts.set n.val q)[n] = q := Vector.getElem_set_self n.isLt

theorem parts_set_ne (s : State) {n k : Fin 8} (q : Option Part) (h : k ≠ n) : (s.parts.set n.val q)[k] = s.parts[k] :=
  Vector.getElem_set_ne n.isLt k.isLt fun hk => h (Fin.ext hk.symm)

theorem addPart_dynChoices (s : State) (n : Fin 8) (q : Part) : (s.addPart n q).reg64 (dynKey n.val) = 0 := by
  have hApart : dynKey n.val ≠ secState ∧ dynKey n.val + 4 ≠ secState := by
    unfold dynKey secState key CTU BAR0
    omega
  exact (reg64_setRegN_ne _ _ hApart.1 hApart.2).trans (reg64_setReg64_of_lt _ _ (by decide))

section
variable {s : State} {c : Cmd} {n : Fin 8} (hNumber : fieldLE (c.pkt.drop 16) 0 1 = n.val)
  (hLegal : s.partBad c n.val (Part.parse (c.pkt.drop 16)) = false) (hFree : s.partBusy n.val (Part.parse (c.pkt.drop 16)) = false)
include hNumber hLegal hFree

/-- Past its checks PART_CREATE waits for power or makes its partition. -/
theorem partCreate_legal :
    State.partCreate c s =
      let q := Part.parse (c.pkt.drop 16)
      if (List.finRange 8).any fun e => bit (q.engmask ||| q.borrow) e.val && decide (s.eng[e].power = .off) then
        (s.wakeMask (q.engmask ||| q.borrow)).modCmd c.id fun c => { c with phase := .waiting }
      else (s.finish c.id OK 0 0 (slice c.pkt 16 48)).addPart n q := by
  unfold State.partCreate
  simp only [hNumber]
  rw [dif_pos n.isLt, hLegal, if_neg Bool.false_ne_true, hFree, if_neg Bool.false_ne_true]
  rfl

theorem partCreate_waits (h : ∃ e, Asleep s (Part.parse (c.pkt.drop 16)) e) :
    State.partCreate c s = (s.wakeMask ((Part.parse (c.pkt.drop 16)).engmask ||| (Part.parse (c.pkt.drop 16)).borrow)).modCmd c.id
      fun c => { c with phase := .waiting } :=
  (partCreate_legal hNumber hLegal hFree).trans (if_pos ((anyAsleep_iff _ _).mpr h))

theorem partCreate_makes (h : ∀ e, ¬ Asleep s (Part.parse (c.pkt.drop 16)) e) :
    State.partCreate c s = (s.finish c.id OK 0 0 (slice c.pkt 16 48)).addPart n (Part.parse (c.pkt.drop 16)) :=
  (partCreate_legal hNumber hLegal hFree).trans (if_neg fun hAny => (not_exists.mpr h) ((anyAsleep_iff _ _).mp hAny))

end

/-! ### PART_DESTROY (R384) -/

/-- Engines that no partition names go to E-OFF. -/
def State.sleepUnnamed (s : State) : State :=
  (List.finRange 8).foldl (fun t e =>
    if (t.homePart e.val).isNone ∧ (t.borrowPart e.val).isNone ∧ t.eng[e].power ≠ .off then t.engOff e else t) s

theorem sleepUnnamed_form (s : State) : ∃ v, s.sleepUnnamed = { s with eng := v } := by
  refine List.foldlRecOn (motive := fun t : State => ∃ v, t = { s with eng := v }) (List.finRange 8) _ ⟨s.eng, rfl⟩ fun t ht e _ => ?_
  obtain ⟨v, rfl⟩ := ht
  split
  · exact ⟨_, rfl⟩
  · exact ⟨v, rfl⟩

/-- Partition `n` is gone, engines that are nobody's sleep, and a device without partitions is LOADED. -/
def State.dropPart (s : State) (n : Fin 8) : State :=
  let z := ({ s with parts := s.parts.set n.val none } : State).sleepUnnamed
  if z.partList.isEmpty then z.setDev 3 else z

theorem partList_eq_nil {s : State} (h : ∀ k : Fin 8, s.parts[k] = none) : s.partList = [] := by
  unfold State.partList
  exact List.filterMap_eq_nil_iff.mpr fun k _ => by rw [h k]; rfl

/-- Removing a partition changes partitions, engines and registers. -/
theorem dropPart_form (s : State) (n : Fin 8) : ∃ v m, s.dropPart n = { s with parts := s.parts.set n.val none, eng := v, regs := m } := by
  obtain ⟨v, hSleep⟩ := sleepUnnamed_form { s with parts := s.parts.set n.val none }
  unfold State.dropPart
  dsimp only
  rw [hSleep]
  split <;> exact ⟨_, _, rfl⟩

/-- Without the last partition the device is LOADED. -/
theorem dropPart_last {s : State} {n : Fin 8} (h : ∀ k, k ≠ n → s.parts[k] = none) : (s.dropPart n).devState = 3 := by
  obtain ⟨v, hSleep⟩ := sleepUnnamed_form { s with parts := s.parts.set n.val none }
  have hEmpty : ({ s with parts := s.parts.set n.val none } : State).sleepUnnamed.partList = [] := by
    rw [hSleep]
    refine partList_eq_nil fun k => ?_
    by_cases hk : k = n
    · subst hk; exact parts_set_same s k none
    · exact (parts_set_ne s none hk).trans (h k hk)
  unfold State.dropPart
  dsimp only
  rw [hEmpty, List.isEmpty_nil, if_pos rfl]
  exact devState_setDev _ (by decide)

/-- A partition without jobs, carriers, host pairs and lent engines is removed. -/
theorem partDestroy_legal {s : State} {c : Cmd} {n : Fin 8} {q : Part} (hNumber : c.param 0 1 = n.val) (hPart : s.parts[n] = some q)
    (hJobs : ∀ j ∈ s.jobs, j.part ≠ n.val) (hCarriers : s.partCarriers n.val = [])
    (hPairs : ∀ x ∈ s.queues, x.2.valid = true → x.1 < 4096 → x.2.part ≠ n.val)
    (hLent : q.lends = true → ∀ e : Fin 8, bit q.engmask e.val = true → s.borrowPart e.val = none) :
    State.partDestroy c s = (s.finish c.id OK 0 n.val (slice c.pkt 16 1)).dropPart n := by
  have hAt : s.parts[n.val] = some q := hPart
  have hNoJob : (s.jobs.any fun j => decide (j.part = n.val)) = false := List.any_eq_false.mpr fun j hj => by simpa using hJobs j hj
  have hNoPair : (s.queues.any fun x => x.2.valid && decide (x.1 < 4096) && decide (x.2.part = n.val)) = false :=
    List.any_eq_false.mpr fun x hx => by simpa using hPairs x hx
  have hNoLent : (q.lends && (List.range 8).any fun e => bit q.engmask e && (s.borrowPart e).isSome) = false := by
    rw [Bool.and_eq_false_imp]
    refine fun hLends => List.any_eq_false.mpr fun e he => ?_
    simpa using hLent hLends ⟨e, List.mem_range.mp he⟩
  unfold State.partDestroy
  simp only [hNumber]
  rw [dif_pos n.isLt]
  simp only [hAt]
  rw [hNoJob, hCarriers, hNoPair, hNoLent, if_neg (by decide)]
  rfl

/-- Settles O35: both commands get their outcome first, and then change their partition, its engines and the device state alone. -/
theorem partitionsAreCreatedAndDestroyed : Obligations.PartitionsAreCreatedAndDestroyed := by
  intro pair s c
  refine ⟨fun hReady n hNumber => ?_, fun hReady n q hNumber hPart hJobs hCarriers hPairs hLent => ?_⟩
  · intro q asleep hLegal hFree
    rw [exec_partCreate, execPartCreate, onCmd_ready hReady]
    refine ⟨fun hAwake => ?_, fun hAsleep => ?_⟩
    · obtain ⟨hEnds, l, cs, ks, hForm⟩ := finish_of_ready hReady OK (value := 0) (by decide) (slice c.pkt 16 48)
      have hParts : (s.finish c.id OK 0 0 (slice c.pkt 16 48)).parts = s.parts := (congrArg State.parts hForm :)
      rw [partCreate_makes hNumber hLegal hFree hAwake]
      refine ⟨_, rfl, ends_of_stores hEnds rfl rfl rfl, parts_set_same _ n _, fun k hk => ?_, addPart_dynChoices _ n q,
        devState_setDev _ (by decide)⟩
      exact (parts_set_ne _ _ hk).trans (by rw [hParts])
    · rw [partCreate_waits hNumber hLegal hFree hAsleep]
      exact ⟨_, rfl, rfl, waits_of_ready hReady rfl, fun e he => mem_wakeq_wakeMask he.1 he.2⟩
  · obtain ⟨hEnds, l, cs, ks, hForm⟩ := finish_of_ready hReady OK (value := n.val) (by omega) (slice c.pkt 16 1)
    rw [exec_partDestroy, execPartDestroy, onCmd_ready hReady, partDestroy_legal hNumber hPart hJobs hCarriers hPairs hLent]
    have hParts : (s.finish c.id OK 0 n.val (slice c.pkt 16 1)).parts = s.parts := (congrArg State.parts hForm :)
    obtain ⟨v, m, hDrop⟩ := dropPart_form (s.finish c.id OK 0 n.val (slice c.pkt 16 1)) n
    refine ⟨_, rfl, ?_, ?_, fun k hk => ?_, fun hLast => dropPart_last fun k hk => ?_⟩
    · rw [hDrop]
      exact ends_of_stores hEnds rfl rfl rfl
    · rw [hDrop]
      exact parts_set_same _ n none
    · rw [hDrop]
      exact (parts_set_ne _ _ hk).trans (by rw [hParts])
    · rw [hParts]
      exact hLast k hk

end Sys2Proof.Machine
end

section
/-! SUPPORT. Jobs: how JOB_LOAD makes one resident, how JOB_CMD waits, and how JOB_UNLOAD removes one (R386 to R388, R394, R395). -/
namespace Sys2Proof.Machine

/-! ### Commands, completions and the ledger -/

/-- From `s` to `t` no command, no completion and no ledger record has changed. -/
structure SameCommands (s t : State) : Prop where
  cmds : t.cmds = s.cmds
  completions : t.completions = s.completions
  ledger : t.ledger = s.ledger

namespace SameCommands

theorem refl (s : State) : SameCommands s s := ⟨rfl, rfl, rfl⟩

variable {s t u : State}

theorem trans (h : SameCommands s t) (k : SameCommands t u) : SameCommands s u :=
  ⟨k.cmds.trans h.cmds, k.completions.trans h.completions, k.ledger.trans h.ledger⟩

theorem of_regsAndFab (h : RegsAndFab s t) : SameCommands s t := by
  obtain ⟨_, _, rfl⟩ := h
  exact ⟨rfl, rfl, rfl⟩

theorem foldl {α : Type} {f : State → α → State} (hf : ∀ t x, SameCommands t (f t x)) (l : List α) (s : State) :
    SameCommands s (l.foldl f s) :=
  List.foldlRecOn (motive := SameCommands s) l f (refl s) fun t ht x _ => ht.trans (hf t x)

end SameCommands

/-- The outcome of a command that may execute, in a state that its row has reached with no outcome. -/
theorem finish_of_sameCommands {s z : State} {pair : BitVec 16} {op : Nat} {c : Cmd} (h : Ready s pair op c)
    (hSame : SameCommands s z) (status : Nat) {value : Nat} (hValue : value < 2 ^ 32) (values : List Byte) :
    Ends s (z.finish c.id status 0 value values) c status 0 value ∧
    ∃ l cs ks, z.finish c.id status 0 value values = { z with ledger := l, cmds := cs, completions := ks } := by
  obtain ⟨⟨hOne, hDone, hNext⟩, hForm⟩ := finish_ends (s := z) status 0 value values ((cmdOf_congr hSame.cmds c.id).trans h.self) h.live
    (phase_ne_done_of_ready h) (by rw [hSame.ledger]; exact h.up)
  rw [hSame.completions, Nat.mod_eq_of_lt hValue] at hOne
  rw [hSame.ledger] at hNext
  exact ⟨⟨hOne, hDone, hNext⟩, hForm⟩

/-! ### JOB_LOAD (R60, R386) -/

theorem regsAndFab_withoutStream (s : State) (u stream : Nat) : RegsAndFab s (s.withoutStream u stream) := by
  unfold State.withoutStream
  split
  · exact regsAndFab_deregister s u _
  · exact RegsAndFab.refl s

theorem regsAndFab_register {s t : State} {u stream esc mx win nextSeq : Nat} (h : s.register u stream esc mx win nextSeq = some t) :
    RegsAndFab s t := by
  unfold State.register at h
  dsimp only at h
  split at h
  · cases h
  · split at h
    · cases h
    · cases h
      exact (regsAndFab_withoutStream s u stream).trans (RegsAndFab.of_regs ((OnlyRegs.setRegN _ _ _).trans (OnlyRegs.setRegN _ _ _)))

/-- Registered streams change registers and the fabric (R60). -/
theorem regsAndFab_registerAll {t : State} : ∀ {l : List (Nat × Nat × Nat × Nat × Nat)} {s : State}, s.registerAll l = some t → RegsAndFab s t
  | [], _, h => by
    cases h
    exact RegsAndFab.refl _
  | r :: l, s, h => by
    unfold State.registerAll at h
    split at h
    · next s1 hFirst => exact (regsAndFab_register hFirst).trans (regsAndFab_registerAll h)
    · cases h

/-- The image that a JOB_LOAD names. -/
def State.loadImage (s : State) (c : Cmd) : List Byte := s.bytes (key 0x40 (c.param 8 8)) (c.param 4 4)

/-- The job that a JOB_LOAD makes of its image in partition `p`. -/
def State.loadedJob (s : State) (c : Cmd) (p : Nat) : Job :=
  Job.ofImage p (c.param 0 1) (c.param 1 1) (c.param 8 8) (c.param 4 4) (c.param 16 8) ((List.range 4).map fun i => c.param (24 + 4 * i) 4)
    (s.loadImage c)

/-- JOB_LOAD past the checks of its parameters reads its image (R386). -/
theorem jobLoad_reads {s : State} {c : Cmd} {p : Fin 8} {q : Part} (hPart : c.partNo = some p) (hAt : s.parts[p] = some q) (hClean : s.clean)
    (hSlot : c.param 0 1 ≤ 7) (hPrio : c.param 1 1 ≤ 7) (hSome : c.param 4 4 ≠ 0) (hHbm : q.inHbm (c.param 8 8) (c.param 4 4) = true) :
    State.jobLoad c s = s.jobLoadImage c p.val q (s.loadImage c) := by
  have hFound : (c.partNo.bind fun p => s.parts[p].map fun q => (p.val, q)) = some (p.val, q) := by
    rw [hPart, Option.bind_some, hAt]
    rfl
  unfold State.jobLoad
  rw [hFound]
  dsimp only
  rw [if_neg (by omega), if_neg hSome, hHbm, if_neg (by decide), read_of_clean hClean]
  rfl

/-- A sound image in a free slot whose streams register, admitted in a REALTIME partition, makes a resident job (R386). -/
theorem jobLoadImage_loads {s s1 : State} {c : Cmd} {p : Nat} {q : Part}
    (hSig : Config.jobSigOk ((s.secure.image.map Image.bytes).getD []) s.secure.custKeys (s.loadImage c) = true)
    (hOk : s.imageOk q (s.loadImage c) = true)
    (hFree : s.jobAt p (c.param 0 1) = none) (hStreams : s.registerAll (Config.jobStreams (s.loadImage c)) = some s1)
    (hAdmit : q.cls = 0 → ({ s1 with jobs := s1.jobs ++ [s.loadedJob c p] } : State).admits s.power.cap = true) :
    s.jobLoadImage c p q (s.loadImage c) =
      ({ s1 with jobs := s1.jobs ++ [s.loadedJob c p] } : State).finish c.id OK 0 0 (slice c.pkt 16 40) := by
  unfold State.jobLoadImage
  dsimp only
  rw [hSig, if_neg (by decide), hOk, if_neg (by decide), hFree, if_neg (by decide), hStreams]
  exact if_neg fun h => Bool.false_ne_true (h.2.symm.trans (hAdmit h.1))

/-! ### JOB_CMD (R388, R394, R395) -/

theorem sameCommands_killEng (s : State) (e : Fin 8) (k : KillInfo) : SameCommands s (s.killEng e k) := by
  obtain ⟨m, n, b, hAbort⟩ := abortUnits_form s e
  unfold State.killEng
  split
  iterate 3 exact SameCommands.refl s
  rw [hAbort]
  exact ⟨rfl, rfl, rfl⟩

theorem sameCommands_killCmd (s : State) (id : Nat × Nat) (k : KillInfo) : SameCommands s (s.killCmd id k) :=
  SameCommands.foldl (fun t e => sameCommands_killEng t e k) _ s

/-- A pre-emption kills engines alone. -/
theorem sameCommands_preempt (s : State) (p : Nat) : SameCommands s (s.preempt p) := by
  unfold State.preempt
  split
  · split
    · exact SameCommands.refl s
    · split
      · exact SameCommands.foldl (fun t x => sameCommands_killCmd t _ _) _ s
      · exact SameCommands.refl s
  · exact SameCommands.refl s

theorem sameCommands_setFld (s : State) (a hi lo v : Nat) : SameCommands s (s.setFld a hi lo v) := ⟨rfl, rfl, rfl⟩

theorem sameCommands_modJob (s : State) (p j : Nat) (f : Job → Job) : SameCommands s (s.modJob p j f) := ⟨rfl, rfl, rfl⟩

/-- A block limit that is passed changes registers, engines and the order of jobs. -/
theorem sameCommands_blockTest (s : State) (e : Fin 8) : SameCommands s (s.blockTest e) := by
  unfold State.blockTest
  split
  · exact SameCommands.refl s
  · dsimp only
    split
    · exact SameCommands.refl s
    · exact ((sameCommands_setFld s _ _ _ _).trans (sameCommands_modJob _ _ _ _)).trans (sameCommands_killCmd _ _ _)

theorem sameCommands_retest (s : State) (p : Nat) : SameCommands s (s.retest p) := by
  refine SameCommands.foldl (fun t e => ?_) (List.finRange 8) s
  split
  · have hClear := sameCommands_setFld t (key e (CTU + 8)) 3 3 0
    dsimp only
    split
    · exact (hClear.trans (sameCommands_setFld _ _ _ _ _)).trans (sameCommands_blockTest _ e)
    · exact hClear
  · exact SameCommands.refl t

/-- A JOB_CMD that passes its check waits, with the pre-emption and the tests that a ready job causes. -/
theorem jobCmd_passed {s : State} {c : Cmd} (h : s.jobCmdCheck c = none) :
    SameCommands (s.modCmd c.id fun c => { c with phase := .waiting }) (State.jobCmd c s) := by
  unfold State.jobCmd
  rw [h]
  exact (sameCommands_preempt _ c.part).trans (sameCommands_retest _ c.part)

theorem jobCmd_failed {s : State} {c : Cmd} {st : Nat} (h : s.jobCmdCheck c = some st) : State.jobCmd c s = c.ends st 0 0 s := by
  unfold State.jobCmd
  rw [h]

/-! ### JOB_UNLOAD (R387) -/

/-- A job without open commands and carriers is removed. -/
theorem jobUnload_idle {s : State} {c : Cmd} {j : Job} (hJob : s.jobAt c.part (c.param 0 1) = some j) (hIdle : s.jobCmds j.part j.slot = [])
    (hCarriers : s.servesCarrier j.part j.slot = false) :
    State.jobUnload c s =
      let z := s.finish c.id OK 0 0 (slice c.pkt 16 1)
      { z with jobs := z.jobs.filter fun x => !(decide (x.part = j.part) && decide (x.slot = j.slot)) } := by
  unfold State.jobUnload
  rw [hJob]
  dsimp only
  rw [hIdle, hCarriers, if_neg (by decide)]

/-- What a filter takes out is not found. -/
theorem find?_filter_not {α : Type} (p : α → Bool) (l : List α) : (l.filter fun x => !(p x)).find? p = none :=
  List.find?_eq_none.mpr fun x hx => by simpa using (List.mem_filter.mp hx).2

end Sys2Proof.Machine
end

section
/-! SUPPORT. JOB_ABORT: the outcome of each open command of the job, and the engines that it stops (R110, R398). -/
namespace Sys2Proof.Machine

/-! ### The outcome of one command among others (R403) -/

theorem rewriteOpen_up (l : Ledger) (time : Nat) : (l.rewriteOpen time).up = l.up :=
  List.foldlRecOn (motive := fun m : Ledger => m.up = l.up) _ _ rfl fun _ hm _ _ => hm

theorem ledgerCommit_up (s : State) (type : Nat) (payload : List Byte) : (s.ledgerCommit type payload).ledger.up = s.ledger.up := by
  have hWritten : ((s.ledger.append type s.ledTime payload).rewriteOpen s.ledTime).up = s.ledger.up := rewriteOpen_up _ _
  unfold State.ledgerCommit
  dsimp only
  split <;> exact hWritten

/-- A live command without outcome gets its completion, and the ledger path stays up. -/
theorem finish_open {s : State} {c : Cmd} (status detail value : Nat) (hSelf : s.cmdOf c.id = some c) (hLive : c.replay = false)
    (hPhase : c.phase ≠ .done) (hUp : s.ledger.up = true) :
    ∃ l : Ledger, l.up = true ∧ s.finish c.id status detail value =
      { ({ s with ledger := l } : State).modCmd c.id (fun c => { c with phase := .done }) with
        completions := s.completions ++ [⟨c.pair, c.seq, status, detail % 2 ^ 16, value % 2 ^ 32, bit (fieldLE c.pkt 1 1) 1⟩] } := by
  have hUp' := (ledgerCommit_up s 0x02 (idBytes c.id ++ toLE 1 status ++ toLE 2 detail ++ toLE 4 value ++ [])).trans hUp
  obtain ⟨l, hCommit, -⟩ := ledgerCommit_form s 0x02 (idBytes c.id ++ toLE 1 status ++ toLE 2 detail ++ toLE 4 value ++ []) []
  rw [hCommit] at hUp'
  refine ⟨l, hUp', ?_⟩
  unfold State.finish
  rw [hSelf]
  dsimp only
  rw [if_neg (by rw [hLive]; decide), if_neg (by simp [hPhase, hUp]), hCommit]
  rfl

theorem finish_eng (s : State) (id : Nat × Nat) (status detail value : Nat) : (s.finish id status detail value).eng = s.eng := by
  unfold State.finish
  split
  · rfl
  · split
    · rfl
    · split
      · rfl
      · obtain ⟨l, hCommit, -⟩ := ledgerCommit_form s 0x02 (idBytes id ++ toLE 1 status ++ toLE 2 detail ++ toLE 4 value ++ []) []
        dsimp only
        rw [hCommit]
        rfl

/-- A change of one command that keeps its ring and sequence number leaves the others. -/
theorem cmdOf_modCmd_ne (s : State) {id i : Nat × Nat} {f : Cmd → Cmd} (hPair : ∀ c, (f c).pair = c.pair) (hSeq : ∀ c, (f c).seq = c.seq)
    (h : i ≠ id) : (s.modCmd id f).cmdOf i = s.cmdOf i := by
  unfold State.cmdOf State.modCmd
  dsimp only
  induction s.cmds with
  | nil => rfl
  | cons c cs ih =>
    rw [List.map_cons]
    by_cases hc : c.pair = id.1 ∧ c.seq = id.2
    · have hOther : ¬ (c.pair = i.1 ∧ c.seq = i.2) := fun hi => h (Prod.ext (hi.1.symm.trans hc.1) (hi.2.symm.trans hc.2))
      have hNot : (decide (c.pair = i.1) && decide (c.seq = i.2)) = false := by rw [← Bool.decide_and]; exact decide_eq_false hOther
      rw [if_pos hc, List.find?_cons_of_neg (by simp [hPair, hSeq, hNot]), List.find?_cons_of_neg (by simp [hNot]), ih]
    · rw [if_neg hc, List.find?_cons, List.find?_cons, ih]

/-- An accepted command reads as itself where no two have the same ring and sequence number. -/
theorem cmdOf_of_mem {s : State} (hNodup : (s.cmds.map Cmd.id).Nodup) {x : Cmd} (hx : x ∈ s.cmds) : s.cmdOf x.id = some x := by
  cases hFound : s.cmdOf x.id with
  | none => exact absurd (List.find?_eq_none.mp hFound x hx) (by simp [Cmd.id])
  | some y => rw [List.inj_on_of_nodup_map hNodup (List.mem_of_find?_eq_some hFound) hx (id_of_cmdOf hFound)]

/-! ### Killing a command on its engines (R110) -/

/-- What changes one engine of a list after another leaves an engine that is not in it. -/
theorem foldl_eng_ne {f : State → Fin 8 → State} {e : Fin 8} (hf : ∀ t j, e ≠ j → (f t j).eng[e] = t.eng[e]) {l : List (Fin 8)}
    (h : e ∉ l) (s : State) : (l.foldl f s).eng[e] = s.eng[e] :=
  List.foldlRecOn (motive := fun t : State => t.eng[e] = s.eng[e]) l f rfl fun t ht j hj => (hf t j fun he => h (he ▸ hj)).trans ht

/-- An engine in a list is killed when the list's engines are. -/
theorem killEach_stops {e : Fin 8} (k : KillInfo) : ∀ (l : List (Fin 8)) (s : State),
    (KilledFor k e s ∨ s.eng[e].state ∈ [.running, .waiting, .halted] ∧ e ∈ l) → KilledFor k e (l.foldl (fun t j => t.killEng j k) s)
  | [], _, h => h.resolve_right fun hx => nomatch hx.2
  | j :: l, s, h => by
    rw [List.foldl_cons]
    by_cases hj : e = j
    · subst hj
      refine killEach_stops k l _ (.inl ?_)
      rcases h with h | h
      · rwa [killEng_of_killed h]
      · exact killEng_stops k h.1
    · refine killEach_stops k l _ ?_
      unfold KilledFor at *
      rw [killEng_get_ne s k hj]
      exact h.imp_right fun hx => ⟨hx.1, (List.mem_cons.mp hx.2).resolve_left hj⟩

theorem mem_cmdEngines {s : State} {id : Nat × Nat} {e : Fin 8} : e ∈ s.cmdEngines id ↔ s.eng[e].cmd = some id := by
  unfold State.cmdEngines
  rw [List.mem_filter, decide_eq_true_iff]
  exact and_iff_right (List.mem_finRange e)

theorem killCmd_get_ne {s : State} {id : Nat × Nat} {e : Fin 8} (k : KillInfo) (h : s.eng[e].cmd ≠ some id) : (s.killCmd id k).eng[e] = s.eng[e] :=
  foldl_eng_ne (fun t _ hj => killEng_get_ne t k hj) (fun he => h (mem_cmdEngines.mp he)) s

theorem killCmd_cmd (s : State) (id : Nat × Nat) (k : KillInfo) (e : Fin 8) : (s.killCmd id k).eng[e].cmd = s.eng[e].cmd :=
  List.foldlRecOn (motive := fun t : State => t.eng[e].cmd = s.eng[e].cmd) _ _ rfl fun t ht j _ => (killEng_cmd t e j k).trans ht

/-! ### Ending one command (R398) -/

/-- Why an abort kills (R398). -/
def abortKill : KillInfo := ⟨.final, KILLED, 0⟩

/-- Each engine of a list has the abort as the reason of its kill, whatever it was killed for before. -/
def State.killFor (s : State) (l : List (Fin 8)) : State :=
  l.foldl (fun t e => t.modEng e fun en => { en with kill := some abortKill }) s

theorem abortCmd_running {x : Cmd} (h : x.phase = .running) (s : State) :
    s.abortCmd x = (s.killCmd x.id abortKill).killFor ((s.killCmd x.id abortKill).cmdEngines x.id) := if_pos h

theorem abortCmd_idle {x : Cmd} (h : x.phase ≠ .running) (s : State) : s.abortCmd x = s.finish x.id KILLED 0 x.reruns2 := if_neg h

theorem killFor_get_ne {l : List (Fin 8)} {e : Fin 8} (h : e ∉ l) (s : State) : (s.killFor l).eng[e] = s.eng[e] :=
  foldl_eng_ne (fun t _ hj => State.modEng_get_ne t _ _ _ hj) h s

/-- Engines that are being killed for the abort stay so, with their commands. -/
theorem killFor_killed {s : State} {e : Fin 8} (h : KilledFor abortKill e s) (l : List (Fin 8)) :
    KilledFor abortKill e (s.killFor l) := by
  refine List.foldlRecOn (motive := KilledFor abortKill e) l _ h fun t ht j _ => ?_
  unfold KilledFor at *
  by_cases hj : e = j
  · subst hj
    rw [State.modEng_get]
    exact ⟨ht.1, rfl⟩
  · rwa [State.modEng_get_ne _ _ _ _ hj]

theorem abortCmd_get_ne {s : State} {x : Cmd} {e : Fin 8} (h : s.eng[e].cmd ≠ some x.id) : (s.abortCmd x).eng[e] = s.eng[e] := by
  by_cases hRun : x.phase = .running
  · have hKill := killCmd_get_ne abortKill h
    rw [abortCmd_running hRun, killFor_get_ne (fun he => h ?_), hKill]
    rw [← hKill]
    exact mem_cmdEngines.mp he
  · rw [abortCmd_idle hRun, eng_congr (finish_eng s _ _ _ _)]

/-- An engine on which the aborted command runs is being killed. -/
theorem abortCmd_kills {s : State} {x : Cmd} {e : Fin 8} (hRun : x.phase = .running) (hCmd : s.eng[e].cmd = some x.id)
    (h : s.eng[e].state ∈ [.running, .waiting, .halted]) : KilledFor abortKill e (s.abortCmd x) := by
  rw [abortCmd_running hRun]
  exact killFor_killed (killEach_stops abortKill _ s (.inr ⟨h, mem_cmdEngines.mpr hCmd⟩)) _

theorem sameCommands_killFor (s : State) (l : List (Fin 8)) : SameCommands s (s.killFor l) := by
  refine SameCommands.foldl (fun t e => ?_) l s
  exact ⟨rfl, rfl, rfl⟩

theorem sameCommands_abortRunning {s : State} {x : Cmd} (h : x.phase = .running) : SameCommands s (s.abortCmd x) := by
  rw [abortCmd_running h]
  exact (sameCommands_killCmd s _ _).trans (sameCommands_killFor _ _)

/-- Command `x` is accepted, live and without outcome. -/
structure OpenCmd (s : State) (x : Cmd) : Prop where
  self : s.cmdOf x.id = some x
  live : x.replay = false
  phase : x.phase ≠ .done

/-- The completion of an open command that is ended with KILLED (R398). -/
def Cmd.killed (x : Cmd) : Completion := ⟨x.pair, x.seq, KILLED, 0, x.reruns2 % 2 ^ 32, bit (fieldLE x.pkt 1 1) 1⟩

/-- The completions that an abort gives at once: of the commands that do not run. -/
def killedAtOnce (cs : List Cmd) : List Completion := (cs.filter fun x => decide (x.phase ≠ .running)).map Cmd.killed

/-- An aborted command completes at once unless it runs; the ledger path and the other commands stay. -/
theorem abortCmd_does {s : State} {x : Cmd} (hOpen : OpenCmd s x) (hUp : s.ledger.up = true) :
    (s.abortCmd x).completions = s.completions ++ killedAtOnce [x] ∧ (s.abortCmd x).ledger.up = true ∧
    ∀ i, i ≠ x.id → (s.abortCmd x).cmdOf i = s.cmdOf i := by
  unfold killedAtOnce
  by_cases hRun : x.phase = .running
  · obtain ⟨hCmds, hCompletions, hLedger⟩ := sameCommands_abortRunning (s := s) hRun
    refine ⟨?_, by rw [hLedger]; exact hUp, fun i _ => cmdOf_congr hCmds i⟩
    rw [hCompletions, List.filter_cons_of_neg (by simp [hRun])]
    exact (List.append_nil _).symm
  · obtain ⟨l, hUp', hFinish⟩ := finish_open KILLED 0 x.reruns2 hOpen.self hOpen.live hOpen.phase hUp
    rw [abortCmd_idle hRun, hFinish, List.filter_cons_of_pos (by simp [hRun])]
    exact ⟨rfl, hUp', fun i hi => cmdOf_modCmd_ne ({ s with ledger := l } : State) (fun _ => rfl) (fun _ => rfl) hi⟩

/-! ### Ending the commands of a job (R398) -/

/-- The open commands of a list are ended one after another. -/
def State.abortAll (s : State) (cs : List Cmd) : State := cs.foldl (fun t x => t.abortCmd x) s

theorem abortAll_does : ∀ (cs : List Cmd) (s : State), (cs.map Cmd.id).Nodup → (∀ x ∈ cs, OpenCmd s x) → s.ledger.up = true →
    (s.abortAll cs).completions = s.completions ++ killedAtOnce cs ∧ (s.abortAll cs).ledger.up = true ∧
    ∀ i, i ∉ cs.map Cmd.id → (s.abortAll cs).cmdOf i = s.cmdOf i
  | [], _, _, _, hUp => ⟨(List.append_nil _).symm, hUp, fun _ _ => rfl⟩
  | x :: cs, s, hNodup, hOpen, hUp => by
    obtain ⟨hNot, hRest⟩ := List.nodup_cons.mp hNodup
    obtain ⟨hCompletions, hUp1, hOthers⟩ := abortCmd_does (hOpen x List.mem_cons_self) hUp
    have hOpen1 : ∀ y ∈ cs, OpenCmd (s.abortCmd x) y := fun y hy => by
      obtain ⟨hSelf, hLive, hPhase⟩ := hOpen y (List.mem_cons_of_mem _ hy)
      exact ⟨(hOthers y.id fun h => hNot (h ▸ List.mem_map_of_mem hy)).trans hSelf, hLive, hPhase⟩
    obtain ⟨hCompletionsAll, hUpAll, hOthersAll⟩ := abortAll_does cs (s.abortCmd x) hRest hOpen1 hUp1
    refine ⟨?_, hUpAll, fun i hi => ?_⟩
    · have hSplit : killedAtOnce (x :: cs) = killedAtOnce [x] ++ killedAtOnce cs := by
        unfold killedAtOnce
        rw [← List.map_append, ← List.filter_append, List.singleton_append]
      rw [hSplit, ← List.append_assoc, ← hCompletions]
      exact hCompletionsAll
    · obtain ⟨hNe, hMem⟩ := not_or.mp fun h => hi (List.mem_cons.mpr h)
      exact (hOthersAll i hMem).trans (hOthers i hNe)

/-- The engines of other commands stay. -/
theorem abortAll_get_ne {s : State} {e : Fin 8} {cs : List Cmd} (h : ∀ x ∈ cs, s.eng[e].cmd ≠ some x.id) : (s.abortAll cs).eng[e] = s.eng[e] :=
  List.foldlRecOn (motive := fun t : State => t.eng[e] = s.eng[e]) cs _ rfl fun t ht x hx =>
    (abortCmd_get_ne (by rw [ht]; exact h x hx)).trans ht

theorem abortCmd_cmd (s : State) (x : Cmd) (e : Fin 8) : (s.abortCmd x).eng[e].cmd = s.eng[e].cmd := by
  by_cases hRun : x.phase = .running
  · rw [abortCmd_running hRun, ← killCmd_cmd s x.id abortKill e]
    refine List.foldlRecOn (motive := fun t : State => t.eng[e].cmd = (s.killCmd x.id abortKill).eng[e].cmd) _ _ rfl fun t ht j _ => ?_
    by_cases hj : e = j
    · subst hj
      rw [State.modEng_get]
      exact ht
    · rwa [State.modEng_get_ne _ _ _ _ hj]
  · rw [abortCmd_idle hRun, eng_congr (finish_eng s _ _ _ _)]

/-- An engine on which one of the commands runs is being killed: no other command of the list touches it. -/
theorem abortAll_kills {s : State} {x : Cmd} {e : Fin 8} {cs : List Cmd} (hNodup : (cs.map Cmd.id).Nodup) (hx : x ∈ cs) (hRun : x.phase = .running)
    (hCmd : s.eng[e].cmd = some x.id) (h : s.eng[e].state ∈ [.running, .waiting, .halted]) : KilledFor abortKill e (s.abortAll cs) := by
  obtain ⟨before, after, rfl⟩ := List.append_of_mem hx
  rw [List.map_append, List.map_cons, List.nodup_middle, List.nodup_cons, List.mem_append, not_or] at hNodup
  obtain ⟨⟨hBefore, hAfter⟩, -⟩ := hNodup
  have hFirst : (s.abortAll before).eng[e] = s.eng[e] :=
    abortAll_get_ne fun y hy hSame => hBefore (List.mem_map.mpr ⟨y, hy, (Option.some.inj (hCmd.symm.trans hSame)).symm⟩)
  have hKilled : KilledFor abortKill e ((s.abortAll before).abortCmd x) := abortCmd_kills hRun (by rw [hFirst]; exact hCmd) (by rw [hFirst]; exact h)
  have hLast : (((s.abortAll before).abortCmd x).abortAll after).eng[e] = ((s.abortAll before).abortCmd x).eng[e] := by
    refine abortAll_get_ne fun y hy hSame => hAfter (List.mem_map.mpr ⟨y, hy, ?_⟩)
    rw [abortCmd_cmd, hFirst, hCmd] at hSame
    exact (Option.some.inj hSame).symm
  unfold State.abortAll at *
  rw [List.foldl_append, List.foldl_cons]
  unfold KilledFor at *
  rw [hLast]
  exact hKilled

/-- JOB_ABORT of a job with open commands, not in a REALTIME partition. -/
theorem jobAbort_aborts {s : State} {c : Cmd} {j : Job} (hJob : s.jobAt c.part (c.param 0 1) = some j) (hReal : s.isRealtime c.partNo = false)
    (hSome : s.jobCmds j.part j.slot ≠ []) : State.jobAbort c s = (s.abortAll (s.jobCmds j.part j.slot)).finish c.id OK 0 0 := by
  unfold State.jobAbort
  rw [hJob]
  dsimp only
  rw [hReal, if_neg (by decide)]
  split
  · next hNone => exact absurd hNone hSome
  · rfl

/-- The open commands of a job are accepted JOB_CMDs. -/
theorem mem_of_jobCmds {s : State} {p k : Nat} {x : Cmd} (hx : x ∈ s.jobCmds p k) : x ∈ s.cmds ∧ x.op = 0x13 ∧ x.phase ≠ .done := by
  unfold State.jobCmds Cmd.ofJob at hx
  simp only [List.mem_filter, Bool.and_eq_true, decide_eq_true_iff] at hx
  obtain ⟨hMem, ⟨⟨hOp, -⟩, -⟩, hPhase⟩ := hx
  exact ⟨hMem, hOp, hPhase⟩

/-- Settles O36: loading and unloading change the resident jobs beside the outcome; a ready job changes no command; an abort ends the open
commands one by one, and each leaves the others and their engines. -/
theorem jobsAreLoadedUnloadedAndAborted : Obligations.JobsAreLoadedUnloadedAndAborted := by
  intro pair s c
  refine ⟨fun hReady p q s1 hPart hAt hClean => ?_, fun hReady => ⟨fun hPassed => ?_, fun st hFailed => ?_⟩,
    fun hReady j hJob hIdle hCarriers => ?_, fun hReady j hJob hReal hNodup => ?_⟩
  · intro len img j hSlot hPrio hSome hHbm hSig hOk hFree hStreams hAdmit
    have hRegs := regsAndFab_registerAll hStreams
    have hSame : SameCommands s { s1 with jobs := s1.jobs ++ [j] } := (SameCommands.of_regsAndFab hRegs).trans ⟨rfl, rfl, rfl⟩
    obtain ⟨hEnds, l, cs, ks, hForm⟩ := finish_of_sameCommands hReady hSame OK (value := 0) (by decide) (slice c.pkt 16 40)
    obtain ⟨_, _, rfl⟩ := hRegs
    rw [exec_jobLoad, execJobLoad, onCmd_ready hReady, jobLoad_reads hPart hAt hClean hSlot hPrio hSome hHbm,
      jobLoadImage_loads hSig hOk hFree hStreams hAdmit]
    exact ⟨_, rfl, hEnds, (congrArg State.jobs hForm :)⟩
  · have hSame := jobCmd_passed hPassed
    rw [exec_jobCmd, execJobCmd, onCmd_ready hReady]
    refine ⟨_, rfl, ?_, hSame.completions⟩
    rw [cmdOf_congr hSame.cmds]
    exact waits_of_ready hReady rfl
  · rw [exec_jobCmd, execJobCmd, onCmd_ready hReady, jobCmd_failed hFailed]
    exact ⟨_, rfl, ends_of_ready hReady rfl rfl rfl st 0 (by decide)⟩
  · obtain ⟨hEnds, l, cs, ks, hForm⟩ := finish_of_ready hReady OK (value := 0) (by decide) (slice c.pkt 16 1)
    rw [exec_jobUnload, execJobUnload, onCmd_ready hReady, jobUnload_idle hJob hIdle hCarriers]
    refine ⟨_, rfl, ends_of_stores hEnds rfl rfl rfl, find?_filter_not _ _, fun x hx => ?_⟩
    rw [hForm] at hx
    exact (List.mem_filter.mp hx).1
  · intro cs hSome hLive
    have hIds : (cs.map Cmd.id).Nodup := hNodup.sublist (List.filter_sublist.map _)
    have hOpen : ∀ x ∈ cs, OpenCmd s x := fun x hx => by
      obtain ⟨hMem, -, hPhase⟩ := mem_of_jobCmds hx
      exact ⟨cmdOf_of_mem hNodup hMem, hLive x hx, hPhase⟩
    have hOwn : c.id ∉ cs.map Cmd.id := fun h => by
      obtain ⟨x, hx, hId⟩ := List.mem_map.mp h
      have hSelf := (hOpen x hx).self
      rw [hId, hReady.self] at hSelf
      obtain ⟨-, hOp, -⟩ := mem_of_jobCmds hx
      rw [← Option.some.inj hSelf, hReady.op] at hOp
      exact absurd hOp (by decide)
    obtain ⟨hCompletions, hUp, hOthers⟩ := abortAll_does cs s hIds hOpen hReady.up
    obtain ⟨⟨hOne, -⟩, -⟩ := finish_ends OK 0 0 [] ((hOthers c.id hOwn).trans hReady.self) hReady.live (phase_ne_done_of_ready hReady) hUp
    rw [exec_jobAbort, execJobAbort, onCmd_ready hReady, jobAbort_aborts hJob hReal hSome]
    refine ⟨_, rfl, hOne.trans (congrArg (· ++ _) hCompletions), fun x hx hRun e hCmd hState => ?_⟩
    rw [eng_congr (finish_eng _ _ _ _ _)]
    refine abortAll_kills hIds hx hRun hCmd ?_
    rcases hState with h | h <;> rw [h] <;> decide

end Sys2Proof.Machine
end

section
/-! SUPPORT. Write-back and scrubbing: what a block reads as is what its write-back stores, and what a read by the scrubber counts
(R432, R435). -/
namespace Sys2Proof.Machine

/-! ### Code blocks (R430, R442) -/

theorem blockSize_congr (s : State) {a b : Nat} (h : a / 64 = b / 64) : s.blockSize a = s.blockSize b := by
  have hCode : s.memCode a = HBMMEM ↔ s.memCode b = HBMMEM := by rw [region_of_block s a, region_of_block s b, h]
  unfold State.blockSize
  simp only [hCode]

/-- The bytes of a block belong to it. -/
theorem blockOf_add {s : State} {b k : Nat} (hBlock : s.blockOf b = b) (hk : k < s.blockSize b) : s.blockOf (b + k) = b := by
  have hz := blockSize_cases s b
  have hAt : b / s.blockSize b * s.blockSize b = b := hBlock
  have hLine : (b + k) / 64 = b / 64 := by rcases hz with h | h <;> rw [h] at hAt hk <;> omega
  unfold State.blockOf
  rw [blockSize_congr s hLine]
  rcases hz with h | h <;> rw [h] at hAt hk ⊢ <;> omega

/-! ### Write-back (R432) -/

/-- The byte at `a`, stored as `x`, as the verdict over its block `b` corrects it. -/
def Verdict.corrected (v : Verdict) (b a : Nat) (x : Byte) : Byte :=
  match v with
  | .fix k m => if a = b + k then x ^^^ m else x
  | _ => x

theorem Verdict.corrected_fix (k b a : Nat) (m x : Byte) : (Verdict.fix k m).corrected b a x = if a = b + k then x ^^^ m else x := rfl

theorem byte_eq_corrected (s : State) (a : Nat) : s.byte a = (s.eccAt (s.blockOf a)).verdict.corrected (s.blockOf a) a (s.rawByte a) := by
  unfold State.byte
  cases (s.eccAt (s.blockOf a)).verdict <;> rfl

theorem Verdict.corrected_elsewhere {v : Verdict} {b a : Nat} (x : Byte) (h : ∀ k m, v = .fix k m → a ≠ b + k) : v.corrected b a x = x := by
  unfold Verdict.corrected
  split
  · next k m => exact if_neg (h k m rfl)
  · rfl

/-- Mending a block stores what it reads as. -/
theorem rawByte_mend (s : State) (b a : Nat) : (s.mend b).rawByte a = (s.eccAt b).verdict.corrected b a (s.rawByte a) := by
  unfold State.mend
  cases (s.eccAt b).verdict with
  | fix k m =>
    refine (State.rawByte_putByte s (b + k) _ a).trans ?_
    rw [Verdict.corrected_fix]
    by_cases h : a = b + k
    · rw [if_pos h, if_pos h, h]
    · rw [if_neg h, if_neg h]
  | clean | check | uncorr => rfl

theorem mend_form (s : State) (b : Nat) :
    ∃ m, s.mend b = { s with mem := m, ecc := Sparse.set eccClean s.ecc b .clean, writeback := s.writeback.filter (· ≠ b) } := by
  unfold State.mend
  dsimp only
  split <;> exact ⟨_, rfl⟩

theorem eccAt_mend (s : State) (b c : Nat) : (s.mend b).eccAt c = if c = b then .clean else s.eccAt c := by
  obtain ⟨m, h⟩ := mend_form s b
  rw [h]
  exact Sparse.get_set eccClean s.ecc b .clean c

theorem blockOf_mend (s : State) (b a : Nat) : (s.mend b).blockOf a = s.blockOf a := by
  obtain ⟨m, h⟩ := mend_form s b
  rw [h]
  rfl

theorem notMem_writeback_mend (s : State) (b : Nat) : b ∉ (s.mend b).writeback := by
  obtain ⟨m, h⟩ := mend_form s b
  simp [h]

theorem reg_mend (s : State) (b a : Nat) : (s.mend b).reg a = s.reg a := by
  obtain ⟨m, h⟩ := mend_form s b
  rw [h]
  rfl

/-- No byte reads otherwise after its block, or another, is mended. -/
theorem sameBytes_mend {s : State} {b : Nat} (hBlock : s.blockOf b = b)
    (hInside : ∀ k m, (s.eccAt b).verdict = .fix k m → k < s.blockSize b) : SameBytes s (s.mend b) := by
  refine ⟨fun a => ?_, by obtain ⟨m, h⟩ := mend_form s b; rw [h]⟩
  rw [byte_eq_corrected, byte_eq_corrected, blockOf_mend, eccAt_mend, rawByte_mend]
  by_cases h : s.blockOf a = b
  · rw [if_pos h, h]
    rfl
  · have hApart : ∀ k m, (s.eccAt b).verdict = .fix k m → a ≠ b + k := by
      rintro k m hFix rfl
      exact h (blockOf_add hBlock (hInside k m hFix))
    rw [if_neg h, Verdict.corrected_elsewhere _ hApart]

theorem execEccWriteback_mends {s : State} {b : Nat} {rest : List Nat} (h : s.writeback = b :: rest) : execEccWriteback s = .next (s.mend b) := by
  unfold execEccWriteback
  rw [h]

/-! ### Reads of a block (R432, R461) -/

theorem regN_countUp_one (s : State) (a : Nat) : (s.countUp a 1).regN a = min 0xFFFFFFFF (s.regN a + 1) := by
  have hSum : satAdd 0xFFFFFFFF (s.regN a) 1 = min 0xFFFFFFFF (s.regN a + 1) := by unfold satAdd; split <;> omega
  unfold State.countUp
  rw [State.regN_setRegN_eq, hSum]
  omega

/-- A read of a clean block. -/
theorem touch_of_clean {s : State} {b : Nat} (h : s.eccAt b = .clean) : s.touch b = (s, true) := by
  unfold State.touch
  rw [h]
  rfl

/-- Block `b` waits for its write-back, once. -/
def State.queueFix (s : State) (b : Nat) : State :=
  { s with writeback := if b ∈ s.writeback then s.writeback else s.writeback ++ [b] }

theorem mem_writeback_queueFix (s : State) (b : Nat) : b ∈ (s.queueFix b).writeback := by
  unfold State.queueFix
  dsimp only
  split
  · assumption
  · exact List.mem_append_right _ (List.mem_singleton_self b)

theorem regN_queueFix (s : State) (b a : Nat) : (s.queueFix b).regN a = s.regN a := rfl

/-- A read that corrects counts it and queues its write-back. -/
theorem touch_corrects {s : State} {b : Nat} (h : (s.eccAt b).verdict = .check ∨ ∃ k m, (s.eccAt b).verdict = .fix k m) :
    (s.touch b).1 = (s.countUp (key (b / 2 ^ 52) (CTL + 0x10C)) 1).queueFix b := by
  unfold State.touch
  rcases h with h | ⟨k, m, h⟩ <;> simp only [h, State.queueFix]

/-! ### SCRUB_READ (R435) -/

/-- FAB_SCRUB_PASS of unit `u`. -/
def passKey (u : Nat) : Nat := key u (CTL + 0x118)

/-- The scrubber of unit `u` stands at `n.1` from now on; with `n.2` a pass has ended and is counted. -/
def State.scrubTo (s : State) (u : Nat) (n : Nat × Bool) : State :=
  let z : State := { s with scrub := Sparse.set (fun _ => 0) s.scrub u n.1 }
  if n.2 then z.setRegN (passKey u) ((z.regN (passKey u) + 1) % 2 ^ 32) else z

theorem scrubTo_form (s : State) (u : Nat) (n : Nat × Bool) :
    ∃ m, s.scrubTo u n = { s with scrub := Sparse.set (fun _ => 0) s.scrub u n.1, regs := m } := by
  unfold State.scrubTo
  dsimp only
  split <;> exact ⟨_, rfl⟩

theorem sameBytes_scrubTo (s : State) (u : Nat) (n : Nat × Bool) : SameBytes s (s.scrubTo u n) := by
  obtain ⟨m, h⟩ := scrubTo_form s u n
  rw [h]
  exact sameBytes_of rfl rfl rfl rfl

theorem writeback_scrubTo (s : State) (u : Nat) (n : Nat × Bool) : (s.scrubTo u n).writeback = s.writeback := by
  obtain ⟨m, h⟩ := scrubTo_form s u n
  rw [h]

theorem scrub_scrubTo (s : State) (u : Nat) (n : Nat × Bool) : Sparse.get (fun _ => 0) (s.scrubTo u n).scrub u = n.1 := by
  obtain ⟨m, h⟩ := scrubTo_form s u n
  rw [h]
  exact Sparse.get_set_eq _ _ _ _

theorem reg_scrubTo_ne (s : State) (u : Nat) (n : Nat × Bool) {a : Nat} (h : a ≠ passKey u) : (s.scrubTo u n).reg a = s.reg a := by
  unfold State.scrubTo
  dsimp only
  split
  · exact State.reg_setReg_ne _ _ _ _ h
  · rfl

theorem regN_scrubTo_ne (s : State) (u : Nat) (n : Nat × Bool) {a : Nat} (h : a ≠ passKey u) : (s.scrubTo u n).regN a = s.regN a :=
  congrArg BitVec.toNat (reg_scrubTo_ne s u n h)

theorem regN_scrubTo_pass (s : State) (u : Nat) (n : Nat × Bool) :
    (s.scrubTo u n).regN (passKey u) = if n.2 then (s.regN (passKey u) + 1) % 2 ^ 32 else s.regN (passKey u) := by
  unfold State.scrubTo
  dsimp only
  split
  · exact (State.regN_setRegN_eq _ _ _).trans (Nat.mod_mod _ _)
  · rfl

/-- The scrubber of unit `u` reads: it has a rate, and the unit answers and has its register. -/
structure Scrubs (s : State) (u : Nat) : Prop where
  rate : s.fld (key u (CTL + 0x114)) 15 0 ≠ 0
  cause : s.unitCause u 0x60 = 0
  row : (regRow (key u (CTL + 0x114))).isSome = true

section
variable {s : State} {unit : BitVec 8} (h : Scrubs s unit.toNat)
include h

theorem Scrubs.not_disabled :
    ¬ (s.fld (key unit.toNat (CTL + 0x114)) 15 0 = 0 ∨ s.unitCause unit.toNat 0x60 ≠ 0 ∨ regRow (key unit.toNat (CTL + 0x114)) = none) := by
  rintro (hRate | hCause | hRow)
  · exact h.rate hRate
  · exact hCause h.cause
  · exact absurd h.row (by rw [hRow]; decide)

/-- Where the unit's memories have a window, its next block is read. -/
theorem execScrubRead_window (hWindow : sramRanges unit.toNat ≠ []) {o : Nat} (hAt : Sparse.get (fun _ => 0) s.scrub unit.toNat = o) :
    execScrubRead unit s = .next ((s.touch (key unit.toNat o)).1.scrubTo unit.toNat (scrubNext unit.toNat o)) := by
  subst hAt
  unfold execScrubRead
  dsimp only
  rw [if_neg h.not_disabled, if_neg (by simpa using hWindow)]
  rfl

/-- Where they have none, a free bit says whether a pass ends (log 34). -/
theorem execScrubRead_noWindow (hWindow : sramRanges unit.toNat = []) :
    ∃ n < 2, execScrubRead unit s = .next (s.draw.2.setRegN (passKey unit.toNat) ((s.regN (passKey unit.toNat) + n) % 2 ^ 32)) := by
  unfold execScrubRead
  dsimp only
  rw [if_neg h.not_disabled, if_pos (by rw [hWindow]; rfl)]
  exact ⟨_, Nat.mod_lt _ Nat.two_pos, rfl⟩

/-- A read of a clean block moves the scrubber on, and counts the pass that ends (R435). -/
theorem scrubRead_clean (hWindow : sramRanges unit.toNat ≠ []) {o : Nat} (hAt : Sparse.get (fun _ => 0) s.scrub unit.toNat = o)
    (hClean : s.eccAt (key unit.toNat o) = .clean) : execScrubRead unit s = .next (s.scrubTo unit.toNat (scrubNext unit.toNat o)) := by
  rw [execScrubRead_window h hWindow hAt, touch_of_clean hClean]

/-- A read that corrects is counted and its block waits for its write-back (R432, R435). -/
theorem scrubRead_corrects (hWindow : sramRanges unit.toNat ≠ []) {o : Nat} (hAt : Sparse.get (fun _ => 0) s.scrub unit.toNat = o)
    (hLow : o < 2 ^ 52) (hBad : (s.eccAt (key unit.toNat o)).verdict = .check ∨ ∃ k m, (s.eccAt (key unit.toNat o)).verdict = .fix k m) :
    ∃ t, execScrubRead unit s = .next t ∧ SameBytes s t ∧ key unit.toNat o ∈ t.writeback ∧
      t.regN (key unit.toNat (CTL + 0x10C)) = min 0xFFFFFFFF (s.regN (key unit.toNat (CTL + 0x10C)) + 1) := by
  have hTouch := touch_same s (key unit.toNat o)
  have hUnit : key unit.toNat o / 2 ^ 52 = unit.toNat := by unfold key; omega
  have hApart : key unit.toNat (CTL + 0x10C) ≠ passKey unit.toNat := key_ne_key _ (by decide)
  have hCounted := touch_corrects hBad
  rw [hUnit] at hCounted
  refine ⟨_, execScrubRead_window h hWindow hAt,
    (sameBytes_of hTouch.mem hTouch.ecc hTouch.fuse hTouch.host).trans (sameBytes_scrubTo _ _ _), ?_, ?_⟩
  · rw [writeback_scrubTo, hCounted]
    exact mem_writeback_queueFix _ _
  · rw [regN_scrubTo_ne _ _ _ hApart, hCounted, regN_queueFix, regN_countUp_one]

/-- Where the unit's memories have no window, only the count of passes may change, by one (R435). -/
theorem scrubRead_noWindow (hWindow : sramRanges unit.toNat = []) :
    ∃ t, execScrubRead unit s = .next t ∧ SameBytes s t ∧ (∀ a, a ≠ passKey unit.toNat → t.reg a = s.reg a) ∧
      (t.regN (passKey unit.toNat) = s.regN (passKey unit.toNat) ∨ t.regN (passKey unit.toNat) = (s.regN (passKey unit.toNat) + 1) % 2 ^ 32) := by
  obtain ⟨n, hn, hExec⟩ := execScrubRead_noWindow h hWindow
  refine ⟨_, hExec, (sameBytes_of rfl rfl rfl rfl : SameBytes s s.draw.2).trans (sameBytes_setRegN _ _ _),
    fun a ha => State.reg_setReg_ne s.draw.2 _ _ _ ha, ?_⟩
  have hLt := s.regN_lt (passKey unit.toNat)
  rw [State.regN_setRegN_eq]
  omega

end

end Sys2Proof.Machine
end

section
/-! SUPPORT. Refresh with its patrol, armed injections, and retries of the UCIe link (R444, R445, R447, R448, R461). -/
namespace Sys2Proof.Machine

/-! ### HBM_REFRESH (R444, R445) -/

/-- Without bad bits the patrol's reads change nothing. -/
theorem patrol_of_clean {s : State} (h : s.clean) (ls : List Nat) :
    ls.foldl (fun t l => State.touchEach t (key 0x40 (l * 256)) 256) s = s := by
  have hEach : ∀ l, s.touchEach (key 0x40 (l * 256)) 256 = s := fun l => by
    unfold State.touchEach
    rw [dirty_of_clean h]
    rfl
  induction ls with
  | nil => rfl
  | cons l ls ih => rw [List.foldl_cons, hEach l, ih]

/-- A refresh slot of a stack that is present and awake, where no block is bad. -/
theorem execHbmRefresh_of_clean {s : State} {st : Fin 4} (hPresent : s.fuse.gradeA = true ∨ st.val < 2) (hUp : s.computeUp = true)
    (hAwake : s.power.dIdle = false) (hClean : s.clean) :
    execHbmRefresh st s = .next
      { s with patrol := Sparse.set (fun _ => 0) s.patrol st.val ((Sparse.get (fun _ => 0) s.patrol st.val + 1) % (24576 * 128)) } := by
  have hRuns : ¬ ((s.fuse.gradeA = false ∧ 2 ≤ st.val) ∨ s.computeUp = false ∨
      (s.power.dIdle && !(s.power.hbmAwake.any fun x => decide (x.1 = st.val))) = true) := by
    rcases hPresent with h | h <;> simp [hUp, hAwake, h]
  unfold execHbmRefresh
  dsimp only
  rw [if_neg hRuns, patrol_of_clean hClean]

/-! ### ECC_INJ_ARM (R461) -/

theorem unitRuns_reach (s : State) (u w : Nat) : (s.reach u).unitRuns w = s.unitRuns w := by
  have hCmd : ∀ e : Fin 8, (s.reach u).eng[e].cmd = s.eng[e].cmd := fun e => by
    unfold State.reach
    split
    · next f _ =>
      by_cases h : e = f
      · subst h
        rw [wakeEng_get]
      · exact congrArg Engine.cmd (State.modEng_get_ne s f e _ h)
    · rfl
  have hFacet : ∀ k, (s.reach u).fct k = s.fct k := fun k => by
    unfold State.reach
    split <;> rfl
  unfold State.unitRuns
  split
  · split
    · exact congrArg Option.isSome (hCmd _)
    · rfl
  · rw [hFacet]
  · rfl

theorem reg_reach (s : State) (u a : Nat) : (s.reach u).reg a = s.reg a := by
  unfold State.reach
  split <;> rfl

/-- A write with ARM to a unit without a running command, for one of its memories, leaves the value written. -/
theorem injWrite_arms {s : State} {u v : Nat} (hArm : bit v 3 = true) (hMem : bits v 15 8 ∈ memsOf u) (hIdle : s.unitRuns u = false) :
    s.injWrite u v = s.setRegN (key u (CTL + 0x11C)) (setBits v 3 3 1) := by
  unfold State.injWrite
  dsimp only
  rw [if_pos (.inr ⟨hArm, hMem, hIdle⟩)]

/-- Two settings of ARM leave it set and the other fields as they were written (Table 16.7). -/
theorem armed_fields (v : Reg32) :
    let x := setBits (setBits v.toNat 3 3 1) 3 3 1 % 2 ^ 32
    bits x 3 3 = 1 ∧ bits x 2 0 = bits v.toNat 2 0 ∧ bits x 15 8 = bits v.toNat 15 8 := by
  intro x
  have hx : x = setBits (setBits v.toNat 3 3 1) 3 3 1 :=
    Nat.mod_eq_of_lt (setBits_lt _ _ _ _ (by decide) (by decide) (setBits_lt _ _ _ _ (by decide) (by decide) v.isLt))
  rw [hx]
  exact ⟨bits_setBits_eq _ _ _ _ (by decide),
    (bits_setBits_ne _ _ _ _ _ _ (by decide) (by decide)).trans (bits_setBits_ne _ _ _ _ _ _ (by decide) (by decide)),
    (bits_setBits_ne _ _ _ _ _ _ (by decide) (by decide)).trans (bits_setBits_ne _ _ _ _ _ _ (by decide) (by decide))⟩

/-- ARM, and the written pattern and memory, stand in the register. -/
theorem eccInjArm_arms {s : State} {unit : BitVec 8} {v : Reg32} (hRow : (regRow (key unit.toNat (CTL + 0x11C))).isSome = true)
    (hCause : s.unitCause unit.toNat 0x60 = 0) (hIdle : s.unitRuns unit.toNat = false) (hMem : bits v.toNat 15 8 ∈ memsOf unit.toNat) :
    execEccInjArm 0x60 unit v s = .next ((s.reach unit.toNat).setRegN (key unit.toNat (CTL + 0x11C)) (setBits (setBits v.toNat 3 3 1) 3 3 1)) := by
  have hArm : bit (setBits v.toNat 3 3 1) 3 = true := testBit_setBits v.toNat 3 3 1 3 (Nat.le_refl 3)
  have hSame : bits (setBits v.toNat 3 3 1) 15 8 = bits v.toNat 15 8 := bits_setBits_ne _ _ _ _ _ _ (by decide) (by decide)
  unfold execEccInjArm
  dsimp only
  rw [if_neg (by intro h; rw [h] at hRow; cases hRow), anchorReg_anchor s _ _ _ hCause,
    injWrite_arms hArm (hSame ▸ hMem) ((unitRuns_reach s _ _).trans hIdle)]

/-! ### The UCIe link (R447, R448) -/

theorem execUcieRetrain_begins {s : State} (hRuns : s.ucie.retraining = false) (hMany : 8 < s.ucie.retries.length) :
    execUcieRetrain s = .next (({ s with ucie := ⟨[], true⟩ } : State).event (Config.eventStatus 1) 0x60 0) := by
  unfold execUcieRetrain
  rw [if_neg (by rw [hRuns]; simpa using hMany)]

/-- A retrain that ends well leaves the link running. -/
theorem execUcieRetrainEnd_well {s : State} (tests : Tests) (h : s.ucie.retraining = true) :
    execUcieRetrainEnd true tests s = .next { s with ucie := ⟨[], false⟩ } := by
  unfold execUcieRetrainEnd
  dsimp only
  rw [if_neg (by rw [h]; decide), if_pos (.inl rfl)]

/-- Settles O53: a write-back stores what its block reads as, so no byte changes; a read by the scrubber or the patrol changes no byte, and
the rest is the register or the list that each names. -/
theorem integrityEnginesCorrectAndCount : Obligations.IntegrityEnginesCorrectAndCount := by
  intro s
  refine ⟨fun b rest hQueue hBlock hInside => ?_, ?_, fun st hPresent hUp hAwake hClean => ?_,
    ?_, fun ns => ?_, fun hRuns hMany => ?_, fun hNone => ?_, fun tests hRetrains => ?_⟩
  · rw [exec_eccWriteback, execEccWriteback_mends hQueue]
    exact ⟨_, rfl, by rw [eccAt_mend, if_pos rfl], sameBytes_mend hBlock hInside, notMem_writeback_mend s b, reg_mend s b⟩
  · intro unit u pass o hRate hCause hRow
    have hScrubs : Scrubs s u := ⟨hRate, hCause, hRow⟩
    rw [exec_scrubRead]
    refine ⟨fun hWindow hClean => ?_, fun hWindow hLow hBad => scrubRead_corrects hScrubs hWindow rfl hLow hBad,
      fun hWindow => scrubRead_noWindow hScrubs hWindow⟩
    exact ⟨_, scrubRead_clean hScrubs hWindow rfl hClean, sameBytes_scrubTo _ _ _, scrub_scrubTo _ _ _, fun a ha => reg_scrubTo_ne _ _ _ ha,
      regN_scrubTo_pass _ _ _⟩
  · rw [exec_hbmRefresh, execHbmRefresh_of_clean hPresent hUp hAwake hClean]
    exact ⟨_, rfl, sameBytes_of rfl rfl rfl rfl, fun _ => rfl, Sparse.get_set_eq _ _ _ _⟩
  · intro unit v u k hRow hCause hIdle hMem
    obtain ⟨hArm, hPattern, hMemory⟩ := armed_fields v
    rw [exec_eccInjArm, eccInjArm_arms hRow hCause hIdle hMem]
    refine ⟨_, rfl, (State.fld_setRegN_eq _ _ _ _ _).trans hArm, (State.fld_setRegN_eq _ _ _ _ _).trans hPattern,
      (State.fld_setRegN_eq _ _ _ _ _).trans hMemory, (sameBytes_reach s u).trans (sameBytes_setRegN _ _ _), fun a ha => ?_⟩
    exact (State.reg_setReg_ne _ _ _ _ ha).trans (reg_reach s u a)
  · refine ⟨_, exec_ucieRetry ns s, ?_, rfl, rfl⟩
    exact Nat.max_eq_right (Nat.le_add_right _ _)
  · exact ⟨_, _, (exec_ucieRetrain s).trans (execUcieRetrain_begins hRuns hMany), rfl,
      (sameBytes_of rfl rfl rfl rfl : SameBytes s { s with ucie := ⟨[], true⟩ }).trans (sameBytes_event _ _ _ _), rfl⟩
  · exact (exec_ucieRetrain s).trans (if_pos hNone)
  · exact (exec_ucieRetrainEnd true tests s).trans (execUcieRetrainEnd_well tests hRetrains)

end Sys2Proof.Machine
end
